-- ==== Sys2Proof/Word.lean ====
section
/-! DEFINITION. The word types and the plainest list maps that every other file uses. -/

namespace Sys2Proof

/-- A byte of memory. -/
abbrev Byte := BitVec 8

/-- A 64-bit register value or register image (R23, R35). -/
abbrev Word := BitVec 64

/-- A sparse table: key and value pairs, keys strictly rising when built by `Table.set`. -/
abbrev Table (α : Type) := List (Nat × α)

/-- The entry of key `k`, if the table lists one. -/
def Table.get? {α : Type} : Table α → Nat → Option α
  | [], _ => none
  | (j, x) :: rest, k => if j = k then some x else Table.get? rest k

/-- The entry of key `k`, or `dflt` where the table lists none. -/
def Table.getD {α : Type} (t : Table α) (k : Nat) (dflt : α) : α := (Table.get? t k).getD dflt

/-- The table with the entry of key `k` set to `x`. -/
def Table.set {α : Type} : Table α → Nat → α → Table α
  | [], k, x => [(k, x)]
  | (j, y) :: rest, k, x =>
    if k < j then (k, x) :: (j, y) :: rest
    else if k = j then (k, x) :: rest
    else (j, y) :: Table.set rest k x

/-- The table without an entry of key `k`. -/
def Table.erase {α : Type} : Table α → Nat → Table α
  | [], _ => []
  | (j, y) :: rest, k => if k = j then Table.erase rest k else (j, y) :: Table.erase rest k

/-- A set of numbers held as a rising list without repeats. -/
abbrev NatSet := List Nat

/-- Put `k` into the set. -/
def NatSet.insert : NatSet → Nat → NatSet
  | [], k => [k]
  | j :: rest, k => if k < j then k :: j :: rest else if k = j then j :: rest else j :: NatSet.insert rest k

/-- Take `k` out of the set. -/
def NatSet.remove : NatSet → Nat → NatSet
  | [], _ => []
  | j :: rest, k => if k = j then NatSet.remove rest k else j :: NatSet.remove rest k

/-- Is `k` in the set? -/
def NatSet.has : NatSet → Nat → Bool
  | [], _ => false
  | j :: rest, k => if j = k then true else NatSet.has rest k

end Sys2Proof
end

