-- ==== Sys2Proof/Config.lean ====
section
/-! DEFINITION. What the spec leaves open: each constant below is a free value, an opaque constant without a body, so
no proof can see which value it has. -/

namespace Sys2Proof.Config

/-- The FP32 result of a special function where R164 lists none as exact (R163): code 0 to 5 and the FP32 operand. -/
opaque special (code : Nat) (x : BitVec 32) : BitVec 32

/-- The host's time H_host of an access, measured at the link (R410), by use. -/
opaque hostDelay : Nat → Nat

/-- How long an operation takes whose duration the spec only bounds (R292, R352, R375, R378, R383, R408, R434), by
use. -/
opaque delay : Nat → Nat

/-- The sets of taps at which each lane of an HBM channel passes (R419, R422): slice, lane, path (0 read, 1 write) and
tap. -/
opaque lanePasses (slice lane path tap : Nat) : Bool

/-- BOOTID, drawn at random (R430), by use. -/
opaque random : Nat → BitVec 64

/-- An RSA key pair as RFC 8017 defines it, of a 4,096-bit modulus and the public exponent 65,537 (R428): the distinct odd
primes whose product is the modulus, and the private exponent. -/
structure RsaKey where
  primes : List Nat
  exponent : Nat
  several : 2 ≤ primes.length
  prime : ∀ p ∈ primes, p.Prime ∧ p ≠ 2
  distinct : primes.Nodup
  size : 2 ^ 4095 ≤ primes.prod ∧ primes.prod < 2 ^ 4096
  small : exponent < primes.prod
  inverse : ∀ p ∈ primes, 65537 * exponent % (p - 1) = 1

/-- A key pair that the module generates (R430, R431), by use: any that there is. -/
opaque keyPair [Inhabited RsaKey] : Nat → RsaKey

/-- What the fuses hold of the vendor root key (R429). -/
opaque rootDigest : BitVec 512

/-- The PTP time stamps and measured rate corrections that the supervisor derives from an offset (R397, R398). -/
opaque slew (offset rate : BitVec 16) : BitVec 16

end Sys2Proof.Config
end

