-- ==== Sys2Proof/Syntax.lean ====
section
/-! DEFINITION. The syntax of the device: one constructor for each row of the opcode table.

The first part holds the 208 encoded instructions of chapter 02; a field keeps the width the encoding gives it
and the letter the opcode table gives it (`g` the guard, `d` the destination, `a` and `b` the sources, `t` the lane
type T, `r` the rounding qualifier RQ, `h` a channel end). The second part holds the 142 events of the device that
have no encoding (95); an event's operands stand in the record `Operands`, which the machine keeps beside the event:
they name the core, slot, packet, block, slice, partition or port it happens at, or carry the data that comes from
outside the device, and each event's comment says which field is which. -/

namespace Sys2Proof

/-- The operands of an event: numbers, words, a wide datum and a flag. -/
structure Operands where
  a : Nat
  b : Nat
  c : Nat
  d : Nat
  w : BitVec 64
  w1 : BitVec 64
  x : BitVec 512
  flag : Bool
  /-- Bytes that the supervisor is given (R429). -/
  bytes : List (BitVec 8) := []
  deriving DecidableEq, Repr

/-- No operands. -/
def Operands.none : Operands := { a := 0, b := 0, c := 0, d := 0, w := 0#64, w1 := 0#64, x := 0#512, flag := false }

/-- Up to four numbers. -/
def args (a : Nat) (b : Nat := 0) (c : Nat := 0) (d : Nat := 0) : Operands :=
  { Operands.none with a := a, b := b, c := c, d := d }

/-- One row of the opcode table per constructor. -/
inductive Instr where
  /-- ADD (R106). Adds two general registers modulo 2^64 into cD. -/
  | add (g : BitVec 3) (d a b : BitVec 5)
  /-- SUB (R106). Subtracts cB from cA modulo 2^64 into cD. -/
  | sub (g : BitVec 3) (d a b : BitVec 5)
  /-- AND (R106). Bitwise AND of two registers. -/
  | and (g : BitVec 3) (d a b : BitVec 5)
  /-- OR (R106). Bitwise OR of two registers. -/
  | or (g : BitVec 3) (d a b : BitVec 5)
  /-- XOR (R106). Bitwise XOR of two registers. -/
  | xor (g : BitVec 3) (d a b : BitVec 5)
  /-- SHL (R106). Shifts cA left by cB[5:0]. -/
  | shl (g : BitVec 3) (d a b : BitVec 5)
  /-- SHR (R106). Logical right shift of cA by cB[5:0]. -/
  | shr (g : BitVec 3) (d a b : BitVec 5)
  /-- SAR (R106). Arithmetic right shift of cA by cB[5:0]. -/
  | sar (g : BitVec 3) (d a b : BitVec 5)
  /-- MUL (R106). Low 64 bits of the product. -/
  | mul (g : BitVec 3) (d a b : BitVec 5)
  /-- MULH (R106). High 64 bits of the signed product. -/
  | mulh (g : BitVec 3) (d a b : BitVec 5)
  /-- MULHZ (R106). High 64 bits of the unsigned product. -/
  | mulhz (g : BitVec 3) (d a b : BitVec 5)
  /-- DIV (R107). Signed division truncating toward zero, without trapping. -/
  | div (g : BitVec 3) (d a b : BitVec 5)
  /-- DIVZ (R107). Unsigned division. -/
  | divz (g : BitVec 3) (d a b : BitVec 5)
  /-- REM (R107). Signed remainder with the sign of the dividend. -/
  | rem (g : BitVec 3) (d a b : BitVec 5)
  /-- REMZ (R107). Unsigned remainder. -/
  | remz (g : BitVec 3) (d a b : BitVec 5)
  /-- MIN (R106). Signed minimum of two registers. -/
  | min (g : BitVec 3) (d a b : BitVec 5)
  /-- MAX (R106). Signed maximum of two registers. -/
  | max (g : BitVec 3) (d a b : BitVec 5)
  /-- MINZ (R106). Unsigned minimum of two registers. -/
  | minz (g : BitVec 3) (d a b : BitVec 5)
  /-- MAXZ (R106). Unsigned maximum of two registers. -/
  | maxz (g : BitVec 3) (d a b : BitVec 5)
  /-- CLM (R106). Low 64 bits of the carry-less product. -/
  | clm (g : BitVec 3) (d a b : BitVec 5)
  /-- CLMH (R106). High 64 bits of the carry-less product. -/
  | clmh (g : BitVec 3) (d a b : BitVec 5)
  /-- CLZ (R106). Counts the leading zero bits of cA. -/
  | clz (g : BitVec 3) (d a : BitVec 5)
  /-- CTZ (R106). Counts the trailing zero bits of cA. -/
  | ctz (g : BitVec 3) (d a : BitVec 5)
  /-- PCNT (R106). Counts the one bits of cA. -/
  | pcnt (g : BitVec 3) (d a : BitVec 5)
  /-- BSWP (R106). Reverses the bytes of cA. -/
  | bswp (g : BitVec 3) (d a : BitVec 5)
  /-- MOV (R106). Copies the integer value of cA. -/
  | mov (g : BitVec 3) (d a : BitVec 5)
  /-- SEXT_8 (R106). Sign-extends cA[7:0]. -/
  | sext8 (g : BitVec 3) (d a : BitVec 5)
  /-- SEXT_16 (R106). Sign-extends cA[15:0]. -/
  | sext16 (g : BitVec 3) (d a : BitVec 5)
  /-- SEXT_32 (R106). Sign-extends cA[31:0]. -/
  | sext32 (g : BitVec 3) (d a : BitVec 5)
  /-- ZEXT_8 (R106). Zero-extends cA[7:0]. -/
  | zext8 (g : BitVec 3) (d a : BitVec 5)
  /-- ZEXT_16 (R106). Zero-extends cA[15:0]. -/
  | zext16 (g : BitVec 3) (d a : BitVec 5)
  /-- ZEXT_32 (R106). Zero-extends cA[31:0]. -/
  | zext32 (g : BitVec 3) (d a : BitVec 5)
  /-- SEL (R106). Selects cA or cB according to a predicate. -/
  | sel (g : BitVec 3) (d : BitVec 5) (p : BitVec 3) (a b : BitVec 5)
  /-- SHLI (R106). Shifts left by an immediate amount. -/
  | shli (g : BitVec 3) (d a : BitVec 5) (n : BitVec 6)
  /-- SHRI (R106). Shifts right logically by an immediate amount. -/
  | shri (g : BitVec 3) (d a : BitVec 5) (n : BitVec 6)
  /-- SARI (R106). Shifts right arithmetically by an immediate amount. -/
  | sari (g : BitVec 3) (d a : BitVec 5) (n : BitVec 6)
  /-- NOP (R125). 32-bit no-operation. -/
  | nop
  /-- ADDI (R108). Adds a sign-extended 12-bit immediate. -/
  | addi (g : BitVec 3) (d a : BitVec 5) (i : BitVec 12)
  /-- ANDI (R108). ANDs with a sign-extended 12-bit immediate. -/
  | andi (g : BitVec 3) (d a : BitVec 5) (i : BitVec 12)
  /-- ORI (R108). ORs with a sign-extended 12-bit immediate. -/
  | ori (g : BitVec 3) (d a : BitVec 5) (i : BitVec 12)
  /-- XORI (R108). XORs with a sign-extended 12-bit immediate. -/
  | xori (g : BitVec 3) (d a : BitVec 5) (i : BitVec 12)
  /-- LHI (R109). Loads a 17-bit immediate shifted left by 12. -/
  | lhi (g : BitVec 3) (d : BitVec 5) (i : BitVec 17)
  /-- BFX (R110). Extracts a bit field, zero-extended. -/
  | bfx (g : BitVec 3) (d a : BitVec 5) (o l : BitVec 6)
  /-- BFI (R110). Inserts a bit field into cD. -/
  | bfi (g : BitVec 3) (d a : BitVec 5) (o l : BitVec 6)
  /-- CBND (R114). Narrows a capability's bounds. -/
  | cbnd (g : BitVec 3) (d a b : BitVec 5)
  /-- CPRM (R115). Removes permissions from a capability. -/
  | cprm (g : BitVec 3) (d a b : BitVec 5)
  /-- CGET (R116). Reads a capability field chosen by a selector. -/
  | cget (g : BitVec 3) (d a s : BitVec 5)
  /-- CFRZ (R117). Waits for outstanding far writes, then sends a freeze request and turns an exclusive pan into a frozen one. -/
  | cfrz (g : BitVec 3) (d a : BitVec 5)
  /-- CMV (R118). Moves a whole register, including a capability. -/
  | cmv (g : BitVec 3) (d a : BitVec 5)
  /-- CTST (R119). Tests the tag and in-bounds state of a register. -/
  | ctst (g : BitVec 3) (d a : BitVec 5)
  /-- CADD (R120). Moves a capability's address by a register offset. -/
  | cadd (g : BitVec 3) (d a b : BitVec 5)
  /-- CMINT (R121). Builds a capability from integers in Partition or Machine mode. -/
  | cmint (g : BitVec 3) (d a b : BitVec 5)
  /-- CADD_IMM (R120). Moves a capability's address by an immediate offset. -/
  | caddImm (g : BitVec 3) (d a : BitVec 5) (i : BitVec 12)
  /-- CMP (R122). Compares two registers and writes two predicates by combining type. -/
  | cmp (g p q t c : BitVec 3) (a b : BitVec 5)
  /-- CMPI (R122). Compares a register with a 5-bit immediate and writes two predicates. -/
  | cmpi (g p q t c : BitVec 3) (a i : BitVec 5)
  /-- FCMP (R123). Compares two FP32 values and writes two predicates. -/
  | fcmp (g p q t c : BitVec 3) (a b : BitVec 5)
  /-- PCMB (R124). Combines two predicates and writes two predicates. -/
  | pcmb (g p q t c a b : BitVec 3)
  /-- BR (R125). Guarded relative branch. -/
  | br (g : BitVec 3) (o : BitVec 22)
  /-- J (R125). Unguarded relative jump with a 25-bit offset. -/
  | j (o : BitVec 25)
  /-- JAL (R125). Calls: writes the link to c1, marks DEADSET and jumps. -/
  | jal (g : BitVec 3) (o : BitVec 22)
  /-- JR (R125). Jumps to a register address, optionally linking. -/
  | jr (g : BitVec 3) (d a : BitVec 5)
  /-- RET (R125). Marks DEADSET and returns to a register address. -/
  | ret (g : BitVec 3) (a : BitVec 5)
  /-- REP (R128). Captures and repeats the next LEN instructions with an optional field stagger. -/
  | rep (g t : BitVec 3) (c : BitVec 10) (l s : BitVec 4) (r : BitVec 1)
  /-- LXI (R111). Writes one halfword of an extension register. -/
  | lxi (g e : BitVec 3) (k : BitVec 2) (i : BitVec 16)
  /-- LXI_Z (R111). Writes one halfword of an extension register and clears the rest. -/
  | lxiZ (g e : BitVec 3) (k : BitVec 2) (i : BitVec 16)
  /-- MVX_TO_E (R112). Moves a register's value into an extension register. -/
  | mvxToE (g d : BitVec 3) (a : BitVec 5)
  /-- MVX_FROM_E (R112). Moves an extension register into a general register. -/
  | mvxFromE (g : BitVec 3) (d : BitVec 5) (a : BitVec 3)
  /-- LD (R135). Scalar load through a capability, local or far. -/
  | ld (g : BitVec 3) (d a : BitVec 5) (o : BitVec 9) (s : BitVec 3)
  /-- ST (R135). Scalar store through a capability, local or far. -/
  | st (g : BitVec 3) (d a : BitVec 5) (o : BitVec 9) (s : BitVec 3)
  /-- LD_F (R137). Waits for a granule to be full, then loads it. -/
  | ldF (g : BitVec 3) (d a : BitVec 5) (o : BitVec 8) (s : BitVec 3)
  /-- LD_FC (R137). Waits for a granule to be full, loads it and marks it empty. -/
  | ldFc (g : BitVec 3) (d a : BitVec 5) (o : BitVec 8) (s : BitVec 3)
  /-- ST_E (R137). Waits for a granule to be empty, stores and marks it full. -/
  | stE (g : BitVec 3) (d a : BitVec 5) (o : BitVec 9) (s : BitVec 3)
  /-- LDC (R138). Loads one granule, with its tag, as a capability. -/
  | ldc (g : BitVec 3) (d a : BitVec 5) (o : BitVec 9)
  /-- STC (R139). Stores a register and its tag into one granule. -/
  | stc (g : BitVec 3) (d a : BitVec 5) (o : BitVec 9)
  /-- VLD (R140). Loads 64 bytes into a vector register. -/
  | vld (g : BitVec 3) (d : BitVec 4) (a : BitVec 5) (o : BitVec 9)
  /-- VST (R140). Stores a vector register to 64 bytes. -/
  | vst (g : BitVec 3) (d : BitVec 4) (a : BitVec 5) (o : BitVec 9)
  /-- VLDS (R141). Strided vector load. -/
  | vlds (g : BitVec 3) (d : BitVec 4) (a b : BitVec 5) (w : BitVec 2)
  /-- VSTS (R141). Strided vector store. -/
  | vsts (g : BitVec 3) (d : BitVec 4) (a b : BitVec 5) (w : BitVec 2)
  /-- VLDG (R141). Gathered vector load. -/
  | vldg (g : BitVec 3) (d : BitVec 4) (a : BitVec 5) (b : BitVec 4) (w : BitVec 2)
  /-- VSTX (R141). Scattered vector store. -/
  | vstx (g : BitVec 3) (d : BitVec 4) (a : BitVec 5) (b : BitVec 4) (w : BitVec 2)
  /-- PUSHM (R144). Pushes a range of registers onto the hardware stack. -/
  | pushm (g : BitVec 3) (d a : BitVec 5)
  /-- POPM (R144). Pops a range of registers from the hardware stack. -/
  | popm (g : BitVec 3) (d a : BitVec 5)
  /-- FENCE_FAR (R145). Waits until every earlier far access of the strand has replied. -/
  | fenceFar (g : BitVec 3)
  /-- FENCE_ENG (R145). Waits until the strand's earlier engine jobs end. -/
  | fenceEng (g : BitVec 3)
  /-- FENCE_CORE (R145). Waits until every earlier far access of the core has replied. -/
  | fenceCore (g : BitVec 3)
  /-- AMO_ADD (R146). Atomic add returning the old value. -/
  | amoAdd (g : BitVec 3) (d a b : BitVec 5) (w : BitVec 1)
  /-- AMO_AND (R146). Atomic AND returning the old value. -/
  | amoAnd (g : BitVec 3) (d a b : BitVec 5) (w : BitVec 1)
  /-- AMO_OR (R146). Atomic OR returning the old value. -/
  | amoOr (g : BitVec 3) (d a b : BitVec 5) (w : BitVec 1)
  /-- AMO_XOR (R146). Atomic XOR returning the old value. -/
  | amoXor (g : BitVec 3) (d a b : BitVec 5) (w : BitVec 1)
  /-- AMO_MIN (R146). Atomic signed minimum. -/
  | amoMin (g : BitVec 3) (d a b : BitVec 5) (w : BitVec 1)
  /-- AMO_MAX (R146). Atomic signed maximum. -/
  | amoMax (g : BitVec 3) (d a b : BitVec 5) (w : BitVec 1)
  /-- AMO_MINZ (R146). Atomic unsigned minimum. -/
  | amoMinz (g : BitVec 3) (d a b : BitVec 5) (w : BitVec 1)
  /-- AMO_MAXZ (R146). Atomic unsigned maximum. -/
  | amoMaxz (g : BitVec 3) (d a b : BitVec 5) (w : BitVec 1)
  /-- AMO_SWP (R146). Atomic swap. -/
  | amoSwp (g : BitVec 3) (d a b : BitVec 5) (w : BitVec 1)
  /-- AMO_CAS (R146). Atomic compare-and-swap against cD. -/
  | amoCas (g : BitVec 3) (d a b : BitVec 5) (w : BitVec 1)
  /-- VAMO_ADD (R148). Element-wise atomic add over 32 bytes. -/
  | vamoAdd (g : BitVec 3) (d : BitVec 4) (a : BitVec 5) (b : BitVec 4) (w : BitVec 1)
  /-- VAMO_AND (R148). Element-wise atomic AND over 32 bytes. -/
  | vamoAnd (g : BitVec 3) (d : BitVec 4) (a : BitVec 5) (b : BitVec 4) (w : BitVec 1)
  /-- VAMO_OR (R148). Element-wise atomic OR over 32 bytes. -/
  | vamoOr (g : BitVec 3) (d : BitVec 4) (a : BitVec 5) (b : BitVec 4) (w : BitVec 1)
  /-- VAMO_XOR (R148). Element-wise atomic XOR over 32 bytes. -/
  | vamoXor (g : BitVec 3) (d : BitVec 4) (a : BitVec 5) (b : BitVec 4) (w : BitVec 1)
  /-- VAMO_MIN (R148). Element-wise atomic signed minimum. -/
  | vamoMin (g : BitVec 3) (d : BitVec 4) (a : BitVec 5) (b : BitVec 4) (w : BitVec 1)
  /-- VAMO_MAX (R148). Element-wise atomic signed maximum. -/
  | vamoMax (g : BitVec 3) (d : BitVec 4) (a : BitVec 5) (b : BitVec 4) (w : BitVec 1)
  /-- VAMO_MINZ (R148). Element-wise atomic unsigned minimum. -/
  | vamoMinz (g : BitVec 3) (d : BitVec 4) (a : BitVec 5) (b : BitVec 4) (w : BitVec 1)
  /-- VAMO_MAXZ (R148). Element-wise atomic unsigned maximum. -/
  | vamoMaxz (g : BitVec 3) (d : BitVec 4) (a : BitVec 5) (b : BitVec 4) (w : BitVec 1)
  /-- VAMO_SWP (R148). Element-wise atomic swap. -/
  | vamoSwp (g : BitVec 3) (d : BitVec 4) (a : BitVec 5) (b : BitVec 4) (w : BitVec 1)
  /-- ACC (R149). Adds the lanes of vB into consecutive elements of an accumulate pan. -/
  | acc (g : BitVec 3) (a : BitVec 5) (b : BitVec 4) (l f : BitVec 2)
  /-- MACC_MX8 (R152). Adds one MXFP8 block into an MX record. -/
  | maccMx8 (g : BitVec 3) (d a : BitVec 5) (b : BitVec 4)
  /-- MACC_MX4 (R152). Adds one MXFP4 block into an MX record. -/
  | maccMx4 (g : BitVec 3) (d a : BitVec 5) (b : BitVec 4)
  /-- SEAL (R154). Ends a contributor's contributions or completes an accumulate pan. -/
  | seal (g : BitVec 3) (a : BitVec 5) (k : BitVec 1) (f : BitVec 2)
  /-- FE_SET (R155). Sets the full/empty bits of a granule range. -/
  | feSet (g : BitVec 3) (a b : BitVec 5)
  /-- FE_CLR (R155). Clears the full/empty bits of a granule range. -/
  | feClr (g : BitVec 3) (a b : BitVec 5)
  /-- VADD (R161). Floating lane-wise add. -/
  | vadd (g : BitVec 3) (d : BitVec 4) (t : BitVec 3) (a b : BitVec 4) (r : BitVec 3)
  /-- VSUB (R161). Floating lane-wise subtract. -/
  | vsub (g : BitVec 3) (d : BitVec 4) (t : BitVec 3) (a b : BitVec 4) (r : BitVec 3)
  /-- VMUL (R161). Floating lane-wise multiply. -/
  | vmul (g : BitVec 3) (d : BitVec 4) (t : BitVec 3) (a b : BitVec 4) (r : BitVec 3)
  /-- VMIN (R161). Lane-wise minimum. -/
  | vmin (g : BitVec 3) (d : BitVec 4) (t : BitVec 3) (a b : BitVec 4) (u : BitVec 1)
  /-- VMAX (R161). Lane-wise maximum. -/
  | vmax (g : BitVec 3) (d : BitVec 4) (t : BitVec 3) (a b : BitVec 4) (u : BitVec 1)
  /-- VABS (R161). Lane-wise absolute value. -/
  | vabs (g : BitVec 3) (d : BitVec 4) (t : BitVec 3) (a : BitVec 4)
  /-- VNEG (R161). Lane-wise negation. -/
  | vneg (g : BitVec 3) (d : BitVec 4) (t : BitVec 3) (a : BitVec 4)
  /-- VDIV (R161). Floating lane-wise divide. -/
  | vdiv (g : BitVec 3) (d : BitVec 4) (t : BitVec 3) (a b : BitVec 4) (r : BitVec 3)
  /-- VSQRT (R161). Floating lane-wise square root. -/
  | vsqrt (g : BitVec 3) (d : BitVec 4) (t : BitVec 3) (a : BitVec 4) (r : BitVec 3)
  /-- VFMA (R162). Fused multiply-add into vD. -/
  | vfma (g : BitVec 3) (d : BitVec 4) (t : BitVec 3) (a b : BitVec 4) (r : BitVec 3)
  /-- VFMS (R162). Fused multiply-subtract. -/
  | vfms (g : BitVec 3) (d : BitVec 4) (t : BitVec 3) (a b : BitVec 4) (r : BitVec 3)
  /-- VFNMA (R162). Negated fused multiply-add. -/
  | vfnma (g : BitVec 3) (d : BitVec 4) (t : BitVec 3) (a b : BitVec 4) (r : BitVec 3)
  /-- VFNMS (R162). Negated fused multiply-subtract. -/
  | vfnms (g : BitVec 3) (d : BitVec 4) (t : BitVec 3) (a b : BitVec 4) (r : BitVec 3)
  /-- VRCP (R163). Lane-wise reciprocal. -/
  | vrcp (g : BitVec 3) (d : BitVec 4) (t : BitVec 3) (a : BitVec 4)
  /-- VRSQ (R163). Lane-wise reciprocal square root. -/
  | vrsq (g : BitVec 3) (d : BitVec 4) (t : BitVec 3) (a : BitVec 4)
  /-- VEX2 (R163). Lane-wise power of two. -/
  | vex2 (g : BitVec 3) (d : BitVec 4) (t : BitVec 3) (a : BitVec 4)
  /-- VLG2 (R163). Lane-wise base-2 logarithm. -/
  | vlg2 (g : BitVec 3) (d : BitVec 4) (t : BitVec 3) (a : BitVec 4)
  /-- VTANH (R163). Lane-wise hyperbolic tangent. -/
  | vtanh (g : BitVec 3) (d : BitVec 4) (t : BitVec 3) (a : BitVec 4)
  /-- VSIN (R163). Lane-wise sine in half-turns. -/
  | vsin (g : BitVec 3) (d : BitVec 4) (t : BitVec 3) (a : BitVec 4)
  /-- VCVT (R165). Converts elements between two types. -/
  | vcvt (g : BitVec 3) (d a e s : BitVec 4) (r : BitVec 3)
  /-- VDOT (R168). Dot products of lane groups added into 32-bit lanes. -/
  | vdot (g : BitVec 3) (d : BitVec 4) (t : BitVec 3) (a b : BitVec 4) (r : BitVec 3)
  /-- VREDSUM (R169). Tree sum of the lanes. -/
  | vredsum (g : BitVec 3) (d : BitVec 4) (t : BitVec 3) (a : BitVec 4) (r : BitVec 3)
  /-- VREDMAX (R170). Reduces to the largest lane. -/
  | vredmax (g : BitVec 3) (d : BitVec 4) (t : BitVec 3) (a : BitVec 4)
  /-- VREDMIN (R170). Reduces to the smallest lane. -/
  | vredmin (g : BitVec 3) (d : BitVec 4) (t : BitVec 3) (a : BitVec 4)
  /-- VREDX (R171). Adds every lane exactly into an XS320 object in the scratchpad. -/
  | vredx (g t : BitVec 3) (a b : BitVec 4)
  /-- VCMP (R172). Lane-wise compare to an all-ones mask. -/
  | vcmp (g : BitVec 3) (d : BitVec 4) (t c : BitVec 3) (a b : BitVec 4) (u : BitVec 1)
  /-- VAND (R173). Bitwise AND of 512 bits. -/
  | vand (g : BitVec 3) (d a b : BitVec 4)
  /-- VOR (R173). Bitwise OR of 512 bits. -/
  | vor (g : BitVec 3) (d a b : BitVec 4)
  /-- VXOR (R173). Bitwise XOR of 512 bits. -/
  | vxor (g : BitVec 3) (d a b : BitVec 4)
  /-- VSEL (R173). Lane-wise select by the mask in vD. -/
  | vsel (g : BitVec 3) (d : BitVec 4) (t : BitVec 3) (a b : BitVec 4)
  /-- VIADD (R174). Integer lane add. -/
  | viadd (g : BitVec 3) (d : BitVec 4) (t : BitVec 3) (a b : BitVec 4)
  /-- VISUB (R174). Integer lane subtract. -/
  | visub (g : BitVec 3) (d : BitVec 4) (t : BitVec 3) (a b : BitVec 4)
  /-- VIMUL (R174). Integer lane multiply. -/
  | vimul (g : BitVec 3) (d : BitVec 4) (t : BitVec 3) (a b : BitVec 4)
  /-- VSHL (R174). Integer lane shift left. -/
  | vshl (g : BitVec 3) (d : BitVec 4) (t : BitVec 3) (a b : BitVec 4)
  /-- VSHR (R174). Integer lane logical shift right. -/
  | vshr (g : BitVec 3) (d : BitVec 4) (t : BitVec 3) (a b : BitVec 4)
  /-- VSAR (R174). Integer lane arithmetic shift right. -/
  | vsar (g : BitVec 3) (d : BitVec 4) (t : BitVec 3) (a b : BitVec 4)
  /-- VPCNT (R174). Integer lane population count. -/
  | vpcnt (g : BitVec 3) (d : BitVec 4) (t : BitVec 3) (a : BitVec 4)
  /-- VCLM (R174). Integer lane carry-less multiply. -/
  | vclm (g : BitVec 3) (d : BitVec 4) (t : BitVec 3) (a b : BitVec 4)
  /-- VPERM (R175). Permutes lanes by an index vector. -/
  | vperm (g : BitVec 3) (d : BitVec 4) (t : BitVec 3) (a b : BitVec 4)
  /-- VSHUF (R176). Shuffles lanes by a fixed pattern. -/
  | vshuf (g : BitVec 3) (d : BitVec 4) (t : BitVec 3) (a : BitVec 4) (idx : BitVec 6)
  /-- VSLIDE_UP (R175). Slides lanes up by n. -/
  | vslideUp (g : BitVec 3) (d : BitVec 4) (t : BitVec 3) (a : BitVec 4) (idx : BitVec 6)
  /-- VSLIDE_DN (R175). Slides lanes down by n. -/
  | vslideDn (g : BitVec 3) (d : BitVec 4) (t : BitVec 3) (a : BitVec 4) (idx : BitVec 6)
  /-- VSPLAT (R175). Broadcasts a general register into every lane. -/
  | vsplat (g : BitVec 3) (d : BitVec 4) (t : BitVec 3) (a : BitVec 4)
  /-- VINS (R175). Inserts a general register into one lane. -/
  | vins (g : BitVec 3) (d : BitVec 4) (t : BitVec 3) (a : BitVec 4) (idx : BitVec 6)
  /-- VEXT (R175). Extracts one lane into a general register. -/
  | vext (g : BitVec 3) (d : BitVec 4) (t : BitVec 3) (a : BitVec 4) (idx : BitVec 6)
  /-- VMOV (R175). Copies a vector register. -/
  | vmov (g : BitVec 3) (d : BitVec 4) (t : BitVec 3) (a : BitVec 4)
  /-- SBIND_IN (R181). Binds an in-stream to v13-v15. -/
  | sbindIn (g : BitVec 3) (d : BitVec 5) (a : BitVec 3) (b : BitVec 5)
  /-- SBIND_OUT (R181). Binds an out-stream to v13-v15. -/
  | sbindOut (g : BitVec 3) (d : BitVec 5) (a : BitVec 3) (b : BitVec 5)
  /-- SFREE (R185). Releases a stream and its generator. -/
  | sfree (g : BitVec 3) (d : BitVec 5)
  /-- SSKIP (R185). Advances a stream's position. -/
  | sskip (g : BitVec 3) (d a : BitVec 5)
  /-- CHSET (R191). Binds an end to the issuing slot, consuming the channel capability. -/
  | chset (g : BitVec 3) (a : BitVec 5) (h : BitVec 6)
  /-- CHCLR (R192). Frees an idle or tile end. -/
  | chclr (g : BitVec 3) (h : BitVec 6)
  /-- CHST (R193). Reads the state word of an end. -/
  | chst (g : BitVec 3) (d : BitVec 5) (h : BitVec 6)
  /-- SND (R195). Sends a word message and waits for acceptance. -/
  | snd (g : BitVec 3) (a : BitVec 5) (h : BitVec 6)
  /-- SNDV (R195). Sends a vector message and waits for acceptance. -/
  | sndv (g : BitVec 3) (a : BitVec 4) (h : BitVec 6)
  /-- BSND (R199). Offers a scratchpad window for bulk pull and waits for the release. -/
  | bsnd (g : BitVec 3) (a : BitVec 5) (h : BitVec 6)
  /-- RCV (R197). Receives a word message, waiting if none is present. -/
  | rcv (g : BitVec 3) (d : BitVec 5) (h : BitVec 6)
  /-- RCVV (R197). Receives a vector message. -/
  | rcvv (g : BitVec 3) (d : BitVec 4) (h : BitVec 6)
  /-- BRCV (R200). Accepts a bulk offer and queues a CPE pull. -/
  | brcv (g : BitVec 3) (a : BitVec 5) (h : BitVec 6)
  /-- ALT (R202). Selects a full end from a set by rotating priority. -/
  | alt (g : BitVec 3) (d : BitVec 5) (a : BitVec 3)
  /-- ALT_P (R202). Selects a full end from a set by fixed priority. -/
  | altP (g : BitVec 3) (d : BitVec 5) (a : BitVec 3)
  /-- ALT_D (R202). Rotating select with a deadline. -/
  | altD (g : BitVec 3) (d : BitVec 5) (a b : BitVec 3)
  /-- ALT_P_D (R202). Fixed-priority select with a deadline. -/
  | altPD (g : BitVec 3) (d : BitVec 5) (a b : BitVec 3)
  /-- MXQ (R206). Enqueues a matrix-engine job. -/
  | mxq (g : BitVec 3) (d a b : BitVec 5) (s : BitVec 3)
  /-- CPQ (R207). Enqueues a copy-engine job. -/
  | cpq (g : BitVec 3) (d a b : BitVec 5) (m : BitVec 3)
  /-- JWAIT (R209). Waits for an engine job to end and reports a fault. -/
  | jwait (g : BitVec 3) (a : BitVec 5)
  /-- JST (R208). Reads a snapshot of an engine job's state. -/
  | jst (g : BitVec 3) (d a : BitVec 5)
  /-- MXF (R210). Places an ordering marker in the MXE queue. -/
  | mxf (g : BitVec 3)
  /-- BARR (R213). Arrives at a barrier. -/
  | barr (g : BitVec 3) (b : BitVec 5)
  /-- BARW (R213). Waits for a barrier's release. -/
  | barw (g : BitVec 3) (b : BitVec 5)
  /-- BAR (R213). Arrives at a barrier and waits for its release. -/
  | bar (g : BitVec 3) (b : BitVec 5)
  /-- WTU (R214). Waits until ptime reaches a target. -/
  | wtu (g : BitVec 3) (a : BitVec 5)
  /-- RDT (R215). Reads ptime, logged in crystal mode. -/
  | rdt (g : BitVec 3) (d : BitVec 5)
  /-- SPWN (R216). Starts a strand in an empty slot. -/
  | spwn (g : BitVec 3) (a b : BitVec 5) (k : BitVec 3)
  /-- HLT (R217). Waits for far accesses and ends the strand. -/
  | hlt (g : BitVec 3)
  /-- CKPT (R219). Takes a crystal of the whole core into the buddy. -/
  | ckpt (g : BitVec 3) (a : BitVec 5)
  /-- MIG (R220). Ships the strand to a core of another panel. -/
  | mig (g : BitVec 3) (a : BitVec 5)
  /-- SSTAT (R218). Reads the state word of a slot. -/
  | sstat (g : BitVec 3) (d : BitVec 5) (k : BitVec 3)
  /-- CSRR (R223). Reads a control register. -/
  | csrr (g : BitVec 3) (d : BitVec 5) (c : BitVec 12)
  /-- CSRW (R223). Writes a control register. -/
  | csrw (g : BitVec 3) (c : BitVec 12) (a : BitVec 5)
  /-- CSRX (R223). Reads then writes a control register. -/
  | csrx (g : BitVec 3) (d : BitVec 5) (c : BitVec 12) (a : BitVec 5)
  /-- TRAP (R221). Raises the software trap. -/
  | trap (g : BitVec 3) (a : BitVec 5)
  /-- ERET (R222). Returns from a trap handler. -/
  | eret (g : BitVec 3)
  /-- DBG (R224). Halts, resumes or steps a slot of the core. -/
  | dbg (g : BitVec 3) (a : BitVec 5)
  /-- RMAP (R225). Writes one remap entry and waits for its acknowledgement. -/
  | rmap (g : BitVec 3) (d a : BitVec 5)
  /-- CHMINT (R226). Builds a channel capability. -/
  | chmint (g : BitVec 3) (d a : BitVec 5)
  /-- PMINT (R228). Mints a pan from a mint record. -/
  | pmint (g : BitVec 3) (d a : BitVec 5)
  /-- MOV_16 (R67). 16-bit register move. -/
  | mov16 (d s : BitVec 4)
  /-- ADDI_16 (R67). 16-bit add of a 3-bit immediate. -/
  | addi16 (d : BitVec 4) (i : BitVec 3) (s : BitVec 4)
  /-- ADD_16 (R67). 16-bit two-operand add. -/
  | add16 (d s : BitVec 4)
  /-- LD_16 (R68). 16-bit 64-bit load through a scratchpad window. -/
  | ld16 (d : BitVec 4) (i : BitVec 3) (s : BitVec 4)
  /-- ST_16 (R68). 16-bit 64-bit store through a scratchpad window. -/
  | st16 (d : BitVec 4) (i : BitVec 3) (s : BitVec 4)
  /-- BR_16 (R67). Short branch on a named predicate. -/
  | br16 (n : BitVec 3) (o : BitVec 8)
  /-- J_16 (R67). Short unconditional jump. -/
  | j16 (o : BitVec 11)
  /-- SND_16 (R67). 16-bit word send on h0-h15. -/
  | snd16 (d s : BitVec 4)
  /-- RCV_16 (R67). 16-bit word receive on h0-h15. -/
  | rcv16 (d s : BitVec 4)
  /-- NOP_16 (R67). 16-bit no-operation. -/
  | nop16
  /-- RLX (R69). Prefix that joins the next far access into one relaxed instruction. -/
  | rlx
  /-- FAR_REPLY_ARRIVAL (R313). A slice or host reply or NACK reaches the core, readying the strand or raising a deferred relaxed trap. Operands: `a` the packet. -/
  | farReplyArrival
  /-- FENCE_CONDITION_MET (R145). The awaited replies or jobs have ended and a fenced instruction proceeds. Operands: `a` the core, `b` the slot. -/
  | fenceConditionMet
  /-- ICACHE_LINE_FILL (R437). A fetched 64-byte code line arrives and waiting strands become ready. Operands: `a` the packet. -/
  | icacheLineFill
  /-- WTU_TARGET_REACHED (R214). ptime reaches a wtu target and the strand issues its next instruction. Operands: `a` the core, `b` the slot. -/
  | wtuTargetReached
  /-- ALT_DEADLINE (R202). ptime reaches an alt deadline and the alt re-issues. Operands: `a` the core, `b` the slot. -/
  | altDeadline
  /-- MESSAGE_ARRIVAL (R194). A message or offer arrives at an end and is parked, placed in the inbox or NACKed. Operands: `a` the packet. -/
  | messageArrival
  /-- ACKNOWLEDGEMENT_ARRIVAL (R259). An acknowledgement reaches a sending end, writes clat and releases the sender. Operands: `a` the packet. -/
  | acknowledgementArrival
  /-- RELEASE_ARRIVAL (R261). A bulk release reaches the offering end and releases the sender. Operands: `a` the packet. -/
  | releaseArrival
  /-- NACK_ARRIVAL (R195). A NACK reaches a sending end and the sender takes its trap. Operands: `a` the packet. -/
  | nackArrival
  /-- PULL_COMPLETION (R200). A bulk pull completes, the release is injected and the receiver is ready. Operands: `a` the core, `b` the end, `c` the turn. -/
  | pullCompletion
  /-- HOLDER_UPDATE (R262). The table slice names a new holder of a linear pan capability and replies. Operands: `a` the packet. -/
  | holderUpdate
  /-- HOLDER_UPDATE_REPLY (R197). The holder-update reply reaches the receiver, which writes C[D] and injects the acknowledgement. Operands: `a` the packet. -/
  | holderUpdateReply
  /-- BARRIER_RELEASE (R212). A barrier release reaches a member core, clears ARR and readies waiting strands. Operands: `a` the core, `b` the barrier. -/
  | barrierRelease
  /-- QUEUE_ENTRY_GRANT (R235). Free engine queue entries are granted round-robin to waiting lanes. Operands: `a` the block, `b` the engine; with `flag`, an entry `c` that has left Done is free. -/
  | queueEntryGrant
  /-- MXE_STEP_BEGIN (R237). The free array chooses and begins the next ready step of an eligible job. Operands: `a` the block. -/
  | mxeStepBegin
  /-- ACCUMULATOR_WRITE (R247). A product's accumulator tile is written tp + 6 cycles after the step ends. Operands: `a` the block, `b` the number of the item. -/
  | accumulatorWrite
  /-- DRAIN_GRANULE_WRITE (R247). A drain step writes a destination granule and sets its FE bit. Operands: `a` the block, `b` the number of the item. -/
  | drainGranuleWrite
  /-- MXE_JOB_COMPLETION (R247). An MXE job completes after its last write or forwarded beat and its entry is freed. Operands: `a` the block, `b` the queue entry, `c` the place in the order. -/
  | mxeJobCompletion
  /-- TILE_OFFER (R243). A tile offer reaches a receiving latch, which grants a free buffer. Operands: `a` the packet. -/
  | tileOffer
  /-- TILE_GRANT (R243). A grant reaches the forwarding MXE, which pushes the tile over MNet. Operands: `a` the packet. -/
  | tileGrant
  /-- TILE_LANDS (R244). A forwarded tile's last beat lands in the latch. Operands: `a` the packet. -/
  | tileLands
  /-- OUT_BUFFER_FREE (R242). The out buffer frees when the forwarded tile's last beat leaves. Operands: `a` the block, `b` the lane. -/
  | outBufferFree
  /-- TILE_OFFER_NACK (R246). A tile offer is NACKed and the forwarding job faults with code 0x04. Operands: `a` the packet. -/
  | tileOfferNack
  /-- CPE_TURN (R249). The free CPE takes a lane's oldest copy job, pull or crystal read. Operands: `a` the block. -/
  | cpeTurn
  /-- CPE_LINE_REPLY (R251). A reply to a CPE line request arrives. Operands: `a` the packet. -/
  | cpeLineReply
  /-- CPE_CHUNK_WRITE (R251). The CPE writes a 128-byte destination chunk, setting FE bits. Operands: `a` the block, `b` the chunk, `c` the turn; with `flag`, the chunk is read and sent. -/
  | cpeChunkWrite
  /-- CPE_JOB_COMPLETION (R251). A copy job completes or faults and its entry is freed. Operands: `a` the block, `b` the turn. -/
  | cpeJobCompletion
  /-- SLICE_REQUEST_ARRIVAL (R311). A request enters a slice, is checked and queued, or starts a TLB walk. Operands: `a` the packet. -/
  | sliceRequestArrival
  /-- TLB_WALK_END (R308). A page-table walk ends and fills the TLB entry. Operands: `a` the slice, `b` the page, `c` the partition. -/
  | tlbWalkEnd
  /-- ACTIVE_ROUND_START (R311). At an active round start, the slice places waiting requests into slots. Operands: `a` the slice. -/
  | activeRoundStart
  /-- FALLOW_ROUND (R310). A fallow round performs bus turnaround and holds no slots. Operands: `a` the slice. -/
  | fallowRound
  /-- REFRESH_ROUND (R310). A refresh round falls after a multiple of 5,850 cycles and holds no slots. Operands: `a` the slice. -/
  | refreshRound
  /-- SLOT_PERFORM (R312). A placed request is performed at the beginning of its slot. Operands: `a` the slice, `b` the number of the item. -/
  | slotPerform
  /-- RESERVED_WRITE (R147). A reservation's write is performed in its reserved slot of round n + 2. Operands: `a` the slice, `b` the number of the item. -/
  | reservedWrite
  /-- SLICE_REPLY (R312). A slice reply leaves at its fixed offset from the performance point. Operands: `a` the slice, `b` the number of the item. -/
  | sliceReply
  /-- FREEZE_REQUEST (R117). A slice acts on a cfrz request, checking the pan's extent. Operands: `a` the packet. -/
  | freezeRequest
  /-- DONE_MESSAGE (R153). A slice counts a contributor's done message. Operands: `a` the packet. -/
  | doneMessage
  /-- PAN_MINT_REQUEST (R228). A slice enters a pan into its table for pmint. Operands: `a` the packet. -/
  | panMintRequest
  /-- CONTRIBUTOR_MINT_CHECK (R228). The table slice checks a contributor pmint against an unsealed accumulate pan. Operands: `a` the packet. -/
  | contributorMintCheck
  /-- MASTER_SEAL_REQUEST (R154). A master seal request arrives at a slice of the pan. Operands: `a` the packet. -/
  | masterSealRequest
  /-- SEAL_BEGIN (R149). When the request has arrived and DONE equals NCON, SEAL is set and conversion rounds are claimed. Operands: `a` the slice, `b` the pan base, `c` the packet of the request. -/
  | sealBegin
  /-- PAN_CONVERSION_DONE (R154). A slice's conversion rounds end and its seal reply leaves. Operands: `a` the slice, `b` the pan base, `c` the packet of the request. -/
  | panConversionDone
  /-- PAN_ZEROING_DONE (R314). A slice finishes zeroing an accumulate pan and replies to pmint. Operands: `a` the slice, `b` the pan base, `c` the packet of the request. -/
  | panZeroingDone
  /-- PAN_TABLE_REPLY (R314). A pan-table operation's reply reaches the core. Operands: `a` the packet. -/
  | panTableReply
  /-- RAKE_THRESHOLD (R267). A blocked strand's wait age reaches its threshold and it may start a probe. Operands: `a` the core, `b` the slot. -/
  | rakeThreshold
  /-- PROBE (R267). A probe reaches a target strand, which engages, answers or aborts a later probe. Operands: `a` the packet. -/
  | rakeProbe
  /-- ECHO (R267). An echo returns YES, NO or BUSY to the prober. Operands: `a` the packet. -/
  | rakeEcho
  /-- ENTRY (R269). A record entry reaches the initiator. Operands: `a` the packet. -/
  | rakeEntry
  /-- CONFIRM (R267). A confirm travels down the probe tree. Operands: `a` the packet. -/
  | rakeConfirm
  /-- CONFIRM_ECHO (R267). A confirm echo returns OK or NO to the parent. Operands: `a` the packet. -/
  | rakeConfirmEcho
  /-- END (R268). An END reaches a member, which disengages and may become reported. Operands: `a` the packet. -/
  | rakeEnd
  /-- SEQ_REQ (R269). The rake head receives a record-number request. Operands: `a` the packet. -/
  | seqReq
  /-- SEQ_GRANT (R269). A record number and the delivery token reach the initiator. Operands: `a` the packet. -/
  | seqGrant
  /-- RECORD_WORD_RESEND (R273). A NACKed record word is resent after rakeT or 0x1_0000 cycles. Operands: `a` the partition, `b` the holding core, or the head. -/
  | recordWordResend
  /-- SUPERVISOR_RECORD (R273). A TYPE 0x02-0x06 record is handed to the rake head for delivery. Operands: `a` the partition, `b` the TYPE, `w` the record entry. -/
  | supervisorRecord
  /-- JOB_RECORD_INTAKE (R284). A job record reaches a launch queue and is accepted or rejected. Operands: `a` the packet. -/
  | jobRecordIntake
  /-- HOST_RECORD_WRITE (R412). The host writes a job record at QREC of its host function. Operands: `a` the partition, `b` the queue, `x` the record. -/
  | hostRecordWrite
  /-- JOB_SELECTION (R286). With no job pending, the head selects a ready record by owner virtual finish and priority. Operands: `a` the partition. -/
  | jobSelection
  /-- JOB_PLACEMENT (R287). The pending job is placed once its rectangle and barriers are free. Operands: `a` the partition. -/
  | jobPlacement
  /-- WAKE (R288). The wake reaches a member core and starts slot 0. Operands: `a` the core, `b` the job. -/
  | wake
  /-- WAKE_CHANNEL_BIND (R289). The channel entries of the argument block arrive and their ends are bound. Operands: `a` the core. -/
  | wakeChannelBind
  /-- JOB_COMPLETION (R292). The head learns every member is finished and frees the ends, barriers and rectangle. Operands: `a` the partition, `b` the job. -/
  | jobCompletion
  /-- NOTICE_RESEND (R284). A NACKed notice is resent 65,536 cycles later. Operands: `a` the partition, `b` the number of the item. -/
  | noticeResend
  /-- QCFG_WRITE (R281). The hypervisor writes a queue's configuration. Operands: `a` the partition, `b` the queue, `w` the word written. -/
  | qcfgWrite
  /-- PREEMPT (R375). Command OP 1 pre-empts a running job into a save area. Operands: `a` the packet. -/
  | preempt
  /-- PREEMPTION_MESSAGE (R375). A pre-emption message reaches a member core, which stops and saves its image. Operands: `a` the core, `b` the job. -/
  | preemptionMessage
  /-- PREEMPT_SAVE_COMPLETE (R375). Every member has reported and 2D has passed; the rectangle is freed. Operands: `a` the partition, `b` the job. -/
  | preemptSaveComplete
  /-- RESUME (R378). Command OP 2 restores a pre-empted job at its origin. Operands: `a` the packet; with `flag`, job `b` of partition `a`, which waits for its rectangle. -/
  | resume
  /-- RESUME_RELEASE (R378). Every member has restored its image and the head releases them together. Operands: `a` the partition, `b` the job; with `flag`, the release of job `b` reaches core `a`. -/
  | resumeRelease
  /-- ABORT (R374). Command OP 3 empties a job's slots and completes it with status 6. Operands: `a` the packet. -/
  | abort
  /-- REGISTER_RECALL_SAVE_AREA (R374). Command OP 4 registers the save area used by recall. Operands: `a` the packet. -/
  | registerRecallSaveArea
  /-- CRYSTAL_CURRENT (R219). The buddy's acknowledgement makes a crystal current and restarts the log. Operands: `a` the core. -/
  | crystalCurrent
  /-- SELF_CRYSTAL (R382). A core takes a crystal by itself when 32 log entries stand after the mark. Operands: `a` the core; with `flag`, after a substitution of its buddy. -/
  | selfCrystal
  /-- LOG_WRITE (R381). The block writes a replay log entry into the buddy's reserve. Operands: `a` the core, `b` the number of the item. -/
  | logWrite
  /-- UNCORRECTABLE_SOFT_ERROR (R371). An uncorrectable soft error contains the core. Operands: `a` the core. -/
  | uncorrectableSoftError
  /-- SOFT_ERROR_CORRECTED (R371). A correctable soft error is corrected in place and counted. Operands: `a` the core. -/
  | softErrorCorrected
  /-- CORE_RETIREMENT (R371). The panel supervisor retires a core, containing it. Operands: `a` the core, `flag` whether it is hidden. -/
  | coreRetirement
  /-- SUBSTITUTION_RESTORE_DONE (R383). Reload and restore succeed, the record is written and held packets are released. Operands: `a` the core. -/
  | substitutionRestoreDone
  /-- DEBUG_HALT (R388). A dbg halt takes effect at the slot's next instruction boundary. Operands: `a` the core, `b` the slot. -/
  | debugHalt
  /-- DEBUG_REGISTER_WRITE (R388). The supervisor writes a register of a halted slot. Operands: `a` the core, `b` the slot, `c` the register (0 c0, 32 v0, 48 E0, 56 the predicates, 64 pc, 64 + n control register n), `x` the value. -/
  | debugRegisterWrite
  /-- PACKET_HOP (R342). A packet head reaches a router and takes the output of the table or the default route. Operands: `a` the packet. -/
  | packetHop
  /-- HELD_PACKET_RELEASE (R342). A waiting packet proceeds once an in-service output or its lane is available. Operands: `a` the packet. -/
  | heldPacketRelease
  /-- REMAP_WRITE (R326). A remap entry is written into a block's routers and sets lcn. Operands: `a` the packet. -/
  | remapWrite
  /-- ROUTE_TABLE_WRITE (R341). A route-table entry write is checked and applied or refused. Operands: `a` the packet. -/
  | routeTableWrite
  /-- BCFG_OOS_WRITE (R333). Firmware marks physical lanes out of service. Operands: `a` the packet. -/
  | bcfgOosWrite
  /-- RESERVE_TAKE (R334). RSV from 0 to 1 sets a reserve lane and lowers L. Operands: `a` the packet. -/
  | reserveTake
  /-- RESERVE_RELEASE (R334). RSV from 1 to 0 releases an unused reserve. Operands: `a` the packet. -/
  | reserveRelease
  /-- DEVICE_WINDOW_ACCESS (R343). A device-register access reaches its device and replies or is refused. Operands: `a` the packet. -/
  | deviceWindowAccess
  /-- PARENT_CLOCK_STOP (R351). A core's parent clock stops and its subtree enters Hold. Operands: `a` the core. -/
  | parentClockStop
  /-- LOST_CLOCK_REPORT (R351). The keep-alive oscillator detects the lost clock and reports it to the DCM. Operands: `a` the die, `b` the failed forwarder, `c` the cycle in which it stopped. -/
  | lostClockReport
  /-- REROOT (R352). The DCM marks the forwarder out of service and builds a new tree over the orphaned subtree. Operands: `a` the die, `b` the failed forwarder, `c` the cycle in which it stopped. -/
  | reroot
  /-- REROOT_RELEASE (R352). At the release cycle, the subtree's ptime, phase and class are set and the cores run. Operands: `a` the die. -/
  | rerootRelease
  /-- MODULE_RESET (R424). Module reset sets all state to reset values and starts bring-up. Operands: `flag` the bring-up goes on. -/
  | moduleReset
  /-- BOOT_STRAND_START (R425). The supervisor starts a Machine-mode strand directly in the boot partition. Operands: `a` the core, `b` the slot, `w` the entry, `c` the code range, `d` its pages, `flag` c2 tagged, `w1` c2, `x` its meta. -/
  | bootStrandStart
  /-- PARTITION_CONFIG_WRITE (R356). The hypervisor writes a partition's configuration word, refused if it would overlap. Operands: `a` the partition, `w` the word written. -/
  | partitionConfigWrite
  /-- PARTITION_RESET (R360). RST empties the partition's slots, ends, packets, pan tables and heads. Operands: `a` the partition. -/
  | partitionReset
  /-- UNIT_LEND (R359). A free unit is scrubbed and lent to the partition below it. Operands: `a` the partition; with `flag`, the scrub has completed. -/
  | unitLend
  /-- UNIT_RECALL (R379). The highest lent unit is pre-empted, scrubbed and taken back. Operands: `a` the partition; with `flag`, a recall in progress goes on. -/
  | unitRecall
  /-- PAGE_TABLE_WRITE (R307). The hypervisor changes a partition's page table and the slice TLBs are emptied. Operands: `a` the partition, `b` the level, `c` the index, `w` the word written. -/
  | pageTableWrite
  /-- PAN_ENTRY_REMOVAL (R301). The hypervisor removes a pan's table entries. Operands: `a` the partition, `b` the pan base. -/
  | panEntryRemoval
  /-- PPWR_WRITE (R426). A partition's power mode is requested for the next multiple of 320. Operands: `a` the partition, `w` the word written. -/
  | ppwrWrite
  /-- MODE_CHANGE (R395). At a ptime multiple of 320, the partition switches clock mode. Operands: `a` the partition. -/
  | modeChange
  /-- THERMAL_LIMIT (R427). A die reaches 105 °C; every partition is capped to Low and records are written. -/
  | thermalLimit
  /-- THERMAL_CLEAR (R427). Every die has stayed at or below 95 °C for 10 ms and CAP clears. -/
  | thermalClear
  /-- SYNC (R397). A PTP Sync message arrives at a port. Operands: `a` the port, `b` the message number, `d` the domain. -/
  | ptpSync
  /-- FOLLOW_UP (R397). A PTP Follow_Up message arrives and the offset is measured. Operands: `a` the port, `b` the message number, `c` the time stamp, `d` the domain. -/
  | ptpFollowUp
  /-- DELAY_REQ (R397). A PTP Delay_Req message arrives. Operands: `a` the port, `b` the message number, `d` the domain. -/
  | ptpDelayReq
  /-- DELAY_RESP (R397). A PTP Delay_Resp message arrives. Operands: `a` the port, `b` the message number, `c` the time stamp, `d` the domain. -/
  | ptpDelayResp
  /-- SYNC_TIMEOUT (R398). No Sync for 2^24 cycles moves the discipline to HOLDOVER. -/
  | syncTimeout
  /-- FRAME_SLOT (R405). At each frame slot, the port chooses one control or data frame to send. Operands: `a` the port. -/
  | frameSlot
  /-- FRAME_ARRIVAL (R402). A frame is whole at the far port and its item is delivered or resent. Operands: `a` the port, `b` the number of the item, `c` not 0 for a frame in error; with `flag`, the frame of this port is whole at the far port, without it the far panel's item has arrived. -/
  | frameArrival
  /-- TOKEN_REFILL (R405). At each ptime multiple of 256, every VF gains RATE tokens up to BURST. Operands: `a` the port. -/
  | tokenRefill
  /-- VF_CONFIG_WRITE (R403). The hypervisor writes a virtual function's configuration. Operands: `a` the port, `b` the VF, `c` the word, `w` the value. -/
  | vfConfigWrite
  /-- VF_FLUSH (R403). FLUSH NACKs every message queued on a VF. Operands: `a` the port, `b` the VF. -/
  | vfFlush
  /-- SLUICE_CLOSE (R408). CLOSE moves an open port to draining and sends a CLOSE marker. Operands: `a` the port. -/
  | sluiceClose
  /-- SLUICE_OPEN (R408). OPEN starts training of a closed or low port. Operands: `a` the port. -/
  | sluiceOpen
  /-- LOW_POWER_ENTER (R408). LOW turns a closed port's lasers and clock recovery off. Operands: `a` the port. -/
  | lowPowerEnter
  /-- CLOSE_MARKER (R408). A peer's CLOSE marker arrives at the port. Operands: `a` the port. -/
  | closeMarker
  /-- DRAIN_COMPLETE (R408). All sent frames are acknowledged and the peer's marker has arrived; the port closes. Operands: `a` the port. -/
  | drainComplete
  /-- WAKE_HINT (R408). A queued frame or due PTP timer starts training of a closed or low port. Operands: `a` the port. -/
  | wakeHint
  /-- TRAINING_SUCCESS (R408). Lane training succeeds, PDLY is measured and the port opens. Operands: `a` the port, `b` the frame delay, `w` the peer id. -/
  | trainingSuccess
  /-- TRAINING_TIMEOUT (R408). Training fails for 1 ms and the port returns to closed. Operands: `a` the port, `b` the number of the training. -/
  | trainingTimeout
  /-- MIG_RECORD_ARRIVAL (R220). A shipped strand record reaches the far core and resumes in its lowest empty slot. Operands: `a` the packet. -/
  | migRecordArrival
  /-- MIG_ACCEPT (R406). The accept reaches the sending core and its slot empties. Operands: `a` the packet. -/
  | migAccept
  /-- MIG_REFUSAL (R220). A refusal reaches the sender, which takes the channel-NACK trap. Operands: `a` the packet. -/
  | migRefusal
  /-- HOST_PAN_TAKE (R413). The host function takes an exclusive pan sent to 0x7_F200. Operands: `a` the packet. -/
  | hostPanTake
  /-- HOST_PAN_ACCESS (R413). A host read or write reaches a slice over the host spine. Operands: `a` the partition, `flag` a write, `b` the address, `c` the bytes, `x` the data. -/
  | hostPanAccess
  /-- PRET (R413). A write to PRET sends a held pan back to the device end. Operands: `a` the partition, `w` the address. -/
  | pret
  /-- TCTL_WRITE (R417). TCTL sets training hold, swept path, tap and sweep of a slice. Operands: `a` the packet. -/
  | tctlWrite
  /-- TRUN_GO (R418). GO starts a pattern test of write and read rounds. Operands: `a` the packet. -/
  | trunGo
  /-- PATTERN_TEST_RESULT (R418). PASS0, PASS1 and BUSY = 0 take effect at the end of the read round. Operands: `a` the slice. -/
  | patternTestResult
  /-- REPAIR_WRITE (R421). A REPAIR write assigns dead lanes to spares, refused if out of range. Operands: `a` the packet. -/
  | repairWrite
  /-- SEED_WRITE (R416). A SEED write sets the pattern seed, storing 1 for 0. Operands: `a` the packet. -/
  | seedWrite
  /-- QUOTE (R430). The supervisor returns a signed attestation quote for a nonce. Operands: `x` the nonce. -/
  | quote
  /-- METER_READOUT (R433). The supervisor returns a signed snapshot of an owner's meters. Operands: `a` the owner. -/
  | meterReadout
  /-- RAISE_FUSED_MINIMUM (R429). A supervisor command raises a fused minimum firmware version. Operands: `a` the TARGET, `b` the image. -/
  | raiseFusedMinimum
  /-- FIRMWARE_IMAGE_SWITCH (R434). A verified new image is loaded and switched into a part while the rest runs. Operands: `a` the image, `b` the part, `bytes` the image where it comes with the command; `flag` the end of switch `a`. -/
  | firmwareImageSwitch
  /-- TAMPER_ALARM (R431). A tamper event zeroises the key store, resets partitions, closes sluices and enters the alarm state. -/
  | tamperAlarm
  /-- ALARM_EXIT (R431). A signed command leaves the alarm state with a new key pair. Operands: `a` the image, `bytes` the image where it comes with the command. -/
  | alarmExit
  /-- REGISTER_WRITE (R16). A write to a register with no row of its own sets its fields by access code. Operands: `a` the register, `b` the partition, `w` the word written. -/
  | registerWrite
  /-- DELIVERY_TOKEN_RETURN (R273). The delivery token, either unused after a failed probe or after a record is delivered, returns to the rake head, which can then grant the next record. Operands: `a` the packet. -/
  | deliveryTokenReturn
  /-- PTP_TIMER_DUE (R397). A PTP timer of the boundary clock falls due and a Sync or Delay_Req control frame is queued on a port. Operands: `a` the port, `b` 0 Sync, 2 Delay_Req. -/
  | ptpTimerDue
  deriving DecidableEq, Repr

end Sys2Proof
end

