-- ==== Sys2Proof/Machine/StrandState.lean ====
section
/-! DEFINITION. The state of one strand: its registers, its repetition, its streams, what it waits for, its
outstanding far accesses and its part in the rake (R23 to R39, R128, R130, R142, R178, R187, R263 to R268). -/

namespace Sys2Proof.Machine

/-- A general register: 64-bit `val`, 64-bit `meta` and the tag (R23). -/
structure CReg where
  tag : Bool
  val : Word
  /-- The `meta` field (R23, R24). -/
  mt : Word
  deriving DecidableEq, Repr

/-- An untagged integer register (R29). -/
def CReg.int (w : Word) : CReg := { tag := false, val := w, mt := 0#64 }

/-- The untagged zero. -/
def CReg.zero : CReg := CReg.int 0#64

/-- A precise trap: its cause code and `tval` (R367). -/
structure Trap where
  cause : BitVec 6
  value : Word
  deriving DecidableEq, Repr

/-- One captured instruction of a repetition body: its address, its length in bytes (6 for a relaxed pair) and its
bits (R128). -/
structure Captured where
  addr : Word
  len : Nat
  bits : BitVec 48
  deriving DecidableEq, Repr

/-- The repetition state (R130): the body address, LEN, STG, STRIDE, the pass index k and the passes left, with the
captured words (R128), the number of the body instruction that issues next, and whether the count was 0. -/
structure Rep where
  body : Word
  len : Nat
  stg : BitVec 3
  stride : BitVec 4
  k : Nat
  left : Nat
  captured : Table Captured
  pos : Nat
  empty : Bool
  deriving DecidableEq, Repr

/-- A bound stream (R178 to R180): the copied descriptor, the direction and the elements done; the position indices
i0 to i3 are those of the element number. -/
structure Stream where
  base : Nat
  ndim : Nat
  fe : Bool
  cnt : List Nat
  stride : List Int
  out : Bool
  done : Nat
  deriving DecidableEq, Repr

/-- What a far access's reply writes. -/
inductive FarDest where
  /-- Nothing: a store or a contribution. -/
  | none
  /-- A scalar load into c register `d` of `bits` bits, sign-extended or not (R135). -/
  | scalar (d : BitVec 5) (bits : Nat) (signed : Bool)
  /-- A capability load into `d`; `lc` is the base's LC permission (R138). -/
  | cap (d : BitVec 5) (lc : Bool)
  /-- A vector load into `d` (R140). -/
  | vec (d : BitVec 4)
  /-- A strided or gathered load into `d` of lane width `w` bits (R141). -/
  | lanes (d : BitVec 4) (w : Nat)
  /-- The old value of an atomic, `bits` wide, into `d` (R146). -/
  | amo (d : BitVec 5) (bits : Nat)
  /-- The old elements of a vector atomic into `d` (R148). -/
  | vamo (d : BitVec 4)
  deriving DecidableEq, Repr

/-- One outstanding far access of a strand (R142, R143): its number, whether it is relaxed, the addresses of its parts
(gather or scatter elements), its destination, the parts still to reply, the lanes loaded so far, and the lowest
refused part. -/
structure Far where
  id : Nat
  relaxed : Bool
  eas : List Nat
  dest : FarDest
  left : Nat
  data : BitVec 512
  refused : Option (Nat × Trap)
  /-- The data of the last reply, where its push onto an out-stream still waits for empty granules (R184). -/
  landed : Option (List Byte × Bool)
  deriving DecidableEq, Repr

/-- Which fence a strand waits at (R145). -/
inductive Fence where
  | far
  | eng
  | core
  deriving DecidableEq, Repr

/-- What a strand waits for (R187, R218). -/
inductive Wait where
  /-- Not waiting: it issues at its next slot at or after `readyAt`. -/
  | ready
  /-- The reply of its unrelaxed far access. -/
  | far (id : Nat)
  /-- Room among the four outstanding relaxed accesses, or the reply of a relaxed load whose destination the
  instruction names, or all relaxed replies before an unrelaxed access (R142); the instruction re-issues. -/
  | relaxed (ids : List Nat)
  /-- A fence instruction; the next instruction issues. The list holds the accesses or jobs it waits for. -/
  | fence (k : Fence) (ids : List Nat)
  /-- The fence.far condition of a send, an enqueue, a seal or a `hlt`, the instruction of these bits (R145, R187): it acts
  when the condition holds, and the next instruction issues. -/
  | fenceFirst (ids : List Nat) (len : Nat) (bits : BitVec 48)
  /-- An instruction-cache line (R437); the fetch repeats. -/
  | fetch (line : Nat)
  /-- Granules that must become full and granules that must become empty (R137, R184); the instruction re-issues. -/
  | fullEmpty (full empty : List Nat)
  /-- Acceptance of a message or offer by the peer (R195). -/
  | send (h : Nat)
  /-- A message or offer in the end's slot (R197); the receive re-issues. -/
  | recv (h : Nat)
  /-- Any of the ends, or the deadline (R202); the `alt` re-issues. -/
  | alt (ends : List Nat) (deadline : Option Nat)
  /-- A bulk pull (R200). -/
  | pull (h : Nat)
  /-- A slice's holder update (R197). -/
  | holder (h : Nat)
  /-- A barrier's release; `again` is `barr` on a core that has arrived, `through` is `bar` (R213). -/
  | barrier (b : Nat) (again through : Bool)
  /-- A queue entry of the MXE (0) or the CPE (1) (R206). -/
  | queue (eng : Nat)
  /-- An engine job (R209); `jwait` re-evaluates. -/
  | job (id : Nat)
  /-- The crystal that it has taken (R219). -/
  | ckpt
  /-- The end of another crystal of the core: the `ckpt` of these bits acts then, and the next instruction issues after its own
  crystal (R187, R219). -/
  | ckptFirst (len : Nat) (bits : BitVec 48)
  /-- A pan-table operation: `cfrz`, `pmint` or `seal` (R314). -/
  | table (id : Nat)
  /-- A remap write's acknowledgement (R225). -/
  | remap
  /-- A migration, by the word that names its target (R220). -/
  | mig (target : Word)
  /-- A `ptime` target (R214). -/
  | time (target : Nat)
  /-- Its core is held until an image or crystal is restored (R378, R383). -/
  | restore
  deriving DecidableEq, Repr

/-- The instruction, its length and its bits, that has issued and acts when the wait's condition holds (R145, R187, R219). -/
def Wait.heldInstr : Wait → Option (Nat × BitVec 48)
  | .fenceFirst _ len bits => some (len, bits)
  | .ckptFirst len bits => some (len, bits)
  | _ => none

/-- Does the strand wait for a migration (R220)? -/
def Wait.isMig : Wait → Bool
  | .mig _ => true
  | _ => false

/-- A probe id: `ptime` at start, the initiator's LCN and slot (R267). -/
structure ProbeId where
  time : Nat
  lcn : Nat
  slot : Nat
  deriving DecidableEq, Repr

/-- An edge of a blocked strand (R264): the target core's LCN, the target's end or barrier, and whether the strand waits
to send. -/
structure Edge where
  lcn : Nat
  target : Nat
  barrier : Bool
  send : Bool
  deriving DecidableEq, Repr

/-- A strand's engagement in a probe (R267): the probe, its parent strand (physical core and slot), when its wait
began, what it still collects, its children in the probe tree, and the confirm state. A strand is (core, slot); slot 8
is the core's agent, for the strands that one barrier edge names. An entry stands with the cycle of its arrival. -/
structure Engaged where
  id : ProbeId
  parent : Option (Nat × Nat)
  wstart : Nat
  echoesLeft : Nat
  anyNo : Bool
  anyBusy : Bool
  aborted : Bool
  children : List (Nat × Nat)
  confirmsLeft : Nat
  confirmBad : Bool
  entries : List (Nat × Nat × Nat × Nat × Word)
  grant : Option Nat
  deriving DecidableEq, Repr

/-- A strand (R23 to R39, R130, R142, R178, R187). -/
structure Strand where
  c : Table CReg
  v : Table (BitVec 512)
  /-- p0 to p7; bit 0 is kept 1 (R33). -/
  p : BitVec 8
  e : Table Word
  pc : Word
  sst : BitVec 13
  hsp : Word
  hsl : Word
  dmask : BitVec 32
  fmode : BitVec 8
  srng : Word
  epc : Word
  tcause : BitVec 6
  tval : Word
  esst : BitVec 13
  rep : Option Rep
  repShadow : Option Rep
  epcWritten : Bool
  streams : Table Stream
  /-- The registers whose in-streams the instruction issued last has popped (R182), to be restored if it traps when its
  reply comes (R183, R186). -/
  popped : List (BitVec 4)
  wait : Wait
  /-- The core-cycle count from which the strand may issue (R105, R187). -/
  readyAt : Nat
  /-- The address of the instruction that began the wait, and the repetition as it stood there: where a trap that
  ends the wait is taken (R195, R368, R372). -/
  waitPc : Word
  /-- The length in bytes of an instruction that has passed and waits; 0 where it issues again. -/
  waitLen : Nat
  waitRep : Option Rep
  /-- The core-cycle count at which its wait began (R263). -/
  waitStart : Nat
  /-- The next wait age at which it may start a probe (R267). -/
  threshold : Nat
  reported : Bool
  far : List Far
  /-- The core-cycle count from which its next far request may leave: the elements of a relaxed gather or scatter leave first
  (R141, R142). -/
  sendFrom : Nat
  /-- A trap to raise at the next issue: a NACK's, a job's or a refused relaxed access's (R143, R187, R372). -/
  pendTrap : Option Trap
  halt : Bool
  stepOne : Bool
  codeLo : Nat
  codeHi : Nat
  /-- The job the strand belongs to; 0 in the boot partition (R279, R425). -/
  job : Nat
  /-- The strand's serial number: which strand enqueued an engine job (R145). -/
  serial : Nat
  deriving DecidableEq, Repr

/-- The state in which a strand starts, but for its `pc`, c2, mode and code range (R279). -/
def Strand.fresh : Strand :=
  { c := [], v := [], p := 1#8, e := [], pc := 0#64, sst := 0#13, hsp := 0#64, hsl := 0#64, dmask := 0#32,
    fmode := 0#8, srng := 0x9E3779B97F4A7C15#64, epc := 0#64, tcause := 0#6, tval := 0#64, esst := 0#13,
    rep := none, repShadow := none, epcWritten := false, streams := [], popped := [], wait := .ready, readyAt := 0,
    waitPc := 0#64, waitLen := 0, waitRep := none, waitStart := 0, threshold := 0, reported := false, far := [], sendFrom := 0, pendTrap := none,
    halt := false, stepOne := false, codeLo := 0, codeHi := 0, job := 0, serial := 0 }

/-- The registers of a slot at module reset, before any strand has run in it: MODE is 0b11, Machine (R37). -/
def Strand.atReset : Strand := { Strand.fresh with sst := 3#13 }

end Sys2Proof.Machine
end

