-- ==== Sys2Proof/Machine/CoreState.lean ====
section
/-! DEFINITION. The state of one core and of one block: per-core registers, the scratchpad, its tags and
full/empty bits, channel ends, barriers, the clock tree, crystals and the replay log, the rake's record buffer
(R40, R43, R134, R189, R212, R273, R333, R349, R377 to R384). -/

namespace Sys2Proof.Machine

/-- Bytes of a memory: address and byte pairs, addresses strictly rising, no entry 0; an unlisted byte reads 0. -/
abbrev Memory := List Host.Cell

/-- What a message carries (R189, R195, R199, R243). -/
inductive Payload where
  /-- A word message: a whole register (R195). -/
  | word (r : CReg)
  /-- A vector message (R195). -/
  | vector (x : BitVec 512)
  /-- A bulk offer: scratchpad base and byte count (R199). -/
  | offer (base n : Nat)
  /-- A tile offer: the format and the tile's byte count (R243). -/
  | tile (fmt size : Nat)
  deriving DecidableEq, Repr

/-- Is it a tile offer, which no record is (R243, R259)? -/
def Payload.isTile : Payload → Bool
  | .tile _ _ => true
  | _ => false

/-- The state of an end (R189, R259). -/
inductive EndState where
  | free
  | parked
  | idle
  | full
  | recvWait
  | sendWait
  | pull
  | tile
  deriving DecidableEq, Repr

/-- The STATE code of `chst` (R189). -/
def EndState.code : EndState → Nat
  | .free => 0
  | .parked => 1
  | .idle => 2
  | .full => 3
  | .recvWait => 4
  | .sendWait => 5
  | .pull => 6
  | .tile => 7

/-- A channel end (R189, R259, R373). `sentAt` is the issue cycle of the send in progress (R42), `clear` the register
an acknowledgement clears (R195); `taken` marks, in a restored end, a message that was taken before the failure (R385). -/
structure End where
  state : EndState
  dirIn : Bool
  psz : Nat
  slot : Nat
  plcn : Nat
  pend : Nat
  inbox : Option Payload
  ackd : Bool
  nakd : Bool
  taken : Bool
  sentAt : Nat
  clear : Option (BitVec 5)
  deriving DecidableEq, Repr

/-- A free end. -/
def End.free : End :=
  { state := .free, dirIn := false, psz := 0, slot := 0, plcn := 0, pend := 0, inbox := none, ackd := false,
    nakd := false, taken := false, sentAt := 0, clear := none }

/-- Whether a core runs (R370, R371, R375, R378). -/
inductive RunState where
  | run
  /-- Contained: it issues nothing; its lane's packets are held (R371). -/
  | contained
  /-- Stopped after a double trap (R370). -/
  | doubleTrap
  /-- Stopped by a pre-emption, saving its image (R375). -/
  | saving
  /-- Being restored: an image (R378) or a crystal (R383). -/
  | restoring
  deriving DecidableEq, Repr

/-- The clock state of a core (R349, R351). -/
inductive ClockState where
  | run
  | hold
  | adopt
  | off
  deriving DecidableEq, Repr

/-- TCFG of a core (R349), with the cycle at which a hold stopped it (R353). -/
structure TreeNode where
  pport : BitVec 2
  root : Bool
  child : BitVec 4
  depth : Nat
  state : ClockState
  stoppedAt : Nat
  /-- Core cycles of the hold that passed under earlier power modes (R353, R395). -/
  heldFor : Nat
  deriving DecidableEq, Repr

/-- The skew class of a depth: 0 A, 1 B, 2 C, 3 D (R350). -/
def TreeNode.cls (t : TreeNode) : Nat :=
  if t.depth ≤ 63 then 0 else if t.depth ≤ 95 then 1 else if t.depth ≤ 143 then 2 else 3

/-- A record of the event end, held in a one-record buffer while it is delivered (R257, R273). -/
structure Record where
  words : List Word
  next : Nat
  deriving DecidableEq, Repr

/-- A PROBE that a rake agent answers for all the strands of its core, because its edge is a barrier's (R264): the
probe, the prober, the slots still to answer and those engaged, and the confirm state. -/
structure Gather where
  id : ProbeId
  parent : Nat × Nat
  left : List Nat
  children : List Nat
  anyNo : Bool
  anyBusy : Bool
  confirmsLeft : Nat
  confirmBad : Bool
  deriving DecidableEq, Repr

/-- One entry of a replay log, by its number: KIND, ST, SLOT and END (R381), the cycle of its event, and the size, sender
and sending end of a message; its payload stands in the buddy's reserve. -/
structure LogRow where
  number : Nat
  kind : Nat
  st : Nat
  slot : Nat
  endNo : Nat
  cyc : Nat
  src : Nat × Nat × Nat
  deriving DecidableEq, Repr

/-- A granule of a record: 16 bytes and the capability tag (R134). -/
abbrev Granule := List Byte × Bool

/-- The crystal and the replay log of a lane, whose bytes stand in its buddy's reserve (R380 to R384): the buffer
(0 or 1) of the current crystal, the buffer and byte count being written, the issuing slot, the address of the last
`ckpt`'s descriptor, whether another crystal is due when this one is current (R382), the number of the log's next entry, the
mark, the entries in use, and after a restore the numbers of the entries left to replay and of the messages that go back
into their ends. `taking` and `cseqs` are the slots' CSEQs as they stood when the crystal that is being written, and the current one, were
taken (R150, log entry 113); `image` is a crystal on its way to a buddy whose clock is held, which keeps its bytes until it is
released (R351). -/
structure Crystal where
  current : Option Nat
  writing : Option Nat
  bytes : Nat
  slot : Option Nat
  desc : Option Nat
  due : Bool
  next : Nat
  mark : Nat
  rows : List LogRow
  replay : List Nat
  back : List Nat
  taking : Table Word
  cseqs : Table Word
  image : List Granule
  deriving DecidableEq, Repr

/-- No crystal and an empty log. -/
def Crystal.none : Crystal :=
  { current := .none, writing := .none, bytes := 0, slot := .none, desc := .none, due := false, next := 0,
    mark := 0, rows := [], replay := [], back := [], taking := [], cseqs := [], image := [] }

/-- A pan-table operation in progress at a core (R314): the slot that waits, the replies left, and the worst reply. -/
structure TableOp where
  slot : Nat
  left : Nat
  refused : Option Trap
  /-- What completes it: 0 `cfrz`, 1 `pmint`, 2 contributor `seal`, 3 master `seal`, 4 holder update. -/
  kind : Nat
  d : BitVec 5
  a : BitVec 5
  /-- The register to write on success. -/
  result : CReg
  /-- The end of a holder update. -/
  h : Nat
  /-- The slices that have accepted, which enter a `pmint`'s pan once all have (R305). -/
  entered : List Nat
  deriving DecidableEq, Repr

/-- A core, physical (R2, R40, R43, R134, R189, R212, R278, R377). -/
structure Core where
  slots : Table Strand
  /-- The registers of the empty slots, as the last strand of each left them at its `hlt` (R276, R298, R330); a slot
  that is not listed holds those of module reset (R37). -/
  vacated : Table Strand
  cseq : Table Word
  lcn : Nat
  grank : Nat
  gsize : Nat
  gorg : Nat
  clat : BitVec 32
  /-- The cycle and the slot of the acknowledgement that `clat` holds (R42). -/
  clatOf : Nat × Nat
  tvec : Word
  rakeT : BitVec 32
  pcid : BitVec 20
  toff : Word
  tscale : Word
  sp : Memory
  spTags : NatSet
  fe : NatSet
  /-- The cycle in which engines last wrote to the scratchpad, and what the granules that they wrote held before (R316). -/
  engineOld : Nat × List (Nat × List Byte)
  ends : Table End
  /-- Membership of w0 to w15 (R212). -/
  bmem : BitVec 16
  /-- ARR of w0 to w15 and of `blk` (bit 16) (R212). -/
  barr : BitVec 17
  dirty : BitVec 64
  cleanref : Word
  /-- PH (R278). -/
  phase : Nat
  run : RunState
  /-- While it is restored in a retired core's place: that core's physical lane, and whether the retirement is hidden
  (R364, R383). -/
  replaces : Option (Nat × Bool)
  tree : TreeNode
  record : Option Record
  gathers : List Gather
  /-- The engagements of its slots in probes, until their END (R267). -/
  engaged : List (Nat × Engaged)
  crystal : Crystal
  tableOps : Table TableOp
  /-- The job that runs on the core, 0 for none (R277). -/
  job : Nat
  /-- The core failed while it was being saved: its image is written with VALID = 0 (R376). -/
  invalid : Bool
  /-- Channel entries the wake still has to bind: the job's first entry and count (R289). -/
  wakeLeft : Nat
  /-- The core-cycle count from which the CORE meter of its job still has to be charged (R432). -/
  meterFrom : Option Nat
  deriving DecidableEq, Repr

/-- One line of the instruction cache (R437): the line's address divided by 64, and its bytes. -/
structure CacheLine where
  line : Nat
  bytes : List Byte
  deriving DecidableEq, Repr

end Sys2Proof.Machine
end

