-- ==== Sys2Proof/Machine/EngineState.lean ====
section
/-! DEFINITION. The state of a block's MXE and CPE and of the block itself (R204 to R211, R233 to R251, R326, R333,
R437). -/

namespace Sys2Proof.Machine

/-- The state of a queue entry (R208): free entries keep their use count. -/
inductive EntryState where
  | free
  | queued
  | running
  | done
  | faulted
  deriving DecidableEq, Repr

/-- A capability's reach as an engine keeps it: its kind and the first address (R206, R207). -/
structure Operand where
  kind : Nat
  addr : Nat
  deriving DecidableEq, Repr

/-- An MXE job (R205, R234, R236): the descriptor's fields, the operands, the lane, slot and strand that enqueued it,
its place in the lane's order, the number of `mxf` markers before it, its next step and what it still waits for. -/
structure MxeJob where
  mt : Nat
  nt : Nat
  kt : Nat
  cacc : Nat
  zero : Bool
  fmt : Nat
  op : Nat
  bsrc : Bool
  fwd : Bool
  rin : Nat
  rout : Nat
  a : Nat
  b : Nat
  lane : Nat
  slot : Nat
  serial : Nat
  order : Nat
  markers : Nat
  /-- The cycle the entry was granted (R237). -/
  granted : Nat
  /-- The next step in the order of R237. -/
  step : Nat
  /-- The steps whose writes are still to come, and whether a forwarded tile is still leaving (R247). -/
  writesLeft : Nat
  leaving : Bool
  /-- The cycle of the latest write or beat so far (R247). -/
  last : Nat
  deriving DecidableEq, Repr

/-- What a CPE does in one transfer (R249, R250, R200, R219). -/
inductive CpeWork where
  /-- A `cpq` job in queue entry `entry`. -/
  | job (entry : Nat)
  /-- A bulk pull for the lane's end `h` from the core of LCN `src`, window base `base`, `n` bytes, to `dst`. -/
  | pull (h src base n dst slot : Nat)
  /-- A crystal read of the lane (R219). -/
  | crystal
  /-- The reload of a lane's substitute, with the descriptor's pairs: source, destination, bytes (R380, R383). -/
  | reload (pairs : List (Nat × Nat × Nat))
  deriving DecidableEq, Repr

/-- A CPE job (R207, R250). -/
structure CpeJob where
  op : Nat
  ew : Nat
  rows : Nat
  cols : Nat
  sstr : Nat
  pad : Bool
  src : Operand
  dst : Operand
  lane : Nat
  slot : Nat
  serial : Nat
  deriving DecidableEq, Repr

/-- A queue entry (R208, R235): its state, fault code and use count, whether it was ever allocated, whether a fault
has been read by its lane, and its job. -/
structure Entry (α : Type) where
  state : EntryState
  code : Nat
  seen : Bool
  uses : Nat
  ever : Bool
  lane : Nat
  job : Option α
  deriving DecidableEq, Repr

/-- A never allocated entry. -/
def Entry.unused {α : Type} : Entry α :=
  { state := .free, code := 0, seen := false, uses := 0, ever := false, lane := 0, job := none }

/-- An enqueue that waits for a queue entry (R235): the lane, the slot, when it issued, the register of the job id
and the job. -/
structure Pending (α : Type) where
  lane : Nat
  slot : Nat
  at_ : Nat
  d : BitVec 5
  job : α
  deriving DecidableEq, Repr

/-- A tile in a latch buffer (R242): its format, its bytes with the scales after them, the cycle from which it is
ready, and the products of it already begun. -/
structure Tile where
  fmt : Nat
  bytes : List Byte
  readyAt : Nat
  deriving DecidableEq, Repr

/-- One lane's part of the MXE (R238, R242, R243). -/
structure MxeLane where
  /-- The four accumulator tiles: FP32 bits by tile × 1,024 + row × 32 + column; an unlisted element is +0. -/
  acc : Table (BitVec 32)
  /-- Latch tiles landed, oldest first (at most two with `granted`). -/
  latch : List Tile
  /-- Buffers granted to offers whose tile has not landed. -/
  granted : Nat
  /-- The offer that waits for a free buffer: sender LCN, sending end, format, bytes. -/
  offer : Option (Nat × Nat × Nat × Nat)
  /-- The out buffer: the tile that leaves, its end, and the place in the lane's order of its job. -/
  out : Option Tile
  /-- Its grant has come and its beats leave (R243). -/
  outSent : Bool
  outEnd : Nat
  outOrder : Nat
  deriving DecidableEq, Repr

/-- An empty lane: accumulators +0 (R238). -/
def MxeLane.empty : MxeLane :=
  { acc := [], latch := [], granted := 0, offer := none, out := none, outSent := false, outEnd := 0, outOrder := 0 }

/-- A write that an engine will make: an accumulator tile's new elements, or bytes of a scratchpad (R247, R251). -/
structure EngineWrite where
  lane : Nat
  entry : Nat
  /-- The place of its job in the lane's order. -/
  order : Nat
  tile : Nat
  addr : Nat
  elems : List (BitVec 32)
  bytes : List Byte
  deriving DecidableEq, Repr

/-- The block's MXE (R235 to R247). -/
structure Mxe where
  entries : Table (Entry MxeJob)
  waiting : List (Pending MxeJob)
  lanes : Table MxeLane
  /-- `mxf` markers placed so far by each lane (R210). -/
  markers : Table Nat
  lastGranted : Nat
  /-- The cycle in which each lane was last granted an entry (R235). -/
  grantedAt : Table Nat
  lastServed : Nat
  /-- The core-cycle count from which the array is free (R237). -/
  freeAt : Nat
  /-- Writes still to be made, by number. -/
  writes : Table EngineWrite
  order : Nat
  deriving DecidableEq, Repr

/-- The CPE's transfer in progress (R249 to R251). -/
structure Transfer where
  work : CpeWork
  lane : Nat
  /-- The turn q. -/
  turn : Nat
  /-- Destination bytes, in order, once known. -/
  bytes : List Byte
  /-- The addresses of its line requests. -/
  addrs : List Nat
  /-- Line replies still to come, the bytes of the lines received by source line number, whether one was refused. -/
  left : Nat
  lines : Table (List Byte)
  refused : Bool
  /-- The chunks still to be written, and where writing stopped. -/
  chunks : Nat
  stopped : Option Nat
  /-- The cycle of the last reply. -/
  last : Nat
  deriving DecidableEq, Repr

/-- The block's CPE (R235, R249 to R251). -/
structure Cpe where
  entries : Table (Entry CpeJob)
  waiting : List (Pending CpeJob)
  /-- Each lane's pending work in issue order, with the cycles of issue. -/
  work : Table (List (Nat × CpeWork))
  lastGranted : Nat
  /-- The cycle in which each lane was last granted an entry (R235). -/
  grantedAt : Table Nat
  lastServed : Nat
  current : Option Transfer
  deriving DecidableEq, Repr

/-- A block (R2, R326, R333, R437). -/
structure Block where
  fuse : BitVec 8
  oos : BitVec 8
  rsv : Bool
  rlane : Nat
  rav : Bool
  short : Bool
  /-- L, the live logical lanes (R333). -/
  live : Nat
  /-- The remap entries of logical lanes 0 to 7: PLANE in bits 2:0 and LIVE in bit 3 (R326). -/
  remap : Table (BitVec 4)
  icache : Table CacheLine
  /-- Lines being fetched, and the partition's strands share each fetch (R437). -/
  fetches : List Nat
  mxe : Mxe
  cpe : Cpe
  deriving DecidableEq, Repr

/-- Empty engines. -/
def Mxe.empty : Mxe :=
  { entries := [], waiting := [], lanes := [], markers := [], lastGranted := 7, grantedAt := [], lastServed := 7, freeAt := 0,
    writes := [], order := 0 }

/-- Empty engines. -/
def Cpe.empty : Cpe :=
  { entries := [], waiting := [], work := [], lastGranted := 7, grantedAt := [], lastServed := 7, current := none }

/-- The number of one bits of a byte. -/
def popCount8 (x : BitVec 8) : Nat :=
  (List.range 8).foldl (fun n i => if x.getLsbD i then n + 1 else n) 0

/-- A block as its fuses leave it at module reset: the remap entry of lane k names lane k, live where lane k is fused
live; L counts the fused live lanes (R326, R333). -/
def Block.reset (fuse : BitVec 8) : Block :=
  { fuse := fuse, oos := 0#8, rsv := false, rlane := 0, rav := false, short := false, live := popCount8 fuse,
    remap := (List.range 8).map (fun k => (k, BitVec.ofNat 4 (k + if fuse.getLsbD k then 8 else 0))),
    icache := [], fetches := [], mxe := Mxe.empty, cpe := Cpe.empty }

end Sys2Proof.Machine
end

