-- ==== Sys2Proof/Machine/SliceState.lean ====
section
/-! DEFINITION. The state of a slice and the packets of the fabric (R300 to R314, R336 to R347, R416 to R421). -/

namespace Sys2Proof.Machine

/-- A pan-table entry (R305): W0 to W2 by their fields. -/
structure PanEntry where
  /-- VA ÷ 2 MiB. -/
  basep : Nat
  /-- SIZE ÷ 2 MiB. -/
  pages : Nat
  kind : Nat
  fmt : Nat
  tbl : Bool
  isSealed : Bool
  holder : Nat
  ncon : Nat
  done : Nat
  /-- A master seal request that has arrived and waits for DONE = NCON (R149, R154). -/
  sealing : Option Nat
  deriving DecidableEq, Repr

/-- A contribution: the lane values, or an MX block, and its sequence number (R149, R150, R152). -/
inductive Contribution where
  | acc (fmt lane : BitVec 2) (x : BitVec 512)
  | mx (fmt : Nat) (scale : BitVec 8) (x : BitVec 512)
  deriving DecidableEq, Repr

/-- What a request to a slice or to host memory does (R311). -/
inductive ReqKind where
  /-- Read `n` bytes; `cap` also reads the granule's tag and clears it if the capability is linear, unless `keep`
  (R138). -/
  | read (n : Nat) (cap keep : Bool)
  /-- Write bytes; `tag` sets the granule's tag. -/
  | write (bytes : List Byte) (tag : Bool)
  /-- A scalar atomic: operation, width in bits, operand and the expected value of `cas` (R146). -/
  | amo (op bits : Nat) (b expect : Word)
  /-- A vector atomic on 32 bytes (R148). -/
  | vamo (op bits : Nat) (b : BitVec 512)
  /-- A contribution with its slot's CSEQ (R149, R152). -/
  | contribute (x : Contribution) (cseq : Word)
  deriving DecidableEq, Repr

/-- Who asked (R313, R251, R437). -/
inductive Requester where
  /-- A strand's far access `id`, part `part`. -/
  | strand (core slot id part : Nat)
  /-- The block's CPE, line `j` of the transfer that began at `turn`. -/
  | cpe (blk turn j : Nat)
  /-- The block's instruction cache. -/
  | icache (blk line : Nat)
  /-- The host through GCL. -/
  | host
  deriving DecidableEq, Repr

/-- A request at a slice (R311): its arrival, the requester, LCN and partition, the address it names and, once
translated, the frame address. -/
structure Request where
  id : Nat
  who : Requester
  lcn : Nat
  slot : Nat
  part : Nat
  va : Nat
  kind : ReqKind
  arrived : Nat
  /-- The walk still has to end (R308). -/
  walking : Bool
  frame : Nat
  /-- The packet's source position, to which the reply goes. -/
  host : Bool
  /-- It arrived while TRAIN was 1: its checks are made when TRAIN returns to 0 (R417). -/
  unchecked : Bool
  /-- The owner of the job whose strand or engine asked (R432). -/
  payer : Option Nat := none
  deriving DecidableEq, Repr

/-- A request placed in a slot (R311, R312): the request, its performance point and its number in its group. -/
structure Placed where
  req : Request
  perform : Nat
  member : Nat
  width : Nat
  deriving DecidableEq, Repr

/-- The result of a request: bytes read with the granule's tag, or the refusing trap's cause (R309). -/
inductive Result where
  | ok (bytes : List Byte) (tag : Bool)
  | nack (cause : BitVec 6)
  deriving DecidableEq, Repr

/-- A reply waiting to leave a slice. -/
structure SliceOut where
  req : Request
  result : Result
  /-- It answers a request that was placed; the NACK of a refused request does not (R309, R416). -/
  placed : Bool
  deriving DecidableEq, Repr

/-- The claim of rounds by zeroing, conversion or a pattern test (R314, R418). -/
structure Claim where
  base : Nat
  rounds : List Nat
  deriving DecidableEq, Repr

/-- A pan that `pmint` is entering: the operation, the entry it takes and what it will hold. It enters the table
at every slice of the set once each has accepted it, so that a refused `pmint` makes no entry at any slice (R228,
R305). -/
structure Mint where
  op : Nat
  entry : Nat
  pan : PanEntry
  deriving DecidableEq, Repr

/-- A slice (R305 to R314, R416). -/
structure Slice where
  /-- The pan table by entry number 0 to 1,023 (R305). -/
  pans : Table PanEntry
  /-- The entries that a `pmint` still waiting for other slices will take (R228, R305). -/
  mints : List Mint
  /-- Contribution marks by pan base page, LCN and slot: (base, LCN × 8 + slot, CSEQ) (R150, R306). -/
  marks : List (Nat × Nat × Word)
  /-- The TLB by index: the tag and the 2 MiB frame (R308). -/
  tlb : Table (Nat × Nat)
  /-- Walks in progress: the 2 MiB page number, and the levels read so far (R308). -/
  walks : List (Nat × Nat)
  queue : List Request
  placed : Table Placed
  /-- Reserved slots: (round, slot) pairs (R311). -/
  reserved : List (Nat × Nat)
  claims : List Claim
  /-- Lines held by a reservation, by frame line, with the placed request's number (R147). -/
  lines : List (Nat × Nat)
  outs : Table SliceOut
  /-- Values read by reservations until their write (R147), by placed number. -/
  held : Table (List Byte)
  /-- The input that entered last when both competed: true for the host spine (R311). -/
  lastHost : Bool
  /-- One more than the cycle of the last contest of the two inputs; 0 before the first (R311). -/
  contest : Nat
  /-- The cycle in which a request last entered. -/
  lastEntry : Nat
  /-- A round of the schedule is on the agenda. -/
  armed : Bool
  tctl : Word
  tstat : Word
  pass0 : Word
  pass1 : Word
  seed : Word
  ldly : Table Word
  repair : Word
  /-- The 512 words of the DRAM row that pattern tests use (R418). -/
  testRow : List Word
  /-- The words of the last pattern test, to be stored when it ends (R418). -/
  pending : Option (Word × Word)
  /-- The channel failed training and its slice serves nothing (R424). -/
  failed : Bool
  /-- The slice controller's new image is being switched in: requests wait as they do while TRAIN = 1 (R417, R434). -/
  serving : Bool := false
  deriving DecidableEq, Repr

/-- A slice at module reset (R305, R308, R416). -/
def Slice.reset : Slice :=
  { pans := [], mints := [], marks := [], tlb := [], walks := [], queue := [], placed := [], reserved := [], claims := [],
    lines := [], outs := [], held := [], lastHost := true, contest := 0, lastEntry := 0, armed := false, tctl := 0#64,
    tstat := 0#64, pass0 := 0#64, pass1 := 0#64, seed := 1#64, ldly := [], repair := 0#64, testRow := [],
    pending := none, failed := false, serving := false }

/-- Do requests to the slice wait: its channel is in training, or its controller in service (R417, R434)? The slice of an unusable channel refuses them
(R424). -/
def Slice.waits (x : Slice) : Bool := !x.failed && (x.tctl.getLsbD 0 || x.serving)

end Sys2Proof.Machine
end

