-- ==== Sys2Proof/Machine/FabricState.lean ====
section
/-! DEFINITION. The packets of the two networks, the die clock managers, the optical ports and the items they carry
(R266, R273, R280, R336 to R347, R355, R402 to R408). -/

namespace Sys2Proof.Machine

/-- Where a packet goes. -/
inductive Dest where
  /-- A logical lane, by LCN (R331). -/
  | lane (lcn : Nat)
  /-- A slice, by number (R338). -/
  | slice (n : Nat)
  /-- A router at (x, y), for its device window or its block's remap table (R225, R343). -/
  | router (x y : Nat)
  /-- The clock manager of a die, reached at the router of its root (R343, R348). -/
  | manager (die : Nat)
  /-- The launch head or rake head of the sender's partition (R266, R280). -/
  | head
  /-- An optical port by the sender's tap (R401). -/
  | port (k : Nat)
  /-- The partition's host function (R413) or host memory (R410), by the unit's tap. -/
  | host
  deriving DecidableEq, Repr

/-- A pan-table operation as it travels (R314). -/
inductive TableReq where
  /-- Set the holder of the pan that covers `va` (R197, R262). -/
  | holder (va lcn : Nat)
  /-- `cfrz`: the capability's base and top (R117). -/
  | freeze (base top : Nat)
  /-- A contributor's done (R153). -/
  | done (va : Nat)
  /-- `pmint` of a kind that slices enter (R228). -/
  | mint (va size kind fmt ncon holder : Nat)
  /-- `pmint` of a contributor (R228). -/
  | check (va size : Nat)
  /-- Master seal: result format, kind frozen or not, rounding mode (R154). -/
  | master (va fmt : Nat) (frozen : Bool) (mode : Nat)
  deriving DecidableEq, Repr

/-- The address that a pan-table operation names. -/
def TableReq.va : TableReq → Nat
  | .holder va _ => va
  | .freeze base _ => base
  | .done va => va
  | .mint va _ _ _ _ _ => va
  | .check va _ => va
  | .master va _ _ _ => va

/-- A record entry as it travels to an initiator (R257, R269): LCN, slot, END, WAIT and the word. -/
abbrev RakeEntry := Nat × Nat × Nat × Nat × Word

/-- What a packet carries. -/
inductive Body where
  /-- A message or offer to an end, from an LCN and end (R194, R195). -/
  | message (toEnd fromLcn fromEnd : Nat) (x : Payload)
  /-- An acknowledgement of a message (R197). -/
  | ack (toEnd : Nat)
  /-- The release that ends a bulk offer (R199). -/
  | release (toEnd : Nat)
  /-- A NACK of a message or offer; `absent` where a final router gave it (R367). -/
  | nack (toEnd : Nat) (absent : Bool)
  /-- The answer to a notice of a launch head: its queue, the end that answers, the notice's word, and whether the notice was
  taken (R284). -/
  | noticeAnswer (queue fromEnd : Nat) (word : Word) (taken : Bool)
  /-- A part of a longer transfer between cores, or an order of the head, which becomes an event where it lands: the event, and
  its operands, of which `a` is the core that it reaches (R200, R219, R375, R378). -/
  | leg (event : Instr) (arg : Operands)
  /-- A grant of a tile offer to the sending end (R243). -/
  | grant (toEnd : Nat)
  /-- A tile's beats to the receiving end (R243). -/
  | tile (toEnd : Nat) (x : Tile)
  /-- A request to a slice or to host memory (R311, R410). -/
  | request (r : Request)
  /-- Its reply (R312, R309). -/
  | reply (who : Requester) (x : Result)
  /-- A pan-table request of a core's operation (R314). -/
  | table (core id : Nat) (x : TableReq)
  /-- Its reply: the slice, and the refusing trap, if any (R314). -/
  | tableReply (id slice : Nat) (refused : Option Trap)
  /-- A device-window access: the window address, size in bytes, a store's value, and the strand's access (R343). -/
  | device (core slot id ea size : Nat) (write : Option Word)
  /-- Its reply: the value, or refused (R343). -/
  | deviceReply (slot id : Nat) (x : Option Word)
  /-- A remap write (R225). -/
  | remap (core slot block lane : Nat) (entry : BitVec 4)
  /-- Its acknowledgement. -/
  | remapAck (slot : Nat)
  /-- A rake probe along an edge: the prober (physical core and slot), its end, and the edge (R266). -/
  | probe (id : ProbeId) (core slot fromEnd : Nat) (edge : Edge)
  /-- A rake echo to a prober: 0 YES, 1 NO, 2 BUSY, and the answering strand (R266). -/
  | echo (id : ProbeId) (slot answer : Nat) (child : Option (Nat × Nat))
  /-- A record entry to the initiator (R266). -/
  | entry (id : ProbeId) (x : RakeEntry)
  /-- A confirm to a child, from its parent (R266). -/
  | confirm (id : ProbeId) (slot : Nat) (parent : Nat × Nat)
  /-- A confirm echo to a parent (R266). -/
  | confirmEcho (id : ProbeId) (slot : Nat) (ok : Bool)
  /-- END to a member (R266). -/
  | fin (id : ProbeId) (slot : Nat) (success : Bool)
  /-- A request for a record number (R266). -/
  | seqReq (id : ProbeId)
  /-- A record number and the delivery token (R266). -/
  | seqGrant (id : ProbeId) (seq : Nat)
  /-- The token back: whether a record was written with the number (R273). -/
  | token (written : Bool)
  /-- A `mig` shipment: the target LCN, the sending core and slot, the record's bytes with the tags of its 16-byte
  granules (R220, R406). -/
  | ship (lcn core slot : Nat) (bytes : List Byte) (tags : NatSet)
  /-- Its accept or refusal (R406). -/
  | shipReply (core slot : Nat) (accepted : Bool)
  deriving DecidableEq, Repr

/-- Where a packet stands (R336, R342). -/
inductive Stage where
  /-- On its way to the router at its position. -/
  | moving
  /-- Waiting at a router or at a final router (R331, R342). -/
  | held
  /-- Leaving its final router toward its end point. -/
  | leaving
  deriving DecidableEq, Repr

/-- A packet in flight (R336): its network, source LCN and partition, destination, the router it stands at or moves
to, the port it arrives by (codes of R340), its flits or beats, and its body. -/
structure Packet where
  mnet : Bool
  srcLcn : Nat
  sp : Nat
  dst : Dest
  x : Nat
  y : Nat
  inPort : Nat
  units : Nat
  stage : Stage
  /-- The physical core it is ejected to, once steered (R331). -/
  phys : Nat
  body : Body
  /-- The owner of the job that runs on the core it comes from (R432). -/
  payer : Option Nat := none
  deriving DecidableEq, Repr

/-- A die clock manager (R355). -/
structure Dcm where
  state : Nat
  orphans : List Nat
  /-- Forwarders that have failed and whose subtree is not rebuilt yet (R352). -/
  failing : List Nat
  failX : Nat
  failY : Nat
  failT : Nat
  release : Nat
  count : Nat
  deriving DecidableEq, Repr

/-- A clock manager at module reset (R355). -/
def Dcm.reset : Dcm := { state := 0, orphans := [], failing := [], failX := 0, failY := 0, failT := 0, release := 0, count := 0 }

/-- An item on an optical port (R402). -/
inductive Item where
  /-- A channel message of a VF, its sender's LCN and end (R404). -/
  | message (vf fromLcn fromEnd : Nat) (x : Payload)
  /-- The acknowledgement or NACK of a far message on a VF. -/
  | ack (vf : Nat)
  | nack (vf : Nat)
  /-- A `mig` shipment: the record's bytes with the tags of its 16-byte granules, the target LCN, the sending core
  and slot (R406). -/
  | ship (vf lcn core slot : Nat) (bytes : List Byte) (tags : NatSet)
  /-- Its accept or refusal, of the partition `sp` here that answers. -/
  | shipReply (sp core slot : Nat) (accepted : Bool)
  /-- A PTP message: its domain, 0 Sync, 1 Follow_Up, 2 Delay_Req, 3 Delay_Resp, its number, and its stamp in PTP time
  (R397). -/
  | ptp (domain kind seqNo stamp : Nat)
  /-- A CLOSE marker (R408). -/
  | marker
  deriving DecidableEq, Repr

/-- A virtual function's configuration and state (R403, R405). -/
structure Vf where
  w0 : Word
  rate : Nat
  burst : Nat
  weight : Nat
  tokens : Nat
  vff : Nat
  queue : List Item
  /-- The owners of the jobs whose strands queued them, in the same order (R432). -/
  payers : List (Option Nat) := []
  /-- Frames of the first item already sent. -/
  sent : Nat
  /-- The LCNs and ends of the messages that are out, oldest first (R404). -/
  out : List (Nat × Nat)
  deriving DecidableEq, Repr

/-- A virtual function at module reset (R403). -/
def Vf.reset : Vf :=
  { w0 := 0#64, rate := 0, burst := 1, weight := 1, tokens := 0, vff := 0, queue := [], sent := 0, out := [] }

/-- An optical port (R403, R405, R407). -/
structure Port where
  /-- 0 closed, 1 training, 2 open, 3 draining, 4 low. -/
  state : Nat
  peerId : BitVec 16
  delay : Nat
  fails : Nat
  retry : Nat
  vfs : Table Vf
  control : List Item
  /-- Frames that arrived in error, to be sent again (R402). -/
  resend : List Item := []
  vp : Nat
  /-- Frames in flight from this port: number and item (R402). -/
  frames : Table Item
  unacked : Nat
  markerSent : Bool
  markerSeen : Bool
  /-- A FRAME_SLOT is on the agenda. -/
  armed : Bool
  /-- A TOKEN_REFILL is on the agenda. -/
  refill : Bool
  /-- The training in progress, so that a later timeout of an earlier one has no effect. -/
  training : Nat
  deriving DecidableEq, Repr

/-- A port at module reset (R407). -/
def Port.reset : Port :=
  { state := 0, peerId := 0#16, delay := 0, fails := 0, retry := 0, vfs := [], control := [], vp := 0, frames := [],
    unacked := 0, markerSent := false, markerSeen := false, armed := false, refill := false, training := 0 }

end Sys2Proof.Machine
end

