-- ==== Sys2Proof/Machine/PartitionState.lean ====
section
/-! DEFINITION. The state of a partition, its launch head, rake head and host function, and of the panel supervisor
(R257, R266 to R273, R280 to R292, R356 to R361, R374, R397, R411, R424 to R434). -/

namespace Sys2Proof.Machine

/-- A launch queue (R280, R281): QCFG's fields and the records held with the cycle of their intake. -/
structure LaunchQueue where
  en : Bool
  pm : Bool
  owner : Nat
  weight : Nat
  records : List (Nat × BitVec 512)
  /-- Messages that wait for room: the sender's LCN, end and record (R280). -/
  waiting : List (Nat × Nat × BitVec 512)
  /-- A host record that waits for room (R412). -/
  hostWaiting : List (BitVec 512)
  deriving DecidableEq, Repr

/-- A queue at partition reset (R281). -/
def LaunchQueue.reset : LaunchQueue :=
  { en := false, pm := false, owner := 0, weight := 1, records := [], waiting := [], hostWaiting := [] }

/-- Where a job stands (R286, R374, R375, R378). -/
inductive JobState where
  | pending
  | running
  | saving
  | preempted
  | restoring
  deriving DecidableEq, Repr

/-- A lane of a pre-empted job whose core was contained during its save, with a reserve and a current crystal: it is restored
from the crystal at the resume (R376, R383, R386). The retired physical lane, whether the retirement is hidden, and the crystal
and its log. -/
structure KeptLane where
  lcn : Nat
  old : Nat
  hidden : Bool
  crystal : Crystal
  deriving DecidableEq, Repr

/-- A selected job (R286, R287, R292): its record, queue, owner, origin in partition block coordinates, the members
(physical cores), those not yet finished, saved or restored, the save area, the area registered for a recall (0 for none),
and who waits for a command's end. -/
structure Job where
  id : Nat
  record : BitVec 512
  queue : Nat
  owner : Nat
  state : JobState
  ox : Nat
  oy : Nat
  members : List Nat
  left : List Nat
  /-- The cycle in which its selection and placement have taken their time (R291). -/
  placeFrom : Nat
  save : Nat
  recallArea : Nat
  /-- The issue cycles of the sends that its images hold: LCN, end and cycle (R42, R375). -/
  sent : List (Nat × Nat × Nat)
  /-- The lanes that a resume restores from their crystals (R376, R386). -/
  kept : List KeptLane
  /-- The packets that the final routers hold until its resume, for members contained in their save (R371, R376). -/
  held : List Nat
  /-- The LCN and end of the command to acknowledge. -/
  command : Option (Nat × Nat)
  /-- The recall that pre-empted it, if one did. -/
  recalled : Bool
  deriving DecidableEq, Repr

/-- A notice being delivered: its number, the LCN and end it goes to, its queue and word, and the number of its last
sending while no answer has come (R284). -/
structure Notice where
  id : Nat
  lcn : Nat
  toEnd : Nat
  queue : Nat
  word : Word
  sent : Option Nat
  deriving DecidableEq, Repr

/-- The rake head (R266, R269, R273): the record counter, whether the token is out, the waiting SEQ-REQs, the held
records of TYPE 0x02 to 0x06 and the one being delivered. -/
structure RakeHead where
  seq : Nat
  tokenOut : Bool
  waiting : List ProbeId
  held : List (Nat × List Word)
  current : Option Record
  deriving DecidableEq, Repr

/-- The host function (R411). -/
structure HostFunction where
  qst : Nat
  qnum : Nat
  pdlcn : Nat
  pdend : Nat
  pst : Nat
  /-- The pan capabilities the host holds (R413). -/
  held : List CReg
  deriving DecidableEq, Repr

/-- A partition (R356, R426, R281, R286, R307, R395). -/
structure Partition where
  en : Bool
  base : Nat
  home : Nat
  lent : Nat
  evLcn : Nat
  evEnd : Nat
  evv : Bool
  /-- Level-1 and level-2 page tables: level-1 index, and frame address of a level-2 table ÷ 8 (R307). -/
  pt1 : Table Word
  pt2 : Table Word
  /-- PPWR (R426): the mode in force, the mode stored, PEND and CAP. -/
  mode : Nat
  wanted : Nat
  pend : Bool
  cap : Bool
  /-- m of the mode in force (R395). -/
  m : Nat
  /-- The mode that the mode in force followed, and its m: the rounds before m began in it (R396). -/
  wasMode : Nat
  wasM : Nat
  /-- Crystal mode is on (R13). -/
  crystalMode : Bool
  queues : Table LaunchQueue
  /-- VF[o] and V (R286). -/
  vf : Table Nat
  vtime : Nat
  jobs : Table Job
  /-- The head is busy until this core cycle, with the intakes and completions that go before a dispatch that is due; how many
  these are, and how many wait behind the dispatch (R291). -/
  busy : Nat
  passed : Nat
  late : Nat
  notices : Table Notice
  rake : RakeHead
  hostFn : HostFunction
  /-- Firewall drops and the first dropped header: destination, source LCN and partition (R336, R358). -/
  drops : Nat
  firstDrop : Option (Dest × Nat × Nat)
  /-- A recall of the highest lent unit: 0 none, 1 its jobs are being pre-empted, 2 its final routers NACK (R379). -/
  recalling : Nat
  deriving DecidableEq, Repr

/-- A rake head at reset (R269). -/
def RakeHead.reset : RakeHead := { seq := 0, tokenOut := false, waiting := [], held := [], current := none }

/-- A host function at reset (R411). -/
def HostFunction.reset : HostFunction := { qst := 0, qnum := 0, pdlcn := 0, pdend := 0, pst := 0, held := [] }

/-- A partition at module reset (R281, R286, R356, R426). -/
def Partition.reset : Partition :=
  { en := false, base := 0, home := 0, lent := 0, evLcn := 0, evEnd := 0, evv := false, pt1 := [], pt2 := [],
    mode := 0, wanted := 0, pend := false, cap := false, m := 0, wasMode := 0, wasM := 0, crystalMode := false, queues := [], vf := [],
    vtime := 0, jobs := [], busy := 0, passed := 0, late := 0, notices := [], rake := RakeHead.reset,
    hostFn := HostFunction.reset, drops := 0, firstDrop := none, recalling := 0 }

/-- A firmware image: its bytes, the header of R429 and the body, and the modulus of the key it is signed under. -/
structure Image where
  key : BitVec 4096
  bytes : List Byte
  deriving DecidableEq, Repr

/-- The identity key pair: the modulus and the private exponent (R428, R430). -/
structure KeyPair where
  modulus : BitVec 4096
  exponent : BitVec 4096
  deriving DecidableEq, Repr

/-- A new image being switched into a part: its number in the list of switches, the part (TARGET × 2^16 + index) and the
image (R434). -/
structure Switch where
  id : Nat
  part : Nat
  image : Nat
  deriving DecidableEq, Repr

/-- The meters of an owner (R432). -/
structure Meters where
  core : Nat
  mxe : Nat
  hbm : Nat
  opt : Nat
  deriving DecidableEq, Repr

/-- The panel supervisor (R397, R398, R424 to R434). -/
structure Supervisor where
  /-- The boot partition is active (R425). -/
  boot : Bool
  /-- The last step of the bring-up completed; stopped with the image that failed (R424). -/
  stepDone : Nat
  failedImage : Option Nat
  /-- Configuration words held until step 7 (R425). -/
  heldWords : List (Nat × Word)
  /-- PTSTAT's fields (R398). -/
  ptState : Nat
  gm : Bool
  sport : Nat
  offs : BitVec 16
  rate : BitVec 16
  domain : BitVec 8
  epoch : BitVec 96
  /-- The PTP exchange in progress: number, t1, t2 and t3 in PTP time; successive good offsets; last Sync (R397, R398). -/
  ptpSeq : Nat
  ptpT1 : Option Nat
  ptpT2 : Option Nat
  ptpT3 : Option Nat
  /-- The mean path delay last measured, in 1/16 cycles. -/
  ptpMean : Option Int
  good : Nat
  lastSync : Nat
  alarm : Bool
  alarms : Nat
  /-- The key store: the identity key pair; none before one is generated and when zeroised (R430, R431). -/
  key : Option KeyPair
  bootId : Word
  images : Table Image
  /-- The running image of each part: part number to image number. -/
  running : Table Nat
  /-- The images being switched in, oldest first (R434). -/
  switching : List Switch
  /-- What the fuses hold of the vendor root key: the SHA-512 digest of its modulus, first byte lowest (R429). -/
  rootDigest : BitVec 512
  /-- The fused minimum VERSION of each TARGET (R429). -/
  minimum : Table Nat
  meters : Table Meters
  readouts : Nat
  thermal : Bool
  /-- The panel's live cores, as the fuses leave them (R3). -/
  liveCores : Nat
  corrected : Nat
  /-- What the mailbox last answered: bytes, or refused. -/
  answer : Option (List Byte)
  refused : Bool
  deriving DecidableEq, Repr

/-- The supervisor at module reset. -/
def Supervisor.reset : Supervisor :=
  { boot := true, stepDone := 0, failedImage := none, heldWords := [], ptState := 0, gm := false, sport := 0,
    offs := 0#16, rate := 0#16, domain := 0#8, epoch := 0#96, ptpSeq := 0, ptpT1 := none, ptpT2 := none,
    ptpT3 := none, ptpMean := none, good := 0, lastSync := 0, alarm := false, alarms := 0, key := none, bootId := 0#64, images := [],
    running := [], switching := [], rootDigest := Config.rootDigest, minimum := [], meters := [], readouts := 0, thermal := false, liveCores := 442368, corrected := 0, answer := none,
    refused := false }

end Sys2Proof.Machine
end

