-- ==== Sys2Proof/Machine/Coord.lean ====
section
/-! DEFINITION. Names and coordinates: dies, blocks, lanes, columns and rows, units and slices (R5 to R9), the
default clock tree (R348) and the reset state of a core (R36, R40, R278). A core is keyed by its physical number
(die × 768 + block) × 8 + lane, a block by die × 768 + block. -/

namespace Sys2Proof.Machine

/-- The number of cores of the panel (R7). -/
def coreCount : Nat := 442368

/-- The column x of a core number (R8). -/
def coordX (n : Nat) : Nat := (n / 6144) % 12 * 64 + (n / 8) % 768 % 32 * 2 + n % 2

/-- The row y of a core number (R8). -/
def coordY (n : Nat) : Nat := (n / 6144) / 12 * 96 + (n / 8) % 768 / 32 * 4 + n % 8 / 2

/-- The core number at (x, y) (R8). -/
def coreAt (x y : Nat) : Nat :=
  let die := y / 96 * 12 + x / 64
  let block := y % 96 / 4 * 32 + x % 64 / 2
  (die * 768 + block) * 8 + (y % 96 % 4 * 2 + x % 2)

/-- The unit of a column (R9). -/
def unitOf (x : Nat) : Nat := x / 32

/-- The column and edge router row a slice serves (R9, R338). -/
def sliceX (n : Nat) : Nat := n % 768
/-- The row of a slice's edge router (R338). -/
def sliceY (n : Nat) : Nat := if n < 768 then 0 else 575

/-- The default tree's node of a core (R348, R349). -/
def defaultTree (n : Nat) : TreeNode :=
  let cx := coordX n % 64
  let cy := coordY n % 96
  let dx := if cx ≤ 32 then 32 - cx else cx - 32
  let dy := if cy ≤ 48 then 48 - cy else cy - 48
  let pport : Nat := if cy < 48 then 2 else if 48 < cy then 0 else if cx < 32 then 1 else 3
  let north : Nat := if cy ≤ 48 ∧ 0 < cy then 1 else 0
  let south : Nat := if 48 ≤ cy ∧ cy < 95 then 4 else 0
  let east : Nat := if cy = 48 ∧ 32 ≤ cx ∧ cx < 63 then 2 else 0
  let west : Nat := if cy = 48 ∧ cx ≤ 32 ∧ 0 < cx then 8 else 0
  { pport := BitVec.ofNat 2 (if cx = 32 ∧ cy = 48 then 0 else pport), root := decide (cx = 32 ∧ cy = 48),
    child := BitVec.ofNat 4 (north + south + east + west), depth := dx + dy, state := .run, stoppedAt := 0, heldFor := 0 }

/-- A core at module reset (R36, R40, R43, R134, R189, R278). -/
def Core.reset (n : Nat) : Core :=
  { slots := [], vacated := [], cseq := [], lcn := n, grank := 0, gsize := 0, gorg := 0, clat := 0#32, clatOf := (0, 0), tvec := 0#64,
    rakeT := 0x10000#32, pcid := BitVec.ofNat 20 (n % 8 + n / 8 % 768 * 8 + n / 6144 * 8192), toff := 0#64,
    tscale := 0x100000000#64, sp := [], spTags := [], fe := [], engineOld := (0, []), ends := [], bmem := 0#16, barr := 0#17,
    dirty := 0#64, cleanref := 0#64, phase := (coordX n + coordY n) % 8, run := .run, replaces := none, tree := defaultTree n,
    record := none, gathers := [], engaged := [], crystal := Crystal.none, tableOps := [], job := 0, invalid := false, wakeLeft := 0, meterFrom := none }

end Sys2Proof.Machine
end

