-- ==== Sys2Proof/Machine/State.lean ====
section
/-! DEFINITION. The state of the panel, the faults and refusals, and the state after module reset. Every field is
plain data; a core, block, slice, partition, port or die that a table does not list is at its reset value. -/

namespace Sys2Proof.Machine

/-- An event that is to come: the panel time it falls due, its place in that cycle (`eventPhase`), the partition whose
clock its delay counts (none: nominal cycles), the row of the opcode table it is and its operands. -/
structure Due where
  time : Nat
  phase : Nat
  dom : Option Nat
  event : Instr
  arg : Operands
  deriving DecidableEq, Repr

/-- The instruction that is being executed: the issuing core and slot, its address, its length in bytes and bits (R89),
and whether it is the second half of a relaxed pair (R69). -/
structure Current where
  core : Nat
  slot : Nat
  pc : Word
  len : Nat
  bits : BitVec 48
  relaxed : Bool
  deriving DecidableEq, Repr

/-- The panel. -/
structure State where
  /-- `ptime`: one count for the panel (R354, R395). -/
  now : Nat
  cores : Table Core
  blocks : Table Block
  slices : Table Slice
  parts : Table Partition
  ports : Table Port
  dcms : Table Dcm
  /-- Route tables of the CNet and MNet routers, by y × 768 + x and entry (R340). -/
  routesC : Table (Table Word)
  routesM : Table (Table Word)
  /-- HBM bytes, keyed by slice × 2^52 + the slice's frame address; an unlisted byte reads 0. -/
  hbm : Memory
  /-- Capability tags of HBM granules, keyed by (slice × 2^52 + frame address) ÷ 16 (R134). -/
  hbmTags : NatSet
  /-- Host memory; an unlisted byte reads 0. -/
  host : Memory
  /-- The fuses of each block, 0xFF where unlisted (R333). -/
  fuses : Table (BitVec 8)
  sup : Supervisor
  packets : Table Packet
  agenda : List Due
  /-- Events of cores whose clock is held, until their release (R351, R353). -/
  parked : List Due
  cur : Current
  /-- The operands of the event that is being performed. -/
  arg : Operands
  nextId : Nat
  /-- The model's own counter of free values. -/
  freeCtr : Nat
  deriving DecidableEq, Repr

/-- Why a step stops with a fault. -/
inductive Fault where
  /-- No rule of the spec gives the machine a next state here. Raised by nothing in this model: every row of the
  opcode table answers a next state. Safe: it could only stop a run. -/
  | noRule
  deriving DecidableEq, Repr

/-- Why a step is refused. -/
inductive Refusal where
  /-- The instruction has no meaning in the model yet; raised by an arm of `exec` that names it. Safe: the run
  stops. -/
  | notModelled (mnemonic : String)
  deriving DecidableEq, Repr

/-- No instruction is being executed. -/
def Current.none : Current := { core := 0, slot := 0, pc := 0#64, len := 4, bits := 0#48, relaxed := false }

/-- The panel right after module reset: `ptime` starts at the zero pulse, fuses stand in BCFG, the boot partition is
active (R354, R424, R425). -/
def State.reset : State :=
  { now := 0, cores := [], blocks := [], slices := [], parts := [], ports := [], dcms := [], routesC := [],
    routesM := [], hbm := [], hbmTags := [], host := [], fuses := [], sup := Supervisor.reset, packets := [],
    agenda := [], parked := [], cur := Current.none, arg := Operands.none, nextId := 1, freeCtr := 0 }

end Sys2Proof.Machine
end

