-- ==== Sys2Proof/Machine/Clock.lean ====
section
/-! DEFINITION. Access to the tables of the state, the relation of core cycles to `ptime`, and the agenda of events
(R278, R356, R395, R396). -/

namespace Sys2Proof.Machine

/-- The core of physical number `p`. -/
def State.core (s : State) (p : Nat) : Core := s.cores.getD p (Core.reset p)

/-- Replace a core. -/
def State.setCore (s : State) (p : Nat) (c : Core) : State := { s with cores := s.cores.set p c }

/-- Change a core. -/
def State.modCore (s : State) (p : Nat) (f : Core → Core) : State := s.setCore p (f (s.core p))

/-- The fuses of a block (R333). -/
def State.fuse (s : State) (b : Nat) : BitVec 8 := s.fuses.getD b 0xFF#8

/-- The block of number `b`. -/
def State.block (s : State) (b : Nat) : Block := s.blocks.getD b (Block.reset (s.fuse b))

/-- Replace a block. -/
def State.setBlock (s : State) (b : Nat) (x : Block) : State := { s with blocks := s.blocks.set b x }

/-- Change a block. -/
def State.modBlock (s : State) (b : Nat) (f : Block → Block) : State := s.setBlock b (f (s.block b))

/-- The slice of number `n`. -/
def State.slice (s : State) (n : Nat) : Slice := s.slices.getD n Slice.reset

/-- Replace a slice. -/
def State.setSlice (s : State) (n : Nat) (x : Slice) : State := { s with slices := s.slices.set n x }

/-- Change a slice. -/
def State.modSlice (s : State) (n : Nat) (f : Slice → Slice) : State := s.setSlice n (f (s.slice n))

/-- Partition `sp`; while the boot partition is active, SP 0 has home units 0 to 23 (R425). -/
def State.part (s : State) (sp : Nat) : Partition :=
  let x := s.parts.getD sp Partition.reset
  if s.sup.boot && sp == 0 then { x with base := 0, home := 24, lent := 0 } else x

/-- Replace a partition. -/
def State.setPart (s : State) (sp : Nat) (x : Partition) : State := { s with parts := s.parts.set sp x }

/-- Change a partition. -/
def State.modPart (s : State) (sp : Nat) (f : Partition → Partition) : State :=
  s.setPart sp (f (s.parts.getD sp Partition.reset))

/-- Port `k`. -/
def State.port (s : State) (k : Nat) : Port := s.ports.getD k Port.reset

/-- Change a port. -/
def State.modPort (s : State) (k : Nat) (f : Port → Port) : State := { s with ports := s.ports.set k (f (s.port k)) }

/-- The clock manager of a die. -/
def State.dcm (s : State) (die : Nat) : Dcm := s.dcms.getD die Dcm.reset

/-- Change a clock manager. -/
def State.modDcm (s : State) (die : Nat) (f : Dcm → Dcm) : State :=
  { s with dcms := s.dcms.set die (f (s.dcm die)) }

/-- Is partition `sp` in being: enabled, or the boot partition while it is active (R356, R425)? -/
def State.partActive (s : State) (sp : Nat) : Bool :=
  if s.sup.boot then sp == 0 else (s.part sp).en

/-- Does the partition hold unit `u`, home or lent (R357)? -/
def Partition.holds (x : Partition) (u : Nat) : Bool := decide (x.base ≤ u) && decide (u < x.base + x.home + x.lent)

/-- The bring-up stopped at an image that failed: only the mailbox answers (R424). -/
def State.dead (s : State) : Bool := s.sup.failedImage.isSome

/-- The partition that holds unit `u` (R356, R358). -/
def State.unitPart (s : State) (u : Nat) : Option Nat :=
  (List.range 20).find? (fun sp => s.partActive sp && (s.part sp).holds u)

/-- The partition of a physical core: that of its unit. -/
def State.partOf (s : State) (p : Nat) : Option Nat := s.unitPart (unitOf (coordX p))

/-- `ptime` of the core cycle with count `k` in a mode entered at `m` (R395). -/
def timeOfCount (mode m k : Nat) : Nat :=
  if mode = 1 then m + (k - m) * 5 / 4 else if mode = 2 then m + (k - m) * 5 / 3 else k

/-- The core-cycle count at panel time `t`: the latest core cycle that has begun (R395). -/
def countOfTime (mode m t : Nat) : Nat :=
  if mode = 1 then m + (4 * (t - m) + 3) / 5 else if mode = 2 then m + (3 * (t - m) + 2) / 5 else t

/-- The mode in force and its m for a domain (R395): that of the partition; units of no partition run in Low (R426), and
the model counts their cycles from `ptime` 0. -/
def State.clockOf (s : State) (dom : Option Nat) : Nat × Nat :=
  match dom with
  | some sp => ((s.part sp).mode, (s.part sp).m)
  | none => (2, 0)

/-- The core-cycle count now in a domain (R395). -/
def State.count (s : State) (dom : Option Nat) : Nat :=
  let (mode, m) := s.clockOf dom
  countOfTime mode m s.now

/-- The panel time of core cycle `k` of a domain. -/
def State.timeAt (s : State) (dom : Option Nat) (k : Nat) : Nat :=
  let (mode, m) := s.clockOf dom
  timeOfCount mode m k

/-- The place of an event within its cycle (R44, R212, R260, R305, R316, R369, R409, R426). Strands issue at place 10;
what closes a pan to requests acts before the requests of its cycle (R149, R305). -/
def eventPhase : Instr → Nat
  | .moduleReset => 0
  | .rerootRelease => 0
  | .modeChange => 1
  | .uncorrectableSoftError => 1
  | .coreRetirement => 1
  | .bcfgOosWrite => 1
  | .reserveTake => 1
  | .reserveRelease => 1
  | .reroot => 1
  | .meterReadout => 1
  | .barrierRelease => 2
  | .resumeRelease => 2
  | .tokenRefill => 2
  | .mxeJobCompletion => 2
  | .cpeJobCompletion => 2
  | .pullCompletion => 2
  | .outBufferFree => 2
  | .slotPerform => 3
  | .reservedWrite => 3
  | .activeRoundStart => 4
  | .fallowRound => 4
  | .refreshRound => 4
  | .sliceReply => 4
  | .frameSlot => 5
  | .mxeStepBegin => 6
  | .cpeTurn => 11
  | .queueEntryGrant => 10
  | .heldPacketRelease => 19
  | .doneMessage => 18
  | .masterSealRequest => 18
  | .sealBegin => 18
  | .freezeRequest => 18
  | .accumulatorWrite => 12
  | .drainGranuleWrite => 12
  | .cpeChunkWrite => 13
  | .logWrite => 14
  | .fenceConditionMet => 31
  | .wtuTargetReached => 2
  | .altDeadline => 30
  | .rakeThreshold => 30
  | .preemptionMessage => 30
  | .wakeHint => 40
  | .lowPowerEnter => 41
  | .sluiceClose => 41
  | .ppwrWrite => 41
  | _ => 20

/-- Put an event into a list sorted by time and place; of equal ones the earlier posted stands first. -/
def insertDue : List Due → Due → List Due
  | [], d => [d]
  | e :: rest, d =>
    if d.time < e.time ∨ (d.time = e.time ∧ d.phase < e.phase) then d :: e :: rest else e :: insertDue rest d

/-- Post an event at a panel time, its delay counted by the clock of `dom`. -/
def State.postAt (s : State) (dom : Option Nat) (t : Nat) (i : Instr) (o : Operands) : State :=
  { s with agenda := insertDue s.agenda { time := t, phase := eventPhase i, dom := dom, event := i, arg := o } }

/-- The place of an event that had to wait for a later cycle: before the ones that arrive in that cycle, so that the
order of arrival is kept (R311, R413). -/
def delayedPhase : Nat := 19

/-- Post an event that found no place in this cycle to the next one, ahead of its arrivals. -/
def State.postDelayed (s : State) (dom : Option Nat) (i : Instr) (o : Operands) : State :=
  let d : Due := { time := s.timeAt dom (s.count dom + 1), phase := delayedPhase, dom := dom, event := i, arg := o }
  { s with agenda := insertDue s.agenda d }

/-- Post an event `n` core cycles of `dom` from now. -/
def State.post (s : State) (dom : Option Nat) (n : Nat) (i : Instr) (o : Operands) : State :=
  s.postAt dom (s.timeAt dom (s.count dom + n)) i o

/-- Post an event `n` core cycles of core `p` from now. -/
def State.postCore (s : State) (p n : Nat) (i : Instr) (o : Operands) : State := s.post (s.partOf p) n i o

/-- The core-cycle count of core `p` now. -/
def State.countCore (s : State) (p : Nat) : Nat := s.count (s.partOf p)

/-- A fresh number. -/
def State.fresh (s : State) : Nat × State := (s.nextId, { s with nextId := s.nextId + 1 })

/-- The next value of the free-value counter. -/
def State.free (s : State) : Nat × State := (s.freeCtr, { s with freeCtr := s.freeCtr + 1 })

/-- The round of a panel slice at a core-cycle count (R310). -/
def roundOf (k : Nat) : Nat := k / 64

/-- The partition whose clock a slice keeps: that of its unit (R310, R396). -/
def State.sliceDom (s : State) (n : Nat) : Option Nat := s.unitPart (unitOf (sliceX n))

end Sys2Proof.Machine
end

