-- ==== Sys2Proof/Machine/Meter.lean ====
section
/-! DEFINITION. The usage meters of the panel supervisor (R432). -/

namespace Sys2Proof.Machine

/-- Meters of an owner that has been charged nothing. -/
def Meters.zero : Meters := { core := 0, mxe := 0, hbm := 0, opt := 0 }

/-- A meter saturates at 2^64 − 1 (R432). -/
def satAdd (a b : Nat) : Nat := min (a + b) (2 ^ 64 - 1)

/-- The four meters (R432). -/
inductive MeterKind where
  | core
  | mxe
  | hbm
  | opt
  deriving DecidableEq, Repr

/-- Add a charge to one of the meters. -/
def Meters.add (m : Meters) (k : MeterKind) (n : Nat) : Meters :=
  match k with
  | .core => { m with core := satAdd m.core n }
  | .mxe => { m with mxe := satAdd m.mxe n }
  | .hbm => { m with hbm := satAdd m.hbm n }
  | .opt => { m with opt := satAdd m.opt n }

/-- Charge an owner; what no job does is charged to no one (R432). -/
def State.chargeOwner (s : State) (owner : Option Nat) (k : MeterKind) (n : Nat) : State :=
  match owner with
  | some o => { s with sup := { s.sup with meters := s.sup.meters.set o ((s.sup.meters.getD o Meters.zero).add k n) } }
  | none => s

/-- The owner of the job that runs on core `p`, who was fixed at its selection (R432). -/
def State.ownerOf (s : State) (p : Nat) : Option Nat :=
  (s.partOf p).bind (fun sp => ((s.part sp).jobs.get? (s.core p).job).map (·.owner))

/-- Charge the owner of the job that runs on core `p`. -/
def State.chargeCore (s : State) (p : Nat) (k : MeterKind) (n : Nat) : State := s.chargeOwner (s.ownerOf p) k n

/-- The core cycles that the clock hold in which core `p` stands has lasted: they are no cycles of the core, and no job is
charged for them (R351, R353, R432). -/
def State.heldCycles (s : State) (p : Nat) : Nat :=
  let t := (s.core p).tree
  let d := s.partOf p
  if t.state = .hold ∨ t.state = .adopt then
    t.heldFor + (s.count d - countOfTime (s.clockOf d).1 (s.clockOf d).2 (max (s.clockOf d).2 t.stoppedAt))
  else 0

/-- The CORE meter of core `p`'s job is charged up to now, and no longer runs (R432). -/
def State.meterStop (s : State) (p : Nat) : State :=
  match (s.core p).meterFrom with
  | some k => (s.chargeCore p .core (s.countCore p - k - s.heldCycles p)).modCore p (fun c => { c with meterFrom := none })
  | none => s

/-- The CORE meter of core `p`'s job runs from now on (R432). -/
def State.meterStart (s : State) (p : Nat) : State :=
  s.modCore p (fun c => { c with meterFrom := some (s.countCore p - s.heldCycles p) })

end Sys2Proof.Machine
end

