-- ==== Sys2Proof/Machine/Ops.lean ====
section
/-! DEFINITION. The named operations over registers and memory that every meaning uses: registers, capabilities and
their bounds, scratchpad bytes, tags and full/empty bits, advancing past an instruction, taking an exception and
returning from one (R23 to R45, R102 to R104, R130, R131 to R134, R367 to R371). -/

namespace Sys2Proof.Machine

/-! ## Memory -/

/-- The byte at an address; an unlisted byte reads 0. -/
def Memory.read : Memory → Nat → Byte
  | [], _ => 0#8
  | (j, x) :: rest, a => if j = a then x else if a < j then 0#8 else Memory.read rest a

/-- Write a byte; writing 0 leaves the address unlisted, so the form stays canonical. -/
def Memory.write : Memory → Nat → Byte → Memory
  | [], a, x => if x = 0#8 then [] else [(a, x)]
  | (j, y) :: rest, a, x =>
    if a < j then if x = 0#8 then (j, y) :: rest else (a, x) :: (j, y) :: rest
    else if a = j then if x = 0#8 then rest else (a, x) :: rest
    else (j, y) :: Memory.write rest a x

/-- Every address of `m` is at least `lo`, they rise strictly, and no entry is 0. -/
def Memory.wfFrom : Nat → Memory → Bool
  | _, [] => true
  | lo, (a, x) :: rest => decide (lo ≤ a) && x != 0#8 && Memory.wfFrom (a + 1) rest

/-- The canonical form. -/
def Memory.wf (m : Memory) : Bool := Memory.wfFrom 0 m

/-- The `n` bytes from an address, lowest first. -/
def Memory.readN (m : Memory) (a n : Nat) : List Byte := (List.range n).map (fun i => m.read (a + i))

/-- Write bytes from an address, lowest first. -/
def Memory.writeN : Memory → Nat → List Byte → Memory
  | m, _, [] => m
  | m, a, x :: rest => Memory.writeN (m.write a x) (a + 1) rest

/-- Little-endian value of bytes (R15). -/
def bytesNat : List Byte → Nat
  | [] => 0
  | x :: rest => x.toNat + 256 * bytesNat rest

/-- The `n` low bytes of a number, lowest first (R15). -/
def natBytes : Nat → Nat → List Byte
  | 0, _ => []
  | n + 1, x => BitVec.ofNat 8 x :: natBytes n (x / 256)

/-- The bytes of a vector register (R30). -/
def vecBytes (x : BitVec 512) : List Byte := natBytes 64 x.toNat

/-- A vector register from its bytes (R30). -/
def bytesVec (b : List Byte) : BitVec 512 := BitVec.ofNat 512 (bytesNat b)

/-! ## Registers -/

/-- KIND of a register's `meta` (R24). -/
def CReg.kind (r : CReg) : Nat := (r.mt.extractLsb' 12 4).toNat

/-- PERM (R24). -/
def CReg.perm (r : CReg) : BitVec 12 := r.mt.extractLsb' 0 12

/-- Is permission bit `i` set (R26)? -/
def CReg.has (r : CReg) (i : Nat) : Bool := r.mt.getLsbD i

/-- BEXP (R24). -/
def CReg.bexp (r : CReg) : Nat := (r.mt.extractLsb' 16 6).toNat

/-- The linear kinds: exclusive pan, accumulate master, channel and save area (R25). -/
def linearKind (k : Nat) : Bool := k == 2 || k == 5 || k == 6 || k == 9

/-- The reserved kinds (R25). -/
def reservedKind (k : Nat) : Bool := k == 0 || decide (12 ≤ k)

/-- Does the register hold a linear capability (R25)? -/
def CReg.linear (r : CReg) : Bool := r.tag && linearKind r.kind

/-- The bounds decoded at address `val` with the fields of `mt`, over unbounded integers (R27). -/
def decodeBounds (val mt : Word) : Int × Int :=
  let ex := (mt.extractLsb' 16 6).toNat
  let bm := (mt.extractLsb' 22 21).toNat
  let tm := (mt.extractLsb' 43 21).toNat
  let w := ex + 21
  let am := val.toNat / 2 ^ ex % 2 ^ 21
  let hi := val.toNat / 2 ^ w
  let bh : Int := (hi : Int) - (if am < bm then 1 else 0)
  let th : Int := bh + (if tm < bm then 1 else 0)
  (bh * 2 ^ w + bm * 2 ^ ex, th * 2 ^ w + tm * 2 ^ ex)

/-- A register's base and top (R27). -/
def CReg.bounds (r : CReg) : Int × Int := decodeBounds r.val r.mt

/-- The decode is valid: base ≥ 0 and top ≤ 2^64 (R27). -/
def validBounds (b : Int × Int) : Bool := decide (0 ≤ b.1) && decide (b.2 ≤ 2 ^ 64)

/-- An access of `n` bytes at `a` lies within the capability's bounds (R27). -/
def CReg.inBounds (r : CReg) (a : Int) (n : Nat) : Bool :=
  validBounds r.bounds && decide (r.bounds.1 ≤ a) && decide (a + n ≤ r.bounds.2)

/-- Does `a` lie in the representable region of bounds decoded elsewhere: [base, base + 2^w) and [0, 2^64) (R27)? -/
def CReg.representable (r : CReg) (a : Word) : Bool :=
  let b := r.bounds
  validBounds b && decide (b.1 ≤ a.toNat) && decide ((a.toNat : Int) < b.1 + 2 ^ (r.bexp + 21))

/-- General register `d` as an instruction reads it: c0 and a dead register read as an untagged zero (R23, R39). -/
def Strand.reg (x : Strand) (d : BitVec 5) : CReg :=
  if d = 0#5 ∨ x.dmask.getLsbD d.toNat then CReg.zero else x.c.getD d.toNat CReg.zero

/-- The `val` of general register `d` (R29). -/
def Strand.val (x : Strand) (d : BitVec 5) : Word := (x.reg d).val

/-- Write general register `d`: c0 discards the write, and the write clears the register's `dmask` bit (R23, R39). -/
def Strand.setReg (x : Strand) (d : BitVec 5) (r : CReg) : Strand :=
  if d = 0#5 then x
  else { x with c := x.c.set d.toNat r, dmask := x.dmask &&& ~~~(1#32 <<< d.toNat) }

/-- Set `dmask`: a register it marks reads as an untagged zero until it is written, so a marked register's value is
gone (R39). -/
def Strand.kill (x : Strand) (m : BitVec 32) : Strand :=
  { x with c := x.c.filter (fun e => !m.getLsbD e.1), dmask := m }

/-- Predicate `g` (R33). -/
def Strand.pred (x : Strand) (g : BitVec 3) : Bool := g == 0#3 || x.p.getLsbD g.toNat

/-- Write a predicate; a write to p0 is discarded (R33). -/
def Strand.setPred (x : Strand) (g : BitVec 3) (b : Bool) : Strand :=
  if g = 0#3 then x
  else { x with p := if b then x.p ||| (1#8 <<< g.toNat) else x.p &&& ~~~(1#8 <<< g.toNat) }

/-- Extension register `k` (R34). -/
def Strand.ext (x : Strand) (k : Nat) : Word := x.e.getD k 0#64

/-- `sst.VE` (R37). -/
def Strand.ve (x : Strand) : Bool := x.sst.getLsbD 2

/-- Set `sst.VE` (R31). -/
def Strand.setVe (x : Strand) : Strand := { x with sst := x.sst ||| 4#13 }

/-- Vector register `d`; zero while VE is 0 (R31). -/
def Strand.vec (x : Strand) (d : BitVec 4) : BitVec 512 := if x.ve then x.v.getD d.toNat 0#512 else 0#512

/-- Write vector register `d`. -/
def Strand.setVec (x : Strand) (d : BitVec 4) (w : BitVec 512) : Strand := { x with v := x.v.set d.toNat w }

/-- `sst.MODE`: 0 User, 1 Partition, 3 Machine (R37). -/
def Strand.mode (x : Strand) : Nat := (x.sst.extractLsb' 0 2).toNat

/-- `sst.INH` (R37). -/
def Strand.inh (x : Strand) : Bool := x.sst.getLsbD 12

/-- OR flags into `fmode`: NX bit 0, UF 1, OF 2, DZ 3, NV 4 of the argument (R38). -/
def Strand.raise (x : Strand) (flags : BitVec 5) : Strand :=
  { x with fmode := x.fmode ||| ((flags.setWidth 8) <<< 3) }

/-! ## The executing strand -/

/-- The registers that an empty slot `k` holds (R37, R276, R298, R330). -/
def Core.vacant (c : Core) (k : Nat) : Strand := c.vacated.getD k Strand.atReset

/-- The strand of slot `k` of core `p`; where the slot is empty, the registers it holds. -/
def State.strand (s : State) (p k : Nat) : Strand := (s.core p).slots.getD k ((s.core p).vacant k)

/-- Is slot `k` of core `p` occupied? -/
def State.occupied (s : State) (p k : Nat) : Bool := ((s.core p).slots.get? k).isSome

/-- Replace the strand of slot `k`. -/
def State.setStrand (s : State) (p k : Nat) (x : Strand) : State :=
  s.modCore p (fun c => { c with slots := c.slots.set k x })

/-- Change the strand of slot `k`. -/
def State.modStrand (s : State) (p k : Nat) (f : Strand → Strand) : State := s.setStrand p k (f (s.strand p k))

/-- The strand that is executing. -/
def State.me (s : State) : Strand := s.strand s.cur.core s.cur.slot

/-- Replace the executing strand. -/
def State.setMe (s : State) (x : Strand) : State := s.setStrand s.cur.core s.cur.slot x

/-- Change the executing strand. -/
def State.modMe (s : State) (f : Strand → Strand) : State := s.setMe (f s.me)

/-- The executing core. -/
def State.myCore (s : State) : Core := s.core s.cur.core

/-- Change the executing core. -/
def State.modMyCore (s : State) (f : Core → Core) : State := s.modCore s.cur.core f

/-- The core-cycle count of the executing core. -/
def State.k (s : State) : Nat := s.countCore s.cur.core

/-- The partition of the executing core; 31, the number of none, where its unit belongs to none. -/
def State.mySp (s : State) : Nat := (s.partOf s.cur.core).getD 31

/-- Move a strand past an instruction of `len` bytes: to the next address, and through the repetition body (R60,
R128). -/
def Strand.past (x : Strand) (len : Nat) : Strand :=
  let pc' := x.pc + BitVec.ofNat 64 len
  match x.rep with
  | none => { x with pc := pc' }
  | some r =>
    if r.pos + 1 < r.len then { x with pc := pc', rep := some { r with pos := r.pos + 1 } }
    else if 1 < r.left then
      { x with pc := r.body, rep := some { r with pos := 0, k := r.k + 1, left := r.left - 1 } }
    else { x with pc := pc', rep := none }

/-- Move past the current instruction; the strand's next issue is at least `n` cycles away (R105). -/
def State.advanceBy (s : State) (n : Nat) : State :=
  s.modMe (fun x => { x.past s.cur.len with readyAt := s.k + n })

/-- Move past the current instruction; the next issue is one slot period away (R105). -/
def State.advance (s : State) : State := s.advanceBy 8

/-- The strand waits from this instruction on; `stay` leaves it at the instruction, to issue it again (R187). -/
def Strand.waitFor (x : Strand) (w : Wait) (stay : Bool) (len k rakeT : Nat) : Strand :=
  let y := if stay then x else x.past len
  { y with wait := w, waitPc := x.pc, waitLen := if stay then 0 else len, waitRep := x.rep, waitStart := k, threshold := rakeT, reported := false }

/-- Is a wait marked as a rake edge (R187, R263)? -/
def Wait.isEdge : Wait → Bool
  | .send _ => true
  | .recv _ => true
  | .alt _ none => true
  | .barrier _ _ _ => true
  | _ => false

/-- The executing strand waits; the next instruction issues when the wait ends (R187). -/
def State.waitNext (s : State) (w : Wait) : State :=
  let t := (s.myCore).rakeT.toNat
  let s := s.modMe (fun x => x.waitFor w false s.cur.len s.k t)
  if w.isEdge then s.postCore s.cur.core t .rakeThreshold (args s.cur.core s.cur.slot) else s

/-- The executing strand waits and then issues the same instruction again (R187). -/
def State.waitAgain (s : State) (w : Wait) : State :=
  let t := (s.myCore).rakeT.toNat
  let s := s.modMe (fun x => x.waitFor w true s.cur.len s.k t)
  if w.isEdge then s.postCore s.cur.core t .rakeThreshold (args s.cur.core s.cur.slot) else s

/-- A waiting strand becomes ready in the cycle after now (R187). -/
def State.wake (s : State) (p k : Nat) : State :=
  s.modStrand p k (fun x => { x with wait := .ready, readyAt := s.countCore p + 1 })

/-! ## Records of the event end -/

/-- The header of a record (R257): TYPE in [7:0], COUNT in [14:8], MORE in [15], SEQ in [47:16]. -/
def recordHeader (typ count : Nat) (more : Bool) (seq : Nat) : Word :=
  BitVec.ofNat 64 (typ + count * 2 ^ 8 + (if more then 2 ^ 15 else 0) + seq % 2 ^ 32 * 2 ^ 16)

/-! ## Containment and exceptions -/

/-- Discard the engine jobs of a lane and free their entries (R371). -/
def Block.discardLane (b : Block) (lane : Nat) : Block :=
  let drop {α : Type} (e : Entry α) : Entry α :=
    if e.lane = lane ∧ e.state ≠ .free then { e with state := .free, job := none } else e
  { b with
    mxe := { b.mxe with
      entries := b.mxe.entries.map (fun (i, e) => (i, drop e))
      waiting := b.mxe.waiting.filter (fun w => w.lane != lane)
      writes := b.mxe.writes.filter (fun w => w.2.lane != lane) }
    cpe := { b.cpe with
      entries := b.cpe.entries.map (fun (i, e) => (i, drop e))
      waiting := b.cpe.waiting.filter (fun w => w.lane != lane)
      work := b.cpe.work.set lane []
      current := match b.cpe.current with
        | some t => if t.lane = lane then none else some t
        | none => none } }

/-- The block of a physical core. -/
def blockOf (p : Nat) : Nat := p / 8

/-- The logical lane a physical core serves. -/
def State.laneOf (s : State) (p : Nat) : Nat := (s.core p).lcn % 8

/-- The engine jobs of core `p`'s lane are discarded, and what waited behind them looks again, `n` cycles later for the MXE
(R371, R374). -/
def State.discardJobs (s : State) (p n : Nat) : State :=
  let blk := blockOf p
  let s := s.modBlock blk (fun b => b.discardLane (s.laneOf p))
  (((s.postCore p 0 .queueEntryGrant (args blk 0)).postCore p 0 .queueEntryGrant (args blk 1)).postCore p n
    .mxeStepBegin (args blk)).postCore p 0 .cpeTurn (args blk)

/-- Contain a core: it issues nothing from now on, its lane's engine jobs are discarded (R371). The lane's packets are
held by its final routers, which read `run`. -/
def State.containAs (s : State) (p : Nat) (how : RunState) : State :=
  (s.modCore p (fun c => { c with run := how })).discardJobs p (if how = .doubleTrap then 1 else 0)

/-- Hand a record of TYPE `typ` with one entry word to the rake head of a partition (R257, R273). -/
def State.postRecord (s : State) (sp typ : Nat) (entry : Word) : State :=
  s.post (some sp) 0 .supervisorRecord { args sp typ with w := entry }

/-- A record entry (R257): LCN in [18:0], slot in [21:19], END in [27:22], WAIT in [29:28]. -/
def recordEntry (lcn slot endNo wait : Nat) : Word :=
  BitVec.ofNat 64 (lcn + slot % 8 * 2 ^ 19 + endNo % 64 * 2 ^ 22 + wait * 2 ^ 28)

/-- A strand enters its handler (R368): `at_` and `rep` are the trapping instruction's address and repetition. -/
def Strand.enter (x : Strand) (t : Trap) (at_ : Word) (rep : Option Rep) (tvec : Word) : Strand :=
  let mode : BitVec 13 := if x.mode = 3 then 3#13 else 1#13
  { x with
    epc := at_, tcause := t.cause, tval := t.value, esst := x.sst
    sst := (x.sst &&& 0x0FFC#13) ||| mode ||| 0x1000#13
    repShadow := rep, rep := none, epcWritten := false, pc := tvec, wait := .ready, pendTrap := none }

/-- Slot `k` of core `p` takes a trap (R368); with INH = 1 it is a double trap, which contains the core and writes a
record of TYPE 0x05 (R370). -/
def State.trapAt (s : State) (p k : Nat) (t : Trap) (at_ : Word) (rep : Option Rep) (ready : Nat) : State :=
  let x := s.strand p k
  let c := s.core p
  if x.inh then
    let s := s.containAs p .doubleTrap
    s.postRecord ((s.partOf p).getD 31) 5 (recordEntry c.lcn k t.cause.toNat 0)
  else s.setStrand p k { x.enter t at_ rep c.tvec with readyAt := ready }

/-- The executing strand takes a trap at its instruction; the handler's first instruction issues one slot period
later (R368). -/
def State.takeTrap (s : State) (t : Trap) : State :=
  s.trapAt s.cur.core s.cur.slot t s.cur.pc s.me.rep (s.k + 8)

/-- The strand returns from its handler (R222, R130): mode, VE, ALTP and INH from `esst`, SB and SD kept; the
repetition comes back unless `epc` was written. -/
def Strand.leave (x : Strand) : Strand :=
  let keepVe : BitVec 13 := if x.sst.extractLsb' 3 3 = 0#3 then x.esst &&& 4#13 else (x.esst ||| x.sst) &&& 4#13
  let sst := (x.esst &&& 0x1E03#13) ||| keepVe ||| (x.sst &&& 0x01F8#13)
  { x with
    sst := sst, v := if keepVe = 0#13 then [] else x.v, pc := x.epc
    rep := if x.epcWritten then none else x.repShadow, repShadow := none, epcWritten := false }

/-- The traps of R367 by name. -/
def trapIllegal (w : Word) : Trap := { cause := 0x01#6, value := w }
def trapFetch (a : Word) : Trap := { cause := 0x02#6, value := a }
def trapPrivileged (w : Word) : Trap := { cause := 0x03#6, value := w }
def trapAlignment (a : Word) : Trap := { cause := 0x04#6, value := a }
def trapTag (w : Word) : Trap := { cause := 0x05#6, value := w }
def trapPermission (w : Word) : Trap := { cause := 0x06#6, value := w }
def trapBounds (a : Word) : Trap := { cause := 0x07#6, value := a }
def trapLinearity (w : Word) : Trap := { cause := 0x08#6, value := w }
def trapTranslation (a : Word) : Trap := { cause := 0x09#6, value := a }
def trapAbsent (w : Word) : Trap := { cause := 0x0A#6, value := w }
def trapNack (w : Word) : Trap := { cause := 0x0B#6, value := w }
def trapChannel (h reason : Nat) : Trap := { cause := 0x0C#6, value := BitVec.ofNat 64 (h + reason * 2 ^ 8) }
def trapEngine (id code : Nat) : Trap := { cause := 0x0D#6, value := BitVec.ofNat 64 (id + code * 2 ^ 16) }
def trapStream (d reason : Nat) : Trap := { cause := 0x0E#6, value := BitVec.ofNat 64 (d + reason * 2 ^ 5) }
def trapSlot (k : Nat) : Trap := { cause := 0x0F#6, value := BitVec.ofNat 64 k }
def trapSoftware (w : Word) : Trap := { cause := 0x10#6, value := w }
def trapCrystal (reason : Nat) : Trap := { cause := 0x11#6, value := BitVec.ofNat 64 reason }

/-- A register number as a trap value. -/
def regNo (d : BitVec 5) : Word := d.setWidth 64

/-- The bits of the current instruction as a trap value (R89). -/
def State.instrBits (s : State) : Word := s.cur.bits.setWidth 64

/-! ## Acting under a guard -/

/-- What an instruction does when it acts: a new state, or a precise trap. -/
abbrev Act := Except Trap State

/-- A precise trap leaves no other effect (R20); otherwise the instruction's state. -/
def State.settle (s : State) : Act → State
  | .ok t => t
  | .error e => s.takeTrap e

/-- An instruction under guard `g`: with the guard 0 it only advances (R62). -/
def State.act (s : State) (g : BitVec 3) (f : State → Act) : Host.Outcome State Fault Refusal :=
  .next (if s.me.pred g then s.settle (f s) else s.advance)

/-- An instruction that names a v register: it sets VE whatever its guard holds (R31, R62). -/
def State.actV (s : State) (g : BitVec 3) (f : State → Act) : Host.Outcome State Fault Refusal :=
  (s.modMe Strand.setVe).act g f

/-- A condition that must hold, else a trap. -/
def need (b : Bool) (t : Trap) : Except Trap Unit := if b then .ok () else .error t

/-- The rule of R102: a register that holds a linear capability is not overwritten. -/
def State.writable (s : State) (d : BitVec 5) : Except Trap Unit :=
  need (!(d != 0#5 && (s.me.reg d).linear)) (trapLinearity (regNo d))

/-- Write an integer to `d` under R102 and advance, the next issue `n` cycles away. -/
def State.putIntBy (s : State) (d : BitVec 5) (w : Word) (n : Nat) : Act := do
  s.writable d
  return (s.modMe (fun x => x.setReg d (CReg.int w))).advanceBy n

/-- Write an integer to `d` under R102 and advance. -/
def State.putInt (s : State) (d : BitVec 5) (w : Word) : Act := s.putIntBy d w 8

/-- Write capability `r`, made from c`a`, to `d` (R28, R102, R113): a linear source moves, it is not copied. -/
def State.moveCap (s : State) (d a : BitVec 5) (r : CReg) : Act := do
  need (!((s.me.reg a).linear && d == 0#5)) (trapLinearity (regNo a))
  if d = a then return (s.modMe (fun x => x.setReg d r)).advance
  s.writable d
  let clear := (s.me.reg a).linear
  return (s.modMe (fun x =>
    let x := if clear then x.setReg a CReg.zero else x
    x.setReg d r)).advance

/-! ## Checks of a base capability -/

/-- The rows of R131. -/
inductive BaseUse where
  | ld
  | st
  | window
  | ldc
  | stc
  | vld
  | vst
  | gather
  | scatter
  | amo
  | acc
  deriving DecidableEq, Repr

/-- R131's answer for a kind: accepted, `perm`, or the capability-tag trap. -/
inductive KindAnswer where
  | yes
  | perm
  | tagTrap
  deriving DecidableEq, Repr

/-- The table of R131. -/
def baseKind (u : BaseUse) (k : Nat) : KindAnswer :=
  match u with
  | .ld => if k = 1 ∨ k = 2 ∨ k = 3 ∨ k = 8 ∨ k = 0xA ∨ k = 0xB then .yes else .tagTrap
  | .st => if k = 1 ∨ k = 2 ∨ k = 0xA ∨ k = 0xB then .yes else if k = 3 ∨ k = 8 then .perm else .tagTrap
  | .window => if k = 1 then .yes else .tagTrap
  | .ldc | .vld => if k = 1 ∨ k = 2 ∨ k = 3 ∨ k = 8 ∨ k = 0xB then .yes else .tagTrap
  | .stc | .vst => if k = 1 ∨ k = 2 ∨ k = 0xB then .yes else if k = 3 ∨ k = 8 then .perm else .tagTrap
  | .gather => if k = 1 ∨ k = 2 ∨ k = 3 then .yes else .tagTrap
  | .scatter => if k = 1 ∨ k = 2 then .yes else if k = 3 then .perm else .tagTrap
  | .amo => if k = 1 ∨ k = 2 then .yes else if k = 3 ∨ k = 8 then .perm else .tagTrap
  | .acc => if k = 4 ∨ k = 5 then .yes else .tagTrap

/-- Tag, kind and permission of a base (R103, R131, R436); `bits` are the permission bits it must carry. -/
def checkBase (u : BaseUse) (a : BitVec 5) (r : CReg) (bits : BitVec 12) (ea : Word) : Except Trap Unit := do
  need r.tag (trapTag (regNo a))
  match baseKind u r.kind with
  | .tagTrap => .error (trapTag (regNo a))
  | .perm => .error (trapPermission ea)
  | .yes => need (r.perm &&& bits == bits) (trapPermission ea)

/-- Bounds of an access of `n` bytes at `ea` (R132). -/
def checkBounds (r : CReg) (ea : Int) (n : Nat) : Except Trap Unit :=
  need (r.inBounds ea n) (trapBounds (BitVec.ofInt 64 ea))

/-- Alignment to `n` (R133). -/
def checkAlign (ea : Int) (n : Nat) : Except Trap Unit :=
  need (decide (ea % n = 0)) (trapAlignment (BitVec.ofInt 64 ea))

/-- The permission bits of R26. -/
def permL : BitVec 12 := 0x001#12
def permS : BitVec 12 := 0x002#12
def permLS : BitVec 12 := 0x003#12
def permA : BitVec 12 := 0x040#12
def permF : BitVec 12 := 0x020#12

/-! ## Scratchpad -/

/-- The KIND field of a granule's 16 bytes, bits [79:76] (R134). -/
def granuleKind (m : Memory) (g : Nat) : Nat := (m.read (16 * g + 9)).toNat / 16

/-- Does granule `g` hold a tagged linear capability (R134)? -/
def Core.linearGranule (c : Core) (g : Nat) : Bool := NatSet.has c.spTags g && linearKind (granuleKind c.sp g)

/-- The granules that `n` bytes from `a` touch. -/
def granules (a n : Nat) : List Nat :=
  if n = 0 then [] else (List.range ((a + n - 1) / 16 - a / 16 + 1)).map (fun i => a / 16 + i)

/-- Mark the pages of bytes `a` to `a + n − 1` dirty (R377). -/
def markDirty (d : BitVec 64) (a n : Nat) : BitVec 64 :=
  if n = 0 then d
  else (List.range ((a + n - 1) / 4096 - a / 4096 + 1)).foldl
    (fun d i => d ||| (1#64 <<< ((a / 4096 + i) % 64))) d

/-- Write bytes to the scratchpad: the touched granules' tags clear and their pages are dirty (R134, R377). -/
def Core.spWrite (c : Core) (a : Nat) (b : List Byte) : Core :=
  { c with
    sp := c.sp.writeN a b
    spTags := (granules a b.length).foldl NatSet.remove c.spTags
    dirty := markDirty c.dirty a b.length }

/-- Write a register to a granule with its tag (R139, R144). -/
def Core.spPutReg (c : Core) (a : Nat) (r : CReg) : Core :=
  let b := natBytes 8 r.val.toNat ++ natBytes 8 (if r.tag then r.mt.toNat else 0)
  let c := c.spWrite a b
  if r.tag then { c with spTags := NatSet.insert c.spTags (a / 16) } else c

/-- A register from a granule's bytes and tag (R138). -/
def granuleReg (b : List Byte) (tag : Bool) : CReg :=
  if tag then
    { tag := true, val := BitVec.ofNat 64 (bytesNat (b.take 8)), mt := BitVec.ofNat 64 (bytesNat (b.drop 8)) }
  else CReg.int (BitVec.ofNat 64 (bytesNat (b.take 8)))

/-- Stores to a granule that holds a tagged linear capability raise the linearity trap (R134). -/
def Core.checkLinear (c : Core) (a n : Nat) (ea : Word) : Except Trap Unit :=
  need ((granules a n).all (fun g => !c.linearGranule g)) (trapLinearity ea)

/-- Full/empty bit of granule `g` (R43). -/
def Core.full (c : Core) (g : Nat) : Bool := NatSet.has c.fe g

/-- Set or clear full/empty bits (R43). -/
def Core.setFe (c : Core) (gs : List Nat) (b : Bool) : Core :=
  { c with fe := gs.foldl (fun t g => if b then NatSet.insert t g else NatSet.remove t g) c.fe }

/-- Strands that wait for full/empty bits become ready in the cycle after the bits take the value, and a far load whose
push waits for empty granules is looked at again in this cycle (R44, R184). -/
def State.wakeFullEmpty (s : State) (p : Nat) : State :=
  (List.range 8).foldl (fun s k =>
    match (s.core p).slots.get? k with
    | some x =>
      let s := if x.far.any (fun f => f.landed.isSome) then s.postCore p 0 .fenceConditionMet { args p k with flag := true }
        else s
      match x.wait with
      | .fullEmpty full empty =>
        if full.all (fun g => (s.core p).full g) && empty.all (fun g => !(s.core p).full g) then s.wake p k else s
      | _ => s
    | none => s) s

/-- Keep what granules hold before engines write to them in cycle `k` (R316). -/
def Core.keepOld (c : Core) (k : Nat) (gs : List Nat) : Core :=
  let old := if c.engineOld.1 = k then c.engineOld.2 else []
  { c with engineOld :=
      (k, old ++ (gs.filter (fun g => !old.any (fun o => o.1 == g))).map (fun g => (g, c.sp.readN (16 * g) 16))) }

/-- The `n` bytes at an address as the engines' reads of cycle `k` see them, after the strands' accesses of that cycle and
before the engines' writes (R316), where no later cycle's access has come since. -/
def Core.readEngine (c : Core) (k a n : Nat) : List Byte :=
  let old := if c.engineOld.1 = k then c.engineOld.2 else []
  (List.range n).map (fun i =>
    match old.find? (fun o => o.1 == (a + i) / 16) with
    | some o => o.2.getD ((a + i) % 16) 0#8
    | none => c.sp.read (a + i))

/-- An engine writes bytes to a scratchpad: granule by granule, each with its full/empty bit, stopping before the
first granule that holds a tagged linear capability, whose address it answers (R43, R134). -/
def State.engineWrite (s : State) (p a : Nat) (b : List Byte) : State × Option Nat :=
  let c := (s.core p).keepOld (s.countCore p) (granules a b.length)
  match (granules a b.length).find? (fun g => c.linearGranule g) with
  | none =>
    let s := s.setCore p ((c.spWrite a b).setFe (granules a b.length) true)
    (s.wakeFullEmpty p, none)
  | some g =>
    let n := 16 * g - a
    let s := s.setCore p ((c.spWrite a (b.take n)).setFe (granules a n) true)
    (s.wakeFullEmpty p, some (16 * g))

end Sys2Proof.Machine
end

