-- ==== Sys2Proof/Machine/Net.lean ====
section
/-! DEFINITION. Routes, the additions of R346, the placement of addresses on slices, and putting packets into the two
networks (R302 to R304, R331, R336 to R347, R401). -/

namespace Sys2Proof.Machine

/-- The ports of R340: 0 local, 1 N, 2 E, 3 S, 4 W, 5 skip E, 6 skip W. The port at the far end of a link. -/
def farPort (out : Nat) : Nat :=
  match out with
  | 1 => 3
  | 2 => 4
  | 3 => 1
  | 4 => 2
  | 5 => 6
  | 6 => 5
  | n => n

/-- The router that an output leads to; none off the panel (R337, R338). -/
def stepTo (x y out : Nat) : Option (Nat × Nat) :=
  match out with
  | 1 => if 0 < y then some (x, y - 1) else none
  | 2 => if x + 1 < 768 then some (x + 1, y) else none
  | 3 => if y + 1 < 576 then some (x, y + 1) else none
  | 4 => if 0 < x then some (x - 1, y) else none
  | 5 => if x + 4 < 768 then some (x + 4, y) else none
  | 6 => if 4 ≤ x then some (x - 4, y) else none
  | _ => none

/-- The default route of R338. -/
def defaultOut (mnet : Bool) (x y xd yd : Nat) : Nat :=
  let xt := if x < xd ∧ xd % 2 = 0 ∧ y ≠ yd then xd - 1 else xd
  if x < xt then (if mnet && decide (4 ≤ xt - x) then 5 else 2)
  else if xt < x then (if mnet && decide (4 ≤ x - xt) then 6 else 4)
  else if y < yd then 3
  else if yd < y then 1
  else if x ≠ xd then 2
  else 0

/-- The die of a position (R6). -/
def dieAt (x y : Nat) : Nat := y / 96 * 12 + x / 64

/-- Does core `p` stand in a clock hold (R351, R353)? -/
def State.clockHeld (s : State) (p : Nat) : Bool :=
  let t := (s.core p).tree.state
  t == .hold || t == .adopt

/-- Does BCFG mark core `p` out of service (R333)? -/
def State.outOfService (s : State) (p : Nat) : Bool := (s.block (p / 8)).oos.getLsbD (p % 8)

/-- Does the router at (x, y) take packets: in service (R333) and not held (R351)? -/
def State.routerOpen (s : State) (x y : Nat) : Bool :=
  !s.outOfService (coreAt x y) && !s.clockHeld (coreAt x y)

/-- Is the router at (x, y) in service (R333)? -/
def State.routerInService (s : State) (x y : Nat) : Bool := !s.outOfService (coreAt x y)

/-- The additions of one link or skip segment (R346). -/
def State.linkAdd (s : State) (x y x' y' : Nat) : Nat :=
  let c := (s.core (coreAt x y)).tree.cls
  let c' := (s.core (coreAt x' y')).tree.cls
  (if dieAt x y = dieAt x' y' then 0 else 4) + (if c = c' then 0 else max c c' - 1)

/-- The tap of a unit (R401). -/
def tapX (u : Nat) : Nat := 32 * u + 16

/-- The spine crossing from the tap of unit `u` to port `k` (R401). -/
def spineTime (u k : Nat) : Nat := 24 + 2 * (if k < 36 then u else 23 - u)

/-- The router a packet is routed to (R331, R338, R343, R348, R280, R401). -/
def State.target (s : State) (k : Packet) : Nat × Nat :=
  match k.dst with
  | .lane lcn => (coordX lcn, coordY lcn)
  | .slice n => (sliceX n, sliceY n)
  | .router x y => (x, y)
  | .manager die => (die % 12 * 64 + 32, die / 12 * 96 + 48)
  | .head => (32 * (s.part k.sp).base, 0)
  | .port _ => (tapX (unitOf (coordX k.srcLcn)), 0)
  | .host => (tapX (unitOf (coordX k.srcLcn)), 0)

/-- The destination row that route tables match (R340). -/
def matchRow (d : Dest) (y : Nat) : Nat :=
  match d with
  | .slice n => if n < 768 then 1023 else 576
  | _ => y

/-- Does a route-table entry match (R340)? -/
def routeMatches (w : Word) (inPort mx my : Nat) : Bool :=
  let i := (w.extractLsb' 1 3).toNat
  let o := (w.extractLsb' 4 3).toNat
  w.getLsbD 0 && (if i = 7 then inPort != o else inPort == i) &&
    decide ((w.extractLsb' 7 10).toNat ≤ mx) && decide (mx ≤ (w.extractLsb' 17 10).toNat) &&
    decide ((w.extractLsb' 27 10).toNat ≤ my) && decide (my ≤ (w.extractLsb' 37 10).toNat)

/-- The 16 route-table entries of a router (R340). -/
def State.routeTable (s : State) (mnet : Bool) (x y : Nat) : Table Word :=
  (if mnet then s.routesM else s.routesC).getD (y * 768 + x) []

/-- The output a router gives a packet (R338, R340). -/
def State.output (s : State) (k : Packet) : Nat :=
  let t := s.target k
  let tbl := s.routeTable k.mnet k.x k.y
  match (List.range 16).find? (fun i => routeMatches (tbl.getD i 0#64) k.inPort t.1 (matchRow k.dst t.2)) with
  | some i => ((tbl.getD i 0#64).extractLsb' 4 3).toNat
  | none => defaultOut k.mnet k.x k.y t.1 t.2

/-- Is the packet at its final router (R331), or at its edge router with the edge port as its output (R338)? -/
def State.atFinal (s : State) (k : Packet) : Bool :=
  let t := s.target k
  match k.dst with
  | .lane lcn =>
    (k.x == t.1 && k.y == t.2) || (!s.routerInService t.1 t.2 && coreAt k.x k.y / 8 == lcn / 8)
  | .slice n =>
    let o := s.output k
    k.x == t.1 && k.y == t.2 && (o == 0 || o == (if n < 768 then 1 else 3))
  | _ => k.x == t.1 && k.y == t.2

/-- Is the packet for the block rather than for the lane through which it comes: a line for its cache or its CPE
(R251, R437)? Such a packet waits only while BCFG marks the lane's core out of service or its clock is held (R326,
R351). -/
def Body.forBlock : Body → Bool
  | .reply (.icache _ _) _ => true
  | .reply (.cpe _ _ _) _ => true
  | _ => false

/-- The remap entry of a logical lane: its physical core and LIVE (R326, R331). -/
def State.remapOf (s : State) (lcn : Nat) : Nat × Bool :=
  let e := (s.block (lcn / 8)).remap.getD (lcn % 8) 0#4
  let lane := (e.extractLsb' 0 3).toNat
  (lcn / 8 * 8 + lane, e.getLsbD 3 && (s.block (lcn / 8)).fuse.getLsbD lane)

/-- The physical core that serves a logical lane, if it is live (R326). -/
def State.physOf (s : State) (lcn : Nat) : Option Nat :=
  let r := s.remapOf lcn
  if r.2 then some r.1 else none

/-- Cycles from the head's arrival at the final router to the last flit or beat at the end point (R344, R345); the
link to a slice is one more hop (R313, R345, R414); a wake that waited is at its core (R290). -/
def Packet.landing (k : Packet) : Nat :=
  if (match k.body with | .leg .wake _ => true | _ => false) then 0
  else (if k.mnet then 4 else 1) + k.units + (match k.dst with | .slice _ => 2 | _ => 0)

/-- Hops and additions from a router to the final router of a packet, walked along the route it would take now. -/
def State.walk (s : State) : Nat → Packet → Nat × Nat
  | 0, _ => (0, 0)
  | fuel + 1, k =>
    if s.atFinal k then
      match k.dst with
      | .lane lcn => (0, if (s.remapOf lcn).1 = coreAt k.x k.y then 0 else 2)
      | .slice _ => (1, 0)
      | _ => (0, 0)
    else
      let o := s.output k
      match stepTo k.x k.y o with
      | none => (0, 0)
      | some (x', y') =>
        let r := s.walk fuel { k with x := x', y := y', inPort := farPort o }
        (r.1 + 1, r.2 + s.linkAdd k.x k.y x' y')

/-- A packet about to be injected at (x, y). -/
def newPacket (mnet : Bool) (srcLcn sp x y : Nat) (dst : Dest) (units : Nat) (body : Body) : Packet :=
  { mnet := mnet, srcLcn := srcLcn, sp := sp, dst := dst, x := x, y := y, inPort := 0, units := units,
    stage := .moving, phys := 0, body := body }

/-- Hops and additions of the route from physical core `p` to a destination (R203, R344). -/
def State.pathOf (s : State) (mnet : Bool) (p : Nat) (dst : Dest) : Nat × Nat :=
  s.walk 2048 (newPacket mnet (s.core p).lcn ((s.partOf p).getD 31) (coordX p) (coordY p) dst 1 (.ack 0))

/-- Inject a packet: its head leaves `after` cycles from now and reaches the first router 3 cycles later on CNet, 6 on
MNet (R344, R345). -/
def State.inject (s : State) (k : Packet) (after : Nat) : State :=
  let (id, s) := s.fresh
  let s := { s with packets := s.packets.set id k }
  s.post (some k.sp) (after + (if k.mnet then 6 else 3)) .packetHop (args id)

/-- Send a packet from physical core `p`, `after` cycles from now. -/
def State.sendFrom (s : State) (p : Nat) (mnet : Bool) (dst : Dest) (units : Nat) (body : Body) (after : Nat) : State :=
  s.inject { newPacket mnet (s.core p).lcn ((s.partOf p).getD 31) (coordX p) (coordY p) dst units body with
    payer := s.ownerOf p } after

/-- Send a packet from a slice to a lane, from a cycle `after` cycles from now; the edge link is one more hop (R338,
R345, R414). -/
def State.sendSlice (s : State) (n : Nat) (mnet : Bool) (sp lcn units : Nat) (body : Body) (after : Nat) : State :=
  s.inject (newPacket mnet lcn sp (sliceX n) (sliceY n) (.lane lcn) units body) (after + 2)

/-- Send a packet from any router position to a lane. -/
def State.sendAt (s : State) (x y sp srcLcn : Nat) (dst : Dest) (units : Nat) (body : Body) (after : Nat) : State :=
  s.inject (newPacket false srcLcn sp x y dst units body) after

/-- Take a packet out of the network. -/
def State.dropPacket (s : State) (id : Nat) : State := { s with packets := s.packets.erase id }

/-- Waiting packets look again at the routers and lanes they wait for (R342). -/
def State.rescan (s : State) : State :=
  s.packets.foldl (fun s e => if e.2.stage = .held then s.post (some e.2.sp) 0 .heldPacketRelease (args e.1) else s) s

/-! ## Where an address lives -/

/-- The number of slices of a partition's home units (R303, R357). -/
def Partition.sliceCount (x : Partition) : Nat := 64 * x.home

/-- Entry `i` of the partition's slice list (R303). -/
def Partition.sliceAt (x : Partition) (i : Nat) : Nat :=
  if i < 32 * x.home then 32 * x.base + i else 768 + 32 * x.base + (i - 32 * x.home)

/-- The slices of a partition in ascending order (R303). -/
def Partition.slices (x : Partition) : List Nat := (List.range x.sliceCount).map x.sliceAt

/-- Is an address homed (R302)? -/
def isHomed (va : Nat) : Bool := va.testBit 47

/-- The slice a homed address names (R302). -/
def homeSlice (va : Nat) : Nat := va / 2 ^ 36 % 2 ^ 11

/-- The slice that holds an address; none where a homed address names no slice of the partition's units (R302,
R303). -/
def State.sliceOf (s : State) (sp va : Nat) : Option Nat :=
  let x := s.part sp
  if isHomed va then
    let n := homeSlice va
    if n < 1536 ∧ x.holds (unitOf (sliceX n)) then some n else none
  else
    let g := va % 2 ^ 48 / 2 ^ 11
    let c := x.sliceCount
    if c = 0 then none else some (x.sliceAt ((g + g / c) % c))

/-- Does the entry cover an address (R309)? -/
def PanEntry.covers (e : PanEntry) (va : Nat) : Bool :=
  let p := va % 2 ^ 48 / 2 ^ 21
  decide (e.basep ≤ p) && decide (p < e.basep + e.pages)

/-- The entry that covers an address, with its number. -/
def Slice.panAt (x : Slice) (va : Nat) : Option (Nat × PanEntry) := x.pans.find? (fun e => e.2.covers va)

/-- The table slice of the pan at an address: the slice that holds the block of the pan's own VA (R304). Every slice that
holds a block of the pan has its entry. -/
def State.tableSlice (s : State) (sp va : Nat) : Option Nat :=
  match s.sliceOf sp va with
  | none => none
  | some n =>
    match (s.slice n).panAt va with
    | some (_, e) => s.sliceOf sp (e.basep * 2 ^ 21)
    | none => some n

/-- A pan's slice set (R304). A homed pan is entered at the slice of its base, though it cross a 64 GiB boundary (log entry 116). -/
def State.sliceSet (s : State) (sp va : Nat) : List Nat :=
  if isHomed va then [homeSlice va] else (s.part sp).slices

end Sys2Proof.Machine
end

