-- ==== Sys2Proof/Machine/Log.lean ====
section
/-! DEFINITION. The replay log of crystal mode: the buddy of a lane, entries and their bytes in the buddy's reserve,
and what is left to replay (R381, R382, R384). -/

namespace Sys2Proof.Machine

/-- Log kinds (R381). -/
def logArrive : Nat := 1
def logSend : Nat := 2
def logAlt : Nat := 3
def logRdt : Nat := 4
def logBar : Nat := 5

/-- Is crystal mode on for a core (R13)? -/
def State.crystalOn (s : State) (p : Nat) : Bool :=
  match s.partOf p with
  | some sp => (s.part sp).crystalMode
  | none => false

/-- The physical core of the buddy of `p`'s lane: the next live logical lane of the block (R382). -/
def State.buddyOf (s : State) (p : Nat) : Option Nat :=
  let lcn := (s.core p).lcn
  let b := lcn / 8 * 8
  ((List.range 7).map (fun i => b + (lcn % 8 + 1 + i) % 8)).findSome? s.physOf

/-- The cores of a block whose crystals stand in core `p` (R382). -/
def State.crystalsIn (s : State) (p : Nat) : List Nat :=
  ((List.range 8).filterMap (fun k => s.physOf (p / 8 * 8 + k))).filter (fun q => q != p && s.buddyOf q == some p)

/-- Where entry `n` stands in the buddy's reserve (R382). -/
def logAddr (n : Nat) : Nat := 0x3E000 + 128 * (n % 64)

/-- Word 0 of an entry (R381). -/
def logWord (r : LogRow) : Nat := r.kind + r.st * 2 ^ 4 + r.slot % 8 * 2 ^ 6 + r.endNo % 64 * 2 ^ 9

/-- The number of an entry of slot `slot` made in cycle `k`: entries are numbered in event order, those of one cycle by
slot (R381). -/
def Crystal.numberFor (c : Crystal) (k slot : Nat) : Nat :=
  c.next - (c.rows.filter (fun r => r.cyc == k && decide (c.mark ≤ r.number) && decide (slot < r.slot))).length

/-- The log writes of core `p` that are still to come, for the entries numbered `n` on, are for the next number. -/
def State.shiftLog (s : State) (p n : Nat) : State :=
  { s with agenda := s.agenda.map (fun e =>
      if e.event = .logWrite ∧ e.arg.a = p ∧ n ≤ e.arg.b then { e with arg := { e.arg with b := e.arg.b + 1 } } else e) }

/-- Append an entry; its bytes are written 2 cycles later (R381). When 32 entries stand after the mark and a crystal
is current, the core takes a crystal by itself (R382). -/
def State.logAppend (s : State) (p kind st slot endNo : Nat) (r : CReg) (x : BitVec 512) : State :=
  if s.crystalOn p && (s.buddyOf p).isSome then
    let c := (s.core p).crystal
    let k := s.countCore p
    let n := c.numberFor k slot
    let e := (s.core p).ends.getD endNo End.free
    let row : LogRow :=
      { number := n, kind := kind, st := st, slot := slot, endNo := endNo, cyc := k, src := (e.psz, e.plcn, e.pend) }
    let later := (c.rows.filter (fun r => decide (n ≤ r.number))).map (fun r => { r with number := r.number + 1 })
    let rows := c.rows.filter (fun r => decide (r.number < n)) ++ row :: later
    let s := (s.modCore p (fun k => { k with crystal := { c with next := c.next + 1, rows := rows } })).shiftLog p n
    let s := s.postCore p 2 .logWrite
      { args p n (logWord row) 0 with w := r.val, w1 := r.mt, x := x, flag := r.tag }
    if c.next + 1 - c.mark = 32 && c.current.isSome then s.postCore p 0 .selfCrystal (args p) else s
  else s

/-- A crystal that has come due, or that 32 entries after the mark ask for, is asked for again (R382, log entry 114). -/
def State.askCrystal (s : State) (p : Nat) : State :=
  let c := (s.core p).crystal
  if c.due then s.postCore p 1 .selfCrystal { args p with flag := true }
  else if c.current.isSome && decide (32 ≤ c.next - c.mark) then s.postCore p 1 .selfCrystal (args p)
  else s

/-- The lanes whose buddy core `p` is take crystals by themselves: `p` is the substitute that holds their next (R382). -/
def State.askBuddies (s : State) (p : Nat) : State :=
  (s.crystalsIn p).foldl (fun s q => s.postCore q 1 .selfCrystal { args q with flag := true }) s

/-- Append the ARRIVE entry of a message or offer (R381). -/
def State.logArrival (s : State) (p k h : Nat) (x : Payload) : State :=
  match x with
  | .word r => s.logAppend p logArrive 0 k h r 0#512
  | .vector v => s.logAppend p logArrive 0 k h CReg.zero v
  | .offer base n => s.logAppend p logArrive 0 k h CReg.zero (BitVec.ofNat 512 (base + n * 2 ^ 64))
  | .tile fmt n => s.logAppend p logArrive 0 k h CReg.zero (BitVec.ofNat 512 (fmt + n * 2 ^ 64))

/-- Set ST of the entry numbered `n` (R381). -/
def State.logSet (s : State) (p n st : Nat) : State :=
  let c := (s.core p).crystal
  let rows := c.rows.map (fun r => if r.number = n then { r with st := st } else r)
  let s := s.modCore p (fun k => { k with crystal := { c with rows := rows } })
  match rows.find? (fun r => r.number == n) with
  | none => s
  | some r => s.postCore p 2 .logWrite (args p n (logWord r) 1)

/-- Set ST of the oldest entry of a kind and end with ST 0, but for messages that have still to go back into the end. -/
def State.logSettle (s : State) (p kind endNo st : Nat) : State :=
  let c := (s.core p).crystal
  match c.rows.find? (fun r => r.kind == kind && r.endNo == endNo && r.st == 0 && !c.back.contains r.number) with
  | some r => s.logSet p r.number st
  | none => s

/-- Is the log of a lane full, so that an arrival waits at the final router (R382)? -/
def State.logFull (s : State) (p : Nat) : Bool :=
  s.crystalOn p && (s.buddyOf p).isSome && decide (64 ≤ (s.core p).crystal.rows.length)

/-- The first entry that slot `k` of core `p` still has to replay (R384). -/
def State.replayRow (s : State) (p k : Nat) : Option LogRow :=
  let c := (s.core p).crystal
  c.replay.findSome? (fun n => c.rows.find? (fun r => r.number == n && r.slot == k))

/-- Is the executing strand replaying (R384)? -/
def State.replaying (s : State) : Bool := (s.replayRow s.cur.core s.cur.slot).isSome

/-- The oldest entry that the executing strand still has to replay of a kind and end: a message that arrived before
another entry was made is taken when its receive comes (R384). -/
def State.replayOf (s : State) (kind endNo : Nat) : Option LogRow :=
  let c := s.myCore.crystal
  c.replay.findSome? (fun n =>
    c.rows.find? (fun r => r.number == n && r.slot == s.cur.slot && r.kind == kind && r.endNo == endNo))

/-- An entry's message is back in its end, or its payload is taken. -/
def State.putBack (s : State) (p n : Nat) : State :=
  s.modCore p (fun c => { c with crystal := { c.crystal with back := c.crystal.back.filter (· != n) } })

/-- The word payload of an entry, read in the buddy's reserve. -/
def State.logReg (s : State) (p n : Nat) : CReg :=
  match s.buddyOf p with
  | none => CReg.zero
  | some b => granuleReg ((s.core b).sp.readN (logAddr n + 16) 16) (NatSet.has (s.core b).spTags (logAddr n / 16 + 1))

/-- The vector payload of an entry. -/
def State.logVec (s : State) (p n : Nat) : BitVec 512 :=
  match s.buddyOf p with
  | none => 0#512
  | some b => bytesVec ((s.core b).sp.readN (logAddr n + 32) 64)

/-- The message of an ARRIVE entry (R381). -/
def State.logPayload (s : State) (p : Nat) (r : LogRow) : Payload :=
  let v := s.logVec p r.number
  if r.src.1 = 0 then .word (s.logReg p r.number)
  else if r.src.1 = 1 then .vector v
  else if r.src.1 = 3 then .tile (v.toNat % 2 ^ 64) (v.toNat / 2 ^ 64 % 2 ^ 64)
  else .offer (v.toNat % 2 ^ 64) (v.toNat / 2 ^ 64 % 2 ^ 64)

/-- The SLOT of a log entry whose message is parked at an end that no slot has bound; the entry's word reads 0 there (R381,
R385; log 96). -/
def noSlot : Nat := 8

/-- The entry of the message that is parked at end `h` (R381). -/
def Core.parkedRow (c : Core) (h : Nat) : Option LogRow :=
  c.crystal.rows.find? (fun r => r.kind == logArrive && r.endNo == h && r.slot == noSlot && r.st == 0 && !c.crystal.back.contains r.number)

/-- The end of a parked message is bound to a slot: its entry is of that slot. -/
def State.logClaim (s : State) (p n slot : Nat) : State :=
  let c := (s.core p).crystal
  let rows := c.rows.map (fun r => if r.number = n then { r with slot := slot } else r)
  let s := s.modCore p (fun k => { k with crystal := { c with rows := rows } })
  match rows.find? (fun r => r.number == n) with
  | none => s
  | some r => s.postCore p 2 .logWrite (args p n (logWord r) 1)

/-- A parked message has been refused, or its offer given to a latch: its entry is free. -/
def State.logForget (s : State) (p n : Nat) : State :=
  s.modCore p (fun c => { c with crystal := { c.crystal with rows := c.crystal.rows.filter (fun r => r.number != n) } })

/-- An ARRIVE entry of end `h` that had not been taken goes back into the end, once it is bound as it was and its inbox is
empty (R383). A message that was parked parks again, where the end is free and nothing is left to replay (R385). -/
def State.rearrive (s : State) (p h : Nat) : State :=
  let c := s.core p
  let e := c.ends.getD h End.free
  let rows := c.crystal.rows.filter (fun r => r.endNo == h && c.crystal.back.contains r.number)
  match rows.head? with
  | none => s
  | some r =>
    if r.slot = noSlot then
      if e.state = .free ∧ c.crystal.replay = [] then
        (s.modCore p (fun c =>
          { c with ends := c.ends.set h { e with
              state := .parked, dirIn := true, psz := r.src.1, plcn := r.src.2.1, pend := r.src.2.2
              inbox := some (s.logPayload p r) } })).putBack p r.number
      else s
    else if (e.state = .idle ∨ e.state = .recvWait) ∧ e.dirIn ∧ r.src = (e.psz, e.plcn, e.pend) then
      (s.modCore p (fun c =>
        { c with ends := c.ends.set h { e with state := .full, inbox := some (s.logPayload p r) } })).putBack p r.number
    else s

/-- An entry has been replayed; after the last the messages that were parked park again, and a crystal that
has come due is asked for (R382, R384, R385). -/
def State.replayed (s : State) (n : Nat) : State :=
  let s := s.modMyCore (fun c => { c with crystal := { c.crystal with replay := c.crystal.replay.filter (· != n) } })
  let c := s.myCore.crystal
  if c.replay = [] then
    (c.rows.filter (fun r => c.back.contains r.number && r.slot == noSlot)).foldl (fun s r => s.rearrive s.cur.core r.endNo)
      (s.askCrystal s.cur.core)
  else s

/-- Where a crystal buffer of the buddy's reserve begins (R382). -/
def crystalBase (buf : Nat) : Nat := 0x30000 + 0x7000 * buf

/-- Word `i` of a crystal's header, in the buddy's reserve (R380). Words 0 to 11 are those of R376, word 12 is B, word 13
the model's mask of the ends it holds; the descriptor follows. -/
def Core.crystalWord (c : Core) (buf i : Nat) : Nat := bytesNat (c.sp.readN (crystalBase buf + 8 * i) 8)

/-- Where the record of slot `k` of a crystal stands, or where the slots end with `k` = 8 (R380): a slot takes 1,024
bytes, or 2,048 with VE. -/
def Core.crystalSlot (c : Core) (buf k : Nat) : Nat :=
  (List.range k).foldl (fun a i =>
    if (c.crystalWord buf 10).testBit i then a + (if (c.sp.read (a + 8)).getLsbD 2 then 2048 else 1024) else a)
    (crystalBase buf + 256)

/-- Where the record of end `h` of a crystal stands, or where the ends stop with `h` = 64. -/
def Core.crystalEnd (c : Core) (buf h : Nat) : Nat :=
  c.crystalSlot buf 8 + 128 * ((List.range h).filter (fun i => (c.crystalWord buf 13).testBit i)).length

/-- Write granules to a scratchpad; their pages are dirty (R377). -/
def Core.putGranules (c : Core) (a : Nat) (g : List Granule) : Core :=
  g.zipIdx.foldl (fun c e =>
    let n := a / 16 + e.2
    { c with
      sp := c.sp.writeN (16 * n) e.1.1
      spTags := if e.1.2 then NatSet.insert c.spTags n else NatSet.remove c.spTags n })
    { c with dirty := markDirty c.dirty a (16 * g.length) }

/-- Read `n` granules of a scratchpad. -/
def Core.getGranules (c : Core) (a n : Nat) : List Granule :=
  (List.range n).map (fun i => (c.sp.readN (a + 16 * i) 16, NatSet.has c.spTags (a / 16 + i)))

/-- Core `d` with a note in byte 8 of the record of end `h` in buffer `buf`, once, where the crystal holds the end in one of
the states `sts`. -/
def Core.noted (d : Core) (buf h : Nat) (sts : List Nat) (x : Byte) : Core :=
  let a := d.crystalEnd buf h
  if (d.crystalWord buf 13).testBit h && sts.contains ((d.sp.read a).toNat % 8) && (d.sp.read (a + 8)).toNat == 0 then
    { d with sp := d.sp.write (a + 8) x, dirty := markDirty d.dirty (a + 8) 1 }
  else d

/-- What happens to end `h` after a crystal of core `p` is noted in byte 8 of the crystal's end record, once, where the end
stood in one of the states `sts` then: in the crystal that is on its way, else in the buddy's reserve, at once or, where the
buddy's clock is held, when it is released (R351). -/
def State.crystalNote (s : State) (p h : Nat) (sts : List Nat) (x : Byte) : State :=
  let c := (s.core p).crystal
  match s.buddyOf p with
  | none => s
  | some b =>
    (c.current.toList ++ c.writing.toList).foldl (fun s buf =>
      if c.writing = some buf ∧ c.image ≠ [] then
        let d := ((s.core b).putGranules (crystalBase buf) c.image).noted buf h sts x
        s.modCore p (fun k => { k with crystal := { k.crystal with image := d.getGranules (crystalBase buf) c.image.length } })
      else if s.clockHeld b then
        sts.foldl (fun s st => s.postCore b 0 .logWrite { args p h x.toNat 2 with w := BitVec.ofNat 64 buf, w1 := BitVec.ofNat 64 st }) s
      else s.setCore b ((s.core b).noted buf h sts x)) s

/-- The reply of a send that is out in a crystal is noted in the crystal's end record, as ACKD and NAKD (R373). -/
def State.crystalReply (s : State) (p h : Nat) (nack : Bool) : State :=
  s.crystalNote p h [5] (if nack then 3#8 else 1#8)

/-- A message that stood in an end's inbox in a crystal has been taken since: bit 2 of byte 8, the model's own (R385). -/
def State.crystalTaken (s : State) (p h : Nat) : State := s.crystalNote p h [3, 6] 4#8

/-- A message that was parked at an end in a crystal has been bound or refused since. -/
def State.crystalBound (s : State) (p h : Nat) : State := s.crystalNote p h [1] 4#8

/-- LOG_WRITE (R381): the block writes an entry, its ST (`d` = 1), or a note in a crystal's end record (`d` = 2), into the
buddy's reserve. -/
def execLogWrite (s : State) : Host.Outcome State Fault Refusal :=
  let o := s.arg
  .next (match s.buddyOf o.a with
    | none => s
    | some b => s.modCore b (fun c =>
      let a := logAddr o.b
      if o.d = 1 then c.spWrite a (natBytes 8 o.c)
      else if o.d = 2 then c.noted o.w.toNat o.b [o.w1.toNat] (BitVec.ofNat 8 o.c)
      else
        let r : CReg := { tag := o.flag, val := o.w, mt := o.w1 }
        ((c.spWrite a (natBytes 8 o.c ++ natBytes 8 0)).spPutReg (a + 16) r).spWrite (a + 32)
          (vecBytes o.x ++ natBytes 32 0)))

end Sys2Proof.Machine
end

