-- ==== Sys2Proof/Machine/Operands.lean ====
section
/-! DEFINITION. What the integer operations compute, and the operand forms: immediates, branch targets, effective
addresses (R65, R66, R72, R75, R106 to R112, R122). -/

namespace Sys2Proof.Machine

/-- An immediate, sign-extended (R65). -/
def imm {n : Nat} (i : BitVec n) : Word := i.signExtend 64

/-- The target of a relative branch: halfwords from the branch itself (R66). -/
def branchTarget {n : Nat} (pc : Word) (o : BitVec n) : Word := pc + o.signExtend 64 * 2#64

/-- The effective address of an offset field scaled by the access size, exactly (R65, R132). -/
def effective {n : Nat} (r : CReg) (o : BitVec n) (size : Nat) : Int := (r.val.toNat : Int) + o.toInt * size

/-- Signed division truncated toward zero; −1 for a zero divisor (R107). -/
def divSigned (a b : Word) : Word :=
  if b = 0#64 then BitVec.allOnes 64 else BitVec.ofInt 64 (a.toInt.tdiv b.toInt)

/-- The remainder with the dividend's sign; the dividend for a zero divisor (R107). -/
def remSigned (a b : Word) : Word :=
  if b = 0#64 then a else BitVec.ofInt 64 (a.toInt.tmod b.toInt)

/-- Unsigned division; all ones for a zero divisor (R107). -/
def divUnsigned (a b : Word) : Word :=
  if b = 0#64 then BitVec.allOnes 64 else BitVec.ofNat 64 (a.toNat / b.toNat)

/-- Unsigned remainder; the dividend for a zero divisor (R107). -/
def remUnsigned (a b : Word) : Word := if b = 0#64 then a else BitVec.ofNat 64 (a.toNat % b.toNat)

/-- The carry-less product of two `n`-bit numbers (R106). -/
def carryLess (n : Nat) (a b : Nat) : Nat :=
  (List.range n).foldl (fun x i => if b.testBit i then x ^^^ (a <<< i) else x) 0

/-- Leading zero bits of an `n`-bit number, counted down from bit `k − 1`. -/
def leadingZeros (w : Word) : Nat → Nat
  | 0 => 0
  | k + 1 => if w.getLsbD k then 0 else 1 + leadingZeros w k

/-- Trailing zero bits, from bit `64 − k`. -/
def trailingZeros (w : Word) : Nat → Nat
  | 0 => 0
  | k + 1 => if w.getLsbD (63 - k) then 0 else 1 + trailingZeros w k

/-- The number of one bits (R106). -/
def popCount {n : Nat} (w : BitVec n) : Nat := (List.range n).foldl (fun c i => if w.getLsbD i then c + 1 else c) 0

/-- Byte reversal (R106). -/
def byteSwap (w : Word) : Word := BitVec.ofNat 64 (bytesNat (natBytes 8 w.toNat).reverse)

/-- Sign extension of the low `n` bits (R106). -/
def signLow (n : Nat) (w : Word) : Word := (w.setWidth n).signExtend 64

/-- Zero extension of the low `n` bits (R106). -/
def zeroLow (n : Nat) (w : Word) : Word := (w.setWidth n).setWidth 64

/-- The high half of a signed product (R106). -/
def mulHighSigned (a b : Word) : Word := BitVec.ofInt 64 ((a.toInt * b.toInt) / 2 ^ 64)

/-- The high half of an unsigned product (R106). -/
def mulHighUnsigned (a b : Word) : Word := BitVec.ofNat 64 (a.toNat * b.toNat / 2 ^ 64)

/-- Signed and unsigned minimum and maximum (R106). -/
def minSigned (a b : Word) : Word := if a.toInt ≤ b.toInt then a else b
def maxSigned (a b : Word) : Word := if a.toInt ≤ b.toInt then b else a
def minUnsigned (a b : Word) : Word := if a.toNat ≤ b.toNat then a else b
def maxUnsigned (a b : Word) : Word := if a.toNat ≤ b.toNat then b else a

/-- Extract `l + 1` bits at `o` (R110). -/
def extractField (a : Word) (o l : BitVec 6) : Word :=
  BitVec.ofNat 64 (a.toNat / 2 ^ o.toNat % 2 ^ (l.toNat + 1))

/-- Insert the low `l + 1` bits of `a` into `d` at `o` (R110). -/
def insertField (d a : Word) (o l : BitVec 6) : Word :=
  let mask : Word := BitVec.ofNat 64 ((2 ^ (l.toNat + 1) - 1) * 2 ^ o.toNat)
  (d &&& ~~~mask) ||| ((a <<< o.toNat) &&& mask)

/-- The condition of `cmp` and `cmpi` (R75, R122). -/
def compareWords (c : BitVec 3) (a b : Word) : Bool :=
  match c.toNat with
  | 0 => a == b
  | 1 => a != b
  | 2 => decide (a.toInt < b.toInt)
  | 3 => decide (b.toInt ≤ a.toInt)
  | 4 => decide (a.toNat < b.toNat)
  | 5 => decide (b.toNat ≤ a.toNat)
  | 6 => a &&& b == 0#64
  | _ => a &&& b != 0#64

/-- The immediate of `cmpi`: sign-extended, but zero-extended for ltz and gez (R75). -/
def compareImm (c : BitVec 3) (i : BitVec 5) : Word :=
  if c = 4#3 ∨ c = 5#3 then i.setWidth 64 else i.signExtend 64

/-- The operation of `pcmb` (R75). -/
def combinePreds (c : BitVec 3) (a b : Bool) : Bool :=
  match c.toNat with
  | 0 => a && b
  | 1 => a || b
  | 2 => a != b
  | 3 => a && !b
  | 4 => a || !b
  | 5 => a == b
  | 6 => !(a && b)
  | _ => !(a || b)

end Sys2Proof.Machine
end

