-- ==== Sys2Proof/Machine/Flags.lean ====
section
/-! DEFINITION. The predicates a compare writes and the flags of `fmode` (R38, R76, R124). -/

namespace Sys2Proof.Machine

/-- The two predicates a compare writes when its guard is 1, from their old values and the condition (R124). -/
def combineTypes (t : BitVec 3) (old1 old2 c : Bool) : Bool × Bool :=
  match t.toNat with
  | 0 => (c, !c)
  | 1 => (c, !c)
  | 2 => (old1 && c, old2 && !c)
  | 3 => (old1 || c, old2 || !c)
  | 4 => (old1 != c, old2 != c)
  | 5 => (c, old2 && c)
  | 6 => (c, old2 || c)
  | _ => (c, old1)

/-- Write a compare's destinations: with P1 = P2 only the pd1 result (R76, R124). -/
def Strand.putPreds (x : Strand) (p q : BitVec 3) (r : Bool × Bool) : Strand :=
  if p = q then x.setPred p r.1 else (x.setPred q r.2).setPred p r.1

/-- The flag bits as `Strand.raise` takes them: NX, UF, OF, DZ, NV (R38). -/
def flagNX : BitVec 5 := 1#5
def flagUF : BitVec 5 := 2#5
def flagOF : BitVec 5 := 4#5
def flagDZ : BitVec 5 := 8#5
def flagNV : BitVec 5 := 16#5
def flagNone : BitVec 5 := 0#5

/-- A compare under guard `g` (R62, R124): it advances whatever the guard holds; with a false guard only the clr
type writes, both predicates to 0. -/
def State.compare (s : State) (g p q t : BitVec 3) (c : Bool) (flags : BitVec 5) :
    Host.Outcome State Fault Refusal :=
  .next (if s.me.pred g then
      (s.modMe (fun x =>
        (x.raise flags).putPreds p q (combineTypes t (x.pred p) (x.pred q) c))).advance
    else if t = 1#3 then (s.modMe (fun x => x.putPreds p q (false, false))).advance
    else s.advance)

/-- A write to `fmode` (R38): RM of 5 to 7 leaves RM, the flags clear where 1 is written. -/
def writeFmode (old w : BitVec 8) : BitVec 8 :=
  let rm := w.extractLsb' 0 3
  let rm' := if decide (rm.toNat ≤ 4) then rm else old.extractLsb' 0 3
  (old.extractLsb' 3 5 &&& ~~~(w.extractLsb' 3 5)) ++ rm'

end Sys2Proof.Machine
end

