-- ==== Sys2Proof/Machine/Float.lean ====
section
/-! DEFINITION. The number formats: decoding, exact arithmetic, rounding, conversions, XS320 objects and Microscaling
blocks (R46 to R58). -/

namespace Sys2Proof.Machine

/-- What a format does with its top exponent (R47). -/
inductive FmtKind where
  | ieee
  | e4m3
  | e2m1
  deriving DecidableEq, Repr

/-- A floating-point format (R47): exponent and mantissa widths and the bias. -/
structure Fmt where
  eb : Nat
  mb : Nat
  bias : Int
  kind : FmtKind
  deriving DecidableEq, Repr

def fp32 : Fmt := { eb := 8, mb := 23, bias := 127, kind := .ieee }
def fp16 : Fmt := { eb := 5, mb := 10, bias := 15, kind := .ieee }
def bf16 : Fmt := { eb := 8, mb := 7, bias := 127, kind := .ieee }
def e4m3 : Fmt := { eb := 4, mb := 3, bias := 7, kind := .e4m3 }
def e5m2 : Fmt := { eb := 5, mb := 2, bias := 15, kind := .ieee }
def e2m1 : Fmt := { eb := 2, mb := 1, bias := 1, kind := .e2m1 }

/-- The width of a format. -/
def Fmt.bits (f : Fmt) : Nat := 1 + f.eb + f.mb

/-- The lane format of a floating type T (R80). -/
def fmtOfT (t : Nat) : Fmt :=
  match t with
  | 0 => fp32
  | 1 => bf16
  | 2 => fp16
  | 3 => e4m3
  | _ => e5m2

/-- A decoded value: NaN, an infinity, or (−1)^neg × m × 2^e. -/
inductive FVal where
  | nan
  | inf (neg : Bool)
  | fin (neg : Bool) (m : Nat) (e : Int)
  deriving DecidableEq, Repr

/-- Decode a bit pattern (R47). -/
def Fmt.decode (f : Fmt) (x : Nat) : FVal :=
  let neg := x.testBit (f.eb + f.mb)
  let ef := x / 2 ^ f.mb % 2 ^ f.eb
  let mf := x % 2 ^ f.mb
  let top := 2 ^ f.eb - 1
  if f.kind = .ieee ∧ ef = top then (if mf = 0 then .inf neg else .nan)
  else if f.kind = .e4m3 ∧ ef = top ∧ mf = 2 ^ f.mb - 1 then .nan
  else if ef = 0 then .fin neg mf (1 - f.bias - f.mb)
  else .fin neg (2 ^ f.mb + mf) (ef - f.bias - f.mb)

/-- The sign bit in place. -/
def Fmt.sign (f : Fmt) (neg : Bool) : Nat := if neg then 2 ^ (f.eb + f.mb) else 0

/-- The canonical NaN (R47). E2M1 has none; a NaN becomes +0 there (R50). -/
def Fmt.nan (f : Fmt) : Nat :=
  match f.kind with
  | .ieee => (2 ^ f.eb - 1) * 2 ^ f.mb + (if f.mb = 2 then 2 else 2 ^ (f.mb - 1))
  | .e4m3 => 0x7F
  | .e2m1 => 0

/-- The largest finite magnitude (R47). -/
def Fmt.largest (f : Fmt) : Nat :=
  match f.kind with
  | .ieee => (2 ^ f.eb - 1) * 2 ^ f.mb - 1
  | .e4m3 => 0x7E
  | .e2m1 => 7

/-- The infinity of an IEEE format. -/
def Fmt.infinity (f : Fmt) : Nat := (2 ^ f.eb - 1) * 2 ^ f.mb

/-- A rounding mode (R38, R53). -/
inductive Rnd where
  | rne
  | rtz
  | rdn
  | rup
  | sr
  deriving DecidableEq, Repr

/-- RM codes (R38). -/
def rndOf (n : Nat) : Rnd :=
  match n with
  | 0 => .rne
  | 1 => .rtz
  | 2 => .rdn
  | 3 => .rup
  | _ => .sr

/-- SR outside narrowing conversions is RNE (R53, R160). -/
def Rnd.plain : Rnd → Rnd
  | .sr => .rne
  | r => r

/-- An overflow's result (R50): flags OF and NX come with it. -/
def Fmt.overflow (f : Fmt) (neg : Bool) (mode : Rnd) : Nat :=
  f.sign neg +
  match f.kind with
  | .ieee =>
    match mode with
    | .rne | .sr => f.infinity
    | .rtz => f.largest
    | .rup => if neg then f.largest else f.infinity
    | .rdn => if neg then f.infinity else f.largest
  | _ => f.largest

/-- The number of bits of a number, by fuel. -/
def bitLen (fuel n : Nat) : Nat :=
  match fuel with
  | 0 => 0
  | k + 1 => if n = 0 then 0 else 1 + bitLen k (n / 2)

/-- The magnitude to which m × 2^e, with a remainder below its last bit where `sticky`, rounds in steps of 2^q; and
whether it is inexact (R53). `rnd` is the 32-bit random number of SR. -/
def roundStep (mode : Rnd) (neg : Bool) (m : Nat) (e q : Int) (sticky : Bool) (rnd : Nat) : Nat × Bool :=
  if q ≤ e then (m * 2 ^ (e - q).toNat, false)
  else
    let sh := (q - e).toNat
    let lo := m / 2 ^ sh
    let rem := m % 2 ^ sh
    let half := 2 ^ (sh - 1)
    let inexact := rem != 0 || sticky
    let up := match mode with
      | .rne => decide (half < rem) || (rem == half && (sticky || lo % 2 == 1))
      | .rtz => false
      | .rup => !neg && inexact
      | .rdn => neg && inexact
      | .sr => decide (rnd < rem * 2 ^ 32 / 2 ^ sh)
    (if up then lo + 1 else lo, inexact)

/-- Round (−1)^neg × m × 2^e, m > 0, to a format: the bits and the flags (R49, R50, R53). Underflow is tininess after
rounding as with an unbounded exponent range. -/
def Fmt.round (f : Fmt) (mode : Rnd) (neg : Bool) (m : Nat) (e : Int) (sticky : Bool) (rnd : Nat) :
    Nat × BitVec 5 :=
  let len : Int := bitLen 1200 m
  let emin : Int := 1 - f.bias
  let free : Int := len + e - 1 - f.mb
  let q : Int := if free < emin - f.mb then emin - f.mb else free
  let (n, inexact) := roundStep mode neg m e q sticky rnd
  let (n, q) := if n = 2 ^ (f.mb + 1) then (2 ^ f.mb, q + 1) else (n, q)
  let nx := if inexact then flagNX else flagNone
  if n < 2 ^ f.mb then
    (f.sign neg + n, nx ||| (if inexact then flagUF else flagNone))
  else
    let ef := (q + f.mb + f.bias).toNat
    let bits := ef * 2 ^ f.mb + (n - 2 ^ f.mb)
    if f.largest < bits then (f.overflow neg mode, flagOF ||| flagNX)
    else
      -- the least normal reached by rounding up from below is tiny when the unbounded range keeps it below
      let tiny := ef == 1 && n == 2 ^ f.mb && decide (free < emin - f.mb) &&
        decide ((roundStep mode neg m e free sticky rnd).1 < 2 ^ (f.mb + 1))
      (f.sign neg + bits, nx ||| (if inexact && tiny then flagUF else flagNone))

/-- Round an exact finite value; zero keeps its sign (R160). -/
def Fmt.roundVal (f : Fmt) (mode : Rnd) (v : FVal) (rnd : Nat) : Nat × BitVec 5 :=
  match v with
  | .nan => (f.nan, flagNone)
  | .inf neg => (f.sign neg + f.infinity, flagNone)
  | .fin neg m e => if m = 0 then (f.sign neg, flagNone) else f.round mode neg m e false rnd

/-- The value as a signed multiple of 2^e' for e' at most its exponent. -/
def scaled (neg : Bool) (m : Nat) (e e' : Int) : Int :=
  let x : Int := m * 2 ^ (e - e').toNat
  if neg then -x else x

/-- The exact sum of two finite values; an exact zero from unlike signs is +0, or −0 under RDN (R160). -/
def addFin (mode : Rnd) (n1 : Bool) (m1 : Nat) (e1 : Int) (n2 : Bool) (m2 : Nat) (e2 : Int) : FVal :=
  let e' := if e1 ≤ e2 then e1 else e2
  let t := scaled n1 m1 e1 e' + scaled n2 m2 e2 e'
  if t = 0 then .fin (if m1 = 0 ∧ m2 = 0 ∧ n1 = n2 then n1 else mode == .rdn) 0 0
  else .fin (decide (t < 0)) t.natAbs e'

/-- Negate. -/
def FVal.neg : FVal → FVal
  | .nan => .nan
  | .inf n => .inf (!n)
  | .fin n m e => .fin (!n) m e

/-- Is it a NaN? -/
def FVal.isNan : FVal → Bool
  | .nan => true
  | _ => false

/-- a + b: the exact value, with NV for opposite infinities (R161). -/
def FVal.add (mode : Rnd) : FVal → FVal → FVal × BitVec 5
  | .nan, _ => (.nan, flagNone)
  | _, .nan => (.nan, flagNone)
  | .inf a, .inf b => if a = b then (.inf a, flagNone) else (.nan, flagNV)
  | .inf a, .fin _ _ _ => (.inf a, flagNone)
  | .fin _ _ _, .inf b => (.inf b, flagNone)
  | .fin n1 m1 e1, .fin n2 m2 e2 => (addFin mode n1 m1 e1 n2 m2 e2, flagNone)

/-- a × b: the exact value, with NV for 0 × Inf (R161). -/
def FVal.mul : FVal → FVal → FVal × BitVec 5
  | .nan, _ => (.nan, flagNone)
  | _, .nan => (.nan, flagNone)
  | .inf a, .inf b => (.inf (a != b), flagNone)
  | .inf a, .fin n m _ => if m = 0 then (.nan, flagNV) else (.inf (a != n), flagNone)
  | .fin n m _, .inf b => if m = 0 then (.nan, flagNV) else (.inf (n != b), flagNone)
  | .fin n1 m1 e1, .fin n2 m2 e2 => (.fin (n1 != n2) (m1 * m2) (e1 + e2), flagNone)

/-- Add in a format: one rounding (R160, R161). -/
def Fmt.add (f : Fmt) (mode : Rnd) (a b : FVal) : Nat × BitVec 5 :=
  let (v, fl) := a.add mode b
  let (r, fl') := f.roundVal mode v 0
  (r, fl ||| fl')

/-- Multiply in a format (R161). -/
def Fmt.mul (f : Fmt) (mode : Rnd) (a b : FVal) : Nat × BitVec 5 :=
  let (v, fl) := a.mul b
  let (r, fl') := f.roundVal mode v 0
  (r, fl ||| fl')

/-- Divide in a format (R161). -/
def Fmt.div (f : Fmt) (mode : Rnd) (a b : FVal) : Nat × BitVec 5 :=
  match a, b with
  | .nan, _ => (f.nan, flagNone)
  | _, .nan => (f.nan, flagNone)
  | .inf _, .inf _ => (f.nan, flagNV)
  | .inf x, .fin n _ _ => (f.sign (x != n) + f.infinity, flagNone)
  | .fin n _ _, .inf x => (f.sign (n != x), flagNone)
  | .fin n1 m1 e1, .fin n2 m2 e2 =>
    if m2 = 0 then (if m1 = 0 then (f.nan, flagNV) else (f.sign (n1 != n2) + f.infinity, flagDZ))
    else if m1 = 0 then (f.sign (n1 != n2), flagNone)
    else
      let num := m1 * 2 ^ 64
      f.round mode (n1 != n2) (num / m2) (e1 - e2 - 64) (num % m2 != 0) 0

/-- The integer square root, bit by bit from bit `k − 1` of the root. -/
def isqrtFrom (n : Nat) : Nat → Nat → Nat
  | 0, r => r
  | k + 1, r =>
    let c := r + 2 ^ k
    isqrtFrom n k (if c * c ≤ n then c else r)

/-- Square root in a format (R161). -/
def Fmt.sqrt (f : Fmt) (mode : Rnd) (a : FVal) : Nat × BitVec 5 :=
  match a with
  | .nan => (f.nan, flagNone)
  | .inf neg => if neg then (f.nan, flagNV) else (f.infinity, flagNone)
  | .fin neg m e =>
    if m = 0 then (f.sign neg, flagNone)
    else if neg then (f.nan, flagNV)
    else
      let (m, e) := if e % 2 = 0 then (m * 2 ^ 64, e - 64) else (m * 2 ^ 65, e - 65)
      let r := isqrtFrom m 64 0
      f.round mode false r (e / 2) (r * r != m) 0

/-- Is the product of two values invalid: 0 × Inf (R162)? -/
def invalidProduct : FVal → FVal → Bool
  | .inf _, .fin _ m _ => m == 0
  | .fin _ m _, .inf _ => m == 0
  | _, _ => false

/-- Round(± a × b ± c): one rounding, with the NaN rules of R162. -/
def Fmt.fma (f : Fmt) (mode : Rnd) (negProd negAdd : Bool) (a b c : FVal) : Nat × BitVec 5 :=
  let p := (a.mul b).1
  let p := if negProd then p.neg else p
  let c := if negAdd then c.neg else c
  if invalidProduct a b then (f.nan, flagNV)
  else f.add mode p c

/-- One step of the generator of R54: the new state and the 32-bit number. -/
def srngStep (x : Word) : Word × Nat :=
  let x := x ^^^ (x >>> 12)
  let x := x ^^^ (x <<< 25)
  let x := x ^^^ (x >>> 27)
  (x, (x * 0x2545F4914F6CDD1D#64).toNat / 2 ^ 32)

/-- A conversion between floating formats that narrows, or has E4M3 or E2M1 as its target (R50, R166). -/
def Fmt.narrow (f : Fmt) (mode : Rnd) (v : FVal) (rnd : Nat) : Nat × BitVec 5 :=
  match v with
  | .nan => (f.nan, match f.kind with
    | .ieee => flagNone
    | _ => flagNV)
  | .inf neg =>
    match f.kind with
    | .ieee => (f.sign neg + f.infinity, flagNone)
    | .e4m3 => (f.nan, flagNV)
    | .e2m1 => (f.sign neg + f.largest, flagNV)
  | .fin neg m e => if m = 0 then (f.sign neg, flagNone) else f.round mode neg m e false rnd

/-- Compare two values that are not NaN: −1, 0 or 1 as an order (−0 equals +0). -/
def FVal.cmp : FVal → FVal → Int
  | .inf a, .inf b => (if a = b then 0 else if a then -1 else 1)
  | .inf a, _ => if a then -1 else 1
  | _, .inf b => if b then 1 else -1
  | .fin n1 m1 e1, .fin n2 m2 e2 =>
    let e' := if e1 ≤ e2 then e1 else e2
    let d := scaled n1 m1 e1 e' - scaled n2 m2 e2 e'
    if d < 0 then -1 else if d = 0 then 0 else 1
  | _, _ => 0

/-- The floating conditions of R75 and R123: the result and whether NV is set. -/
def compareFloat (c : Nat) (a b : FVal) : Bool × BitVec 5 :=
  if a.isNan || b.isNan then
    match c with
    | 1 => (true, flagNone)
    | 6 => (true, flagNone)
    | 0 => (false, flagNone)
    | 7 => (false, flagNone)
    | _ => (false, flagNV)
  else
    let d := a.cmp b
    (match c with
    | 0 => d == 0
    | 1 => d != 0
    | 2 => decide (d < 0)
    | 3 => decide (0 ≤ d)
    | 4 => decide (d ≤ 0)
    | 5 => decide (0 < d)
    | 6 => false
    | _ => true, flagNone)

/-- The smaller or larger of two lanes, as bits: −0 is below +0, any NaN gives the canonical NaN (R161). -/
def Fmt.minMax (f : Fmt) (larger : Bool) (x y : Nat) : Nat :=
  let a := f.decode x
  let b := f.decode y
  if a.isNan || b.isNan then f.nan
  else
    let d := a.cmp b
    let less := decide (d < 0) || (d == 0 && x.testBit (f.eb + f.mb))
    if larger then (if less then y else x) else (if less then x else y)

/-! ## Integers -/

/-- Round an exact value to an integer (R167): the magnitude rounds by the mode. -/
def roundToInt (mode : Rnd) (neg : Bool) (m : Nat) (e : Int) : Int × Bool :=
  let (n, inexact) := roundStep mode neg m e 0 false 0
  (if neg then -(n : Int) else n, inexact)

/-- Saturate to a range. -/
def saturate (lo hi x : Int) : Int := if x < lo then lo else if hi < x then hi else x

/-- An exact integer as a value. -/
def FVal.ofInt (x : Int) : FVal := .fin (decide (x < 0)) x.natAbs 0

/-! ## XS320 objects (R55 to R57) -/

/-- An XS320 object: VALUE, COUNT and the flags NAN, PINF, NINF, OVF. -/
structure Xs where
  value : Int
  count : Nat
  nan : Bool
  pinf : Bool
  ninf : Bool
  ovf : Bool
  deriving DecidableEq, Repr

/-- Two's complement of `n` bits. -/
def toSigned (n x : Nat) : Int := if x < 2 ^ (n - 1) then x else (x : Int) - 2 ^ n

/-- An object's 48 bytes (R55). -/
def Xs.ofBytes (b : List Byte) : Xs :=
  let w := bytesNat (b.drop 40)
  { value := toSigned 320 (bytesNat (b.take 40)), count := w % 2 ^ 24, nan := w.testBit 24, pinf := w.testBit 25,
    ninf := w.testBit 26, ovf := w.testBit 27 }

/-- Are an object's reserved bits 0 (R55)? -/
def xsReservedOk (b : List Byte) : Bool := bytesNat (b.drop 40) / 2 ^ 28 == 0

/-- The 48 bytes of an object (R55). -/
def Xs.bytes (x : Xs) : List Byte :=
  natBytes 40 (x.value % 2 ^ 320).toNat ++
  natBytes 8 (x.count + (if x.nan then 2 ^ 24 else 0) + (if x.pinf then 2 ^ 25 else 0) +
    (if x.ninf then 2 ^ 26 else 0) + (if x.ovf then 2 ^ 27 else 0))

/-- Add a value (R56): every finite value of the formats is a multiple of 2^−149. -/
def Xs.add (x : Xs) (v : FVal) : Xs :=
  let x := { x with count := if x.count + 1 ≤ 0xFFFFFF then x.count + 1 else 0xFFFFFF }
  match v with
  | .nan => { x with nan := true }
  | .inf neg => if neg then { x with ninf := true } else { x with pinf := true }
  | .fin neg m e =>
    let t := x.value + scaled neg m e (-149)
    { x with
      ovf := x.ovf || decide (t < -(2 ^ 319)) || decide ((2 ^ 319 : Int) ≤ t)
      value := toSigned 320 (t % 2 ^ 320).toNat }

/-- Read an object in a format (R57). -/
def Xs.read (x : Xs) (f : Fmt) (mode : Rnd) : Nat × BitVec 5 :=
  if x.nan || (x.pinf && x.ninf) || x.ovf then f.narrow mode .nan 0
  else if x.pinf then f.narrow mode (.inf false) 0
  else if x.ninf then f.narrow mode (.inf true) 0
  else if x.value = 0 then (0, flagNone)
  else f.round mode.plain (decide (x.value < 0)) x.value.natAbs (-149) false 0

/-! ## Microscaling blocks (R51, R52) -/

/-- The value of an element under an E8M0 scale; a scale of 0xFF makes it NaN (R51). -/
def mxValue (f : Fmt) (scale x : Nat) : FVal :=
  if scale = 0xFF then .nan
  else match f.decode x with
    | .fin n m e => .fin n m (e + (scale : Int) - 127)
    | v => v

/-- emax of R52. -/
def mxEmax (f : Fmt) : Int :=
  match f.kind with
  | .e4m3 => 8
  | .e2m1 => 2
  | .ieee => 15

/-- ⌊log2⌋ of m × 2^e, m > 0. -/
def floorLog2 (m : Nat) (e : Int) : Int := (bitLen 1200 m : Int) - 1 + e

/-- The largest ⌊log2⌋ of the non-zero values. -/
def maxLog : List FVal → Option Int
  | [] => none
  | v :: rest =>
    match v, maxLog rest with
    | .fin _ m e, none => if m = 0 then none else some (floorLog2 m e)
    | .fin _ m e, some x => if m = 0 then some x else some (if floorLog2 m e < x then x else floorLog2 m e)
    | _, r => r

/-- Encode values in a block (R52): the scale, the elements and the flags. -/
def mxEncode (f : Fmt) (mode : Rnd) (vs : List FVal) : Nat × List Nat × BitVec 5 :=
  if vs.any (fun v => match v with
    | .fin _ _ _ => false
    | _ => true) then (0xFF, vs.map (fun _ => 0), flagNV)
  else
    match maxLog vs with
    | none => (127, vs.map (fun v => (f.narrow mode v 0).1), flagNone)
    | some l =>
      let x := saturate (-127) 127 (l - mxEmax f)
      let rs := vs.map (fun v => match v with
        | .fin n m e => f.narrow mode (.fin n m (e - x)) 0
        | v => f.narrow mode v 0)
      ((x + 127).toNat, rs.map (·.1), rs.foldl (fun fl r => fl ||| r.2) flagNone)

end Sys2Proof.Machine
end

