-- ==== Sys2Proof/Machine/StreamOps.lean ====
section
/-! DEFINITION. Vector operands: lanes, and the pops and pushes of bound stream registers (R30 to R32, R157, R178 to
R184). -/

namespace Sys2Proof.Machine

/-- Lane `i` of width `w` (R30). -/
def lane (w : Nat) (x : BitVec 512) (i : Nat) : Nat := x.toNat / 2 ^ (w * i) % 2 ^ w

/-- A vector of lanes of width `w`, lane 0 first. -/
def ofLanes (w : Nat) (xs : List Nat) : BitVec 512 :=
  BitVec.ofNat 512 (xs.foldr (fun x acc => x % 2 ^ w + 2 ^ w * acc) 0)

/-- The lanes of a vector. -/
def lanesOf (w : Nat) (x : BitVec 512) : List Nat := (List.range (512 / w)).map (lane w x)

/-- The number of elements of a stream (R180). -/
def Stream.total (x : Stream) : Nat := x.cnt.foldl (fun n c => n * (c + 1)) 1

/-- The position indices of element `k`, dimension 0 fastest (R180). -/
def streamIndex : List Nat → Nat → List Nat
  | [], _ => []
  | c :: rest, k => k % (c + 1) :: streamIndex rest (k / (c + 1))

/-- The scratchpad address of element `k` (R180). -/
def Stream.addr (x : Stream) (k : Nat) : Nat :=
  (16 * (((streamIndex x.cnt k).zip x.stride).foldl (fun (a : Int) p => a + (p.1 : Int) * p.2) (x.base : Int))).toNat

/-- The stream bound to v`d`, if one is (R32). -/
def Strand.stream (x : Strand) (d : BitVec 4) : Option Stream := x.streams.get? d.toNat

/-- Set or clear the SB and SD bits of register `d` (R37). -/
def streamBits (sst : BitVec 13) (d : Nat) (bound out : Bool) : BitVec 13 :=
  let m := d - 13
  let sst := sst &&& ~~~(1#13 <<< (3 + m)) &&& ~~~(1#13 <<< (6 + m))
  sst ||| (if bound then 1#13 <<< (3 + m) else 0#13) ||| (if bound && out then 1#13 <<< (6 + m) else 0#13)

/-- Release the stream of register `d`: the register becomes 0 (R185). -/
def Strand.freeStream (x : Strand) (d : Nat) : Strand :=
  { x with streams := x.streams.erase d, sst := streamBits x.sst d false false, v := x.v.set d 0#512 }

/-- The checks of R183 on one operand: reading an out-stream, writing an in-stream, or passing the end. -/
def Strand.streamCheck (x : Strand) (d : BitVec 4) (writes : Bool) : Except Trap Unit :=
  match x.stream d with
  | none => .ok ()
  | some st =>
    if writes && !st.out then .error (trapStream d.toNat 4)
    else if !writes && st.out then .error (trapStream d.toNat 3)
    else need (decide (st.done < st.total)) (trapStream d.toNat 5)

/-- The granules of an operand's next element, where full/empty bits are used (R184). -/
def Strand.streamGranules (x : Strand) (d : BitVec 4) : List Nat :=
  match x.stream d with
  | some st => if st.fe then granules (st.addr st.done) 64 else []
  | none => []

/-- The stream trap of an instruction (R183). Where several of its operands fail, the sources come first, in the order
A, B, VD, then the destination: the model's choice (log entry 82). -/
def State.streamReasons (s : State) (reads writes : List (BitVec 4)) : Except Trap Unit := do
  reads.forM (fun d => s.me.streamCheck d false)
  writes.forM (fun d => s.me.streamCheck d true)

/-- What the stream operands of an instruction wait for: the granules of its pops full, of its pushes empty (R184). -/
def State.streamWait (s : State) (reads writes : List (BitVec 4)) : Option Wait :=
  let full := reads.flatMap s.me.streamGranules
  let empty := writes.flatMap s.me.streamGranules
  if full.all s.myCore.full && empty.all (fun g => !s.myCore.full g) then none else some (.fullEmpty full empty)

/-- A push must not destroy a linear capability (R134, R182): the linearity stage of R104. -/
def State.pushLinear (s : State) (writes : List (BitVec 4)) : Except Trap Unit :=
  writes.forM (fun d => match s.me.stream d with
    | some st => s.myCore.checkLinear (st.addr st.done) 64 (BitVec.ofNat 64 (st.addr st.done))
    | none => .ok ())

/-- The stream rules before an instruction acts (R134, R182 to R184): a trap, a wait on full/empty bits, or nothing. The
stream trap and the wait come before the checks of R104, since the elements may supply what those check: the model's
choice (log entry 82). -/
def State.streamGate (s : State) (reads writes : List (BitVec 4)) : Except Trap (Option Wait) := do
  s.streamReasons reads writes
  match s.streamWait reads writes with
  | some w => return some w
  | none =>
    s.pushLinear writes
    return none

/-- A vector operand: the next element of an in-stream, or the register (R182). -/
def State.readVec (s : State) (d : BitVec 4) : BitVec 512 :=
  match s.me.stream d with
  | some st => bytesVec (s.myCore.sp.readN (st.addr st.done) 64)
  | none => s.me.vec d

/-- Pop the in-stream of one register (R182, R184). -/
def State.popOne (s : State) (d : BitVec 4) : State :=
  match s.me.stream d with
  | none => s
  | some st =>
    let s := s.modMe (fun x =>
      { x with streams := x.streams.set d.toNat { st with done := st.done + 1 }, popped := d :: x.popped })
    if st.fe then
      (s.modMyCore (fun c => c.setFe (granules (st.addr st.done) 64) false)).wakeFullEmpty s.cur.core
    else s

/-- Pop every in-stream named, each once (R182). -/
def State.popAll (s : State) (reads : List (BitVec 4)) : State := reads.eraseDups.foldl State.popOne s

/-- Undo the pops of the instruction at which slot `k` of core `p` waits: no position of it advances where it traps
(R183, R186), and the elements are there to be popped again. -/
def State.unpop (s : State) (p k : Nat) : State :=
  let x := s.strand p k
  (x.popped.foldl (fun s d =>
    match (s.strand p k).stream d with
    | none => s
    | some st =>
      let st := { st with done := st.done - 1 }
      let s := s.modStrand p k (fun x => { x with streams := x.streams.set d.toNat st })
      if st.fe then (s.modCore p (fun c => c.setFe (granules (st.addr st.done) 64) true)).wakeFullEmpty p else s)
    s).modStrand p k (fun x => { x with popped := [] })

/-- Write a vector result: push it on an out-stream, or write the register (R182, R184). -/
def State.writeVec (s : State) (d : BitVec 4) (w : BitVec 512) : State :=
  match s.me.stream d with
  | none => s.modMe (fun x => x.setVec d w)
  | some st =>
    let a := st.addr st.done
    let s := s.modMe (fun x => { x with streams := x.streams.set d.toNat { st with done := st.done + 1 } })
    let s := s.modMyCore (fun c => c.spWrite a (vecBytes w))
    if st.fe then (s.modMyCore (fun c => c.setFe (granules a 64) true)).wakeFullEmpty s.cur.core else s

/-- A vector instruction under its guard (R31, R159, R182): reads every source, then writes the result whole; the
next issue is `n` cycles away. -/
def State.vector (s : State) (g : BitVec 3) (reads : List (BitVec 4)) (d : BitVec 4) (n : Nat)
    (f : State → BitVec 512 × BitVec 5) : Host.Outcome State Fault Refusal :=
  s.actV g (fun s => do
    match ← s.streamGate reads [d] with
    | some w => return s.waitAgain w
    | none =>
      let r := f s
      return (((s.popAll reads).modMe (fun x => x.raise r.2)).writeVec d r.1).advanceBy n)

/-- Apply a function to each lane, collecting flags. -/
def mapLanes (w : Nat) (f : Nat → Nat × BitVec 5) (x : BitVec 512) : BitVec 512 × BitVec 5 :=
  let rs := (lanesOf w x).map f
  (ofLanes w (rs.map (·.1)), rs.foldl (fun fl r => fl ||| r.2) flagNone)

/-- Apply a function to each pair of lanes, collecting flags. -/
def zipLanes (w : Nat) (f : Nat → Nat → Nat × BitVec 5) (x y : BitVec 512) : BitVec 512 × BitVec 5 :=
  let rs := ((lanesOf w x).zip (lanesOf w y)).map (fun p => f p.1 p.2)
  (ofLanes w (rs.map (·.1)), rs.foldl (fun fl r => fl ||| r.2) flagNone)

/-- The rounding that RQ selects; 0 takes RM (R81, R160). -/
def Strand.rounding (x : Strand) (r : BitVec 3) : Rnd :=
  if r = 0#3 then rndOf (x.fmode.extractLsb' 0 3).toNat else rndOf (r.toNat - 1)

end Sys2Proof.Machine
end

