-- ==== Sys2Proof/Machine/Access.lean ====
section
/-! DEFINITION. The checks of a memory access, and sending far accesses (R131 to R143, R302, R343). -/

namespace Sys2Proof.Machine

/-- Where a base capability leads (R131, R136). -/
inductive Place where
  | window
  | device
  | host
  | pan
  deriving DecidableEq, Repr

/-- The place of a base's kind. -/
def CReg.place (r : CReg) : Place :=
  if r.kind = 1 then .window else if r.kind = 0xA then .device else if r.kind = 0xB then .host else .pan

/-- Is a device-window address one that R343 lists: TYPE and INDEX in range? -/
def deviceListed (ea : Nat) : Bool :=
  let typ := ea / 2 ^ 40 % 256
  let idx := ea / 2 ^ 20 % 2 ^ 20
  (typ == 1 && decide (idx < 442368)) || (typ == 2 && decide (idx < 442368)) || (typ == 3 && decide (idx < 72)) ||
    (typ == 4 && decide (idx < 1536))

/-- The permission stage of R104 for a base: tag, kind, PERM bits, PR and a listed device (R131, R136, R343). -/
def checkPlace (u : BaseUse) (a : BitVec 5) (r : CReg) (bits : BitVec 12) (ea : Int) : Except Trap Unit := do
  let w := BitVec.ofInt 64 ea
  checkBase u a r bits w
  need (r.place != .device || (r.has 10 && deviceListed w.toNat)) (trapPermission w)

/-- The linearity stage: the destination register under R102, and the scratchpad granules a store would destroy
(R134). -/
def State.checkLinearity (s : State) (r : CReg) (ea : Int) (n : Nat) (store : Bool) (d : Option (BitVec 5)) :
    Except Trap Unit := do
  match d with
  | some d => s.writable d
  | none => pure ()
  if store && r.place == .window then s.myCore.checkLinear (ea.toNat % 2 ^ 18) n (BitVec.ofInt 64 ea)

/-- The alignment stage: natural alignment, and the sizes a device register takes (R133). -/
def checkAlignment (r : CReg) (ea : Int) (n align : Nat) : Except Trap Unit := do
  need (r.place != .device || n == 4 || n == 8) (trapAlignment (BitVec.ofInt 64 ea))
  checkAlign ea align

/-- A homed address must name a slice of the partition's units (R302). -/
def State.checkHome (s : State) (r : CReg) (ea : Int) : Except Trap Unit :=
  need (r.place != .pan || (s.sliceOf s.mySp ea.toNat).isSome) (trapTranslation (BitVec.ofInt 64 ea))

/-- All checks of an access of `n` bytes at `ea` (R104, R132). -/
def State.checkAccess (s : State) (u : BaseUse) (a : BitVec 5) (bits : BitVec 12) (ea : Int) (n align : Nat)
    (store : Bool) (d : Option (BitVec 5)) : Except Trap Unit := do
  let r := s.me.reg a
  checkPlace u a r bits ea
  checkBounds r ea n
  s.checkLinearity r ea n store d
  checkAlignment r ea n align
  s.checkHome r ea

/-- The checks of a vector form, the granules it pushes onto among those of the linearity stage (R104, R132, R182). -/
def State.checkVector (s : State) (u : BaseUse) (a : BitVec 5) (bits : BitVec 12) (ea : Int) (n : Nat) (store : Bool)
    (writes : List (BitVec 4)) : Except Trap Unit := do
  let r := s.me.reg a
  checkPlace u a r bits ea
  checkBounds r ea n
  s.checkLinearity r ea n store none
  s.pushLinear writes
  checkAlignment r ea n n
  s.checkHome r ea

/-- The strand's relaxed accesses that have not replied (R142). -/
def Strand.relaxedOut (x : Strand) : List Nat := (x.far.filter (fun f => f.relaxed && f.left != 0)).map (·.id)

/-- The strand's far accesses that have not replied (R145). -/
def Strand.farOut (x : Strand) : List Nat := (x.far.filter (fun f => f.left != 0)).map (·.id)

/-- Has some strand of core `p` an access of this number that has not replied? -/
def State.outstanding (s : State) (p id : Nat) : Bool :=
  (s.core p).slots.any (fun e => e.2.farOut.contains id)

/-- The fence.far condition that some instructions perform before they act (R145): the strand waits at the instruction
until its far accesses have replied, and the instruction acts in the cycle in which they have (R187). -/
def State.fenceFirst (s : State) (f : State → Act) : Act :=
  let out := s.me.farOut
  if out = [] then f s else .ok (s.waitAgain (.fenceFirst out s.cur.len s.cur.bits))

/-- A request of the executing strand, part `part` of access `id`. -/
def State.strandRequest (s : State) (id part va : Nat) (kind : ReqKind) (host : Bool) : Request :=
  { id := 0, who := .strand s.cur.core s.cur.slot id part, lcn := s.myCore.lcn, slot := s.cur.slot, part := s.mySp,
    va := va, kind := kind, arrived := 0, walking := false, frame := 0, host := host, unchecked := false, payer := s.ownerOf s.cur.core }

/-- Inject the requests of an access, one a cycle in order, the first `after` cycles from now (R141, R313). -/
def State.sendParts (s : State) (id : Nat) (host : Bool) (after : Nat) : Nat → List (Nat × ReqKind) → State
  | _, [] => s
  | i, (va, kind) :: rest =>
    let dst : Dest := if host then .host else .slice ((s.sliceOf s.mySp va).getD 0)
    (s.sendFrom s.cur.core true dst 1 (.request (s.strandRequest id i va kind host)) (after + i)).sendParts id host after (i + 1) rest

/-- The strand holds an access to the addresses `eas` from now on: relaxed, it goes on; else it waits for the reply (R142). -/
def State.holdFar (s : State) (id : Nat) (eas : List Nat) (dest : FarDest) : State :=
  let f : Far := { id := id, relaxed := s.cur.relaxed, eas := eas, dest := dest, left := eas.length, data := 0#512, refused := none, landed := none }
  let s := s.modMe (fun x => { x with far := x.far ++ [f] })
  if s.cur.relaxed then s.advance else s.waitNext (.far id)

/-- What a far access waits for before it is sent: a relaxed one for room, an unrelaxed one for every outstanding
relaxed access (R142). -/
def State.farGate (s : State) : Option Wait :=
  let out := s.me.relaxedOut
  if s.cur.relaxed then (if 4 ≤ out.length then some (.relaxed (out.take 1)) else none)
  else if out = [] then none else some (.relaxed out)

/-- The requests of an access leave behind those of the strand's accesses before it, so that its accesses to a slice arrive
in the order of their issue (R141, R142, R317). -/
def State.sendInOrder (s : State) (id : Nat) (host : Bool) (parts : List (Nat × ReqKind)) : State :=
  let after := s.me.sendFrom - s.k
  (s.sendParts id host after 0 parts).modMe (fun x => { x with sendFrom := s.k + after + parts.length })

/-- Send a far access of the executing strand (R141, R142); `before` is what the instruction does as it is sent. -/
def State.sendFar (s : State) (dest : FarDest) (parts : List (Nat × ReqKind)) (host : Bool)
    (before : State → State) : State :=
  match s.farGate with
  | some w => s.waitAgain w
  | none =>
    let (id, s) := (before s).fresh
    (s.sendInOrder id host parts).holdFar id (parts.map (·.1)) dest

/-- The destination of a device-window access (R343). -/
def deviceDest (ea : Nat) : Dest :=
  let typ := ea / 2 ^ 40 % 256
  let idx := ea / 2 ^ 20 % 2 ^ 20
  if typ = 3 then .manager idx else if typ = 4 then .slice idx else .router (idx % 768) (idx / 768)

/-- A device-window access: never relaxed, on the CNet control channel (R136, R343). -/
def State.sendDevice (s : State) (dest : FarDest) (ea size : Nat) (write : Option Word) : State :=
  let out := s.me.relaxedOut
  if out ≠ [] then s.waitAgain (.relaxed out)
  else
    let (id, s) := s.fresh
    let s := s.sendFrom s.cur.core false (deviceDest ea) 1 (.device s.cur.core s.cur.slot id ea size write) 0
    let f : Far := { id := id, relaxed := false, eas := [ea], dest := dest, left := 1, data := 0#512, refused := none, landed := none }
    (s.modMe (fun x => { x with far := x.far ++ [f] })).waitNext (.far id)

/-- The value of a scalar load of `n` bytes (R135). -/
def loadValue (n : Nat) (signed : Bool) (b : List Byte) : Word :=
  let x := BitVec.ofNat (8 * n) (bytesNat b)
  if signed then x.signExtend 64 else x.setWidth 64

/-- The bytes of a scratchpad of the executing core. -/
def State.spBytes (s : State) (ea : Int) (n : Nat) : List Byte := s.myCore.sp.readN (ea.toNat % 2 ^ 18) n

/-- Write bytes to the executing core's scratchpad. -/
def State.spStore (s : State) (ea : Int) (b : List Byte) : State :=
  s.modMyCore (fun c => c.spWrite (ea.toNat % 2 ^ 18) b)

/-- Is the tag of the scratchpad granule at `ea` set? -/
def State.spTag (s : State) (ea : Int) : Bool := NatSet.has s.myCore.spTags (ea.toNat % 2 ^ 18 / 16)

/-- The new value of an atomic on `bits` bits, and whether it writes (R146). -/
def atomic (op bits : Nat) (old b expect : Nat) : Nat × Bool :=
  let sgn (x : Nat) : Int := toSigned bits x
  match op with
  | 0 => ((old + b) % 2 ^ bits, true)
  | 1 => (old &&& b, true)
  | 2 => (old ||| b, true)
  | 3 => (old ^^^ b, true)
  | 4 => (if sgn b < sgn old then b else old, true)
  | 5 => (if sgn old < sgn b then b else old, true)
  | 6 => (if b < old then b else old, true)
  | 7 => (if old < b then b else old, true)
  | 8 => (b, true)
  | _ => (if old = expect then b else old, decide (old = expect))

/-- The new elements of a vector atomic (R148). -/
def vectorAtomic (op bits : Nat) (old b : List Byte) : List Byte :=
  let n := bits / 8
  (List.range (32 / n)).flatMap (fun i =>
    natBytes n (atomic op bits (bytesNat ((old.drop (n * i)).take n)) (bytesNat ((b.drop (n * i)).take n)) 0).1)

/-- Is a loaded capability one that a register may hold (R28)? -/
def loadable (r : CReg) : Bool := !r.tag || (!reservedKind r.kind && decide (r.bexp ≤ 43))

end Sys2Proof.Machine
end

