-- ==== Sys2Proof/Machine/Ends.lean ====
section
/-! DEFINITION. Channel ends: their words and checks, sending packets between ends, the latch that serves a tile
in-end, and engine turns (R188 to R196, R203, R242 to R245, R249). -/

namespace Sys2Proof.Machine

/-- End `h` of a core. -/
def Core.endAt (c : Core) (h : Nat) : End := c.ends.getD h End.free

/-- Replace end `h` of core `p`; a free end is not listed. -/
def State.setEnd (s : State) (p h : Nat) (e : End) : State :=
  s.modCore p (fun c => { c with ends := if e = End.free then c.ends.erase h else c.ends.set h e })

/-- The size code of a payload (R189). -/
def Payload.size : Payload → Nat
  | .word _ => 0
  | .vector _ => 1
  | .offer _ _ => 2
  | .tile _ _ => 3

/-- The flits of a payload's packet (R203, R243). -/
def Payload.flits : Payload → Nat
  | .vector _ => 3
  | _ => 1

/-- The `chst` word of an end (R189). -/
def End.word (e : End) : Word :=
  BitVec.ofNat 64 (e.state.code + (if e.dirIn then 8 else 0) + e.psz % 4 * 2 ^ 4 + e.slot % 8 * 2 ^ 6 +
    e.plcn % 2 ^ 19 * 2 ^ 9 + e.pend % 64 * 2 ^ 28)

/-- Is the end bound to slot `k` (R190)? -/
def End.boundTo (e : End) (k : Nat) : Bool := e.state != .free && e.state != .parked && e.slot == k

/-- The checks of a send or receive of size `psz` on end `h` (R190), reasons 2 to 4. -/
def State.checkEnd (s : State) (h : Nat) (send : Bool) (psz : Nat) : Except Trap Unit := do
  let e := s.myCore.endAt h
  need (e.boundTo s.cur.slot) (trapChannel h 2)
  need (e.dirIn != send) (trapChannel h 3)
  need (e.psz == psz && e.state != .tile) (trapChannel h 4)

/-- Where an LCN leads: a lane, the partition's heads, a port or the host function (R280, R404, R413). -/
def destOf (lcn : Nat) : Dest :=
  if lcn < coreCount then .lane lcn
  else if lcn = 0x7F200 then .host
  else if 0x7F100 ≤ lcn ∧ lcn < 0x7F148 then .port (lcn - 0x7F100)
  else .head

/-- Send a packet from core `p` to the end `pend` of `plcn`; `mk` builds its body from the end number. -/
def State.sendToEnd (s : State) (p plcn pend flits : Nat) (mk : Nat → Body) (after : Nat) : State :=
  s.sendFrom p false (destOf plcn) flits (mk pend) after

/-- Who holds the record that is being delivered in a partition: its head, or a core (R273). -/
def State.recordHolder (s : State) (sp : Nat) : Option Dest :=
  if (s.part sp).rake.current.isSome then some .head
  else (s.cores.find? (fun e => e.2.record.isSome && s.partOf e.1 == some sp)).map (fun e => .lane e.2.lcn)

/-- Has end `h` of core `p` sent a message to itself, the end that its capability names as its peer, whose answer is not yet on
its way (R195, R259)? -/
def State.selfSent (s : State) (p h : Nat) : Bool :=
  let e := (s.core p).endAt h
  e.state == .sendWait && !e.ackd && e.plcn == (s.core p).lcn && e.pend == h &&
    !s.packets.any (fun k =>
      match k.2.dst, k.2.body with
      | .lane l, .nack q _ => l == e.plcn && q == h
      | _, _ => false)

/-- The word of a notice (R284); other payloads reach no answer that names it. -/
def Payload.noticeWord (x : Option Payload) : Word :=
  match x with
  | some (.word r) => r.val
  | _ => 0#64

/-- Answer the message `x` of end `h`, to its sender; a message whose sender is the end itself, if the end has not sent it, is a
record's word, and the answer goes, as to an end 64, to who holds the record (R272, R273); the answer to a head's notice
names the end and the notice (R284). -/
def State.answerEnd (s : State) (p h plcn pend : Nat) (x : Option Payload) (taken : Bool) : State :=
  let body (q : Nat) : Body := if taken then .ack q else .nack q false
  if plcn = (s.core p).lcn ∧ pend = h ∧ s.selfSent p h = false ∧ !(x.any Payload.isTile) then
    match s.recordHolder ((s.partOf p).getD 31) with
    | some d => s.sendFrom p false d 1 (body 64) 0
    | none => s
  else if destOf plcn = .head then s.sendFrom p false .head 1 (.noticeAnswer pend h (Payload.noticeWord x) taken) 0
  else s.sendToEnd p plcn pend 1 body 0

/-- NACK the message of end `h`, to its sender (R194). -/
def State.nackEnd (s : State) (p h plcn pend : Nat) (x : Option Payload) : State := s.answerEnd p h plcn pend x false

/-- The executing strand sends a message or offer on end `h` and waits for its acceptance (R195, R199). -/
def State.sendMessage (s : State) (h : Nat) (x : Payload) (clear : Option (BitVec 5)) : State :=
  let p := s.cur.core
  let e := s.myCore.endAt h
  let s := s.setEnd p h { e with state := .sendWait, sentAt := s.k, clear := clear, ackd := false, nakd := false }
  let s := s.sendToEnd p e.plcn e.pend x.flits (fun q => .message q s.myCore.lcn h x) 0
  (s.logAppend p logSend 0 s.cur.slot h CReg.zero 0#512).waitNext (.send h)

/-! ## Latches and engine turns -/

/-- The bytes of a tile with its scale bytes, by FMT (R242). -/
def tileSize (fmt : Nat) : Nat :=
  if fmt = 0 then 2048 else if fmt ≤ 2 then 1024 else if fmt = 3 then 512 else if fmt ≤ 5 then 1056 else 544

/-- One lane's part of a block's MXE. -/
def Block.mxeLane (b : Block) (l : Nat) : MxeLane := b.mxe.lanes.getD l MxeLane.empty

/-- Replace it. -/
def Block.setMxeLane (b : Block) (l : Nat) (x : MxeLane) : Block :=
  { b with mxe := { b.mxe with lanes := b.mxe.lanes.set l x } }

/-- A waiting offer is granted as soon as a latch buffer is free (R243). -/
def State.latchGrant (s : State) (p : Nat) : State :=
  let l := s.laneOf p
  let x := (s.block (blockOf p)).mxeLane l
  match x.offer with
  | none => s
  | some (lcn, endNo, _, _) =>
    if x.latch.length + x.granted < 2 then
      let s := s.modBlock (blockOf p) (fun b => b.setMxeLane l { x with offer := none, granted := x.granted + 1 })
      s.sendToEnd p lcn endNo 1 (fun h => .grant h) 0
    else s

/-- The latch of a lane takes an offer (R243, R245). -/
def State.latchOffer (s : State) (p lcn endNo fmt size : Nat) : State :=
  let l := s.laneOf p
  (s.modBlock (blockOf p) (fun b =>
    b.setMxeLane l { b.mxeLane l with offer := some (lcn, endNo, fmt, size) })).latchGrant p

/-- The block's MXE looks for its next step in this cycle, or from `n` cycles on (R237). -/
def State.mxeKick (s : State) (blk n : Nat) : State := s.postCore (8 * blk) n .mxeStepBegin (args blk)

/-- The block's MXE looks for its next step in the first cycle whose choice is still to be made: a step begins before the
strands of its cycle issue (R237, R248). -/
def State.mxeNext (s : State) (blk : Nat) : State := s.mxeKick blk 1

/-- The block's CPE takes its next work if it is free (R249). -/
def State.cpeKick (s : State) (blk : Nat) : State := s.postCore (8 * blk) 0 .cpeTurn (args blk)

/-- Put work that was issued in cycle `k` into a list that is in issue order (R249). -/
def insertWork : List (Nat × CpeWork) → Nat → CpeWork → List (Nat × CpeWork)
  | [], k, w => [(k, w)]
  | v :: rest, k, w => if k < v.1 then (k, w) :: v :: rest else v :: insertWork rest k w

/-- Put work that was issued in cycle `k` into a lane's CPE list (R249). -/
def State.cpeWorkOf (s : State) (p k : Nat) (w : CpeWork) : State :=
  let l := s.laneOf p
  let s := s.modBlock (blockOf p) (fun b =>
    { b with cpe := { b.cpe with work := b.cpe.work.set l (insertWork (b.cpe.work.getD l []) k w) } })
  s.cpeKick (blockOf p)

/-- Put work of this cycle into a lane's CPE list. -/
def State.cpeWork (s : State) (p : Nat) (w : CpeWork) : State := s.cpeWorkOf p (s.countCore p) w

/-- Does a queued or running job of the lane name tile end `h` (R245)? -/
def Block.jobNames (b : Block) (lane h : Nat) : Bool :=
  b.mxe.entries.any (fun e =>
    (e.2.state == .queued || e.2.state == .running) &&
      (match e.2.job with
       | some j => j.lane == lane && ((j.bsrc && j.rin == h) || (j.fwd && j.rout == h))
       | none => false))

/-- Is a tile end kept bound: a job names it, its latch holds or has granted a tile, or an offer on it is
outstanding (R245)? -/
def State.tileKept (s : State) (p h : Nat) : Bool :=
  let b := s.block (blockOf p)
  let l := s.laneOf p
  let x := b.mxeLane l
  let e := (s.core p).endAt h
  b.jobNames l h ||
    (if e.dirIn then x.latch != [] || x.granted != 0 || x.offer.isSome else x.out.isSome && x.outEnd == h)

end Sys2Proof.Machine
end

