-- ==== Sys2Proof/Machine/Channel.lean ====
section
/-! DEFINITION. The channel instructions: binding ends, sends, receives, bulk transfer and selection (R191 to R202),
with what they do during replay (R384). -/

namespace Sys2Proof.Machine

/-- The binding that a channel capability describes (R188, R191). -/
def bindingOf (v : Word) (slot : Nat) (state : EndState) : End :=
  { End.free with
    state := state, dirIn := v.getLsbD 25, psz := (v.extractLsb' 26 2).toNat, slot := slot
    plcn := (v.extractLsb' 0 19).toNat, pend := (v.extractLsb' 19 6).toNat }

/-- Does a parked message match a binding: sender, sending end, direction and size (R191)? -/
def End.matchesParked (e : End) (b : End) : Bool :=
  b.dirIn && e.plcn == b.plcn && e.pend == b.pend && e.psz == b.psz

/-- Has the core a tile in-end already (R245)? -/
def Core.hasTileIn (c : Core) : Bool :=
  c.ends.any (fun e => e.2.psz == 3 && e.2.dirIn && e.2.state != .free && e.2.state != .parked)

/-- End `h`, which was free, is bound: a message that was parked there before the failure, and that the binding matches, comes
back as it did then (R191, R385); any other goes back where it was (R383). -/
def State.rebound (s : State) (p h slot : Nat) (b : End) : State :=
  let c := (s.core p).crystal
  match c.rows.find? (fun r => r.endNo == h && r.slot == noSlot && c.back.contains r.number && b.dirIn &&
      r.src == (b.psz, b.plcn, b.pend)) with
  | none => s.rearrive p h
  | some r =>
    match s.logPayload p r with
    | .tile fmt size => ((s.putBack p r.number).logForget p r.number).latchOffer p b.plcn b.pend fmt size
    | _ => (s.logClaim p r.number slot).rearrive p h

/-- The log entry of a parked message whose end is bound to a slot: its own, or a new one where a crystal has been taken since
it parked (R381). -/
def State.logBound (s : State) (p slot h : Nat) (x : Payload) : State :=
  match (s.core p).parkedRow h with
  | some r => s.logClaim p r.number slot
  | none => s.logArrival p slot h x

/-- The log entry of a parked message that its end does not keep is free. -/
def State.logUnparked (s : State) (p h : Nat) : State :=
  match (s.core p).parkedRow h with
  | some r => s.logForget p r.number
  | none => s

/-- Bind end `h` of core `p` (R191, R245, R259). A parked message that does not match is refused, and the end is idle, for a
tile capability too. -/
def State.bindEnd (s : State) (p h slot : Nat) (v : Word) : State :=
  let e := (s.core p).endAt h
  let tile := (v.extractLsb' 26 2).toNat == 3
  let idle := bindingOf v slot (if tile then .tile else .idle)
  if e.state = .parked then
    let s := s.crystalBound p h
    if e.matchesParked idle then
      match e.inbox with
      | some (.tile fmt size) => ((s.setEnd p h idle).logUnparked p h).latchOffer p e.plcn e.pend fmt size
      | some x => (s.setEnd p h { idle with state := .full, inbox := some x }).logBound p slot h x
      | none => s.setEnd p h (if tile then idle else { idle with state := .full })
    else (((s.nackEnd p h e.plcn e.pend e.inbox).setEnd p h { idle with state := .idle }).logUnparked p h).rearrive p h
  else (s.setEnd p h idle).rebound p h slot idle

/-- chset (R191). An out-end needs SD and an in-end RV (R26): the rule names the bits, and where they are tested is the
model's choice (log entry 83). -/
def execChset (g : BitVec 3) (a : BitVec 5) (h : BitVec 6) (s : State) : Host.Outcome State Fault Refusal :=
  s.act g (fun s => do
    let e := s.myCore.endAt h.toNat
    need (e.state == .free || e.state == .parked) (trapChannel h.toNat 1)
    let r := s.me.reg a
    need (!(r.tag && r.kind == 6 && r.val.extractLsb' 25 3 == 7#3 && s.myCore.hasTileIn)) (trapChannel h.toNat 1)
    need (r.tag && r.kind == 6) (trapTag (regNo a))
    need (r.has (if r.val.getLsbD 25 then 8 else 7)) (trapPermission (regNo a))
    let s := s.bindEnd s.cur.core h.toNat s.cur.slot r.val
    return (s.modMe (fun x => x.setReg a CReg.zero)).advance)

/-- chclr (R192, R245). After a restore, a message that was parked at the freed end parks again (R385). -/
def execChclr (g : BitVec 3) (h : BitVec 6) (s : State) : Host.Outcome State Fault Refusal :=
  s.act g (fun s => do
    let e := s.myCore.endAt h.toNat
    need (e.boundTo s.cur.slot) (trapChannel h.toNat 2)
    need (e.state == .idle || (e.state == .tile && !s.tileKept s.cur.core h.toNat)) (trapChannel h.toNat 5)
    return ((s.setEnd s.cur.core h.toNat End.free).rearrive s.cur.core h.toNat).advance)

/-- chst (R193). -/
def execChst (g : BitVec 3) (d : BitVec 5) (h : BitVec 6) (s : State) : Host.Outcome State Fault Refusal :=
  s.act g (fun s => s.putInt d (s.myCore.endAt h.toNat).word)

/-! ## Sends -/

/-- A send that replays its SEND entry instead of injecting (R384): acknowledged, it completes; refused, it takes the trap
and has popped nothing (R186); out, it waits for the live reply, and its round trip counts from its first issue (R387). -/
def State.replaySend (s : State) (h : Nat) (row : LogRow) (clear : Option (BitVec 5)) (before : State → State) : State :=
  let e := s.myCore.endAt h
  let s := s.replayed row.number
  if row.st = 1 then
    ((before s).modMe (fun x => match clear with | some a => x.setReg a CReg.zero | none => x)).advance
  else if row.st = 2 then s.takeTrap (trapNack (BitVec.ofNat 64 (e.plcn * 64 + e.pend)))
  else
    ((before s).setEnd s.cur.core h { e with state := .sendWait, sentAt := row.cyc, clear := clear }).waitNext (.send h)

/-- Send, or replay the send (R195, R384). -/
def State.sendOrReplay (s : State) (h : Nat) (x : Payload) (clear : Option (BitVec 5)) (before : State → State) :
    Act :=
  match s.replayOf logSend h with
  | some row => .ok (s.replaySend h row clear before)
  | none => .ok ((before s).sendMessage h x clear)

/-- The payload checks of `snd` (R196). -/
def checkPayload (a : BitVec 5) (r : CReg) : Except Trap Unit :=
  need (!r.tag || (r.has 11 && r.kind != 6 && r.kind != 9)) (trapPermission (regNo a))

/-- A word send of C[SA] on end `h` (R195, R196). -/
def State.sendWord (s : State) (a : BitVec 5) (h : Nat) : Act := do
  s.checkEnd h true 0
  let r := s.me.reg a
  checkPayload a r
  s.fenceFirst (fun s => s.sendOrReplay h (.word r) (if r.linear then some a else none) id)

/-- snd (R195). -/
def execSnd (g : BitVec 3) (a : BitVec 5) (h : BitVec 6) (s : State) : Host.Outcome State Fault Refusal :=
  s.act g (fun s => s.sendWord a h.toNat)

/-- The 16-bit snd (R67): ends h0 to h15. -/
def execSnd16 (d a : BitVec 4) (s : State) : Host.Outcome State Fault Refusal :=
  s.act 0#3 (fun s => s.sendWord (a.setWidth 5) d.toNat)

/-- sndv (R195): a bound in-stream register pops as the message is sent. -/
def execSndv (g : BitVec 3) (a : BitVec 4) (h : BitVec 6) (s : State) : Host.Outcome State Fault Refusal :=
  s.actV g (fun s => do
    s.checkEnd h.toNat true 1
    match ← s.streamGate [a] [] with
    | some w => return s.waitAgain w
    | none => s.fenceFirst (fun s => s.sendOrReplay h.toNat (.vector (s.readVec a)) none (fun s => s.popAll [a])))

/-- bsnd (R199). -/
def execBsnd (g : BitVec 3) (a : BitVec 5) (h : BitVec 6) (s : State) : Host.Outcome State Fault Refusal :=
  s.act g (fun s => do
    s.checkEnd h.toNat true 2
    let r := s.me.reg a
    need (r.tag && r.kind == 1) (trapTag (regNo a))
    need (r.has 0) (trapPermission (regNo a))
    let b := r.bounds
    need (validBounds b && decide (b.1 % 16 = 0) && decide (b.2 % 16 = 0) && decide (16 ≤ b.2 - b.1))
      (trapAlignment (BitVec.ofInt 64 b.1))
    s.fenceFirst (fun s =>
      s.sendOrReplay h.toNat (.offer (b.1.toNat % 2 ^ 18) (b.2 - b.1).toNat) none id))

/-! ## Receives -/

/-- Wait for a message on end `h` (R197, R259). -/
def State.receiveWait (s : State) (h : Nat) : State :=
  let e := s.myCore.endAt h
  (s.setEnd s.cur.core h { e with state := if e.state = .idle then .recvWait else e.state }).waitAgain (.recv h)

/-- The acknowledgement leaves and the end becomes idle (R197); the log's ARRIVE entry is taken (R381). -/
def State.takeMessage (s : State) (p h : Nat) : State :=
  let e := (s.core p).endAt h
  let s := (s.crystalTaken p h).setEnd p h { e with state := .idle, inbox := none }
  (s.answerEnd p h e.plcn e.pend e.inbox true).logSettle p logArrive h 1

/-- Send the holder update of a linear pan capability to its table slice and wait (R197, R262, R314). -/
def State.holderUpdate (s : State) (d : BitVec 5) (h : Nat) (r : CReg) : State :=
  let va := r.bounds.1.toNat
  match s.tableSlice s.mySp va with
  | none => ((s.modMe (fun x => x.setReg d r)).takeMessage s.cur.core h).advance
  | some n =>
    let (id, s) := s.fresh
    let op : TableOp := { slot := s.cur.slot, left := 1, refused := none, kind := 4, d := d, a := 0#5, result := r, h := h, entered := [] }
    let s := s.modMyCore (fun c => { c with tableOps := c.tableOps.set id op })
    (s.sendFrom s.cur.core false (.slice n) 1 (.table s.cur.core id (.holder va s.myCore.lcn)) 0).waitNext (.holder h)

/-- The entry that a receive on end `h` replays: a taken ARRIVE (R384). -/
def State.replayTaken (s : State) (h : Nat) : Option LogRow :=
  match s.replayOf logArrive h with
  | some r => if r.st = 1 then some r else none
  | none => none

/-- A message that a restored end held and that was taken before the failure is taken again, without an answer; the next one
may go back into the end (R383, R385). -/
def State.retake (s : State) (p h : Nat) : State :=
  let e := (s.core p).endAt h
  (s.setEnd p h { e with state := .idle, inbox := none, taken := false }).rearrive p h

/-- What a receive on end `h` takes, and what taking it does: a message that was taken before the failure, from the
restored end or from its ARRIVE entry (R384, R385), or else the message in the inbox, which is `live`. -/
def State.received (s : State) (h : Nat) : Option (Payload × Bool × (State → State)) :=
  let e := s.myCore.endAt h
  if e.taken then e.inbox.map (fun x => (x, false, fun s => s.retake s.cur.core h))
  else
    match s.replayTaken h with
    | some row => some (s.logPayload s.cur.core row, false, fun s => (s.replayed row.number).rearrive s.cur.core h)
    | none => if e.state = .full then e.inbox.map (fun x => (x, true, fun s => s.takeMessage s.cur.core h)) else none

/-- A word receive from end `h` into `d` (R197). -/
def State.receiveWord (s : State) (d : BitVec 5) (h : Nat) : Act := do
  s.checkEnd h false 0
  match s.received h with
  | some (.word r, live, take) =>
    s.writable d
    need (!(r.linear && d == 0#5)) (trapLinearity (regNo 0#5))
    if live && r.tag && (r.kind == 2 || r.kind == 5) then return s.holderUpdate d h r
    else return (take (s.modMe (fun x => x.setReg d r))).advance
  | _ => return s.receiveWait h

/-- rcv (R197). -/
def execRcv (g : BitVec 3) (d : BitVec 5) (h : BitVec 6) (s : State) : Host.Outcome State Fault Refusal :=
  s.act g (fun s => s.receiveWord d h.toNat)

/-- The 16-bit rcv (R67): ends h0 to h15. -/
def execRcv16 (d a : BitVec 4) (s : State) : Host.Outcome State Fault Refusal :=
  s.act 0#3 (fun s => s.receiveWord (d.setWidth 5) a.toNat)

/-- rcvv (R197). -/
def execRcvv (g : BitVec 3) (d : BitVec 4) (h : BitVec 6) (s : State) : Host.Outcome State Fault Refusal :=
  s.actV g (fun s => do
    s.checkEnd h.toNat false 1
    match s.received h.toNat with
    | some (.vector x, _, take) =>
      match ← s.streamGate [] [d] with
      | some w => return s.waitAgain w
      | none => return (take (s.writeVec d x)).advance
    | _ => return s.receiveWait h.toNat)

/-- brcv (R200). -/
def execBrcv (g : BitVec 3) (a : BitVec 5) (h : BitVec 6) (s : State) : Host.Outcome State Fault Refusal :=
  s.act g (fun s => do
    s.checkEnd h.toNat false 2
    let r := s.me.reg a
    need (r.tag && r.kind == 1) (trapTag (regNo a))
    need (r.has 1) (trapPermission (regNo a))
    let e := s.myCore.endAt h.toNat
    match s.received h.toNat with
    | some (_, false, take) => return (take s).advance
    | some (.offer base n, true, _) =>
      let b := r.bounds
      need (validBounds b && decide (b.1 ≤ r.val.toNat) && decide ((r.val.toNat : Int) + n ≤ b.2)) (trapBounds r.val)
      need (decide (r.val.toNat % 16 = 0)) (trapAlignment r.val)
      let s := s.setEnd s.cur.core h.toNat { e with state := .pull }
      let s := s.waitNext (.pull h.toNat)
      return s.cpeWork s.cur.core (.pull h.toNat e.plcn base n (r.val.toNat % 2 ^ 18) s.cur.slot)
    | _ => return s.receiveWait h.toNat)

/-! ## Selection -/

/-- Entry `j` of a mask: END, EN and GD (R201). -/
def altEntry (m : Word) (j : Nat) : Nat × Bool × Bool :=
  ((m.extractLsb' (8 * j) 6).toNat, m.getLsbD (8 * j + 6), m.getLsbD (8 * j + 7))

/-- The live entries of a mask, in order (R201). -/
def liveEntries (x : Strand) (m : Word) : List Nat :=
  (List.range 8).filter (fun j =>
    let e := altEntry m j
    e.2.1 && (!e.2.2 || x.pred (BitVec.ofNat 3 j)))

/-- Every enabled entry must be a receive of the end's own size (R201). -/
def State.checkAlt (s : State) (m : Word) : Except Trap Unit :=
  (List.range 8).forM (fun j =>
    let e := altEntry m j
    if e.2.1 then s.checkEnd e.1 false (min (s.myCore.endAt e.1).psz 2) else .ok ())

/-- `sst.ALTP` (R37). -/
def Strand.altp (x : Strand) : Nat := (x.sst.extractLsb' 9 3).toNat

/-- Set `sst.ALTP`. -/
def Strand.setAltp (x : Strand) (n : Nat) : Strand :=
  { x with sst := (x.sst &&& 0x11FF#13) ||| (BitVec.ofNat 13 (n % 8) <<< 9) }

/-- The entry that fires: by rotating or fixed priority; entries of one end fire at the lowest of them (R201, R202). -/
def altFires (live full : List Nat) (m : Word) (rotate : Option Nat) : Option Nat :=
  let order := match rotate with
    | some p => (List.range 8).map (fun i => (p + i) % 8)
    | none => List.range 8
  let first (j : Nat) : Nat := (live.find? (fun i => (altEntry m i).1 == (altEntry m j).1)).getD j
  order.find? (fun j => full.contains j && first j == j)

/-- The `alt` instructions (R202): `dl` is the deadline of the `.d` forms. -/
def State.select (s : State) (d : BitVec 5) (a : BitVec 3) (rotate : Bool) (dl : Option Nat) : Act := do
  let m := s.me.ext a.toNat
  s.checkAlt m
  let live := liveEntries s.me m
  need (live != [] || dl.isSome) (trapChannel 0 6)
  s.writable d
  let write (s : State) (v : Nat) : State :=
    let s := if rotate && decide (v != 8) then s.modMe (fun x => x.setAltp (v % 8 + 1)) else s
    (s.modMe (fun x => x.setReg d (CReg.int (BitVec.ofNat 64 v)))).advance
  match s.replayOf logAlt 0 with
  | some row => return write (s.replayed row.number) (s.logReg s.cur.core row.number).val.toNat
  | none =>
    let full := live.filter (fun j => (s.myCore.endAt (altEntry m j).1).state == .full)
    match altFires live full m (if rotate then some s.me.altp else none), dl with
    | some j, _ =>
      let v := j + 256 * (altEntry m j).1
      return write (s.logAppend s.cur.core logAlt 1 s.cur.slot 0 (CReg.int (BitVec.ofNat 64 v)) 0#512) v
    | none, some t =>
      if t ≤ s.now then
        return write (s.logAppend s.cur.core logAlt 1 s.cur.slot 0 (CReg.int 8#64) 0#512) 8
      else
        let s := s.waitAgain (.alt (live.map (fun j => (altEntry m j).1)) (some t))
        return s.postAt none t .altDeadline (args s.cur.core s.cur.slot)
    | none, none => return s.waitAgain (.alt (live.map (fun j => (altEntry m j).1)) none)

/-- alt (R202). -/
def execAlt (g : BitVec 3) (d : BitVec 5) (a : BitVec 3) (s : State) : Host.Outcome State Fault Refusal :=
  s.act g (fun s => s.select d a true none)

/-- alt.p (R202). -/
def execAltP (g : BitVec 3) (d : BitVec 5) (a : BitVec 3) (s : State) : Host.Outcome State Fault Refusal :=
  s.act g (fun s => s.select d a false none)

/-- alt.d (R202): the deadline is the e register's `ptime`. -/
def execAltD (g : BitVec 3) (d : BitVec 5) (a b : BitVec 3) (s : State) : Host.Outcome State Fault Refusal :=
  s.act g (fun s => s.select d a true (some (s.me.ext b.toNat).toNat))

/-- alt.p.d (R202). -/
def execAltPD (g : BitVec 3) (d : BitVec 5) (a b : BitVec 3) (s : State) : Host.Outcome State Fault Refusal :=
  s.act g (fun s => s.select d a false (some (s.me.ext b.toNat).toNat))

end Sys2Proof.Machine
end

