-- ==== Sys2Proof/Machine/Control.lean ====
section
/-! DEFINITION. Branches, jumps, calls, repetition, and the software trap and its return (R125 to R130, R221, R222). -/

namespace Sys2Proof.Machine

/-- The registers that DEADSET names: c10 to c17 (R125). -/
def deadSet : List (BitVec 5) := [10#5, 11#5, 12#5, 13#5, 14#5, 15#5, 16#5, 17#5]

/-- A target with bit 0 set raises the alignment trap and writes nothing (R125). -/
def checkTarget (t : Word) : Except Trap Unit := need (!t.getLsbD 0) (trapAlignment t)

/-- Control passes to `t`; the target issues at the strand's next slot (R105). -/
def State.jump (s : State) (t : Word) : State := s.modMe (fun x => { x with pc := t, readyAt := s.k + 8 })

/-- The lowest register of `ds` that holds a linear capability (R126). -/
def Strand.lowestLinear (x : Strand) (ds : List (BitVec 5)) : Option (BitVec 5) :=
  (List.range 32).map (BitVec.ofNat 5) |>.find? (fun i => ds.contains i && i != 0#5 && (x.reg i).linear)

/-- Mark DEADSET, unless that or the link register `d` would destroy a linear capability (R126). -/
def State.markDead (s : State) (d : BitVec 5) : Except Trap State :=
  match s.me.lowestLinear (d :: deadSet) with
  | some i => .error (trapLinearity (regNo i))
  | none => .ok (s.modMe (fun x => x.kill (x.dmask ||| 0x3FC00#32)))

/-- br (R125). -/
def execBr (g : BitVec 3) (o : BitVec 22) (s : State) : Host.Outcome State Fault Refusal :=
  s.act g (fun s => do
    let t := branchTarget s.cur.pc o
    checkTarget t
    return s.jump t)

/-- j (R125). -/
def execJ (o : BitVec 25) (s : State) : Host.Outcome State Fault Refusal :=
  s.act 0#3 (fun s => do
    let t := branchTarget s.cur.pc o
    checkTarget t
    return s.jump t)

/-- The 16-bit br: predicate P[n] (R67, R125). -/
def execBr16 (n : BitVec 3) (o : BitVec 8) (s : State) : Host.Outcome State Fault Refusal :=
  s.act n (fun s => do
    let t := branchTarget s.cur.pc o
    checkTarget t
    return s.jump t)

/-- The 16-bit j (R67, R125). -/
def execJ16 (o : BitVec 11) (s : State) : Host.Outcome State Fault Refusal :=
  s.act 0#3 (fun s => do
    let t := branchTarget s.cur.pc o
    checkTarget t
    return s.jump t)

/-- A call: mark DEADSET, write the link to `d`, jump (R125, R126). -/
def State.call (s : State) (d : BitVec 5) (t : Word) : Act := do
  let r ← s.markDead d
  checkTarget t
  let link := s.cur.pc + 4#64
  return (r.modMe (fun x => x.setReg d (CReg.int link))).jump t

/-- jal (R125): the link goes to c1. -/
def execJal (g : BitVec 3) (o : BitVec 22) (s : State) : Host.Outcome State Fault Refusal :=
  s.act g (fun s => s.call 1#5 (branchTarget s.cur.pc o))

/-- jr (R125): a jump, or with D ≠ 0 a call. -/
def execJr (g : BitVec 3) (d a : BitVec 5) (s : State) : Host.Outcome State Fault Refusal :=
  s.act g (fun s =>
    let t := s.me.val a
    if d = 0#5 then do
      checkTarget t
      return s.jump t
    else s.call d t)

/-- ret (R125). -/
def execRet (g : BitVec 3) (a : BitVec 5) (s : State) : Host.Outcome State Fault Refusal :=
  s.act g (fun s => do
    let t := s.me.val a
    let r ← s.markDead 0#5
    checkTarget t
    return r.jump t)

/-- The count of a `rep` (R127). -/
def Strand.repCount (x : Strand) (c : BitVec 10) (r : BitVec 1) : Nat :=
  if r = 0#1 then c.toNat + 1 else (x.val (c.extractLsb' 0 5)).toNat

/-- rep (R127, R128): the body is the next `l + 1` instructions; with a count of 0 they pass once without effect. -/
def execRep (g t : BitVec 3) (c : BitVec 10) (l i : BitVec 4) (r : BitVec 1) (s : State) :
    Host.Outcome State Fault Refusal :=
  s.act g (fun s =>
    let n := s.me.repCount c r
    let body := s.cur.pc + 4#64
    .ok (s.advance.modMe (fun x =>
      { x with rep := some { body := body, len := l.toNat + 1, stg := t, stride := i, k := 0,
                             left := if n = 0 then 1 else n, captured := [], pos := 0, empty := n == 0 } })))

/-- trap (R221): the software trap, with the register's value. -/
def execTrap (g : BitVec 3) (a : BitVec 5) (s : State) : Host.Outcome State Fault Refusal :=
  s.act g (fun s => .error (trapSoftware (s.me.val a)))

/-- eret (R222, R130): return from the handler. -/
def execEret (g : BitVec 3) (s : State) : Host.Outcome State Fault Refusal :=
  s.act g (fun s => do
    let m := (s.me.esst.extractLsb' 0 2).toNat
    need (s.me.mode != 0 && m != 2 && decide (m ≤ s.me.mode)) (trapPrivileged (s.me.esst.setWidth 64))
    return s.modMe (fun x => { x.leave with readyAt := s.k + 8 }))

end Sys2Proof.Machine
end

