-- ==== Sys2Proof/Machine/RegUse.lean ====
section
/-! DEFINITION. Which registers an instruction names, and the stagger of a repetition (R64, R67, R128, R142). -/

namespace Sys2Proof.Machine

/-- The registers c(d) to c(a) of `pushm` and `popm` (R144). -/
def rangeRegs (d a : BitVec 5) : List (BitVec 5) :=
  (List.range 32).map (BitVec.ofNat 5) |>.filter (fun i => decide (d.toNat ≤ i.toNat) && decide (i.toNat ≤ a.toNat))

/-- The general registers an instruction reads or writes (R142). -/
def usesC : Instr → List (BitVec 5)
  | .add _ d a b => [d, a, b]
  | .sub _ d a b => [d, a, b]
  | .and _ d a b => [d, a, b]
  | .or _ d a b => [d, a, b]
  | .xor _ d a b => [d, a, b]
  | .shl _ d a b => [d, a, b]
  | .shr _ d a b => [d, a, b]
  | .sar _ d a b => [d, a, b]
  | .mul _ d a b => [d, a, b]
  | .mulh _ d a b => [d, a, b]
  | .mulhz _ d a b => [d, a, b]
  | .div _ d a b => [d, a, b]
  | .divz _ d a b => [d, a, b]
  | .rem _ d a b => [d, a, b]
  | .remz _ d a b => [d, a, b]
  | .min _ d a b => [d, a, b]
  | .max _ d a b => [d, a, b]
  | .minz _ d a b => [d, a, b]
  | .maxz _ d a b => [d, a, b]
  | .clm _ d a b => [d, a, b]
  | .clmh _ d a b => [d, a, b]
  | .sel _ d _ a b => [d, a, b]
  | .cbnd _ d a b => [d, a, b]
  | .cprm _ d a b => [d, a, b]
  | .cadd _ d a b => [d, a, b]
  | .cmint _ d a b => [d, a, b]
  | .amoAdd _ d a b _ => [d, a, b]
  | .amoAnd _ d a b _ => [d, a, b]
  | .amoOr _ d a b _ => [d, a, b]
  | .amoXor _ d a b _ => [d, a, b]
  | .amoMin _ d a b _ => [d, a, b]
  | .amoMax _ d a b _ => [d, a, b]
  | .amoMinz _ d a b _ => [d, a, b]
  | .amoMaxz _ d a b _ => [d, a, b]
  | .amoSwp _ d a b _ => [d, a, b]
  | .amoCas _ d a b _ => [d, a, b]
  | .mxq _ d a b _ => [d, a, b]
  | .cpq _ d a b _ => [d, a, b]
  | .clz _ d a => [d, a]
  | .ctz _ d a => [d, a]
  | .pcnt _ d a => [d, a]
  | .bswp _ d a => [d, a]
  | .mov _ d a => [d, a]
  | .sext8 _ d a => [d, a]
  | .sext16 _ d a => [d, a]
  | .sext32 _ d a => [d, a]
  | .zext8 _ d a => [d, a]
  | .zext16 _ d a => [d, a]
  | .zext32 _ d a => [d, a]
  | .shli _ d a _ => [d, a]
  | .shri _ d a _ => [d, a]
  | .sari _ d a _ => [d, a]
  | .addi _ d a _ => [d, a]
  | .andi _ d a _ => [d, a]
  | .ori _ d a _ => [d, a]
  | .xori _ d a _ => [d, a]
  | .bfx _ d a _ _ => [d, a]
  | .bfi _ d a _ _ => [d, a]
  | .cget _ d a _ => [d, a]
  | .cfrz _ d a => [d, a]
  | .cmv _ d a => [d, a]
  | .ctst _ d a => [d, a]
  | .caddImm _ d a _ => [d, a]
  | .jr _ d a => if d = 0#5 then [a] else d :: a :: deadSet
  | .ld _ d a _ _ => [d, a]
  | .st _ d a _ _ => [d, a]
  | .ldF _ d a _ _ => [d, a]
  | .ldFc _ d a _ _ => [d, a]
  | .stE _ d a _ _ => [d, a]
  | .ldc _ d a _ => [d, a]
  | .stc _ d a _ => [d, a]
  | .pushm _ d a => rangeRegs d a
  | .popm _ d a => rangeRegs d a
  | .maccMx8 _ d a _ => [d, a]
  | .maccMx4 _ d a _ => [d, a]
  | .jst _ d a => [d, a]
  | .csrx _ d _ a => [d, a]
  | .rmap _ d a => [d, a]
  | .chmint _ d a => [d, a]
  | .pmint _ d a => [d, a]
  | .lhi _ d _ => [d]
  | .mvxFromE _ d _ => [d]
  | .chst _ d _ => [d]
  | .rcv _ d _ => [d]
  | .alt _ d _ => [d]
  | .altP _ d _ => [d]
  | .altD _ d _ _ => [d]
  | .altPD _ d _ _ => [d]
  | .rdt _ d => [d]
  | .sstat _ d _ => [d]
  | .csrr _ d _ => [d]
  | .cmp _ _ _ _ _ a b => [a, b]
  | .fcmp _ _ _ _ _ a b => [a, b]
  | .vlds _ _ a b _ => [a, b]
  | .vsts _ _ a b _ => [a, b]
  | .feSet _ a b => [a, b]
  | .feClr _ a b => [a, b]
  | .spwn _ a b _ => [a, b]
  | .cmpi _ _ _ _ _ a _ => [a]
  | .ret _ a => a :: deadSet
  | .mvxToE _ _ a => [a]
  | .vld _ _ a _ => [a]
  | .vst _ _ a _ => [a]
  | .vldg _ _ a _ _ => [a]
  | .vstx _ _ a _ _ => [a]
  | .vamoAdd _ _ a _ _ => [a]
  | .vamoAnd _ _ a _ _ => [a]
  | .vamoOr _ _ a _ _ => [a]
  | .vamoXor _ _ a _ _ => [a]
  | .vamoMin _ _ a _ _ => [a]
  | .vamoMax _ _ a _ _ => [a]
  | .vamoMinz _ _ a _ _ => [a]
  | .vamoMaxz _ _ a _ _ => [a]
  | .vamoSwp _ _ a _ _ => [a]
  | .acc _ a _ _ _ => [a]
  | .seal _ a _ _ => [a]
  | .sskip _ _ a => [a]
  | .chset _ a _ => [a]
  | .snd _ a _ => [a]
  | .bsnd _ a _ => [a]
  | .brcv _ a _ => [a]
  | .jwait _ a => [a]
  | .wtu _ a => [a]
  | .ckpt _ a => [a]
  | .csrw _ _ a => [a]
  | .trap _ a => [a]
  | .dbg _ a => [a]
  | .vredx _ _ _ b => [b.setWidth 5]
  | .vsplat _ _ _ a => [a.setWidth 5]
  | .vins _ _ _ a _ => [a.setWidth 5]
  | .vext _ d _ _ _ => [d.setWidth 5]
  | .rcv16 d _ => [d.setWidth 5]
  | .sbindIn _ _ _ b => [b]
  | .sbindOut _ _ _ b => [b]
  | .mov16 d sl => [d.setWidth 5, sl.setWidth 5]
  | .addi16 d _ sl => [d.setWidth 5, sl.setWidth 5]
  | .add16 d sl => [d.setWidth 5, sl.setWidth 5]
  | .ld16 d _ sl => [d.setWidth 5, sl.setWidth 5]
  | .st16 d _ sl => [d.setWidth 5, sl.setWidth 5]
  | .snd16 _ sl => [sl.setWidth 5]
  | .jal _ _ => 1#5 :: deadSet
  | .rep _ _ c _ _ r => if r = 0#1 then [] else [c.extractLsb' 0 5]
  | .mig _ _ => (List.range 32).map (BitVec.ofNat 5)
  | _ => []

/-- The vector registers an instruction reads or writes (R142). -/
def usesV : Instr → List (BitVec 4)
  | .vld _ d _ _ => [d]
  | .vst _ d _ _ => [d]
  | .vlds _ d _ _ _ => [d]
  | .vsts _ d _ _ _ => [d]
  | .vsplat _ d _ _ => [d]
  | .vins _ d _ _ _ => [d]
  | .rcvv _ d _ => [d]
  | .vldg _ d _ b _ => [d, b]
  | .vstx _ d _ b _ => [d, b]
  | .vamoAdd _ d _ b _ => [d, b]
  | .vamoAnd _ d _ b _ => [d, b]
  | .vamoOr _ d _ b _ => [d, b]
  | .vamoXor _ d _ b _ => [d, b]
  | .vamoMin _ d _ b _ => [d, b]
  | .vamoMax _ d _ b _ => [d, b]
  | .vamoMinz _ d _ b _ => [d, b]
  | .vamoMaxz _ d _ b _ => [d, b]
  | .vamoSwp _ d _ b _ => [d, b]
  | .acc _ _ b _ _ => [b]
  | .maccMx8 _ _ _ b => [b]
  | .maccMx4 _ _ _ b => [b]
  | .vadd _ d _ a b _ => [d, a, b]
  | .vsub _ d _ a b _ => [d, a, b]
  | .vmul _ d _ a b _ => [d, a, b]
  | .vmin _ d _ a b _ => [d, a, b]
  | .vmax _ d _ a b _ => [d, a, b]
  | .vdiv _ d _ a b _ => [d, a, b]
  | .vfma _ d _ a b _ => [d, a, b]
  | .vfms _ d _ a b _ => [d, a, b]
  | .vfnma _ d _ a b _ => [d, a, b]
  | .vfnms _ d _ a b _ => [d, a, b]
  | .vdot _ d _ a b _ => [d, a, b]
  | .vcmp _ d _ _ a b _ => [d, a, b]
  | .vand _ d a b => [d, a, b]
  | .vor _ d a b => [d, a, b]
  | .vxor _ d a b => [d, a, b]
  | .vsel _ d _ a b => [d, a, b]
  | .viadd _ d _ a b => [d, a, b]
  | .visub _ d _ a b => [d, a, b]
  | .vimul _ d _ a b => [d, a, b]
  | .vshl _ d _ a b => [d, a, b]
  | .vshr _ d _ a b => [d, a, b]
  | .vsar _ d _ a b => [d, a, b]
  | .vclm _ d _ a b => [d, a, b]
  | .vperm _ d _ a b => [d, a, b]
  | .vabs _ d _ a => [d, a]
  | .vneg _ d _ a => [d, a]
  | .vsqrt _ d _ a _ => [d, a]
  | .vrcp _ d _ a => [d, a]
  | .vrsq _ d _ a => [d, a]
  | .vex2 _ d _ a => [d, a]
  | .vlg2 _ d _ a => [d, a]
  | .vtanh _ d _ a => [d, a]
  | .vsin _ d _ a => [d, a]
  | .vcvt _ d a _ _ _ => [d, a]
  | .vredsum _ d _ a _ => [d, a]
  | .vredmax _ d _ a => [d, a]
  | .vredmin _ d _ a => [d, a]
  | .vpcnt _ d _ a => [d, a]
  | .vshuf _ d _ a _ => [d, a]
  | .vslideUp _ d _ a _ => [d, a]
  | .vslideDn _ d _ a _ => [d, a]
  | .vmov _ d _ a => [d, a]
  | .vredx _ _ a _ => [a]
  | .vext _ _ _ a _ => [a]
  | .sndv _ a _ => [a]
  | .sbindIn _ d _ _ => [d.setWidth 4]
  | .sbindOut _ d _ _ => [d.setWidth 4]
  | .sfree _ d => [d.setWidth 4]
  | .sskip _ d _ => [d.setWidth 4]
  | _ => []

/-- The places of register fields in an encoding, for the STG bits that select them: bit of STG, lowest bit, width (R64,
R128). D, SA and SB of the 32-bit forms. -/
def wordFields (fs : List Nat) : List (Nat × Nat × Nat) := fs.map (fun i => (i, 10 + 5 * i, 5))

/-- VD, VA and VB of the V-forms. -/
def vectFields (fs : List Nat) : List (Nat × Nat × Nat) := fs.map (fun i => (i, 10 + 5 * i, 4))

/-- SA and SB of the C-form. -/
def compFields (fs : List Nat) : List (Nat × Nat × Nat) := fs.map (fun i => (i, 17 + 5 * i, 5))

/-- D and S of the 16-bit forms. -/
def halfFields (fs : List Nat) : List (Nat × Nat × Nat) := fs.map (fun i => (i, 5 + 4 * i, 4))

/-- The fields of an instruction's encoding that name c or v registers (R77, R128). A field that names a v register is five
bits wide outside the V-forms, so a raise may set its bit 4, which R63 makes illegal. The 32-bit `nop` is the encoding of
`add c0, c0, c0` (R77), so its three fields take part. -/
def regFields : Instr → List (Nat × Nat × Nat)
  | .nop => wordFields [0, 1, 2]
  | .add _ _ _ _ => wordFields [0, 1, 2]
  | .sub _ _ _ _ => wordFields [0, 1, 2]
  | .and _ _ _ _ => wordFields [0, 1, 2]
  | .or _ _ _ _ => wordFields [0, 1, 2]
  | .xor _ _ _ _ => wordFields [0, 1, 2]
  | .shl _ _ _ _ => wordFields [0, 1, 2]
  | .shr _ _ _ _ => wordFields [0, 1, 2]
  | .sar _ _ _ _ => wordFields [0, 1, 2]
  | .mul _ _ _ _ => wordFields [0, 1, 2]
  | .mulh _ _ _ _ => wordFields [0, 1, 2]
  | .mulhz _ _ _ _ => wordFields [0, 1, 2]
  | .div _ _ _ _ => wordFields [0, 1, 2]
  | .divz _ _ _ _ => wordFields [0, 1, 2]
  | .rem _ _ _ _ => wordFields [0, 1, 2]
  | .remz _ _ _ _ => wordFields [0, 1, 2]
  | .min _ _ _ _ => wordFields [0, 1, 2]
  | .max _ _ _ _ => wordFields [0, 1, 2]
  | .minz _ _ _ _ => wordFields [0, 1, 2]
  | .maxz _ _ _ _ => wordFields [0, 1, 2]
  | .clm _ _ _ _ => wordFields [0, 1, 2]
  | .clmh _ _ _ _ => wordFields [0, 1, 2]
  | .clz _ _ _ => wordFields [0, 1]
  | .ctz _ _ _ => wordFields [0, 1]
  | .pcnt _ _ _ => wordFields [0, 1]
  | .bswp _ _ _ => wordFields [0, 1]
  | .mov _ _ _ => wordFields [0, 1]
  | .sext8 _ _ _ => wordFields [0, 1]
  | .sext16 _ _ _ => wordFields [0, 1]
  | .sext32 _ _ _ => wordFields [0, 1]
  | .zext8 _ _ _ => wordFields [0, 1]
  | .zext16 _ _ _ => wordFields [0, 1]
  | .zext32 _ _ _ => wordFields [0, 1]
  | .sel _ _ _ _ _ => wordFields [0, 1, 2]
  | .shli _ _ _ _ => wordFields [0, 1]
  | .shri _ _ _ _ => wordFields [0, 1]
  | .sari _ _ _ _ => wordFields [0, 1]
  | .addi _ _ _ _ => wordFields [0, 1]
  | .andi _ _ _ _ => wordFields [0, 1]
  | .ori _ _ _ _ => wordFields [0, 1]
  | .xori _ _ _ _ => wordFields [0, 1]
  | .lhi _ _ _ => wordFields [0]
  | .bfx _ _ _ _ _ => wordFields [0, 1]
  | .bfi _ _ _ _ _ => wordFields [0, 1]
  | .cbnd _ _ _ _ => wordFields [0, 1, 2]
  | .cprm _ _ _ _ => wordFields [0, 1, 2]
  | .cget _ _ _ _ => wordFields [0, 1]
  | .cfrz _ _ _ => wordFields [0, 1]
  | .cmv _ _ _ => wordFields [0, 1]
  | .ctst _ _ _ => wordFields [0, 1]
  | .cadd _ _ _ _ => wordFields [0, 1, 2]
  | .cmint _ _ _ _ => wordFields [0, 1, 2]
  | .caddImm _ _ _ _ => wordFields [0, 1]
  | .cmp _ _ _ _ _ _ _ => compFields [1, 2]
  | .cmpi _ _ _ _ _ _ _ => compFields [1]
  | .fcmp _ _ _ _ _ _ _ => compFields [1, 2]
  | .jr _ _ _ => wordFields [0, 1]
  | .ret _ _ => wordFields [1]
  | .mvxToE _ _ _ => wordFields [1]
  | .mvxFromE _ _ _ => wordFields [0]
  | .ld _ _ _ _ _ => wordFields [0, 1]
  | .st _ _ _ _ _ => wordFields [0, 1]
  | .ldF _ _ _ _ _ => wordFields [0, 1]
  | .ldFc _ _ _ _ _ => wordFields [0, 1]
  | .stE _ _ _ _ _ => wordFields [0, 1]
  | .ldc _ _ _ _ => wordFields [0, 1]
  | .stc _ _ _ _ => wordFields [0, 1]
  | .vld _ _ _ _ => wordFields [0, 1]
  | .vst _ _ _ _ => wordFields [0, 1]
  | .vlds _ _ _ _ _ => wordFields [0, 1, 2]
  | .vsts _ _ _ _ _ => wordFields [0, 1, 2]
  | .vldg _ _ _ _ _ => wordFields [0, 1, 2]
  | .vstx _ _ _ _ _ => wordFields [0, 1, 2]
  | .pushm _ _ _ => wordFields [0, 1]
  | .popm _ _ _ => wordFields [0, 1]
  | .amoAdd _ _ _ _ _ => wordFields [0, 1, 2]
  | .amoAnd _ _ _ _ _ => wordFields [0, 1, 2]
  | .amoOr _ _ _ _ _ => wordFields [0, 1, 2]
  | .amoXor _ _ _ _ _ => wordFields [0, 1, 2]
  | .amoMin _ _ _ _ _ => wordFields [0, 1, 2]
  | .amoMax _ _ _ _ _ => wordFields [0, 1, 2]
  | .amoMinz _ _ _ _ _ => wordFields [0, 1, 2]
  | .amoMaxz _ _ _ _ _ => wordFields [0, 1, 2]
  | .amoSwp _ _ _ _ _ => wordFields [0, 1, 2]
  | .amoCas _ _ _ _ _ => wordFields [0, 1, 2]
  | .vamoAdd _ _ _ _ _ => wordFields [0, 1, 2]
  | .vamoAnd _ _ _ _ _ => wordFields [0, 1, 2]
  | .vamoOr _ _ _ _ _ => wordFields [0, 1, 2]
  | .vamoXor _ _ _ _ _ => wordFields [0, 1, 2]
  | .vamoMin _ _ _ _ _ => wordFields [0, 1, 2]
  | .vamoMax _ _ _ _ _ => wordFields [0, 1, 2]
  | .vamoMinz _ _ _ _ _ => wordFields [0, 1, 2]
  | .vamoMaxz _ _ _ _ _ => wordFields [0, 1, 2]
  | .vamoSwp _ _ _ _ _ => wordFields [0, 1, 2]
  | .acc _ _ _ _ _ => wordFields [1, 2]
  | .maccMx8 _ _ _ _ => wordFields [0, 1, 2]
  | .maccMx4 _ _ _ _ => wordFields [0, 1, 2]
  | .seal _ _ _ _ => wordFields [1]
  | .feSet _ _ _ => wordFields [1, 2]
  | .feClr _ _ _ => wordFields [1, 2]
  | .vadd _ _ _ _ _ _ => vectFields [0, 1, 2]
  | .vsub _ _ _ _ _ _ => vectFields [0, 1, 2]
  | .vmul _ _ _ _ _ _ => vectFields [0, 1, 2]
  | .vmin _ _ _ _ _ _ => vectFields [0, 1, 2]
  | .vmax _ _ _ _ _ _ => vectFields [0, 1, 2]
  | .vabs _ _ _ _ => vectFields [0, 1]
  | .vneg _ _ _ _ => vectFields [0, 1]
  | .vdiv _ _ _ _ _ _ => vectFields [0, 1, 2]
  | .vsqrt _ _ _ _ _ => vectFields [0, 1]
  | .vfma _ _ _ _ _ _ => vectFields [0, 1, 2]
  | .vfms _ _ _ _ _ _ => vectFields [0, 1, 2]
  | .vfnma _ _ _ _ _ _ => vectFields [0, 1, 2]
  | .vfnms _ _ _ _ _ _ => vectFields [0, 1, 2]
  | .vrcp _ _ _ _ => vectFields [0, 1]
  | .vrsq _ _ _ _ => vectFields [0, 1]
  | .vex2 _ _ _ _ => vectFields [0, 1]
  | .vlg2 _ _ _ _ => vectFields [0, 1]
  | .vtanh _ _ _ _ => vectFields [0, 1]
  | .vsin _ _ _ _ => vectFields [0, 1]
  | .vcvt _ _ _ _ _ _ => vectFields [0, 1]
  | .vdot _ _ _ _ _ _ => vectFields [0, 1, 2]
  | .vredsum _ _ _ _ _ => vectFields [0, 1]
  | .vredmax _ _ _ _ => vectFields [0, 1]
  | .vredmin _ _ _ _ => vectFields [0, 1]
  | .vredx _ _ _ _ => vectFields [1, 2]
  | .vcmp _ _ _ _ _ _ _ => vectFields [0, 1, 2]
  | .vand _ _ _ _ => vectFields [0, 1, 2]
  | .vor _ _ _ _ => vectFields [0, 1, 2]
  | .vxor _ _ _ _ => vectFields [0, 1, 2]
  | .vsel _ _ _ _ _ => vectFields [0, 1, 2]
  | .viadd _ _ _ _ _ => vectFields [0, 1, 2]
  | .visub _ _ _ _ _ => vectFields [0, 1, 2]
  | .vimul _ _ _ _ _ => vectFields [0, 1, 2]
  | .vshl _ _ _ _ _ => vectFields [0, 1, 2]
  | .vshr _ _ _ _ _ => vectFields [0, 1, 2]
  | .vsar _ _ _ _ _ => vectFields [0, 1, 2]
  | .vpcnt _ _ _ _ => vectFields [0, 1]
  | .vclm _ _ _ _ _ => vectFields [0, 1, 2]
  | .vperm _ _ _ _ _ => vectFields [0, 1, 2]
  | .vshuf _ _ _ _ _ => vectFields [0, 1]
  | .vslideUp _ _ _ _ _ => vectFields [0, 1]
  | .vslideDn _ _ _ _ _ => vectFields [0, 1]
  | .vsplat _ _ _ _ => vectFields [0, 1]
  | .vins _ _ _ _ _ => vectFields [0, 1]
  | .vext _ _ _ _ _ => vectFields [0, 1]
  | .vmov _ _ _ _ => vectFields [0, 1]
  | .sbindIn _ _ _ _ => wordFields [0, 2]
  | .sbindOut _ _ _ _ => wordFields [0, 2]
  | .sfree _ _ => wordFields [0]
  | .sskip _ _ _ => wordFields [0, 1]
  | .chset _ _ _ => wordFields [1]
  | .chst _ _ _ => wordFields [0]
  | .snd _ _ _ => wordFields [1]
  | .sndv _ _ _ => wordFields [1]
  | .bsnd _ _ _ => wordFields [1]
  | .rcv _ _ _ => wordFields [0]
  | .rcvv _ _ _ => wordFields [0]
  | .brcv _ _ _ => wordFields [1]
  | .alt _ _ _ => wordFields [0]
  | .altP _ _ _ => wordFields [0]
  | .altD _ _ _ _ => wordFields [0]
  | .altPD _ _ _ _ => wordFields [0]
  | .mxq _ _ _ _ _ => wordFields [0, 1, 2]
  | .cpq _ _ _ _ _ => wordFields [0, 1, 2]
  | .jwait _ _ => wordFields [1]
  | .jst _ _ _ => wordFields [0, 1]
  | .wtu _ _ => wordFields [1]
  | .rdt _ _ => wordFields [0]
  | .spwn _ _ _ _ => wordFields [1, 2]
  | .ckpt _ _ => wordFields [1]
  | .mig _ _ => wordFields [1]
  | .sstat _ _ _ => wordFields [0]
  | .csrr _ _ _ => wordFields [0]
  | .csrw _ _ _ => wordFields [1]
  | .csrx _ _ _ _ => wordFields [0, 1]
  | .trap _ _ => wordFields [1]
  | .dbg _ _ => wordFields [1]
  | .rmap _ _ _ => wordFields [0, 1]
  | .chmint _ _ _ => wordFields [0, 1]
  | .pmint _ _ _ => wordFields [0, 1]
  | .mov16 _ _ => halfFields [0, 1]
  | .addi16 _ _ _ => halfFields [0, 1]
  | .add16 _ _ => halfFields [0, 1]
  | .ld16 _ _ _ => halfFields [0, 1]
  | .st16 _ _ _ => halfFields [0, 1]
  | .snd16 _ _ => halfFields [1]
  | .rcv16 _ _ => halfFields [0]
  | _ => []

/-- A field of an encoding raised by `amt`, modulo its range (R128). -/
def raiseField (bits : BitVec 48) (lo n : Nat) (amt : Int) : BitVec 48 :=
  let x := bits.toNat / 2 ^ lo % 2 ^ n
  BitVec.ofNat 48 (bits.toNat - x * 2 ^ lo + ((x + amt) % 2 ^ n).toNat * 2 ^ lo)

/-- The fields of an encoding raised by `amt` as STG selects, all of them `sh` bits up (R128). -/
def raiseFields (stg : BitVec 3) (amt : Int) (sh : Nat) (fs : List (Nat × Nat × Nat)) (bits : BitVec 48) : BitVec 48 :=
  fs.foldl (fun w f => if stg.getLsbD f.1 then raiseField w (sh + f.2.1) f.2.2 amt else w) bits

end Sys2Proof.Machine
end

