-- ==== Sys2Proof/WellFormed.lean ====
section
/-! DEFINITION. Which instructions the encoding rules allow: the value checks of R63, R68, R72 to R90, R158,
R175, R176 and R179 that a fixed field of the opcode table does not already make. An event has no encoding and no
check. -/

namespace Sys2Proof

/-- The floating lane types: f32, bf16, f16 (R158). -/
def isFloating (t : BitVec 3) : Bool := decide (t.toNat ≤ 2)

/-- The integer lane types: i32, i16, i8 (R158). -/
def isInteger (t : BitVec 3) : Bool := decide (5 ≤ t.toNat)

/-- The lane types `vdot` accepts: 1 to 4, 6 and 7 (R158). -/
def dotType (t : BitVec 3) : Bool := t != 0 && t != 5

/-- A rounding qualifier below the reserved codes 6 and 7 (R81). -/
def roundingCode (r : BitVec 3) : Bool := decide (r.toNat ≤ 5)

/-- The lane width in bits of a lane type (R157). -/
def laneWidth (t : BitVec 3) : Nat :=
  if t = 0 ∨ t = 5 then 32 else if t = 1 ∨ t = 2 ∨ t = 6 then 16 else 8

/-- The lane count 512 ÷ w of a lane type (R157). -/
def laneCount (t : BitVec 3) : Nat := 512 / laneWidth t

/-- The legal `vshuf` patterns (R176): the family is IDX[5:4], the pattern IDX[3:0]. -/
def shufflePattern (t : BitVec 3) (idx : BitVec 6) : Bool :=
  let family := idx.toNat / 16
  let p := idx.toNat % 16
  if family = 0 then true
  else if family = 1 then decide (16 * p < laneCount t)
  else if family = 2 then true
  else decide (p ≤ 3)

/-- The stream registers v13, v14 and v15 (R83). -/
def streamRegister (d : BitVec 5) : Bool := decide (13 ≤ d.toNat) && decide (d.toNat ≤ 15)

/-- The control register numbers of R35; any other number is illegal. -/
def controlNumber (c : BitVec 12) : Bool :=
  decide (c.toNat ≤ 0x006) || (decide (0x008 ≤ c.toNat) && decide (c.toNat ≤ 0x00B)) ||
    (decide (0x040 ≤ c.toNat) && decide (c.toNat ≤ 0x04C))

/-- The encoding rules' checks, one arm per instruction; `add c0, c0, c0` with guard p0 is the encoding of `nop`
(R77), so it is not an `add`. -/
def Instr.wf : Instr → Bool
  | .add g d a b => !(g == 0 && d == 0 && a == 0 && b == 0)
  | .sub _ _ _ _ => true
  | .and _ _ _ _ => true
  | .or _ _ _ _ => true
  | .xor _ _ _ _ => true
  | .shl _ _ _ _ => true
  | .shr _ _ _ _ => true
  | .sar _ _ _ _ => true
  | .mul _ _ _ _ => true
  | .mulh _ _ _ _ => true
  | .mulhz _ _ _ _ => true
  | .div _ _ _ _ => true
  | .divz _ _ _ _ => true
  | .rem _ _ _ _ => true
  | .remz _ _ _ _ => true
  | .min _ _ _ _ => true
  | .max _ _ _ _ => true
  | .minz _ _ _ _ => true
  | .maxz _ _ _ _ => true
  | .clm _ _ _ _ => true
  | .clmh _ _ _ _ => true
  | .clz _ _ _ => true
  | .ctz _ _ _ => true
  | .pcnt _ _ _ => true
  | .bswp _ _ _ => true
  | .mov _ _ _ => true
  | .sext8 _ _ _ => true
  | .sext16 _ _ _ => true
  | .sext32 _ _ _ => true
  | .zext8 _ _ _ => true
  | .zext16 _ _ _ => true
  | .zext32 _ _ _ => true
  | .sel _ _ _ _ _ => true
  | .shli _ _ _ _ => true
  | .shri _ _ _ _ => true
  | .sari _ _ _ _ => true
  | .nop => true
  | .addi _ _ _ _ => true
  | .andi _ _ _ _ => true
  | .ori _ _ _ _ => true
  | .xori _ _ _ _ => true
  | .lhi _ _ _ => true
  | .bfx _ _ _ o l => decide (o.toNat + (l.toNat + 1) ≤ 64)
  | .bfi _ _ _ o l => decide (o.toNat + (l.toNat + 1) ≤ 64)
  | .cbnd _ _ _ _ => true
  | .cprm _ _ _ _ => true
  | .cget _ _ _ s => decide (s.toNat ≤ 5)
  | .cfrz _ _ _ => true
  | .cmv _ _ _ => true
  | .ctst _ _ _ => true
  | .cadd _ _ _ _ => true
  | .cmint _ _ _ _ => true
  | .caddImm _ _ _ _ => true
  | .cmp _ _ _ _ _ _ _ => true
  | .cmpi _ _ _ _ _ _ _ => true
  | .fcmp _ _ _ _ _ _ _ => true
  | .pcmb _ _ _ _ _ _ _ => true
  | .br _ _ => true
  | .j _ => true
  | .jal _ _ => true
  | .jr _ _ _ => true
  | .ret _ _ => true
  | .rep _ t c _ s r => (t != 0 || s == 0) && (r == 0 || decide (c.toNat < 32))
  | .lxi _ _ _ _ => true
  | .lxiZ _ _ _ _ => true
  | .mvxToE _ _ _ => true
  | .mvxFromE _ _ _ => true
  | .ld _ _ _ _ s => s != 7
  | .st _ _ _ _ s => decide (s.toNat ≤ 3)
  | .ldF _ _ _ _ s => s != 7
  | .ldFc _ _ _ _ s => s != 7
  | .stE _ _ _ _ s => decide (s.toNat ≤ 3)
  | .ldc _ _ _ _ => true
  | .stc _ d a _ => d != a
  | .vld _ _ _ _ => true
  | .vst _ _ _ _ => true
  | .vlds _ _ _ _ w => w != 3
  | .vsts _ _ _ _ w => w != 3
  | .vldg _ _ _ _ w => w != 3
  | .vstx _ _ _ _ w => w != 3
  | .pushm _ d a => decide (1 ≤ d.toNat) && decide (d.toNat ≤ a.toNat)
  | .popm _ d a => decide (1 ≤ d.toNat) && decide (d.toNat ≤ a.toNat)
  | .fenceFar _ => true
  | .fenceEng _ => true
  | .fenceCore _ => true
  | .amoAdd _ _ _ _ _ => true
  | .amoAnd _ _ _ _ _ => true
  | .amoOr _ _ _ _ _ => true
  | .amoXor _ _ _ _ _ => true
  | .amoMin _ _ _ _ _ => true
  | .amoMax _ _ _ _ _ => true
  | .amoMinz _ _ _ _ _ => true
  | .amoMaxz _ _ _ _ _ => true
  | .amoSwp _ _ _ _ _ => true
  | .amoCas _ _ _ _ _ => true
  | .vamoAdd _ _ _ _ _ => true
  | .vamoAnd _ _ _ _ _ => true
  | .vamoOr _ _ _ _ _ => true
  | .vamoXor _ _ _ _ _ => true
  | .vamoMin _ _ _ _ _ => true
  | .vamoMax _ _ _ _ _ => true
  | .vamoMinz _ _ _ _ _ => true
  | .vamoMaxz _ _ _ _ _ => true
  | .vamoSwp _ _ _ _ _ => true
  | .acc _ _ _ l f => l != 3 && f != 3
  | .maccMx8 _ _ _ _ => true
  | .maccMx4 _ _ _ _ => true
  | .seal _ _ _ f => f != 3
  | .feSet _ _ _ => true
  | .feClr _ _ _ => true
  | .vadd _ _ t _ _ r => isFloating t && roundingCode r
  | .vsub _ _ t _ _ r => isFloating t && roundingCode r
  | .vmul _ _ t _ _ r => isFloating t && roundingCode r
  | .vmin _ _ t _ _ u => (isFloating t && u == 0) || isInteger t
  | .vmax _ _ t _ _ u => (isFloating t && u == 0) || isInteger t
  | .vabs _ _ t _ => isFloating t || isInteger t
  | .vneg _ _ t _ => isFloating t || isInteger t
  | .vdiv _ _ t _ _ r => isFloating t && roundingCode r
  | .vsqrt _ _ t _ r => isFloating t && roundingCode r
  | .vfma _ _ t _ _ r => isFloating t && roundingCode r
  | .vfms _ _ t _ _ r => isFloating t && roundingCode r
  | .vfnma _ _ t _ _ r => isFloating t && roundingCode r
  | .vfnms _ _ t _ _ r => isFloating t && roundingCode r
  | .vrcp _ _ t _ => isFloating t
  | .vrsq _ _ t _ => isFloating t
  | .vex2 _ _ t _ => isFloating t
  | .vlg2 _ _ t _ => isFloating t
  | .vtanh _ _ t _ => isFloating t
  | .vsin _ _ t _ => isFloating t
  | .vcvt _ _ _ e s r => decide (e.toNat ≤ 11) && decide (s.toNat ≤ 11) && e != s && roundingCode r
  | .vdot _ _ t _ _ r => dotType t && roundingCode r && (decide (t.toNat ≤ 4) || r == 0)
  | .vredsum _ _ t _ r => (isFloating t && roundingCode r) || (isInteger t && r == 0)
  | .vredmax _ _ t _ => isFloating t || isInteger t
  | .vredmin _ _ t _ => isFloating t || isInteger t
  | .vredx _ t _ _ => decide (t.toNat ≤ 4)
  | .vcmp _ _ t c _ _ u => (isFloating t && u == 0) || (isInteger t && decide (c.toNat ≤ 5))
  | .vand _ _ _ _ => true
  | .vor _ _ _ _ => true
  | .vxor _ _ _ _ => true
  | .vsel _ _ t _ _ => isInteger t
  | .viadd _ _ t _ _ => isInteger t
  | .visub _ _ t _ _ => isInteger t
  | .vimul _ _ t _ _ => isInteger t
  | .vshl _ _ t _ _ => isInteger t
  | .vshr _ _ t _ _ => isInteger t
  | .vsar _ _ t _ _ => isInteger t
  | .vpcnt _ _ t _ => isInteger t
  | .vclm _ _ t _ _ => isInteger t
  | .vperm _ _ _ _ _ => true
  | .vshuf _ _ t _ idx => shufflePattern t idx
  | .vslideUp _ _ _ _ _ => true
  | .vslideDn _ _ _ _ _ => true
  | .vsplat _ _ _ _ => true
  | .vins _ _ t _ idx => decide (idx.toNat < laneCount t)
  | .vext _ _ t _ idx => decide (idx.toNat < laneCount t)
  | .vmov _ _ _ _ => true
  | .sbindIn _ d a _ => streamRegister d && decide (a.toNat ≤ 5)
  | .sbindOut _ d a _ => streamRegister d && decide (a.toNat ≤ 5)
  | .sfree _ d => streamRegister d
  | .sskip _ d _ => streamRegister d
  | .chset _ _ _ => true
  | .chclr _ _ => true
  | .chst _ _ _ => true
  | .snd _ _ _ => true
  | .sndv _ _ _ => true
  | .bsnd _ _ _ => true
  | .rcv _ _ _ => true
  | .rcvv _ _ _ => true
  | .brcv _ _ _ => true
  | .alt _ _ _ => true
  | .altP _ _ _ => true
  | .altD _ _ _ _ => true
  | .altPD _ _ _ _ => true
  | .mxq _ _ _ _ _ => true
  | .cpq _ _ _ _ _ => true
  | .jwait _ _ => true
  | .jst _ _ _ => true
  | .mxf _ => true
  | .barr _ b => decide (b.toNat ≤ 16)
  | .barw _ b => decide (b.toNat ≤ 16)
  | .bar _ b => decide (b.toNat ≤ 16)
  | .wtu _ _ => true
  | .rdt _ _ => true
  | .spwn _ _ _ _ => true
  | .hlt _ => true
  | .ckpt _ _ => true
  | .mig _ _ => true
  | .sstat _ _ _ => true
  | .csrr _ d c => controlNumber c && d != 0
  | .csrw _ c a => controlNumber c && a != 0
  | .csrx _ d c a => controlNumber c && d != 0 && a != 0
  | .trap _ _ => true
  | .eret _ => true
  | .dbg _ _ => true
  | .rmap _ _ _ => true
  | .chmint _ _ _ => true
  | .pmint _ _ _ => true
  | .mov16 d _ => d != 0
  | .addi16 _ _ _ => true
  | .add16 _ _ => true
  | .ld16 _ _ _ => true
  | .st16 _ _ _ => true
  | .br16 _ _ => true
  | .j16 _ => true
  | .snd16 _ _ => true
  | .rcv16 _ _ => true
  | .nop16 => true
  | .rlx => true
  | .farReplyArrival => true
  | .fenceConditionMet => true
  | .icacheLineFill => true
  | .wtuTargetReached => true
  | .altDeadline => true
  | .messageArrival => true
  | .acknowledgementArrival => true
  | .releaseArrival => true
  | .nackArrival => true
  | .pullCompletion => true
  | .holderUpdate => true
  | .holderUpdateReply => true
  | .barrierRelease => true
  | .queueEntryGrant => true
  | .mxeStepBegin => true
  | .accumulatorWrite => true
  | .drainGranuleWrite => true
  | .mxeJobCompletion => true
  | .tileOffer => true
  | .tileGrant => true
  | .tileLands => true
  | .outBufferFree => true
  | .tileOfferNack => true
  | .cpeTurn => true
  | .cpeLineReply => true
  | .cpeChunkWrite => true
  | .cpeJobCompletion => true
  | .sliceRequestArrival => true
  | .tlbWalkEnd => true
  | .activeRoundStart => true
  | .fallowRound => true
  | .refreshRound => true
  | .slotPerform => true
  | .reservedWrite => true
  | .sliceReply => true
  | .freezeRequest => true
  | .doneMessage => true
  | .panMintRequest => true
  | .contributorMintCheck => true
  | .masterSealRequest => true
  | .sealBegin => true
  | .panConversionDone => true
  | .panZeroingDone => true
  | .panTableReply => true
  | .rakeThreshold => true
  | .rakeProbe => true
  | .rakeEcho => true
  | .rakeEntry => true
  | .rakeConfirm => true
  | .rakeConfirmEcho => true
  | .rakeEnd => true
  | .seqReq => true
  | .seqGrant => true
  | .recordWordResend => true
  | .supervisorRecord => true
  | .jobRecordIntake => true
  | .hostRecordWrite => true
  | .jobSelection => true
  | .jobPlacement => true
  | .wake => true
  | .wakeChannelBind => true
  | .jobCompletion => true
  | .noticeResend => true
  | .qcfgWrite => true
  | .preempt => true
  | .preemptionMessage => true
  | .preemptSaveComplete => true
  | .resume => true
  | .resumeRelease => true
  | .abort => true
  | .registerRecallSaveArea => true
  | .crystalCurrent => true
  | .selfCrystal => true
  | .logWrite => true
  | .uncorrectableSoftError => true
  | .softErrorCorrected => true
  | .coreRetirement => true
  | .substitutionRestoreDone => true
  | .debugHalt => true
  | .debugRegisterWrite => true
  | .packetHop => true
  | .heldPacketRelease => true
  | .remapWrite => true
  | .routeTableWrite => true
  | .bcfgOosWrite => true
  | .reserveTake => true
  | .reserveRelease => true
  | .deviceWindowAccess => true
  | .parentClockStop => true
  | .lostClockReport => true
  | .reroot => true
  | .rerootRelease => true
  | .moduleReset => true
  | .bootStrandStart => true
  | .partitionConfigWrite => true
  | .partitionReset => true
  | .unitLend => true
  | .unitRecall => true
  | .pageTableWrite => true
  | .panEntryRemoval => true
  | .ppwrWrite => true
  | .modeChange => true
  | .thermalLimit => true
  | .thermalClear => true
  | .ptpSync => true
  | .ptpFollowUp => true
  | .ptpDelayReq => true
  | .ptpDelayResp => true
  | .syncTimeout => true
  | .frameSlot => true
  | .frameArrival => true
  | .tokenRefill => true
  | .vfConfigWrite => true
  | .vfFlush => true
  | .sluiceClose => true
  | .sluiceOpen => true
  | .lowPowerEnter => true
  | .closeMarker => true
  | .drainComplete => true
  | .wakeHint => true
  | .trainingSuccess => true
  | .trainingTimeout => true
  | .migRecordArrival => true
  | .migAccept => true
  | .migRefusal => true
  | .hostPanTake => true
  | .hostPanAccess => true
  | .pret => true
  | .tctlWrite => true
  | .trunGo => true
  | .patternTestResult => true
  | .repairWrite => true
  | .seedWrite => true
  | .quote => true
  | .meterReadout => true
  | .raiseFusedMinimum => true
  | .firmwareImageSwitch => true
  | .tamperAlarm => true
  | .alarmExit => true
  | .registerWrite => true
  | .deliveryTokenReturn => true
  | .ptpTimerDue => true

end Sys2Proof
end

