-- ==== Sys2Proof/Decode.lean ====
section
/-! DEFINITION. The decoder of R60 to R90, total on any bytes, and the encoder written from the same encoding
tables. A word that no row of the opcode table gives, or whose fields break a check of `Instr.wf`, is refused by name;
the machine then raises the illegal-instruction trap of R89. -/

namespace Sys2Proof

/-- Why bytes are not an instruction (R89). -/
inductive DecodeError where
  /-- Fewer bytes than the instruction's length. -/
  | truncated
  /-- No row of the opcode table has these fixed fields: a reserved major, minor or operation code, or a field that
  must be 0 and is not. -/
  | reservedEncoding
  /-- The fields break one of the value checks of `Instr.wf`. -/
  | illFormed (i : Instr)
  deriving DecidableEq, Repr

/-- Major 0x00: ADD, SUB, AND, OR, XOR, SHL, SHR, SAR, MUL, MULH, MULHZ, DIV, DIVZ, REM, REMZ, MIN, MAX, MINZ, MAXZ, CLM, CLMH, CLZ, CTZ, PCNT, BSWP, MOV, SEXT_8, SEXT_16, SEXT_32, ZEXT_8, ZEXT_16, ZEXT_32, SEL, SHLI, SHRI, SARI, NOP. -/
def decodeMajor00 (w : BitVec 32) : Option Instr :=
  if w.extractLsb' 25 7 = 0#7 then some (.add (w.extractLsb' 1 3) (w.extractLsb' 10 5) (w.extractLsb' 15 5) (w.extractLsb' 20 5))
  else if w.extractLsb' 25 7 = 1#7 then some (.sub (w.extractLsb' 1 3) (w.extractLsb' 10 5) (w.extractLsb' 15 5) (w.extractLsb' 20 5))
  else if w.extractLsb' 25 7 = 2#7 then some (.and (w.extractLsb' 1 3) (w.extractLsb' 10 5) (w.extractLsb' 15 5) (w.extractLsb' 20 5))
  else if w.extractLsb' 25 7 = 3#7 then some (.or (w.extractLsb' 1 3) (w.extractLsb' 10 5) (w.extractLsb' 15 5) (w.extractLsb' 20 5))
  else if w.extractLsb' 25 7 = 4#7 then some (.xor (w.extractLsb' 1 3) (w.extractLsb' 10 5) (w.extractLsb' 15 5) (w.extractLsb' 20 5))
  else if w.extractLsb' 25 7 = 5#7 then some (.shl (w.extractLsb' 1 3) (w.extractLsb' 10 5) (w.extractLsb' 15 5) (w.extractLsb' 20 5))
  else if w.extractLsb' 25 7 = 6#7 then some (.shr (w.extractLsb' 1 3) (w.extractLsb' 10 5) (w.extractLsb' 15 5) (w.extractLsb' 20 5))
  else if w.extractLsb' 25 7 = 7#7 then some (.sar (w.extractLsb' 1 3) (w.extractLsb' 10 5) (w.extractLsb' 15 5) (w.extractLsb' 20 5))
  else if w.extractLsb' 25 7 = 8#7 then some (.mul (w.extractLsb' 1 3) (w.extractLsb' 10 5) (w.extractLsb' 15 5) (w.extractLsb' 20 5))
  else if w.extractLsb' 25 7 = 9#7 then some (.mulh (w.extractLsb' 1 3) (w.extractLsb' 10 5) (w.extractLsb' 15 5) (w.extractLsb' 20 5))
  else if w.extractLsb' 25 7 = 10#7 then some (.mulhz (w.extractLsb' 1 3) (w.extractLsb' 10 5) (w.extractLsb' 15 5) (w.extractLsb' 20 5))
  else if w.extractLsb' 25 7 = 11#7 then some (.div (w.extractLsb' 1 3) (w.extractLsb' 10 5) (w.extractLsb' 15 5) (w.extractLsb' 20 5))
  else if w.extractLsb' 25 7 = 12#7 then some (.divz (w.extractLsb' 1 3) (w.extractLsb' 10 5) (w.extractLsb' 15 5) (w.extractLsb' 20 5))
  else if w.extractLsb' 25 7 = 13#7 then some (.rem (w.extractLsb' 1 3) (w.extractLsb' 10 5) (w.extractLsb' 15 5) (w.extractLsb' 20 5))
  else if w.extractLsb' 25 7 = 14#7 then some (.remz (w.extractLsb' 1 3) (w.extractLsb' 10 5) (w.extractLsb' 15 5) (w.extractLsb' 20 5))
  else if w.extractLsb' 25 7 = 15#7 then some (.min (w.extractLsb' 1 3) (w.extractLsb' 10 5) (w.extractLsb' 15 5) (w.extractLsb' 20 5))
  else if w.extractLsb' 25 7 = 16#7 then some (.max (w.extractLsb' 1 3) (w.extractLsb' 10 5) (w.extractLsb' 15 5) (w.extractLsb' 20 5))
  else if w.extractLsb' 25 7 = 17#7 then some (.minz (w.extractLsb' 1 3) (w.extractLsb' 10 5) (w.extractLsb' 15 5) (w.extractLsb' 20 5))
  else if w.extractLsb' 25 7 = 18#7 then some (.maxz (w.extractLsb' 1 3) (w.extractLsb' 10 5) (w.extractLsb' 15 5) (w.extractLsb' 20 5))
  else if w.extractLsb' 25 7 = 19#7 then some (.clm (w.extractLsb' 1 3) (w.extractLsb' 10 5) (w.extractLsb' 15 5) (w.extractLsb' 20 5))
  else if w.extractLsb' 25 7 = 20#7 then some (.clmh (w.extractLsb' 1 3) (w.extractLsb' 10 5) (w.extractLsb' 15 5) (w.extractLsb' 20 5))
  else if w.extractLsb' 20 12 = 768#12 then some (.clz (w.extractLsb' 1 3) (w.extractLsb' 10 5) (w.extractLsb' 15 5))
  else if w.extractLsb' 20 12 = 800#12 then some (.ctz (w.extractLsb' 1 3) (w.extractLsb' 10 5) (w.extractLsb' 15 5))
  else if w.extractLsb' 20 12 = 832#12 then some (.pcnt (w.extractLsb' 1 3) (w.extractLsb' 10 5) (w.extractLsb' 15 5))
  else if w.extractLsb' 20 12 = 864#12 then some (.bswp (w.extractLsb' 1 3) (w.extractLsb' 10 5) (w.extractLsb' 15 5))
  else if w.extractLsb' 20 12 = 896#12 then some (.mov (w.extractLsb' 1 3) (w.extractLsb' 10 5) (w.extractLsb' 15 5))
  else if w.extractLsb' 20 12 = 1024#12 then some (.sext8 (w.extractLsb' 1 3) (w.extractLsb' 10 5) (w.extractLsb' 15 5))
  else if w.extractLsb' 20 12 = 1056#12 then some (.sext16 (w.extractLsb' 1 3) (w.extractLsb' 10 5) (w.extractLsb' 15 5))
  else if w.extractLsb' 20 12 = 1088#12 then some (.sext32 (w.extractLsb' 1 3) (w.extractLsb' 10 5) (w.extractLsb' 15 5))
  else if w.extractLsb' 20 12 = 1152#12 then some (.zext8 (w.extractLsb' 1 3) (w.extractLsb' 10 5) (w.extractLsb' 15 5))
  else if w.extractLsb' 20 12 = 1184#12 then some (.zext16 (w.extractLsb' 1 3) (w.extractLsb' 10 5) (w.extractLsb' 15 5))
  else if w.extractLsb' 20 12 = 1216#12 then some (.zext32 (w.extractLsb' 1 3) (w.extractLsb' 10 5) (w.extractLsb' 15 5))
  else if w.extractLsb' 28 4 = 6#4 then some (.sel (w.extractLsb' 1 3) (w.extractLsb' 10 5) (w.extractLsb' 25 3) (w.extractLsb' 15 5) (w.extractLsb' 20 5))
  else if w.extractLsb' 26 6 = 32#6 then some (.shli (w.extractLsb' 1 3) (w.extractLsb' 10 5) (w.extractLsb' 15 5) (w.extractLsb' 25 1 ++ w.extractLsb' 20 5))
  else if w.extractLsb' 26 6 = 33#6 then some (.shri (w.extractLsb' 1 3) (w.extractLsb' 10 5) (w.extractLsb' 15 5) (w.extractLsb' 25 1 ++ w.extractLsb' 20 5))
  else if w.extractLsb' 26 6 = 34#6 then some (.sari (w.extractLsb' 1 3) (w.extractLsb' 10 5) (w.extractLsb' 15 5) (w.extractLsb' 25 1 ++ w.extractLsb' 20 5))
  else if w.extractLsb' 0 32 = 1#32 then some (.nop)
  else none

/-- Major 0x01: ADDI. -/
def decodeMajor01 (w : BitVec 32) : Option Instr :=
  some (.addi (w.extractLsb' 1 3) (w.extractLsb' 10 5) (w.extractLsb' 15 5) (w.extractLsb' 20 12))

/-- Major 0x02: ANDI. -/
def decodeMajor02 (w : BitVec 32) : Option Instr :=
  some (.andi (w.extractLsb' 1 3) (w.extractLsb' 10 5) (w.extractLsb' 15 5) (w.extractLsb' 20 12))

/-- Major 0x03: ORI. -/
def decodeMajor03 (w : BitVec 32) : Option Instr :=
  some (.ori (w.extractLsb' 1 3) (w.extractLsb' 10 5) (w.extractLsb' 15 5) (w.extractLsb' 20 12))

/-- Major 0x04: XORI. -/
def decodeMajor04 (w : BitVec 32) : Option Instr :=
  some (.xori (w.extractLsb' 1 3) (w.extractLsb' 10 5) (w.extractLsb' 15 5) (w.extractLsb' 20 12))

/-- Major 0x05: LHI. -/
def decodeMajor05 (w : BitVec 32) : Option Instr :=
  some (.lhi (w.extractLsb' 1 3) (w.extractLsb' 10 5) (w.extractLsb' 15 17))

/-- Major 0x06: BFX. -/
def decodeMajor06 (w : BitVec 32) : Option Instr :=
  some (.bfx (w.extractLsb' 1 3) (w.extractLsb' 10 5) (w.extractLsb' 15 5) (w.extractLsb' 20 6) (w.extractLsb' 26 6))

/-- Major 0x07: BFI. -/
def decodeMajor07 (w : BitVec 32) : Option Instr :=
  some (.bfi (w.extractLsb' 1 3) (w.extractLsb' 10 5) (w.extractLsb' 15 5) (w.extractLsb' 20 6) (w.extractLsb' 26 6))

/-- Major 0x08: CBND, CPRM, CGET, CFRZ, CMV, CTST, CADD, CMINT. -/
def decodeMajor08 (w : BitVec 32) : Option Instr :=
  if w.extractLsb' 25 7 = 0#7 then some (.cbnd (w.extractLsb' 1 3) (w.extractLsb' 10 5) (w.extractLsb' 15 5) (w.extractLsb' 20 5))
  else if w.extractLsb' 25 7 = 1#7 then some (.cprm (w.extractLsb' 1 3) (w.extractLsb' 10 5) (w.extractLsb' 15 5) (w.extractLsb' 20 5))
  else if w.extractLsb' 25 7 = 2#7 then some (.cget (w.extractLsb' 1 3) (w.extractLsb' 10 5) (w.extractLsb' 15 5) (w.extractLsb' 20 5))
  else if w.extractLsb' 20 12 = 96#12 then some (.cfrz (w.extractLsb' 1 3) (w.extractLsb' 10 5) (w.extractLsb' 15 5))
  else if w.extractLsb' 20 12 = 128#12 then some (.cmv (w.extractLsb' 1 3) (w.extractLsb' 10 5) (w.extractLsb' 15 5))
  else if w.extractLsb' 20 12 = 160#12 then some (.ctst (w.extractLsb' 1 3) (w.extractLsb' 10 5) (w.extractLsb' 15 5))
  else if w.extractLsb' 25 7 = 6#7 then some (.cadd (w.extractLsb' 1 3) (w.extractLsb' 10 5) (w.extractLsb' 15 5) (w.extractLsb' 20 5))
  else if w.extractLsb' 25 7 = 7#7 then some (.cmint (w.extractLsb' 1 3) (w.extractLsb' 10 5) (w.extractLsb' 15 5) (w.extractLsb' 20 5))
  else none

/-- Major 0x09: CADD_IMM. -/
def decodeMajor09 (w : BitVec 32) : Option Instr :=
  some (.caddImm (w.extractLsb' 1 3) (w.extractLsb' 10 5) (w.extractLsb' 15 5) (w.extractLsb' 20 12))

/-- Major 0x0C: CMP. -/
def decodeMajor0C (w : BitVec 32) : Option Instr :=
  some (.cmp (w.extractLsb' 1 3) (w.extractLsb' 10 3) (w.extractLsb' 13 3) (w.extractLsb' 16 3) (w.extractLsb' 19 3) (w.extractLsb' 22 5) (w.extractLsb' 27 5))

/-- Major 0x0D: CMPI. -/
def decodeMajor0D (w : BitVec 32) : Option Instr :=
  some (.cmpi (w.extractLsb' 1 3) (w.extractLsb' 10 3) (w.extractLsb' 13 3) (w.extractLsb' 16 3) (w.extractLsb' 19 3) (w.extractLsb' 22 5) (w.extractLsb' 27 5))

/-- Major 0x0E: FCMP. -/
def decodeMajor0E (w : BitVec 32) : Option Instr :=
  some (.fcmp (w.extractLsb' 1 3) (w.extractLsb' 10 3) (w.extractLsb' 13 3) (w.extractLsb' 16 3) (w.extractLsb' 19 3) (w.extractLsb' 22 5) (w.extractLsb' 27 5))

/-- Major 0x0F: PCMB. -/
def decodeMajor0F (w : BitVec 32) : Option Instr :=
  if w.extractLsb' 25 2 = 0#2 ∧ w.extractLsb' 30 2 = 0#2 then some (.pcmb (w.extractLsb' 1 3) (w.extractLsb' 10 3) (w.extractLsb' 13 3) (w.extractLsb' 16 3) (w.extractLsb' 19 3) (w.extractLsb' 22 3) (w.extractLsb' 27 3))
  else none

/-- Major 0x10: BR. -/
def decodeMajor10 (w : BitVec 32) : Option Instr :=
  some (.br (w.extractLsb' 1 3) (w.extractLsb' 10 22))

/-- Major 0x11: J. -/
def decodeMajor11 (w : BitVec 32) : Option Instr :=
  some (.j (w.extractLsb' 1 3 ++ w.extractLsb' 10 22))

/-- Major 0x12: JAL. -/
def decodeMajor12 (w : BitVec 32) : Option Instr :=
  some (.jal (w.extractLsb' 1 3) (w.extractLsb' 10 22))

/-- Major 0x13: JR. -/
def decodeMajor13 (w : BitVec 32) : Option Instr :=
  if w.extractLsb' 20 12 = 0#12 then some (.jr (w.extractLsb' 1 3) (w.extractLsb' 10 5) (w.extractLsb' 15 5))
  else none

/-- Major 0x14: RET. -/
def decodeMajor14 (w : BitVec 32) : Option Instr :=
  if w.extractLsb' 4 11 = 20#11 ∧ w.extractLsb' 20 12 = 0#12 then some (.ret (w.extractLsb' 1 3) (w.extractLsb' 15 5))
  else none

/-- Major 0x15: REP. -/
def decodeMajor15 (w : BitVec 32) : Option Instr :=
  some (.rep (w.extractLsb' 1 3) (w.extractLsb' 25 3) (w.extractLsb' 15 10) (w.extractLsb' 10 4) (w.extractLsb' 28 4) (w.extractLsb' 14 1))

/-- Major 0x16: LXI, LXI_Z. -/
def decodeMajor16 (w : BitVec 32) : Option Instr :=
  if w.extractLsb' 31 1 = 0#1 then some (.lxi (w.extractLsb' 1 3) (w.extractLsb' 10 3) (w.extractLsb' 13 2) (w.extractLsb' 15 16))
  else if w.extractLsb' 31 1 = 1#1 then some (.lxiZ (w.extractLsb' 1 3) (w.extractLsb' 10 3) (w.extractLsb' 13 2) (w.extractLsb' 15 16))
  else none

/-- Major 0x17: MVX_TO_E, MVX_FROM_E. -/
def decodeMajor17 (w : BitVec 32) : Option Instr :=
  if w.extractLsb' 13 2 = 0#2 ∧ w.extractLsb' 20 12 = 0#12 then some (.mvxToE (w.extractLsb' 1 3) (w.extractLsb' 10 3) (w.extractLsb' 15 5))
  else if w.extractLsb' 18 14 = 128#14 then some (.mvxFromE (w.extractLsb' 1 3) (w.extractLsb' 10 5) (w.extractLsb' 15 3))
  else none

/-- Major 0x18: LD. -/
def decodeMajor18 (w : BitVec 32) : Option Instr :=
  some (.ld (w.extractLsb' 1 3) (w.extractLsb' 10 5) (w.extractLsb' 15 5) (w.extractLsb' 23 9) (w.extractLsb' 20 3))

/-- Major 0x19: ST. -/
def decodeMajor19 (w : BitVec 32) : Option Instr :=
  some (.st (w.extractLsb' 1 3) (w.extractLsb' 10 5) (w.extractLsb' 15 5) (w.extractLsb' 23 9) (w.extractLsb' 20 3))

/-- Major 0x1A: LD_F, LD_FC. -/
def decodeMajor1A (w : BitVec 32) : Option Instr :=
  if w.extractLsb' 23 1 = 0#1 then some (.ldF (w.extractLsb' 1 3) (w.extractLsb' 10 5) (w.extractLsb' 15 5) (w.extractLsb' 24 8) (w.extractLsb' 20 3))
  else if w.extractLsb' 23 1 = 1#1 then some (.ldFc (w.extractLsb' 1 3) (w.extractLsb' 10 5) (w.extractLsb' 15 5) (w.extractLsb' 24 8) (w.extractLsb' 20 3))
  else none

/-- Major 0x1B: ST_E. -/
def decodeMajor1B (w : BitVec 32) : Option Instr :=
  some (.stE (w.extractLsb' 1 3) (w.extractLsb' 10 5) (w.extractLsb' 15 5) (w.extractLsb' 23 9) (w.extractLsb' 20 3))

/-- Major 0x1C: LDC, STC. -/
def decodeMajor1C (w : BitVec 32) : Option Instr :=
  if w.extractLsb' 20 3 = 0#3 then some (.ldc (w.extractLsb' 1 3) (w.extractLsb' 10 5) (w.extractLsb' 15 5) (w.extractLsb' 23 9))
  else if w.extractLsb' 20 3 = 1#3 then some (.stc (w.extractLsb' 1 3) (w.extractLsb' 10 5) (w.extractLsb' 15 5) (w.extractLsb' 23 9))
  else none

/-- Major 0x1D: VLD, VST. -/
def decodeMajor1D (w : BitVec 32) : Option Instr :=
  if w.extractLsb' 14 1 = 0#1 ∧ w.extractLsb' 20 3 = 0#3 then some (.vld (w.extractLsb' 1 3) (w.extractLsb' 10 4) (w.extractLsb' 15 5) (w.extractLsb' 23 9))
  else if w.extractLsb' 14 1 = 0#1 ∧ w.extractLsb' 20 3 = 1#3 then some (.vst (w.extractLsb' 1 3) (w.extractLsb' 10 4) (w.extractLsb' 15 5) (w.extractLsb' 23 9))
  else none

/-- Major 0x1E: VLDS, VSTS, VLDG, VSTX. -/
def decodeMajor1E (w : BitVec 32) : Option Instr :=
  if w.extractLsb' 14 1 = 0#1 ∧ w.extractLsb' 25 2 = 0#2 ∧ w.extractLsb' 29 3 = 0#3 then some (.vlds (w.extractLsb' 1 3) (w.extractLsb' 10 4) (w.extractLsb' 15 5) (w.extractLsb' 20 5) (w.extractLsb' 27 2))
  else if w.extractLsb' 14 1 = 0#1 ∧ w.extractLsb' 25 2 = 1#2 ∧ w.extractLsb' 29 3 = 0#3 then some (.vsts (w.extractLsb' 1 3) (w.extractLsb' 10 4) (w.extractLsb' 15 5) (w.extractLsb' 20 5) (w.extractLsb' 27 2))
  else if w.extractLsb' 14 1 = 0#1 ∧ w.extractLsb' 24 3 = 4#3 ∧ w.extractLsb' 29 3 = 0#3 then some (.vldg (w.extractLsb' 1 3) (w.extractLsb' 10 4) (w.extractLsb' 15 5) (w.extractLsb' 20 4) (w.extractLsb' 27 2))
  else if w.extractLsb' 14 1 = 0#1 ∧ w.extractLsb' 24 3 = 6#3 ∧ w.extractLsb' 29 3 = 0#3 then some (.vstx (w.extractLsb' 1 3) (w.extractLsb' 10 4) (w.extractLsb' 15 5) (w.extractLsb' 20 4) (w.extractLsb' 27 2))
  else none

/-- Major 0x1F: PUSHM, POPM, FENCE_FAR, FENCE_ENG, FENCE_CORE. -/
def decodeMajor1F (w : BitVec 32) : Option Instr :=
  if w.extractLsb' 20 12 = 0#12 then some (.pushm (w.extractLsb' 1 3) (w.extractLsb' 10 5) (w.extractLsb' 15 5))
  else if w.extractLsb' 20 12 = 32#12 then some (.popm (w.extractLsb' 1 3) (w.extractLsb' 10 5) (w.extractLsb' 15 5))
  else if w.extractLsb' 4 28 = 33554463#28 then some (.fenceFar (w.extractLsb' 1 3))
  else if w.extractLsb' 4 28 = 35651615#28 then some (.fenceEng (w.extractLsb' 1 3))
  else if w.extractLsb' 4 28 = 37748767#28 then some (.fenceCore (w.extractLsb' 1 3))
  else none

/-- Major 0x20: AMO_ADD, AMO_AND, AMO_OR, AMO_XOR, AMO_MIN, AMO_MAX, AMO_MINZ, AMO_MAXZ, AMO_SWP, AMO_CAS. -/
def decodeMajor20 (w : BitVec 32) : Option Instr :=
  if w.extractLsb' 25 4 = 0#4 ∧ w.extractLsb' 30 2 = 0#2 then some (.amoAdd (w.extractLsb' 1 3) (w.extractLsb' 10 5) (w.extractLsb' 15 5) (w.extractLsb' 20 5) (w.extractLsb' 29 1))
  else if w.extractLsb' 25 4 = 1#4 ∧ w.extractLsb' 30 2 = 0#2 then some (.amoAnd (w.extractLsb' 1 3) (w.extractLsb' 10 5) (w.extractLsb' 15 5) (w.extractLsb' 20 5) (w.extractLsb' 29 1))
  else if w.extractLsb' 25 4 = 2#4 ∧ w.extractLsb' 30 2 = 0#2 then some (.amoOr (w.extractLsb' 1 3) (w.extractLsb' 10 5) (w.extractLsb' 15 5) (w.extractLsb' 20 5) (w.extractLsb' 29 1))
  else if w.extractLsb' 25 4 = 3#4 ∧ w.extractLsb' 30 2 = 0#2 then some (.amoXor (w.extractLsb' 1 3) (w.extractLsb' 10 5) (w.extractLsb' 15 5) (w.extractLsb' 20 5) (w.extractLsb' 29 1))
  else if w.extractLsb' 25 4 = 4#4 ∧ w.extractLsb' 30 2 = 0#2 then some (.amoMin (w.extractLsb' 1 3) (w.extractLsb' 10 5) (w.extractLsb' 15 5) (w.extractLsb' 20 5) (w.extractLsb' 29 1))
  else if w.extractLsb' 25 4 = 5#4 ∧ w.extractLsb' 30 2 = 0#2 then some (.amoMax (w.extractLsb' 1 3) (w.extractLsb' 10 5) (w.extractLsb' 15 5) (w.extractLsb' 20 5) (w.extractLsb' 29 1))
  else if w.extractLsb' 25 4 = 6#4 ∧ w.extractLsb' 30 2 = 0#2 then some (.amoMinz (w.extractLsb' 1 3) (w.extractLsb' 10 5) (w.extractLsb' 15 5) (w.extractLsb' 20 5) (w.extractLsb' 29 1))
  else if w.extractLsb' 25 4 = 7#4 ∧ w.extractLsb' 30 2 = 0#2 then some (.amoMaxz (w.extractLsb' 1 3) (w.extractLsb' 10 5) (w.extractLsb' 15 5) (w.extractLsb' 20 5) (w.extractLsb' 29 1))
  else if w.extractLsb' 25 4 = 8#4 ∧ w.extractLsb' 30 2 = 0#2 then some (.amoSwp (w.extractLsb' 1 3) (w.extractLsb' 10 5) (w.extractLsb' 15 5) (w.extractLsb' 20 5) (w.extractLsb' 29 1))
  else if w.extractLsb' 25 4 = 9#4 ∧ w.extractLsb' 30 2 = 0#2 then some (.amoCas (w.extractLsb' 1 3) (w.extractLsb' 10 5) (w.extractLsb' 15 5) (w.extractLsb' 20 5) (w.extractLsb' 29 1))
  else none

/-- Major 0x21: VAMO_ADD, VAMO_AND, VAMO_OR, VAMO_XOR, VAMO_MIN, VAMO_MAX, VAMO_MINZ, VAMO_MAXZ, VAMO_SWP. -/
def decodeMajor21 (w : BitVec 32) : Option Instr :=
  if w.extractLsb' 14 1 = 0#1 ∧ w.extractLsb' 24 5 = 0#5 ∧ w.extractLsb' 30 2 = 0#2 then some (.vamoAdd (w.extractLsb' 1 3) (w.extractLsb' 10 4) (w.extractLsb' 15 5) (w.extractLsb' 20 4) (w.extractLsb' 29 1))
  else if w.extractLsb' 14 1 = 0#1 ∧ w.extractLsb' 24 5 = 2#5 ∧ w.extractLsb' 30 2 = 0#2 then some (.vamoAnd (w.extractLsb' 1 3) (w.extractLsb' 10 4) (w.extractLsb' 15 5) (w.extractLsb' 20 4) (w.extractLsb' 29 1))
  else if w.extractLsb' 14 1 = 0#1 ∧ w.extractLsb' 24 5 = 4#5 ∧ w.extractLsb' 30 2 = 0#2 then some (.vamoOr (w.extractLsb' 1 3) (w.extractLsb' 10 4) (w.extractLsb' 15 5) (w.extractLsb' 20 4) (w.extractLsb' 29 1))
  else if w.extractLsb' 14 1 = 0#1 ∧ w.extractLsb' 24 5 = 6#5 ∧ w.extractLsb' 30 2 = 0#2 then some (.vamoXor (w.extractLsb' 1 3) (w.extractLsb' 10 4) (w.extractLsb' 15 5) (w.extractLsb' 20 4) (w.extractLsb' 29 1))
  else if w.extractLsb' 14 1 = 0#1 ∧ w.extractLsb' 24 5 = 8#5 ∧ w.extractLsb' 30 2 = 0#2 then some (.vamoMin (w.extractLsb' 1 3) (w.extractLsb' 10 4) (w.extractLsb' 15 5) (w.extractLsb' 20 4) (w.extractLsb' 29 1))
  else if w.extractLsb' 14 1 = 0#1 ∧ w.extractLsb' 24 5 = 10#5 ∧ w.extractLsb' 30 2 = 0#2 then some (.vamoMax (w.extractLsb' 1 3) (w.extractLsb' 10 4) (w.extractLsb' 15 5) (w.extractLsb' 20 4) (w.extractLsb' 29 1))
  else if w.extractLsb' 14 1 = 0#1 ∧ w.extractLsb' 24 5 = 12#5 ∧ w.extractLsb' 30 2 = 0#2 then some (.vamoMinz (w.extractLsb' 1 3) (w.extractLsb' 10 4) (w.extractLsb' 15 5) (w.extractLsb' 20 4) (w.extractLsb' 29 1))
  else if w.extractLsb' 14 1 = 0#1 ∧ w.extractLsb' 24 5 = 14#5 ∧ w.extractLsb' 30 2 = 0#2 then some (.vamoMaxz (w.extractLsb' 1 3) (w.extractLsb' 10 4) (w.extractLsb' 15 5) (w.extractLsb' 20 4) (w.extractLsb' 29 1))
  else if w.extractLsb' 14 1 = 0#1 ∧ w.extractLsb' 24 5 = 16#5 ∧ w.extractLsb' 30 2 = 0#2 then some (.vamoSwp (w.extractLsb' 1 3) (w.extractLsb' 10 4) (w.extractLsb' 15 5) (w.extractLsb' 20 4) (w.extractLsb' 29 1))
  else none

/-- Major 0x22: ACC. -/
def decodeMajor22 (w : BitVec 32) : Option Instr :=
  if w.extractLsb' 4 11 = 34#11 ∧ w.extractLsb' 24 1 = 0#1 ∧ w.extractLsb' 29 3 = 0#3 then some (.acc (w.extractLsb' 1 3) (w.extractLsb' 15 5) (w.extractLsb' 20 4) (w.extractLsb' 27 2) (w.extractLsb' 25 2))
  else none

/-- Major 0x23: MACC_MX8, MACC_MX4, SEAL, FE_SET, FE_CLR. -/
def decodeMajor23 (w : BitVec 32) : Option Instr :=
  if w.extractLsb' 24 8 = 0#8 then some (.maccMx8 (w.extractLsb' 1 3) (w.extractLsb' 10 5) (w.extractLsb' 15 5) (w.extractLsb' 20 4))
  else if w.extractLsb' 24 8 = 2#8 then some (.maccMx4 (w.extractLsb' 1 3) (w.extractLsb' 10 5) (w.extractLsb' 15 5) (w.extractLsb' 20 4))
  else if w.extractLsb' 4 11 = 35#11 ∧ w.extractLsb' 20 5 = 0#5 ∧ w.extractLsb' 28 4 = 1#4 then some (.seal (w.extractLsb' 1 3) (w.extractLsb' 15 5) (w.extractLsb' 27 1) (w.extractLsb' 25 2))
  else if w.extractLsb' 4 11 = 35#11 ∧ w.extractLsb' 25 7 = 16#7 then some (.feSet (w.extractLsb' 1 3) (w.extractLsb' 15 5) (w.extractLsb' 20 5))
  else if w.extractLsb' 4 11 = 35#11 ∧ w.extractLsb' 25 7 = 17#7 then some (.feClr (w.extractLsb' 1 3) (w.extractLsb' 15 5) (w.extractLsb' 20 5))
  else none

/-- Major 0x24: VADD, VSUB, VMUL, VMIN, VMAX, VABS, VNEG, VDIV, VSQRT. -/
def decodeMajor24 (w : BitVec 32) : Option Instr :=
  if w.extractLsb' 25 4 = 0#4 then some (.vadd (w.extractLsb' 1 3) (w.extractLsb' 10 4) (w.extractLsb' 24 1 ++ w.extractLsb' 19 1 ++ w.extractLsb' 14 1) (w.extractLsb' 15 4) (w.extractLsb' 20 4) (w.extractLsb' 29 3))
  else if w.extractLsb' 25 4 = 1#4 then some (.vsub (w.extractLsb' 1 3) (w.extractLsb' 10 4) (w.extractLsb' 24 1 ++ w.extractLsb' 19 1 ++ w.extractLsb' 14 1) (w.extractLsb' 15 4) (w.extractLsb' 20 4) (w.extractLsb' 29 3))
  else if w.extractLsb' 25 4 = 2#4 then some (.vmul (w.extractLsb' 1 3) (w.extractLsb' 10 4) (w.extractLsb' 24 1 ++ w.extractLsb' 19 1 ++ w.extractLsb' 14 1) (w.extractLsb' 15 4) (w.extractLsb' 20 4) (w.extractLsb' 29 3))
  else if w.extractLsb' 25 4 = 3#4 ∧ w.extractLsb' 30 2 = 0#2 then some (.vmin (w.extractLsb' 1 3) (w.extractLsb' 10 4) (w.extractLsb' 24 1 ++ w.extractLsb' 19 1 ++ w.extractLsb' 14 1) (w.extractLsb' 15 4) (w.extractLsb' 20 4) (w.extractLsb' 29 1))
  else if w.extractLsb' 25 4 = 4#4 ∧ w.extractLsb' 30 2 = 0#2 then some (.vmax (w.extractLsb' 1 3) (w.extractLsb' 10 4) (w.extractLsb' 24 1 ++ w.extractLsb' 19 1 ++ w.extractLsb' 14 1) (w.extractLsb' 15 4) (w.extractLsb' 20 4) (w.extractLsb' 29 1))
  else if w.extractLsb' 20 4 = 0#4 ∧ w.extractLsb' 25 7 = 5#7 then some (.vabs (w.extractLsb' 1 3) (w.extractLsb' 10 4) (w.extractLsb' 24 1 ++ w.extractLsb' 19 1 ++ w.extractLsb' 14 1) (w.extractLsb' 15 4))
  else if w.extractLsb' 20 4 = 0#4 ∧ w.extractLsb' 25 7 = 6#7 then some (.vneg (w.extractLsb' 1 3) (w.extractLsb' 10 4) (w.extractLsb' 24 1 ++ w.extractLsb' 19 1 ++ w.extractLsb' 14 1) (w.extractLsb' 15 4))
  else if w.extractLsb' 25 4 = 7#4 then some (.vdiv (w.extractLsb' 1 3) (w.extractLsb' 10 4) (w.extractLsb' 24 1 ++ w.extractLsb' 19 1 ++ w.extractLsb' 14 1) (w.extractLsb' 15 4) (w.extractLsb' 20 4) (w.extractLsb' 29 3))
  else if w.extractLsb' 20 4 = 0#4 ∧ w.extractLsb' 25 4 = 8#4 then some (.vsqrt (w.extractLsb' 1 3) (w.extractLsb' 10 4) (w.extractLsb' 24 1 ++ w.extractLsb' 19 1 ++ w.extractLsb' 14 1) (w.extractLsb' 15 4) (w.extractLsb' 29 3))
  else none

/-- Major 0x25: VFMA, VFMS, VFNMA, VFNMS. -/
def decodeMajor25 (w : BitVec 32) : Option Instr :=
  if w.extractLsb' 25 4 = 0#4 then some (.vfma (w.extractLsb' 1 3) (w.extractLsb' 10 4) (w.extractLsb' 24 1 ++ w.extractLsb' 19 1 ++ w.extractLsb' 14 1) (w.extractLsb' 15 4) (w.extractLsb' 20 4) (w.extractLsb' 29 3))
  else if w.extractLsb' 25 4 = 1#4 then some (.vfms (w.extractLsb' 1 3) (w.extractLsb' 10 4) (w.extractLsb' 24 1 ++ w.extractLsb' 19 1 ++ w.extractLsb' 14 1) (w.extractLsb' 15 4) (w.extractLsb' 20 4) (w.extractLsb' 29 3))
  else if w.extractLsb' 25 4 = 2#4 then some (.vfnma (w.extractLsb' 1 3) (w.extractLsb' 10 4) (w.extractLsb' 24 1 ++ w.extractLsb' 19 1 ++ w.extractLsb' 14 1) (w.extractLsb' 15 4) (w.extractLsb' 20 4) (w.extractLsb' 29 3))
  else if w.extractLsb' 25 4 = 3#4 then some (.vfnms (w.extractLsb' 1 3) (w.extractLsb' 10 4) (w.extractLsb' 24 1 ++ w.extractLsb' 19 1 ++ w.extractLsb' 14 1) (w.extractLsb' 15 4) (w.extractLsb' 20 4) (w.extractLsb' 29 3))
  else none

/-- Major 0x26: VRCP, VRSQ, VEX2, VLG2, VTANH, VSIN. -/
def decodeMajor26 (w : BitVec 32) : Option Instr :=
  if w.extractLsb' 20 4 = 0#4 ∧ w.extractLsb' 25 7 = 0#7 then some (.vrcp (w.extractLsb' 1 3) (w.extractLsb' 10 4) (w.extractLsb' 24 1 ++ w.extractLsb' 19 1 ++ w.extractLsb' 14 1) (w.extractLsb' 15 4))
  else if w.extractLsb' 20 4 = 0#4 ∧ w.extractLsb' 25 7 = 1#7 then some (.vrsq (w.extractLsb' 1 3) (w.extractLsb' 10 4) (w.extractLsb' 24 1 ++ w.extractLsb' 19 1 ++ w.extractLsb' 14 1) (w.extractLsb' 15 4))
  else if w.extractLsb' 20 4 = 0#4 ∧ w.extractLsb' 25 7 = 2#7 then some (.vex2 (w.extractLsb' 1 3) (w.extractLsb' 10 4) (w.extractLsb' 24 1 ++ w.extractLsb' 19 1 ++ w.extractLsb' 14 1) (w.extractLsb' 15 4))
  else if w.extractLsb' 20 4 = 0#4 ∧ w.extractLsb' 25 7 = 3#7 then some (.vlg2 (w.extractLsb' 1 3) (w.extractLsb' 10 4) (w.extractLsb' 24 1 ++ w.extractLsb' 19 1 ++ w.extractLsb' 14 1) (w.extractLsb' 15 4))
  else if w.extractLsb' 20 4 = 0#4 ∧ w.extractLsb' 25 7 = 4#7 then some (.vtanh (w.extractLsb' 1 3) (w.extractLsb' 10 4) (w.extractLsb' 24 1 ++ w.extractLsb' 19 1 ++ w.extractLsb' 14 1) (w.extractLsb' 15 4))
  else if w.extractLsb' 20 4 = 0#4 ∧ w.extractLsb' 25 7 = 5#7 then some (.vsin (w.extractLsb' 1 3) (w.extractLsb' 10 4) (w.extractLsb' 24 1 ++ w.extractLsb' 19 1 ++ w.extractLsb' 14 1) (w.extractLsb' 15 4))
  else none

/-- Major 0x27: VCVT. -/
def decodeMajor27 (w : BitVec 32) : Option Instr :=
  if w.extractLsb' 14 1 = 0#1 ∧ w.extractLsb' 19 1 = 0#1 ∧ w.extractLsb' 24 1 = 0#1 then some (.vcvt (w.extractLsb' 1 3) (w.extractLsb' 10 4) (w.extractLsb' 15 4) (w.extractLsb' 25 4) (w.extractLsb' 20 4) (w.extractLsb' 29 3))
  else none

/-- Major 0x28: VDOT, VREDSUM, VREDMAX, VREDMIN, VREDX. -/
def decodeMajor28 (w : BitVec 32) : Option Instr :=
  if w.extractLsb' 25 4 = 0#4 then some (.vdot (w.extractLsb' 1 3) (w.extractLsb' 10 4) (w.extractLsb' 24 1 ++ w.extractLsb' 19 1 ++ w.extractLsb' 14 1) (w.extractLsb' 15 4) (w.extractLsb' 20 4) (w.extractLsb' 29 3))
  else if w.extractLsb' 20 4 = 0#4 ∧ w.extractLsb' 25 4 = 1#4 then some (.vredsum (w.extractLsb' 1 3) (w.extractLsb' 10 4) (w.extractLsb' 24 1 ++ w.extractLsb' 19 1 ++ w.extractLsb' 14 1) (w.extractLsb' 15 4) (w.extractLsb' 29 3))
  else if w.extractLsb' 20 4 = 0#4 ∧ w.extractLsb' 25 7 = 2#7 then some (.vredmax (w.extractLsb' 1 3) (w.extractLsb' 10 4) (w.extractLsb' 24 1 ++ w.extractLsb' 19 1 ++ w.extractLsb' 14 1) (w.extractLsb' 15 4))
  else if w.extractLsb' 20 4 = 0#4 ∧ w.extractLsb' 25 7 = 3#7 then some (.vredmin (w.extractLsb' 1 3) (w.extractLsb' 10 4) (w.extractLsb' 24 1 ++ w.extractLsb' 19 1 ++ w.extractLsb' 14 1) (w.extractLsb' 15 4))
  else if w.extractLsb' 4 10 = 40#10 ∧ w.extractLsb' 25 7 = 4#7 then some (.vredx (w.extractLsb' 1 3) (w.extractLsb' 24 1 ++ w.extractLsb' 19 1 ++ w.extractLsb' 14 1) (w.extractLsb' 15 4) (w.extractLsb' 20 4))
  else none

/-- Major 0x29: VCMP. -/
def decodeMajor29 (w : BitVec 32) : Option Instr :=
  if w.extractLsb' 29 3 = 0#3 then some (.vcmp (w.extractLsb' 1 3) (w.extractLsb' 10 4) (w.extractLsb' 24 1 ++ w.extractLsb' 19 1 ++ w.extractLsb' 14 1) (w.extractLsb' 25 3) (w.extractLsb' 15 4) (w.extractLsb' 20 4) (w.extractLsb' 28 1))
  else none

/-- Major 0x2A: VAND, VOR, VXOR, VSEL. -/
def decodeMajor2A (w : BitVec 32) : Option Instr :=
  if w.extractLsb' 14 1 = 1#1 ∧ w.extractLsb' 19 1 = 0#1 ∧ w.extractLsb' 24 8 = 1#8 then some (.vand (w.extractLsb' 1 3) (w.extractLsb' 10 4) (w.extractLsb' 15 4) (w.extractLsb' 20 4))
  else if w.extractLsb' 14 1 = 1#1 ∧ w.extractLsb' 19 1 = 0#1 ∧ w.extractLsb' 24 8 = 3#8 then some (.vor (w.extractLsb' 1 3) (w.extractLsb' 10 4) (w.extractLsb' 15 4) (w.extractLsb' 20 4))
  else if w.extractLsb' 14 1 = 1#1 ∧ w.extractLsb' 19 1 = 0#1 ∧ w.extractLsb' 24 8 = 5#8 then some (.vxor (w.extractLsb' 1 3) (w.extractLsb' 10 4) (w.extractLsb' 15 4) (w.extractLsb' 20 4))
  else if w.extractLsb' 25 7 = 3#7 then some (.vsel (w.extractLsb' 1 3) (w.extractLsb' 10 4) (w.extractLsb' 24 1 ++ w.extractLsb' 19 1 ++ w.extractLsb' 14 1) (w.extractLsb' 15 4) (w.extractLsb' 20 4))
  else none

/-- Major 0x2B: VIADD, VISUB, VIMUL, VSHL, VSHR, VSAR, VPCNT, VCLM. -/
def decodeMajor2B (w : BitVec 32) : Option Instr :=
  if w.extractLsb' 25 7 = 0#7 then some (.viadd (w.extractLsb' 1 3) (w.extractLsb' 10 4) (w.extractLsb' 24 1 ++ w.extractLsb' 19 1 ++ w.extractLsb' 14 1) (w.extractLsb' 15 4) (w.extractLsb' 20 4))
  else if w.extractLsb' 25 7 = 1#7 then some (.visub (w.extractLsb' 1 3) (w.extractLsb' 10 4) (w.extractLsb' 24 1 ++ w.extractLsb' 19 1 ++ w.extractLsb' 14 1) (w.extractLsb' 15 4) (w.extractLsb' 20 4))
  else if w.extractLsb' 25 7 = 2#7 then some (.vimul (w.extractLsb' 1 3) (w.extractLsb' 10 4) (w.extractLsb' 24 1 ++ w.extractLsb' 19 1 ++ w.extractLsb' 14 1) (w.extractLsb' 15 4) (w.extractLsb' 20 4))
  else if w.extractLsb' 25 7 = 3#7 then some (.vshl (w.extractLsb' 1 3) (w.extractLsb' 10 4) (w.extractLsb' 24 1 ++ w.extractLsb' 19 1 ++ w.extractLsb' 14 1) (w.extractLsb' 15 4) (w.extractLsb' 20 4))
  else if w.extractLsb' 25 7 = 4#7 then some (.vshr (w.extractLsb' 1 3) (w.extractLsb' 10 4) (w.extractLsb' 24 1 ++ w.extractLsb' 19 1 ++ w.extractLsb' 14 1) (w.extractLsb' 15 4) (w.extractLsb' 20 4))
  else if w.extractLsb' 25 7 = 5#7 then some (.vsar (w.extractLsb' 1 3) (w.extractLsb' 10 4) (w.extractLsb' 24 1 ++ w.extractLsb' 19 1 ++ w.extractLsb' 14 1) (w.extractLsb' 15 4) (w.extractLsb' 20 4))
  else if w.extractLsb' 20 4 = 0#4 ∧ w.extractLsb' 25 7 = 6#7 then some (.vpcnt (w.extractLsb' 1 3) (w.extractLsb' 10 4) (w.extractLsb' 24 1 ++ w.extractLsb' 19 1 ++ w.extractLsb' 14 1) (w.extractLsb' 15 4))
  else if w.extractLsb' 25 7 = 7#7 then some (.vclm (w.extractLsb' 1 3) (w.extractLsb' 10 4) (w.extractLsb' 24 1 ++ w.extractLsb' 19 1 ++ w.extractLsb' 14 1) (w.extractLsb' 15 4) (w.extractLsb' 20 4))
  else none

/-- Major 0x2C: VPERM, VSHUF, VSLIDE_UP, VSLIDE_DN, VSPLAT, VINS, VEXT, VMOV. -/
def decodeMajor2C (w : BitVec 32) : Option Instr :=
  if w.extractLsb' 25 7 = 0#7 then some (.vperm (w.extractLsb' 1 3) (w.extractLsb' 10 4) (w.extractLsb' 24 1 ++ w.extractLsb' 19 1 ++ w.extractLsb' 14 1) (w.extractLsb' 15 4) (w.extractLsb' 20 4))
  else if w.extractLsb' 25 3 = 1#3 ∧ w.extractLsb' 30 2 = 0#2 then some (.vshuf (w.extractLsb' 1 3) (w.extractLsb' 10 4) (w.extractLsb' 24 1 ++ w.extractLsb' 19 1 ++ w.extractLsb' 14 1) (w.extractLsb' 15 4) (w.extractLsb' 28 2 ++ w.extractLsb' 20 4))
  else if w.extractLsb' 25 3 = 2#3 ∧ w.extractLsb' 30 2 = 0#2 then some (.vslideUp (w.extractLsb' 1 3) (w.extractLsb' 10 4) (w.extractLsb' 24 1 ++ w.extractLsb' 19 1 ++ w.extractLsb' 14 1) (w.extractLsb' 15 4) (w.extractLsb' 28 2 ++ w.extractLsb' 20 4))
  else if w.extractLsb' 25 3 = 3#3 ∧ w.extractLsb' 30 2 = 0#2 then some (.vslideDn (w.extractLsb' 1 3) (w.extractLsb' 10 4) (w.extractLsb' 24 1 ++ w.extractLsb' 19 1 ++ w.extractLsb' 14 1) (w.extractLsb' 15 4) (w.extractLsb' 28 2 ++ w.extractLsb' 20 4))
  else if w.extractLsb' 20 4 = 0#4 ∧ w.extractLsb' 25 7 = 4#7 then some (.vsplat (w.extractLsb' 1 3) (w.extractLsb' 10 4) (w.extractLsb' 24 1 ++ w.extractLsb' 19 1 ++ w.extractLsb' 14 1) (w.extractLsb' 15 4))
  else if w.extractLsb' 25 3 = 5#3 ∧ w.extractLsb' 30 2 = 0#2 then some (.vins (w.extractLsb' 1 3) (w.extractLsb' 10 4) (w.extractLsb' 24 1 ++ w.extractLsb' 19 1 ++ w.extractLsb' 14 1) (w.extractLsb' 15 4) (w.extractLsb' 28 2 ++ w.extractLsb' 20 4))
  else if w.extractLsb' 25 3 = 6#3 ∧ w.extractLsb' 30 2 = 0#2 then some (.vext (w.extractLsb' 1 3) (w.extractLsb' 10 4) (w.extractLsb' 24 1 ++ w.extractLsb' 19 1 ++ w.extractLsb' 14 1) (w.extractLsb' 15 4) (w.extractLsb' 28 2 ++ w.extractLsb' 20 4))
  else if w.extractLsb' 20 4 = 0#4 ∧ w.extractLsb' 25 7 = 7#7 then some (.vmov (w.extractLsb' 1 3) (w.extractLsb' 10 4) (w.extractLsb' 24 1 ++ w.extractLsb' 19 1 ++ w.extractLsb' 14 1) (w.extractLsb' 15 4))
  else none

/-- Major 0x34: SBIND_IN, SBIND_OUT, SFREE, SSKIP. -/
def decodeMajor34 (w : BitVec 32) : Option Instr :=
  if w.extractLsb' 18 2 = 0#2 ∧ w.extractLsb' 25 7 = 0#7 then some (.sbindIn (w.extractLsb' 1 3) (w.extractLsb' 10 5) (w.extractLsb' 15 3) (w.extractLsb' 20 5))
  else if w.extractLsb' 18 2 = 0#2 ∧ w.extractLsb' 25 7 = 1#7 then some (.sbindOut (w.extractLsb' 1 3) (w.extractLsb' 10 5) (w.extractLsb' 15 3) (w.extractLsb' 20 5))
  else if w.extractLsb' 15 17 = 2048#17 then some (.sfree (w.extractLsb' 1 3) (w.extractLsb' 10 5))
  else if w.extractLsb' 20 12 = 96#12 then some (.sskip (w.extractLsb' 1 3) (w.extractLsb' 10 5) (w.extractLsb' 15 5))
  else none

/-- Major 0x36: CHSET, CHCLR, CHST. -/
def decodeMajor36 (w : BitVec 32) : Option Instr :=
  if w.extractLsb' 4 11 = 54#11 ∧ w.extractLsb' 26 6 = 0#6 then some (.chset (w.extractLsb' 1 3) (w.extractLsb' 15 5) (w.extractLsb' 20 6))
  else if w.extractLsb' 4 16 = 54#16 ∧ w.extractLsb' 26 6 = 1#6 then some (.chclr (w.extractLsb' 1 3) (w.extractLsb' 20 6))
  else if w.extractLsb' 15 5 = 0#5 ∧ w.extractLsb' 26 6 = 2#6 then some (.chst (w.extractLsb' 1 3) (w.extractLsb' 10 5) (w.extractLsb' 20 6))
  else none

/-- Major 0x37: SND, SNDV, BSND. -/
def decodeMajor37 (w : BitVec 32) : Option Instr :=
  if w.extractLsb' 4 11 = 55#11 ∧ w.extractLsb' 26 6 = 0#6 then some (.snd (w.extractLsb' 1 3) (w.extractLsb' 15 5) (w.extractLsb' 20 6))
  else if w.extractLsb' 4 11 = 55#11 ∧ w.extractLsb' 19 1 = 0#1 ∧ w.extractLsb' 26 6 = 1#6 then some (.sndv (w.extractLsb' 1 3) (w.extractLsb' 15 4) (w.extractLsb' 20 6))
  else if w.extractLsb' 4 11 = 55#11 ∧ w.extractLsb' 26 6 = 2#6 then some (.bsnd (w.extractLsb' 1 3) (w.extractLsb' 15 5) (w.extractLsb' 20 6))
  else none

/-- Major 0x38: RCV, RCVV, BRCV. -/
def decodeMajor38 (w : BitVec 32) : Option Instr :=
  if w.extractLsb' 15 5 = 0#5 ∧ w.extractLsb' 26 6 = 0#6 then some (.rcv (w.extractLsb' 1 3) (w.extractLsb' 10 5) (w.extractLsb' 20 6))
  else if w.extractLsb' 14 6 = 0#6 ∧ w.extractLsb' 26 6 = 1#6 then some (.rcvv (w.extractLsb' 1 3) (w.extractLsb' 10 4) (w.extractLsb' 20 6))
  else if w.extractLsb' 4 11 = 56#11 ∧ w.extractLsb' 26 6 = 2#6 then some (.brcv (w.extractLsb' 1 3) (w.extractLsb' 15 5) (w.extractLsb' 20 6))
  else none

/-- Major 0x39: ALT, ALT_P, ALT_D, ALT_P_D. -/
def decodeMajor39 (w : BitVec 32) : Option Instr :=
  if w.extractLsb' 18 14 = 0#14 then some (.alt (w.extractLsb' 1 3) (w.extractLsb' 10 5) (w.extractLsb' 15 3))
  else if w.extractLsb' 18 14 = 128#14 then some (.altP (w.extractLsb' 1 3) (w.extractLsb' 10 5) (w.extractLsb' 15 3))
  else if w.extractLsb' 18 2 = 0#2 ∧ w.extractLsb' 23 9 = 8#9 then some (.altD (w.extractLsb' 1 3) (w.extractLsb' 10 5) (w.extractLsb' 15 3) (w.extractLsb' 20 3))
  else if w.extractLsb' 18 2 = 0#2 ∧ w.extractLsb' 23 9 = 12#9 then some (.altPD (w.extractLsb' 1 3) (w.extractLsb' 10 5) (w.extractLsb' 15 3) (w.extractLsb' 20 3))
  else none

/-- Major 0x3A: MXQ. -/
def decodeMajor3A (w : BitVec 32) : Option Instr :=
  if w.extractLsb' 28 4 = 0#4 then some (.mxq (w.extractLsb' 1 3) (w.extractLsb' 10 5) (w.extractLsb' 15 5) (w.extractLsb' 20 5) (w.extractLsb' 25 3))
  else none

/-- Major 0x3B: CPQ, JWAIT, JST, MXF. -/
def decodeMajor3B (w : BitVec 32) : Option Instr :=
  if w.extractLsb' 28 4 = 0#4 then some (.cpq (w.extractLsb' 1 3) (w.extractLsb' 10 5) (w.extractLsb' 15 5) (w.extractLsb' 20 5) (w.extractLsb' 25 3))
  else if w.extractLsb' 4 11 = 59#11 ∧ w.extractLsb' 20 12 = 256#12 then some (.jwait (w.extractLsb' 1 3) (w.extractLsb' 15 5))
  else if w.extractLsb' 20 12 = 512#12 then some (.jst (w.extractLsb' 1 3) (w.extractLsb' 10 5) (w.extractLsb' 15 5))
  else if w.extractLsb' 4 28 = 50331707#28 then some (.mxf (w.extractLsb' 1 3))
  else none

/-- Major 0x3C: BARR, BARW, BAR, WTU, RDT. -/
def decodeMajor3C (w : BitVec 32) : Option Instr :=
  if w.extractLsb' 4 16 = 60#16 ∧ w.extractLsb' 25 7 = 0#7 then some (.barr (w.extractLsb' 1 3) (w.extractLsb' 20 5))
  else if w.extractLsb' 4 16 = 60#16 ∧ w.extractLsb' 25 7 = 1#7 then some (.barw (w.extractLsb' 1 3) (w.extractLsb' 20 5))
  else if w.extractLsb' 4 16 = 60#16 ∧ w.extractLsb' 25 7 = 2#7 then some (.bar (w.extractLsb' 1 3) (w.extractLsb' 20 5))
  else if w.extractLsb' 4 11 = 60#11 ∧ w.extractLsb' 20 12 = 96#12 then some (.wtu (w.extractLsb' 1 3) (w.extractLsb' 15 5))
  else if w.extractLsb' 15 17 = 4096#17 then some (.rdt (w.extractLsb' 1 3) (w.extractLsb' 10 5))
  else none

/-- Major 0x3D: SPWN, HLT, CKPT, MIG, SSTAT. -/
def decodeMajor3D (w : BitVec 32) : Option Instr :=
  if w.extractLsb' 13 2 = 0#2 ∧ w.extractLsb' 25 7 = 0#7 then some (.spwn (w.extractLsb' 1 3) (w.extractLsb' 15 5) (w.extractLsb' 20 5) (w.extractLsb' 10 3))
  else if w.extractLsb' 4 28 = 2097213#28 then some (.hlt (w.extractLsb' 1 3))
  else if w.extractLsb' 4 11 = 61#11 ∧ w.extractLsb' 20 12 = 64#12 then some (.ckpt (w.extractLsb' 1 3) (w.extractLsb' 15 5))
  else if w.extractLsb' 4 11 = 61#11 ∧ w.extractLsb' 20 12 = 96#12 then some (.mig (w.extractLsb' 1 3) (w.extractLsb' 15 5))
  else if w.extractLsb' 15 5 = 0#5 ∧ w.extractLsb' 23 9 = 16#9 then some (.sstat (w.extractLsb' 1 3) (w.extractLsb' 10 5) (w.extractLsb' 20 3))
  else none

/-- Major 0x3E: ERET, TRAP, DBG, RMAP, CHMINT, PMINT, CSRR, CSRW, CSRX. -/
def decodeMajor3E (w : BitVec 32) : Option Instr :=
  if w.extractLsb' 4 28 = 251723838#28 then some (.eret (w.extractLsb' 1 3))
  else if w.extractLsb' 4 11 = 62#11 ∧ w.extractLsb' 20 12 = 3840#12 then some (.trap (w.extractLsb' 1 3) (w.extractLsb' 15 5))
  else if w.extractLsb' 4 11 = 62#11 ∧ w.extractLsb' 20 12 = 3842#12 then some (.dbg (w.extractLsb' 1 3) (w.extractLsb' 15 5))
  else if w.extractLsb' 20 12 = 3843#12 then some (.rmap (w.extractLsb' 1 3) (w.extractLsb' 10 5) (w.extractLsb' 15 5))
  else if w.extractLsb' 20 12 = 3844#12 then some (.chmint (w.extractLsb' 1 3) (w.extractLsb' 10 5) (w.extractLsb' 15 5))
  else if w.extractLsb' 20 12 = 3845#12 then some (.pmint (w.extractLsb' 1 3) (w.extractLsb' 10 5) (w.extractLsb' 15 5))
  else if w.extractLsb' 15 5 = 0#5 then some (.csrr (w.extractLsb' 1 3) (w.extractLsb' 10 5) (w.extractLsb' 20 12))
  else if w.extractLsb' 4 11 = 62#11 then some (.csrw (w.extractLsb' 1 3) (w.extractLsb' 20 12) (w.extractLsb' 15 5))
  else some (.csrx (w.extractLsb' 1 3) (w.extractLsb' 10 5) (w.extractLsb' 20 12) (w.extractLsb' 15 5))

/-- A 32-bit word: the word of `nop` first (R77), then by major opcode, bits [9:4] (R61, R70). -/
def decodeRaw32 (w : BitVec 32) : Option Instr :=
  if w = 0x00000001#32 then some .nop
  else
  let maj := (w.extractLsb' 4 6).toNat
  if maj = 0x00 then decodeMajor00 w else
  if maj = 0x01 then decodeMajor01 w else
  if maj = 0x02 then decodeMajor02 w else
  if maj = 0x03 then decodeMajor03 w else
  if maj = 0x04 then decodeMajor04 w else
  if maj = 0x05 then decodeMajor05 w else
  if maj = 0x06 then decodeMajor06 w else
  if maj = 0x07 then decodeMajor07 w else
  if maj = 0x08 then decodeMajor08 w else
  if maj = 0x09 then decodeMajor09 w else
  if maj = 0x0C then decodeMajor0C w else
  if maj = 0x0D then decodeMajor0D w else
  if maj = 0x0E then decodeMajor0E w else
  if maj = 0x0F then decodeMajor0F w else
  if maj = 0x10 then decodeMajor10 w else
  if maj = 0x11 then decodeMajor11 w else
  if maj = 0x12 then decodeMajor12 w else
  if maj = 0x13 then decodeMajor13 w else
  if maj = 0x14 then decodeMajor14 w else
  if maj = 0x15 then decodeMajor15 w else
  if maj = 0x16 then decodeMajor16 w else
  if maj = 0x17 then decodeMajor17 w else
  if maj = 0x18 then decodeMajor18 w else
  if maj = 0x19 then decodeMajor19 w else
  if maj = 0x1A then decodeMajor1A w else
  if maj = 0x1B then decodeMajor1B w else
  if maj = 0x1C then decodeMajor1C w else
  if maj = 0x1D then decodeMajor1D w else
  if maj = 0x1E then decodeMajor1E w else
  if maj = 0x1F then decodeMajor1F w else
  if maj = 0x20 then decodeMajor20 w else
  if maj = 0x21 then decodeMajor21 w else
  if maj = 0x22 then decodeMajor22 w else
  if maj = 0x23 then decodeMajor23 w else
  if maj = 0x24 then decodeMajor24 w else
  if maj = 0x25 then decodeMajor25 w else
  if maj = 0x26 then decodeMajor26 w else
  if maj = 0x27 then decodeMajor27 w else
  if maj = 0x28 then decodeMajor28 w else
  if maj = 0x29 then decodeMajor29 w else
  if maj = 0x2A then decodeMajor2A w else
  if maj = 0x2B then decodeMajor2B w else
  if maj = 0x2C then decodeMajor2C w else
  if maj = 0x34 then decodeMajor34 w else
  if maj = 0x36 then decodeMajor36 w else
  if maj = 0x37 then decodeMajor37 w else
  if maj = 0x38 then decodeMajor38 w else
  if maj = 0x39 then decodeMajor39 w else
  if maj = 0x3A then decodeMajor3A w else
  if maj = 0x3B then decodeMajor3B w else
  if maj = 0x3C then decodeMajor3C w else
  if maj = 0x3D then decodeMajor3D w else
  if maj = 0x3E then decodeMajor3E w else
  none

/-- A 16-bit halfword, by OP, bits [4:1] (R67). -/
def decodeRaw16 (w : BitVec 16) : Option Instr :=
  if w.extractLsb' 0 5 = 0#5 ∧ w.extractLsb' 13 3 = 0#3 then some (.mov16 (w.extractLsb' 5 4) (w.extractLsb' 9 4))
  else if w.extractLsb' 0 5 = 2#5 then some (.addi16 (w.extractLsb' 5 4) (w.extractLsb' 13 3) (w.extractLsb' 9 4))
  else if w.extractLsb' 0 5 = 4#5 ∧ w.extractLsb' 13 3 = 0#3 then some (.add16 (w.extractLsb' 5 4) (w.extractLsb' 9 4))
  else if w.extractLsb' 0 5 = 6#5 then some (.ld16 (w.extractLsb' 5 4) (w.extractLsb' 13 3) (w.extractLsb' 9 4))
  else if w.extractLsb' 0 5 = 8#5 then some (.st16 (w.extractLsb' 5 4) (w.extractLsb' 13 3) (w.extractLsb' 9 4))
  else if w.extractLsb' 0 5 = 10#5 then some (.br16 (w.extractLsb' 5 3) (w.extractLsb' 8 8))
  else if w.extractLsb' 0 5 = 12#5 then some (.j16 (w.extractLsb' 5 11))
  else if w.extractLsb' 0 5 = 14#5 ∧ w.extractLsb' 13 3 = 0#3 then some (.snd16 (w.extractLsb' 5 4) (w.extractLsb' 9 4))
  else if w.extractLsb' 0 5 = 16#5 ∧ w.extractLsb' 13 3 = 0#3 then some (.rcv16 (w.extractLsb' 5 4) (w.extractLsb' 9 4))
  else if w.extractLsb' 0 16 = 18#16 then some (.nop16)
  else if w.extractLsb' 0 16 = 20#16 then some (.rlx)
  else none

/-- Refuse an instruction whose fields break a check. -/
def checkWf : Option Instr → Except DecodeError Instr
  | none => .error .reservedEncoding
  | some i => if i.wf then .ok i else .error (.illFormed i)

/-- Decode a 32-bit word. -/
def decode32 (w : BitVec 32) : Except DecodeError Instr := checkWf (decodeRaw32 w)

/-- Decode a 16-bit halfword. -/
def decode16 (w : BitVec 16) : Except DecodeError Instr := checkWf (decodeRaw16 w)

/-- Decode the bits of an instruction of `len` bytes, 2 or 4, numbered from its first halfword (R60). -/
def decodeBits (len : Nat) (bits : BitVec 32) : Except DecodeError Instr :=
  if len = 2 then decode16 (bits.extractLsb' 0 16) else decode32 bits

/-- The length in bytes of an instruction from its first byte: bit 0 tells the lengths apart (R60). -/
def instrLength (b0 : Byte) : Nat := if b0.extractLsb' 0 1 = 1#1 then 4 else 2

/-- Decode the instruction at the head of a list of bytes, little-endian (R15), and give its length. -/
def decode : List Byte → Except DecodeError (Instr × Nat)
  | b0 :: b1 :: rest =>
    if instrLength b0 = 2 then (decode16 (b1 ++ b0)).map (fun i => (i, 2))
    else match rest with
      | b2 :: b3 :: _ => (decode32 (b3 ++ b2 ++ b1 ++ b0)).map (fun i => (i, 4))
      | _ => .error .truncated
  | _ => .error .truncated

/-- An instruction's word and its length in bytes, from the encoding tables of chapter 02; an event has none. -/
def encode : Instr → Option (Nat × BitVec 32)
  | .add g d a b => some (4, (0#7 ++ b ++ a ++ d ++ 0#6 ++ g ++ 1#1 : BitVec 32))
  | .sub g d a b => some (4, (1#7 ++ b ++ a ++ d ++ 0#6 ++ g ++ 1#1 : BitVec 32))
  | .and g d a b => some (4, (2#7 ++ b ++ a ++ d ++ 0#6 ++ g ++ 1#1 : BitVec 32))
  | .or g d a b => some (4, (3#7 ++ b ++ a ++ d ++ 0#6 ++ g ++ 1#1 : BitVec 32))
  | .xor g d a b => some (4, (4#7 ++ b ++ a ++ d ++ 0#6 ++ g ++ 1#1 : BitVec 32))
  | .shl g d a b => some (4, (5#7 ++ b ++ a ++ d ++ 0#6 ++ g ++ 1#1 : BitVec 32))
  | .shr g d a b => some (4, (6#7 ++ b ++ a ++ d ++ 0#6 ++ g ++ 1#1 : BitVec 32))
  | .sar g d a b => some (4, (7#7 ++ b ++ a ++ d ++ 0#6 ++ g ++ 1#1 : BitVec 32))
  | .mul g d a b => some (4, (8#7 ++ b ++ a ++ d ++ 0#6 ++ g ++ 1#1 : BitVec 32))
  | .mulh g d a b => some (4, (9#7 ++ b ++ a ++ d ++ 0#6 ++ g ++ 1#1 : BitVec 32))
  | .mulhz g d a b => some (4, (10#7 ++ b ++ a ++ d ++ 0#6 ++ g ++ 1#1 : BitVec 32))
  | .div g d a b => some (4, (11#7 ++ b ++ a ++ d ++ 0#6 ++ g ++ 1#1 : BitVec 32))
  | .divz g d a b => some (4, (12#7 ++ b ++ a ++ d ++ 0#6 ++ g ++ 1#1 : BitVec 32))
  | .rem g d a b => some (4, (13#7 ++ b ++ a ++ d ++ 0#6 ++ g ++ 1#1 : BitVec 32))
  | .remz g d a b => some (4, (14#7 ++ b ++ a ++ d ++ 0#6 ++ g ++ 1#1 : BitVec 32))
  | .min g d a b => some (4, (15#7 ++ b ++ a ++ d ++ 0#6 ++ g ++ 1#1 : BitVec 32))
  | .max g d a b => some (4, (16#7 ++ b ++ a ++ d ++ 0#6 ++ g ++ 1#1 : BitVec 32))
  | .minz g d a b => some (4, (17#7 ++ b ++ a ++ d ++ 0#6 ++ g ++ 1#1 : BitVec 32))
  | .maxz g d a b => some (4, (18#7 ++ b ++ a ++ d ++ 0#6 ++ g ++ 1#1 : BitVec 32))
  | .clm g d a b => some (4, (19#7 ++ b ++ a ++ d ++ 0#6 ++ g ++ 1#1 : BitVec 32))
  | .clmh g d a b => some (4, (20#7 ++ b ++ a ++ d ++ 0#6 ++ g ++ 1#1 : BitVec 32))
  | .clz g d a => some (4, (768#12 ++ a ++ d ++ 0#6 ++ g ++ 1#1 : BitVec 32))
  | .ctz g d a => some (4, (800#12 ++ a ++ d ++ 0#6 ++ g ++ 1#1 : BitVec 32))
  | .pcnt g d a => some (4, (832#12 ++ a ++ d ++ 0#6 ++ g ++ 1#1 : BitVec 32))
  | .bswp g d a => some (4, (864#12 ++ a ++ d ++ 0#6 ++ g ++ 1#1 : BitVec 32))
  | .mov g d a => some (4, (896#12 ++ a ++ d ++ 0#6 ++ g ++ 1#1 : BitVec 32))
  | .sext8 g d a => some (4, (1024#12 ++ a ++ d ++ 0#6 ++ g ++ 1#1 : BitVec 32))
  | .sext16 g d a => some (4, (1056#12 ++ a ++ d ++ 0#6 ++ g ++ 1#1 : BitVec 32))
  | .sext32 g d a => some (4, (1088#12 ++ a ++ d ++ 0#6 ++ g ++ 1#1 : BitVec 32))
  | .zext8 g d a => some (4, (1152#12 ++ a ++ d ++ 0#6 ++ g ++ 1#1 : BitVec 32))
  | .zext16 g d a => some (4, (1184#12 ++ a ++ d ++ 0#6 ++ g ++ 1#1 : BitVec 32))
  | .zext32 g d a => some (4, (1216#12 ++ a ++ d ++ 0#6 ++ g ++ 1#1 : BitVec 32))
  | .sel g d p a b => some (4, (6#4 ++ p ++ b ++ a ++ d ++ 0#6 ++ g ++ 1#1 : BitVec 32))
  | .shli g d a n => some (4, (32#6 ++ n.extractLsb' 5 1 ++ n.extractLsb' 0 5 ++ a ++ d ++ 0#6 ++ g ++ 1#1 : BitVec 32))
  | .shri g d a n => some (4, (33#6 ++ n.extractLsb' 5 1 ++ n.extractLsb' 0 5 ++ a ++ d ++ 0#6 ++ g ++ 1#1 : BitVec 32))
  | .sari g d a n => some (4, (34#6 ++ n.extractLsb' 5 1 ++ n.extractLsb' 0 5 ++ a ++ d ++ 0#6 ++ g ++ 1#1 : BitVec 32))
  | .nop => some (4, (1#32 : BitVec 32))
  | .addi g d a i => some (4, (i ++ a ++ d ++ 1#6 ++ g ++ 1#1 : BitVec 32))
  | .andi g d a i => some (4, (i ++ a ++ d ++ 2#6 ++ g ++ 1#1 : BitVec 32))
  | .ori g d a i => some (4, (i ++ a ++ d ++ 3#6 ++ g ++ 1#1 : BitVec 32))
  | .xori g d a i => some (4, (i ++ a ++ d ++ 4#6 ++ g ++ 1#1 : BitVec 32))
  | .lhi g d i => some (4, (i ++ d ++ 5#6 ++ g ++ 1#1 : BitVec 32))
  | .bfx g d a o l => some (4, (l ++ o ++ a ++ d ++ 6#6 ++ g ++ 1#1 : BitVec 32))
  | .bfi g d a o l => some (4, (l ++ o ++ a ++ d ++ 7#6 ++ g ++ 1#1 : BitVec 32))
  | .cbnd g d a b => some (4, (0#7 ++ b ++ a ++ d ++ 8#6 ++ g ++ 1#1 : BitVec 32))
  | .cprm g d a b => some (4, (1#7 ++ b ++ a ++ d ++ 8#6 ++ g ++ 1#1 : BitVec 32))
  | .cget g d a s => some (4, (2#7 ++ s ++ a ++ d ++ 8#6 ++ g ++ 1#1 : BitVec 32))
  | .cfrz g d a => some (4, (96#12 ++ a ++ d ++ 8#6 ++ g ++ 1#1 : BitVec 32))
  | .cmv g d a => some (4, (128#12 ++ a ++ d ++ 8#6 ++ g ++ 1#1 : BitVec 32))
  | .ctst g d a => some (4, (160#12 ++ a ++ d ++ 8#6 ++ g ++ 1#1 : BitVec 32))
  | .cadd g d a b => some (4, (6#7 ++ b ++ a ++ d ++ 8#6 ++ g ++ 1#1 : BitVec 32))
  | .cmint g d a b => some (4, (7#7 ++ b ++ a ++ d ++ 8#6 ++ g ++ 1#1 : BitVec 32))
  | .caddImm g d a i => some (4, (i ++ a ++ d ++ 9#6 ++ g ++ 1#1 : BitVec 32))
  | .cmp g p q t c a b => some (4, (b ++ a ++ c ++ t ++ q ++ p ++ 12#6 ++ g ++ 1#1 : BitVec 32))
  | .cmpi g p q t c a i => some (4, (i ++ a ++ c ++ t ++ q ++ p ++ 13#6 ++ g ++ 1#1 : BitVec 32))
  | .fcmp g p q t c a b => some (4, (b ++ a ++ c ++ t ++ q ++ p ++ 14#6 ++ g ++ 1#1 : BitVec 32))
  | .pcmb g p q t c a b => some (4, (0#2 ++ b ++ 0#2 ++ a ++ c ++ t ++ q ++ p ++ 15#6 ++ g ++ 1#1 : BitVec 32))
  | .br g o => some (4, (o ++ 16#6 ++ g ++ 1#1 : BitVec 32))
  | .j o => some (4, (o.extractLsb' 0 22 ++ 17#6 ++ o.extractLsb' 22 3 ++ 1#1 : BitVec 32))
  | .jal g o => some (4, (o ++ 18#6 ++ g ++ 1#1 : BitVec 32))
  | .jr g d a => some (4, (0#12 ++ a ++ d ++ 19#6 ++ g ++ 1#1 : BitVec 32))
  | .ret g a => some (4, (0#12 ++ a ++ 20#11 ++ g ++ 1#1 : BitVec 32))
  | .rep g t c l s r => some (4, (s ++ t ++ c ++ r ++ l ++ 21#6 ++ g ++ 1#1 : BitVec 32))
  | .lxi g e k i => some (4, (0#1 ++ i ++ k ++ e ++ 22#6 ++ g ++ 1#1 : BitVec 32))
  | .lxiZ g e k i => some (4, (1#1 ++ i ++ k ++ e ++ 22#6 ++ g ++ 1#1 : BitVec 32))
  | .mvxToE g d a => some (4, (0#12 ++ a ++ 0#2 ++ d ++ 23#6 ++ g ++ 1#1 : BitVec 32))
  | .mvxFromE g d a => some (4, (128#14 ++ a ++ d ++ 23#6 ++ g ++ 1#1 : BitVec 32))
  | .ld g d a o s => some (4, (o ++ s ++ a ++ d ++ 24#6 ++ g ++ 1#1 : BitVec 32))
  | .st g d a o s => some (4, (o ++ s ++ a ++ d ++ 25#6 ++ g ++ 1#1 : BitVec 32))
  | .ldF g d a o s => some (4, (o ++ 0#1 ++ s ++ a ++ d ++ 26#6 ++ g ++ 1#1 : BitVec 32))
  | .ldFc g d a o s => some (4, (o ++ 1#1 ++ s ++ a ++ d ++ 26#6 ++ g ++ 1#1 : BitVec 32))
  | .stE g d a o s => some (4, (o ++ s ++ a ++ d ++ 27#6 ++ g ++ 1#1 : BitVec 32))
  | .ldc g d a o => some (4, (o ++ 0#3 ++ a ++ d ++ 28#6 ++ g ++ 1#1 : BitVec 32))
  | .stc g d a o => some (4, (o ++ 1#3 ++ a ++ d ++ 28#6 ++ g ++ 1#1 : BitVec 32))
  | .vld g d a o => some (4, (o ++ 0#3 ++ a ++ 0#1 ++ d ++ 29#6 ++ g ++ 1#1 : BitVec 32))
  | .vst g d a o => some (4, (o ++ 1#3 ++ a ++ 0#1 ++ d ++ 29#6 ++ g ++ 1#1 : BitVec 32))
  | .vlds g d a b w => some (4, (0#3 ++ w ++ 0#2 ++ b ++ a ++ 0#1 ++ d ++ 30#6 ++ g ++ 1#1 : BitVec 32))
  | .vsts g d a b w => some (4, (0#3 ++ w ++ 1#2 ++ b ++ a ++ 0#1 ++ d ++ 30#6 ++ g ++ 1#1 : BitVec 32))
  | .vldg g d a b w => some (4, (0#3 ++ w ++ 4#3 ++ b ++ a ++ 0#1 ++ d ++ 30#6 ++ g ++ 1#1 : BitVec 32))
  | .vstx g d a b w => some (4, (0#3 ++ w ++ 6#3 ++ b ++ a ++ 0#1 ++ d ++ 30#6 ++ g ++ 1#1 : BitVec 32))
  | .pushm g d a => some (4, (0#12 ++ a ++ d ++ 31#6 ++ g ++ 1#1 : BitVec 32))
  | .popm g d a => some (4, (32#12 ++ a ++ d ++ 31#6 ++ g ++ 1#1 : BitVec 32))
  | .fenceFar g => some (4, (33554463#28 ++ g ++ 1#1 : BitVec 32))
  | .fenceEng g => some (4, (35651615#28 ++ g ++ 1#1 : BitVec 32))
  | .fenceCore g => some (4, (37748767#28 ++ g ++ 1#1 : BitVec 32))
  | .amoAdd g d a b w => some (4, (0#2 ++ w ++ 0#4 ++ b ++ a ++ d ++ 32#6 ++ g ++ 1#1 : BitVec 32))
  | .amoAnd g d a b w => some (4, (0#2 ++ w ++ 1#4 ++ b ++ a ++ d ++ 32#6 ++ g ++ 1#1 : BitVec 32))
  | .amoOr g d a b w => some (4, (0#2 ++ w ++ 2#4 ++ b ++ a ++ d ++ 32#6 ++ g ++ 1#1 : BitVec 32))
  | .amoXor g d a b w => some (4, (0#2 ++ w ++ 3#4 ++ b ++ a ++ d ++ 32#6 ++ g ++ 1#1 : BitVec 32))
  | .amoMin g d a b w => some (4, (0#2 ++ w ++ 4#4 ++ b ++ a ++ d ++ 32#6 ++ g ++ 1#1 : BitVec 32))
  | .amoMax g d a b w => some (4, (0#2 ++ w ++ 5#4 ++ b ++ a ++ d ++ 32#6 ++ g ++ 1#1 : BitVec 32))
  | .amoMinz g d a b w => some (4, (0#2 ++ w ++ 6#4 ++ b ++ a ++ d ++ 32#6 ++ g ++ 1#1 : BitVec 32))
  | .amoMaxz g d a b w => some (4, (0#2 ++ w ++ 7#4 ++ b ++ a ++ d ++ 32#6 ++ g ++ 1#1 : BitVec 32))
  | .amoSwp g d a b w => some (4, (0#2 ++ w ++ 8#4 ++ b ++ a ++ d ++ 32#6 ++ g ++ 1#1 : BitVec 32))
  | .amoCas g d a b w => some (4, (0#2 ++ w ++ 9#4 ++ b ++ a ++ d ++ 32#6 ++ g ++ 1#1 : BitVec 32))
  | .vamoAdd g d a b w => some (4, (0#2 ++ w ++ 0#5 ++ b ++ a ++ 0#1 ++ d ++ 33#6 ++ g ++ 1#1 : BitVec 32))
  | .vamoAnd g d a b w => some (4, (0#2 ++ w ++ 2#5 ++ b ++ a ++ 0#1 ++ d ++ 33#6 ++ g ++ 1#1 : BitVec 32))
  | .vamoOr g d a b w => some (4, (0#2 ++ w ++ 4#5 ++ b ++ a ++ 0#1 ++ d ++ 33#6 ++ g ++ 1#1 : BitVec 32))
  | .vamoXor g d a b w => some (4, (0#2 ++ w ++ 6#5 ++ b ++ a ++ 0#1 ++ d ++ 33#6 ++ g ++ 1#1 : BitVec 32))
  | .vamoMin g d a b w => some (4, (0#2 ++ w ++ 8#5 ++ b ++ a ++ 0#1 ++ d ++ 33#6 ++ g ++ 1#1 : BitVec 32))
  | .vamoMax g d a b w => some (4, (0#2 ++ w ++ 10#5 ++ b ++ a ++ 0#1 ++ d ++ 33#6 ++ g ++ 1#1 : BitVec 32))
  | .vamoMinz g d a b w => some (4, (0#2 ++ w ++ 12#5 ++ b ++ a ++ 0#1 ++ d ++ 33#6 ++ g ++ 1#1 : BitVec 32))
  | .vamoMaxz g d a b w => some (4, (0#2 ++ w ++ 14#5 ++ b ++ a ++ 0#1 ++ d ++ 33#6 ++ g ++ 1#1 : BitVec 32))
  | .vamoSwp g d a b w => some (4, (0#2 ++ w ++ 16#5 ++ b ++ a ++ 0#1 ++ d ++ 33#6 ++ g ++ 1#1 : BitVec 32))
  | .acc g a b l f => some (4, (0#3 ++ l ++ f ++ 0#1 ++ b ++ a ++ 34#11 ++ g ++ 1#1 : BitVec 32))
  | .maccMx8 g d a b => some (4, (0#8 ++ b ++ a ++ d ++ 35#6 ++ g ++ 1#1 : BitVec 32))
  | .maccMx4 g d a b => some (4, (2#8 ++ b ++ a ++ d ++ 35#6 ++ g ++ 1#1 : BitVec 32))
  | .seal g a k f => some (4, (1#4 ++ k ++ f ++ 0#5 ++ a ++ 35#11 ++ g ++ 1#1 : BitVec 32))
  | .feSet g a b => some (4, (16#7 ++ b ++ a ++ 35#11 ++ g ++ 1#1 : BitVec 32))
  | .feClr g a b => some (4, (17#7 ++ b ++ a ++ 35#11 ++ g ++ 1#1 : BitVec 32))
  | .vadd g d t a b r => some (4, (r ++ 0#4 ++ t.extractLsb' 2 1 ++ b ++ t.extractLsb' 1 1 ++ a ++ t.extractLsb' 0 1 ++ d ++ 36#6 ++ g ++ 1#1 : BitVec 32))
  | .vsub g d t a b r => some (4, (r ++ 1#4 ++ t.extractLsb' 2 1 ++ b ++ t.extractLsb' 1 1 ++ a ++ t.extractLsb' 0 1 ++ d ++ 36#6 ++ g ++ 1#1 : BitVec 32))
  | .vmul g d t a b r => some (4, (r ++ 2#4 ++ t.extractLsb' 2 1 ++ b ++ t.extractLsb' 1 1 ++ a ++ t.extractLsb' 0 1 ++ d ++ 36#6 ++ g ++ 1#1 : BitVec 32))
  | .vmin g d t a b u => some (4, (0#2 ++ u ++ 3#4 ++ t.extractLsb' 2 1 ++ b ++ t.extractLsb' 1 1 ++ a ++ t.extractLsb' 0 1 ++ d ++ 36#6 ++ g ++ 1#1 : BitVec 32))
  | .vmax g d t a b u => some (4, (0#2 ++ u ++ 4#4 ++ t.extractLsb' 2 1 ++ b ++ t.extractLsb' 1 1 ++ a ++ t.extractLsb' 0 1 ++ d ++ 36#6 ++ g ++ 1#1 : BitVec 32))
  | .vabs g d t a => some (4, (5#7 ++ t.extractLsb' 2 1 ++ 0#4 ++ t.extractLsb' 1 1 ++ a ++ t.extractLsb' 0 1 ++ d ++ 36#6 ++ g ++ 1#1 : BitVec 32))
  | .vneg g d t a => some (4, (6#7 ++ t.extractLsb' 2 1 ++ 0#4 ++ t.extractLsb' 1 1 ++ a ++ t.extractLsb' 0 1 ++ d ++ 36#6 ++ g ++ 1#1 : BitVec 32))
  | .vdiv g d t a b r => some (4, (r ++ 7#4 ++ t.extractLsb' 2 1 ++ b ++ t.extractLsb' 1 1 ++ a ++ t.extractLsb' 0 1 ++ d ++ 36#6 ++ g ++ 1#1 : BitVec 32))
  | .vsqrt g d t a r => some (4, (r ++ 8#4 ++ t.extractLsb' 2 1 ++ 0#4 ++ t.extractLsb' 1 1 ++ a ++ t.extractLsb' 0 1 ++ d ++ 36#6 ++ g ++ 1#1 : BitVec 32))
  | .vfma g d t a b r => some (4, (r ++ 0#4 ++ t.extractLsb' 2 1 ++ b ++ t.extractLsb' 1 1 ++ a ++ t.extractLsb' 0 1 ++ d ++ 37#6 ++ g ++ 1#1 : BitVec 32))
  | .vfms g d t a b r => some (4, (r ++ 1#4 ++ t.extractLsb' 2 1 ++ b ++ t.extractLsb' 1 1 ++ a ++ t.extractLsb' 0 1 ++ d ++ 37#6 ++ g ++ 1#1 : BitVec 32))
  | .vfnma g d t a b r => some (4, (r ++ 2#4 ++ t.extractLsb' 2 1 ++ b ++ t.extractLsb' 1 1 ++ a ++ t.extractLsb' 0 1 ++ d ++ 37#6 ++ g ++ 1#1 : BitVec 32))
  | .vfnms g d t a b r => some (4, (r ++ 3#4 ++ t.extractLsb' 2 1 ++ b ++ t.extractLsb' 1 1 ++ a ++ t.extractLsb' 0 1 ++ d ++ 37#6 ++ g ++ 1#1 : BitVec 32))
  | .vrcp g d t a => some (4, (0#7 ++ t.extractLsb' 2 1 ++ 0#4 ++ t.extractLsb' 1 1 ++ a ++ t.extractLsb' 0 1 ++ d ++ 38#6 ++ g ++ 1#1 : BitVec 32))
  | .vrsq g d t a => some (4, (1#7 ++ t.extractLsb' 2 1 ++ 0#4 ++ t.extractLsb' 1 1 ++ a ++ t.extractLsb' 0 1 ++ d ++ 38#6 ++ g ++ 1#1 : BitVec 32))
  | .vex2 g d t a => some (4, (2#7 ++ t.extractLsb' 2 1 ++ 0#4 ++ t.extractLsb' 1 1 ++ a ++ t.extractLsb' 0 1 ++ d ++ 38#6 ++ g ++ 1#1 : BitVec 32))
  | .vlg2 g d t a => some (4, (3#7 ++ t.extractLsb' 2 1 ++ 0#4 ++ t.extractLsb' 1 1 ++ a ++ t.extractLsb' 0 1 ++ d ++ 38#6 ++ g ++ 1#1 : BitVec 32))
  | .vtanh g d t a => some (4, (4#7 ++ t.extractLsb' 2 1 ++ 0#4 ++ t.extractLsb' 1 1 ++ a ++ t.extractLsb' 0 1 ++ d ++ 38#6 ++ g ++ 1#1 : BitVec 32))
  | .vsin g d t a => some (4, (5#7 ++ t.extractLsb' 2 1 ++ 0#4 ++ t.extractLsb' 1 1 ++ a ++ t.extractLsb' 0 1 ++ d ++ 38#6 ++ g ++ 1#1 : BitVec 32))
  | .vcvt g d a e s r => some (4, (r ++ e ++ 0#1 ++ s ++ 0#1 ++ a ++ 0#1 ++ d ++ 39#6 ++ g ++ 1#1 : BitVec 32))
  | .vdot g d t a b r => some (4, (r ++ 0#4 ++ t.extractLsb' 2 1 ++ b ++ t.extractLsb' 1 1 ++ a ++ t.extractLsb' 0 1 ++ d ++ 40#6 ++ g ++ 1#1 : BitVec 32))
  | .vredsum g d t a r => some (4, (r ++ 1#4 ++ t.extractLsb' 2 1 ++ 0#4 ++ t.extractLsb' 1 1 ++ a ++ t.extractLsb' 0 1 ++ d ++ 40#6 ++ g ++ 1#1 : BitVec 32))
  | .vredmax g d t a => some (4, (2#7 ++ t.extractLsb' 2 1 ++ 0#4 ++ t.extractLsb' 1 1 ++ a ++ t.extractLsb' 0 1 ++ d ++ 40#6 ++ g ++ 1#1 : BitVec 32))
  | .vredmin g d t a => some (4, (3#7 ++ t.extractLsb' 2 1 ++ 0#4 ++ t.extractLsb' 1 1 ++ a ++ t.extractLsb' 0 1 ++ d ++ 40#6 ++ g ++ 1#1 : BitVec 32))
  | .vredx g t a b => some (4, (4#7 ++ t.extractLsb' 2 1 ++ b ++ t.extractLsb' 1 1 ++ a ++ t.extractLsb' 0 1 ++ 40#10 ++ g ++ 1#1 : BitVec 32))
  | .vcmp g d t c a b u => some (4, (0#3 ++ u ++ c ++ t.extractLsb' 2 1 ++ b ++ t.extractLsb' 1 1 ++ a ++ t.extractLsb' 0 1 ++ d ++ 41#6 ++ g ++ 1#1 : BitVec 32))
  | .vand g d a b => some (4, (1#8 ++ b ++ 0#1 ++ a ++ 1#1 ++ d ++ 42#6 ++ g ++ 1#1 : BitVec 32))
  | .vor g d a b => some (4, (3#8 ++ b ++ 0#1 ++ a ++ 1#1 ++ d ++ 42#6 ++ g ++ 1#1 : BitVec 32))
  | .vxor g d a b => some (4, (5#8 ++ b ++ 0#1 ++ a ++ 1#1 ++ d ++ 42#6 ++ g ++ 1#1 : BitVec 32))
  | .vsel g d t a b => some (4, (3#7 ++ t.extractLsb' 2 1 ++ b ++ t.extractLsb' 1 1 ++ a ++ t.extractLsb' 0 1 ++ d ++ 42#6 ++ g ++ 1#1 : BitVec 32))
  | .viadd g d t a b => some (4, (0#7 ++ t.extractLsb' 2 1 ++ b ++ t.extractLsb' 1 1 ++ a ++ t.extractLsb' 0 1 ++ d ++ 43#6 ++ g ++ 1#1 : BitVec 32))
  | .visub g d t a b => some (4, (1#7 ++ t.extractLsb' 2 1 ++ b ++ t.extractLsb' 1 1 ++ a ++ t.extractLsb' 0 1 ++ d ++ 43#6 ++ g ++ 1#1 : BitVec 32))
  | .vimul g d t a b => some (4, (2#7 ++ t.extractLsb' 2 1 ++ b ++ t.extractLsb' 1 1 ++ a ++ t.extractLsb' 0 1 ++ d ++ 43#6 ++ g ++ 1#1 : BitVec 32))
  | .vshl g d t a b => some (4, (3#7 ++ t.extractLsb' 2 1 ++ b ++ t.extractLsb' 1 1 ++ a ++ t.extractLsb' 0 1 ++ d ++ 43#6 ++ g ++ 1#1 : BitVec 32))
  | .vshr g d t a b => some (4, (4#7 ++ t.extractLsb' 2 1 ++ b ++ t.extractLsb' 1 1 ++ a ++ t.extractLsb' 0 1 ++ d ++ 43#6 ++ g ++ 1#1 : BitVec 32))
  | .vsar g d t a b => some (4, (5#7 ++ t.extractLsb' 2 1 ++ b ++ t.extractLsb' 1 1 ++ a ++ t.extractLsb' 0 1 ++ d ++ 43#6 ++ g ++ 1#1 : BitVec 32))
  | .vpcnt g d t a => some (4, (6#7 ++ t.extractLsb' 2 1 ++ 0#4 ++ t.extractLsb' 1 1 ++ a ++ t.extractLsb' 0 1 ++ d ++ 43#6 ++ g ++ 1#1 : BitVec 32))
  | .vclm g d t a b => some (4, (7#7 ++ t.extractLsb' 2 1 ++ b ++ t.extractLsb' 1 1 ++ a ++ t.extractLsb' 0 1 ++ d ++ 43#6 ++ g ++ 1#1 : BitVec 32))
  | .vperm g d t a b => some (4, (0#7 ++ t.extractLsb' 2 1 ++ b ++ t.extractLsb' 1 1 ++ a ++ t.extractLsb' 0 1 ++ d ++ 44#6 ++ g ++ 1#1 : BitVec 32))
  | .vshuf g d t a idx => some (4, (0#2 ++ idx.extractLsb' 4 2 ++ 1#3 ++ t.extractLsb' 2 1 ++ idx.extractLsb' 0 4 ++ t.extractLsb' 1 1 ++ a ++ t.extractLsb' 0 1 ++ d ++ 44#6 ++ g ++ 1#1 : BitVec 32))
  | .vslideUp g d t a idx => some (4, (0#2 ++ idx.extractLsb' 4 2 ++ 2#3 ++ t.extractLsb' 2 1 ++ idx.extractLsb' 0 4 ++ t.extractLsb' 1 1 ++ a ++ t.extractLsb' 0 1 ++ d ++ 44#6 ++ g ++ 1#1 : BitVec 32))
  | .vslideDn g d t a idx => some (4, (0#2 ++ idx.extractLsb' 4 2 ++ 3#3 ++ t.extractLsb' 2 1 ++ idx.extractLsb' 0 4 ++ t.extractLsb' 1 1 ++ a ++ t.extractLsb' 0 1 ++ d ++ 44#6 ++ g ++ 1#1 : BitVec 32))
  | .vsplat g d t a => some (4, (4#7 ++ t.extractLsb' 2 1 ++ 0#4 ++ t.extractLsb' 1 1 ++ a ++ t.extractLsb' 0 1 ++ d ++ 44#6 ++ g ++ 1#1 : BitVec 32))
  | .vins g d t a idx => some (4, (0#2 ++ idx.extractLsb' 4 2 ++ 5#3 ++ t.extractLsb' 2 1 ++ idx.extractLsb' 0 4 ++ t.extractLsb' 1 1 ++ a ++ t.extractLsb' 0 1 ++ d ++ 44#6 ++ g ++ 1#1 : BitVec 32))
  | .vext g d t a idx => some (4, (0#2 ++ idx.extractLsb' 4 2 ++ 6#3 ++ t.extractLsb' 2 1 ++ idx.extractLsb' 0 4 ++ t.extractLsb' 1 1 ++ a ++ t.extractLsb' 0 1 ++ d ++ 44#6 ++ g ++ 1#1 : BitVec 32))
  | .vmov g d t a => some (4, (7#7 ++ t.extractLsb' 2 1 ++ 0#4 ++ t.extractLsb' 1 1 ++ a ++ t.extractLsb' 0 1 ++ d ++ 44#6 ++ g ++ 1#1 : BitVec 32))
  | .sbindIn g d a b => some (4, (0#7 ++ b ++ 0#2 ++ a ++ d ++ 52#6 ++ g ++ 1#1 : BitVec 32))
  | .sbindOut g d a b => some (4, (1#7 ++ b ++ 0#2 ++ a ++ d ++ 52#6 ++ g ++ 1#1 : BitVec 32))
  | .sfree g d => some (4, (2048#17 ++ d ++ 52#6 ++ g ++ 1#1 : BitVec 32))
  | .sskip g d a => some (4, (96#12 ++ a ++ d ++ 52#6 ++ g ++ 1#1 : BitVec 32))
  | .chset g a h => some (4, (0#6 ++ h ++ a ++ 54#11 ++ g ++ 1#1 : BitVec 32))
  | .chclr g h => some (4, (1#6 ++ h ++ 54#16 ++ g ++ 1#1 : BitVec 32))
  | .chst g d h => some (4, (2#6 ++ h ++ 0#5 ++ d ++ 54#6 ++ g ++ 1#1 : BitVec 32))
  | .snd g a h => some (4, (0#6 ++ h ++ a ++ 55#11 ++ g ++ 1#1 : BitVec 32))
  | .sndv g a h => some (4, (1#6 ++ h ++ 0#1 ++ a ++ 55#11 ++ g ++ 1#1 : BitVec 32))
  | .bsnd g a h => some (4, (2#6 ++ h ++ a ++ 55#11 ++ g ++ 1#1 : BitVec 32))
  | .rcv g d h => some (4, (0#6 ++ h ++ 0#5 ++ d ++ 56#6 ++ g ++ 1#1 : BitVec 32))
  | .rcvv g d h => some (4, (1#6 ++ h ++ 0#6 ++ d ++ 56#6 ++ g ++ 1#1 : BitVec 32))
  | .brcv g a h => some (4, (2#6 ++ h ++ a ++ 56#11 ++ g ++ 1#1 : BitVec 32))
  | .alt g d a => some (4, (0#14 ++ a ++ d ++ 57#6 ++ g ++ 1#1 : BitVec 32))
  | .altP g d a => some (4, (128#14 ++ a ++ d ++ 57#6 ++ g ++ 1#1 : BitVec 32))
  | .altD g d a b => some (4, (8#9 ++ b ++ 0#2 ++ a ++ d ++ 57#6 ++ g ++ 1#1 : BitVec 32))
  | .altPD g d a b => some (4, (12#9 ++ b ++ 0#2 ++ a ++ d ++ 57#6 ++ g ++ 1#1 : BitVec 32))
  | .mxq g d a b s => some (4, (0#4 ++ s ++ b ++ a ++ d ++ 58#6 ++ g ++ 1#1 : BitVec 32))
  | .cpq g d a b m => some (4, (0#4 ++ m ++ b ++ a ++ d ++ 59#6 ++ g ++ 1#1 : BitVec 32))
  | .jwait g a => some (4, (256#12 ++ a ++ 59#11 ++ g ++ 1#1 : BitVec 32))
  | .jst g d a => some (4, (512#12 ++ a ++ d ++ 59#6 ++ g ++ 1#1 : BitVec 32))
  | .mxf g => some (4, (50331707#28 ++ g ++ 1#1 : BitVec 32))
  | .barr g b => some (4, (0#7 ++ b ++ 60#16 ++ g ++ 1#1 : BitVec 32))
  | .barw g b => some (4, (1#7 ++ b ++ 60#16 ++ g ++ 1#1 : BitVec 32))
  | .bar g b => some (4, (2#7 ++ b ++ 60#16 ++ g ++ 1#1 : BitVec 32))
  | .wtu g a => some (4, (96#12 ++ a ++ 60#11 ++ g ++ 1#1 : BitVec 32))
  | .rdt g d => some (4, (4096#17 ++ d ++ 60#6 ++ g ++ 1#1 : BitVec 32))
  | .spwn g a b k => some (4, (0#7 ++ b ++ a ++ 0#2 ++ k ++ 61#6 ++ g ++ 1#1 : BitVec 32))
  | .hlt g => some (4, (2097213#28 ++ g ++ 1#1 : BitVec 32))
  | .ckpt g a => some (4, (64#12 ++ a ++ 61#11 ++ g ++ 1#1 : BitVec 32))
  | .mig g a => some (4, (96#12 ++ a ++ 61#11 ++ g ++ 1#1 : BitVec 32))
  | .sstat g d k => some (4, (16#9 ++ k ++ 0#5 ++ d ++ 61#6 ++ g ++ 1#1 : BitVec 32))
  | .csrr g d c => some (4, (c ++ 0#5 ++ d ++ 62#6 ++ g ++ 1#1 : BitVec 32))
  | .csrw g c a => some (4, (c ++ a ++ 62#11 ++ g ++ 1#1 : BitVec 32))
  | .csrx g d c a => some (4, (c ++ a ++ d ++ 62#6 ++ g ++ 1#1 : BitVec 32))
  | .trap g a => some (4, (3840#12 ++ a ++ 62#11 ++ g ++ 1#1 : BitVec 32))
  | .eret g => some (4, (251723838#28 ++ g ++ 1#1 : BitVec 32))
  | .dbg g a => some (4, (3842#12 ++ a ++ 62#11 ++ g ++ 1#1 : BitVec 32))
  | .rmap g d a => some (4, (3843#12 ++ a ++ d ++ 62#6 ++ g ++ 1#1 : BitVec 32))
  | .chmint g d a => some (4, (3844#12 ++ a ++ d ++ 62#6 ++ g ++ 1#1 : BitVec 32))
  | .pmint g d a => some (4, (3845#12 ++ a ++ d ++ 62#6 ++ g ++ 1#1 : BitVec 32))
  | .mov16 d s => some (2, ((0#3 ++ s ++ d ++ 0#5 : BitVec 16)).setWidth 32)
  | .addi16 d i s => some (2, ((i ++ s ++ d ++ 2#5 : BitVec 16)).setWidth 32)
  | .add16 d s => some (2, ((0#3 ++ s ++ d ++ 4#5 : BitVec 16)).setWidth 32)
  | .ld16 d i s => some (2, ((i ++ s ++ d ++ 6#5 : BitVec 16)).setWidth 32)
  | .st16 d i s => some (2, ((i ++ s ++ d ++ 8#5 : BitVec 16)).setWidth 32)
  | .br16 n o => some (2, ((o ++ n ++ 10#5 : BitVec 16)).setWidth 32)
  | .j16 o => some (2, ((o ++ 12#5 : BitVec 16)).setWidth 32)
  | .snd16 d s => some (2, ((0#3 ++ s ++ d ++ 14#5 : BitVec 16)).setWidth 32)
  | .rcv16 d s => some (2, ((0#3 ++ s ++ d ++ 16#5 : BitVec 16)).setWidth 32)
  | .nop16 => some (2, ((18#16 : BitVec 16)).setWidth 32)
  | .rlx => some (2, ((20#16 : BitVec 16)).setWidth 32)
  | .farReplyArrival => none
  | .fenceConditionMet => none
  | .icacheLineFill => none
  | .wtuTargetReached => none
  | .altDeadline => none
  | .messageArrival => none
  | .acknowledgementArrival => none
  | .releaseArrival => none
  | .nackArrival => none
  | .pullCompletion => none
  | .holderUpdate => none
  | .holderUpdateReply => none
  | .barrierRelease => none
  | .queueEntryGrant => none
  | .mxeStepBegin => none
  | .accumulatorWrite => none
  | .drainGranuleWrite => none
  | .mxeJobCompletion => none
  | .tileOffer => none
  | .tileGrant => none
  | .tileLands => none
  | .outBufferFree => none
  | .tileOfferNack => none
  | .cpeTurn => none
  | .cpeLineReply => none
  | .cpeChunkWrite => none
  | .cpeJobCompletion => none
  | .sliceRequestArrival => none
  | .tlbWalkEnd => none
  | .activeRoundStart => none
  | .fallowRound => none
  | .refreshRound => none
  | .slotPerform => none
  | .reservedWrite => none
  | .sliceReply => none
  | .freezeRequest => none
  | .doneMessage => none
  | .panMintRequest => none
  | .contributorMintCheck => none
  | .masterSealRequest => none
  | .sealBegin => none
  | .panConversionDone => none
  | .panZeroingDone => none
  | .panTableReply => none
  | .rakeThreshold => none
  | .rakeProbe => none
  | .rakeEcho => none
  | .rakeEntry => none
  | .rakeConfirm => none
  | .rakeConfirmEcho => none
  | .rakeEnd => none
  | .seqReq => none
  | .seqGrant => none
  | .recordWordResend => none
  | .supervisorRecord => none
  | .jobRecordIntake => none
  | .hostRecordWrite => none
  | .jobSelection => none
  | .jobPlacement => none
  | .wake => none
  | .wakeChannelBind => none
  | .jobCompletion => none
  | .noticeResend => none
  | .qcfgWrite => none
  | .preempt => none
  | .preemptionMessage => none
  | .preemptSaveComplete => none
  | .resume => none
  | .resumeRelease => none
  | .abort => none
  | .registerRecallSaveArea => none
  | .crystalCurrent => none
  | .selfCrystal => none
  | .logWrite => none
  | .uncorrectableSoftError => none
  | .softErrorCorrected => none
  | .coreRetirement => none
  | .substitutionRestoreDone => none
  | .debugHalt => none
  | .debugRegisterWrite => none
  | .packetHop => none
  | .heldPacketRelease => none
  | .remapWrite => none
  | .routeTableWrite => none
  | .bcfgOosWrite => none
  | .reserveTake => none
  | .reserveRelease => none
  | .deviceWindowAccess => none
  | .parentClockStop => none
  | .lostClockReport => none
  | .reroot => none
  | .rerootRelease => none
  | .moduleReset => none
  | .bootStrandStart => none
  | .partitionConfigWrite => none
  | .partitionReset => none
  | .unitLend => none
  | .unitRecall => none
  | .pageTableWrite => none
  | .panEntryRemoval => none
  | .ppwrWrite => none
  | .modeChange => none
  | .thermalLimit => none
  | .thermalClear => none
  | .ptpSync => none
  | .ptpFollowUp => none
  | .ptpDelayReq => none
  | .ptpDelayResp => none
  | .syncTimeout => none
  | .frameSlot => none
  | .frameArrival => none
  | .tokenRefill => none
  | .vfConfigWrite => none
  | .vfFlush => none
  | .sluiceClose => none
  | .sluiceOpen => none
  | .lowPowerEnter => none
  | .closeMarker => none
  | .drainComplete => none
  | .wakeHint => none
  | .trainingSuccess => none
  | .trainingTimeout => none
  | .migRecordArrival => none
  | .migAccept => none
  | .migRefusal => none
  | .hostPanTake => none
  | .hostPanAccess => none
  | .pret => none
  | .tctlWrite => none
  | .trunGo => none
  | .patternTestResult => none
  | .repairWrite => none
  | .seedWrite => none
  | .quote => none
  | .meterReadout => none
  | .raiseFusedMinimum => none
  | .firmwareImageSwitch => none
  | .tamperAlarm => none
  | .alarmExit => none
  | .registerWrite => none
  | .deliveryTokenReturn => none
  | .ptpTimerDue => none

/-- The bytes of a word of `len` bytes, the lowest address first (R15). -/
def wordBytes (len : Nat) (w : BitVec 32) : List Byte :=
  (List.range len).map (fun k => w.extractLsb' (8 * k) 8)

/-- The decoder on one word of the opcode table's numbering: bit 0 is the least significant bit of the first
halfword, and the bits above `nbits` are 0. -/
def decodeTableWord (nbits w : Nat) : Option Instr :=
  match decode (wordBytes 4 (BitVec.ofNat 32 (w % 2 ^ nbits))) with
  | .ok (i, _) => some i
  | .error _ => none

end Sys2Proof
end

