-- ==== Sys2Proof/Machine/Jobs.lean ====
section
/-! DEFINITION. The members of a gang: distances on the die spine, when a member core is finished and how the head
learns it, and starting a strand (R279, R290, R292, R293). -/

namespace Sys2Proof.Machine

/-- DH of a core: spine hops from its die to the die of the partition's head (R290). -/
def State.spineHops (s : State) (p : Nat) : Nat :=
  let dx := coordX p / 64
  let u := ((s.partOf p).map (fun sp => (s.part sp).base / 2)).getD 0
  (if u ≤ dx then dx - u else u - dx) + coordY p / 96

/-- Has a lane an engine job queued, running or waiting for an entry (R292)? -/
def Block.laneBusy (b : Block) (lane : Nat) : Bool :=
  b.mxe.entries.any (fun e => e.2.lane == lane && (e.2.state == .queued || e.2.state == .running)) ||
    b.cpe.entries.any (fun e => e.2.lane == lane && (e.2.state == .queued || e.2.state == .running)) ||
    b.mxe.waiting.any (fun w => w.lane == lane) || b.cpe.waiting.any (fun w => w.lane == lane)

/-- Is a member core finished: its slots empty, its lane without engine jobs (R292)? -/
def State.finished (s : State) (p : Nat) : Bool :=
  (s.core p).slots == [] && !(s.block (blockOf p)).laneBusy (s.laneOf p)

/-- A member core may have finished: when every member has, the job completes within the bound of R292; the cycle
within the bound is a free value. -/
def State.finishCheck (s : State) (p : Nat) : State :=
  let j := (s.core p).job
  if j = 0 || !s.finished p then s
  else
    match s.partOf p with
    | none => s
    | some sp =>
      match (s.part sp).jobs.get? j with
      | none => s
      | some job =>
        if job.state = .running && job.left.contains p then
          let left := job.left.filter (· != p)
          let s := (s.meterStop p).modPart sp (fun x => { x with jobs := x.jobs.set j { job with left := left } })
          if left = [] then
            let (n, s) := s.free
            s.post (some sp) (1 + Config.delay n % (16 + 5 * s.spineHops p)) .jobCompletion (args sp j)
          else s
        else s

/-- Put a strand into an empty slot, ready `n` cycles from now (R216, R288). -/
def State.startStrand (s : State) (p k : Nat) (x : Strand) (n : Nat) : State :=
  let (id, s) := s.fresh
  s.setStrand p k { x with serial := id, readyAt := s.countCore p + n }

/-- A strand has come to a member core that had finished: the job waits for that core again (R292). -/
def State.rejoin (s : State) (p : Nat) : State :=
  let id := (s.core p).job
  match s.partOf p with
  | none => s
  | some sp =>
    match (s.part sp).jobs.get? id with
    | some j =>
      if j.state = .running && j.members.contains p && !j.left.contains p then
        (s.modPart sp (fun x => { x with jobs := x.jobs.set id { j with left := j.left ++ [p] } })).meterStart p
      else s
    | none => s

/-- A strand at its end: its streams are released and it waits for nothing (R185, R217). -/
def Strand.ended (x : Strand) : Strand :=
  { x.streams.foldl (fun x e => x.freeStream e.1) x with wait := .ready, rep := none, pendTrap := none }

/-- A strand ends: its slot is empty and keeps the registers (R217, R276, R298, R330). -/
def State.emptySlot (s : State) (p k : Nat) : State :=
  s.modCore p (fun c => { c with slots := c.slots.erase k, vacated := c.vacated.set k (s.strand p k).ended })

/-- A strand has left for another panel (R406): the slot is empty, and nothing of the strand stays in it. -/
def State.shippedSlot (s : State) (p k : Nat) : State :=
  s.modCore p (fun c => { c with slots := c.slots.erase k, vacated := c.vacated.erase k })

end Sys2Proof.Machine
end

