-- ==== Sys2Proof/Machine/System.lean ====
section
/-! DEFINITION. Barriers, time, strands, control registers and the system operations (R31, R35 to R42, R212 to R218,
R221 to R226, R293, R294), and the relaxed prefix (R69). -/

namespace Sys2Proof.Machine

/-! ## Barriers -/

/-- The members of a barrier as core `p` sees them: w0 to w15 are held by the cores of the partition whose membership
bit is set, `blk` (16) by the cores in service that serve the block's live logical lanes (R3, R212). -/
def State.barrierMembers (s : State) (p b : Nat) : List Nat :=
  if b = 16 then ((List.range 8).filterMap (fun k => s.physOf (p / 8 * 8 + k))).filter (fun q => !s.outOfService q)
  else (s.cores.filter (fun e => e.2.bmem.getLsbD b && s.partOf e.1 == s.partOf p)).map (·.1)

/-- Is core `p` a member (R212)? -/
def State.isMember (s : State) (p b : Nat) : Bool :=
  if b = 16 then (s.barrierMembers p b).contains p else (s.core p).bmem.getLsbD b

/-- Is a release of the barrier on its way to core `p`? -/
def State.releasing (s : State) (p b : Nat) : Bool :=
  s.agenda.any (fun e => e.event == .barrierRelease && e.arg.a == p && e.arg.b == b)

/-- Has core `p` arrived in the barrier's present phase? -/
def State.arrived (s : State) (p b : Nat) : Bool := (s.core p).barr.getLsbD b && !s.releasing p b

/-- Cycles from the last arrival, at core `p`, to the release at core `m` (R293, R294). -/
def State.releaseDelay (s : State) (p m b : Nat) : Nat :=
  if b = 16 then 3 else 12 + 2 * (s.spineHops p + s.spineHops m)

/-- Core `p` arrives; the last arrival releases every member (R212, R293). -/
def State.arrive (s : State) (p slot b : Nat) : State :=
  let s := s.modCore p (fun c => { c with barr := c.barr ||| (1#17 <<< b) })
  let s := s.logAppend p logBar 0 slot b CReg.zero 0#512
  let ms := s.barrierMembers p b
  if ms.all (fun m => s.arrived m b) then
    ms.foldl (fun t m => t.postCore m (s.releaseDelay p m b) .barrierRelease (args m b)) s
  else s

/-- The member check of a barrier instruction (R212). -/
def State.checkMember (s : State) (b : BitVec 5) : Except Trap Unit :=
  need (s.isMember s.cur.core b.toNat) (trapPermission (regNo b))

/-- The BAR entry that an arrival replays (R384). -/
def State.replayBar (s : State) (b : Nat) : Option LogRow := s.replayOf logBar b

/-- barr (R213). -/
def execBarr (g : BitVec 3) (b : BitVec 5) (s : State) : Host.Outcome State Fault Refusal :=
  s.act g (fun s => do
    s.checkMember b
    match s.replayBar b.toNat with
    | some row => return (s.replayed row.number).advance
    | none =>
      if s.myCore.barr.getLsbD b.toNat then return s.waitNext (.barrier b.toNat true false)
      else return (s.arrive s.cur.core s.cur.slot b.toNat).advance)

/-- barw (R213). -/
def execBarw (g : BitVec 3) (b : BitVec 5) (s : State) : Host.Outcome State Fault Refusal :=
  s.act g (fun s => do
    s.checkMember b
    if s.myCore.barr.getLsbD b.toNat then return s.waitNext (.barrier b.toNat false false)
    else return s.advance)

/-- bar (R213): `barr`, then `barw`. -/
def execBar (g : BitVec 3) (b : BitVec 5) (s : State) : Host.Outcome State Fault Refusal :=
  s.act g (fun s => do
    s.checkMember b
    match s.replayBar b.toNat with
    | some row =>
      let s := s.replayed row.number
      if row.st = 1 then return s.advance else return s.waitNext (.barrier b.toNat false false)
    | none =>
      if s.myCore.barr.getLsbD b.toNat then return s.waitNext (.barrier b.toNat true true)
      else return (s.arrive s.cur.core s.cur.slot b.toNat).waitNext (.barrier b.toNat false false))

/-- A waiting strand meets a release: it arrives anew if it has still to arrive and the bit is clear, and goes on
unless it waits for that arrival's release too (R212, R213). -/
def State.meetRelease (s : State) (p b k : Nat) : State :=
  match (s.core p).slots.get? k with
  | none => s
  | some x =>
    match x.wait with
    | .barrier b' again through =>
      if b' ≠ b then s
      else if !again then s.wake p k
      else if (s.core p).barr.getLsbD b then s
      else
        let s := s.arrive p k b
        if through then s.modStrand p k (fun x => { x with wait := .barrier b false false }) else s.wake p k
    | _ => s

/-- BARRIER_RELEASE (R212): ARR clears, and waiting strands go on in the next cycle. -/
def execBarrierRelease (s : State) : Host.Outcome State Fault Refusal :=
  let p := s.arg.a
  let b := s.arg.b
  let s := s.modCore p (fun c => { c with barr := c.barr &&& ~~~(1#17 <<< b) })
  let s := s.logSettle p logBar b 1
  .next ((List.range 8).foldl (fun s k => s.meetRelease p b k) s)

/-! ## Time -/

/-- wtu (R214). -/
def execWtu (g : BitVec 3) (a : BitVec 5) (s : State) : Host.Outcome State Fault Refusal :=
  s.act g (fun s =>
    let t := (s.me.val a).toNat
    if t ≤ s.now then .ok s.advance
    else .ok ((s.waitNext (.time t)).postAt none t .wtuTargetReached (args s.cur.core s.cur.slot)))

/-- The first core cycle of core `p` at which `ptime` is at least `t`. -/
def State.countFrom (s : State) (p t : Nat) : Nat :=
  let d := s.partOf p
  let (mode, m) := s.clockOf d
  let k := countOfTime mode m t
  if timeOfCount mode m k < t then k + 1 else k

/-- WTU_TARGET_REACHED (R214): the next instruction issues at the first cycle of the slot at least one slot period
after the `wtu` at which `ptime` has reached the target. -/
def execWtuTargetReached (s : State) : Host.Outcome State Fault Refusal :=
  let p := s.arg.a
  let k := s.arg.b
  .next (match (s.core p).slots.get? k with
    | some x =>
      match x.wait with
      | .time t =>
        if t ≤ s.now then
          s.setStrand p k { x with wait := .ready, readyAt := max (x.waitStart + 8) (s.countFrom p t) }
        else s
      | _ => s
    | none => s)

/-- rdt (R215, R384). -/
def execRdt (g : BitVec 3) (d : BitVec 5) (s : State) : Host.Outcome State Fault Refusal :=
  s.act g (fun s => do
    s.writable d
    match s.replayOf logRdt 0 with
    | some row => (s.replayed row.number).putInt d (s.logReg s.cur.core row.number).val
    | none =>
      let t : Word := BitVec.ofNat 64 s.now
      (s.logAppend s.cur.core logRdt 1 s.cur.slot 0 (CReg.int t) 0#512).putInt d t)

/-! ## Strands -/

/-- The strand that `spwn` starts (R216, R279). -/
def Strand.spawned (x : Strand) (entry : Word) (arg : CReg) : Strand :=
  { Strand.fresh with
    pc := entry, c := if arg = CReg.zero then [] else [(2, arg)], sst := x.sst &&& 3#13, codeLo := x.codeLo
    codeHi := x.codeHi, job := x.job }

/-- spwn (R216). -/
def execSpwn (g : BitVec 3) (a b : BitVec 5) (k : BitVec 3) (s : State) : Host.Outcome State Fault Refusal :=
  s.act g (fun s => do
    need (k.toNat != s.cur.slot && !s.occupied s.cur.core k.toNat) (trapSlot k.toNat)
    let entry := s.me.val a
    checkTarget entry
    let r := s.me.reg b
    let s := s.startStrand s.cur.core k.toNat (s.me.spawned entry r) 1
    return (s.modMe (fun x => if r.linear then x.setReg b CReg.zero else x)).advance)

/-- The lowest c register that holds a linear capability. -/
def Strand.linearReg (x : Strand) : Option (BitVec 5) :=
  x.lowestLinear ((List.range 32).map (BitVec.ofNat 5))

/-- hlt (R217): streams are released, ends stay bound, the slot is empty. -/
def execHlt (g : BitVec 3) (s : State) : Host.Outcome State Fault Refusal :=
  s.act g (fun s => s.fenceFirst (fun s =>
    match s.me.linearReg with
    | some i => .error (trapLinearity (regNo i))
    | none => .ok ((s.emptySlot s.cur.core s.cur.slot).finishCheck s.cur.core)))

/-- The STATE code of a wait (R218). -/
def Wait.code : Wait → Nat
  | .ready => 1
  | .far _ => 2
  | .relaxed _ => 2
  | .fence _ _ => 2
  | .fenceFirst _ _ _ => 2
  | .fetch _ => 2
  | .fullEmpty _ _ => 7
  | .send _ => 3
  | .recv _ => 3
  | .alt _ _ => 3
  | .pull _ => 3
  | .holder _ => 3
  | .barrier _ _ _ => 4
  | .queue _ => 5
  | .job _ => 5
  | .ckpt => 5
  | .ckptFirst _ _ => 5
  | .table _ => 2
  | .remap => 2
  | .mig _ => 5
  | .time _ => 6
  | .restore => 1

/-- The state word of a strand (R218). -/
def Strand.word (x : Strand) (st : Nat) : Word :=
  BitVec.ofNat 64 (st + (if x.inh then 8 else 0) + x.mode * 2 ^ 4 + (if x.ve then 64 else 0) +
    (if x.rep.isSome then 128 else 0) + x.pc.toNat / 2 % 2 ^ 47 * 2 ^ 16)

/-- sstat (R218): the issuing slot reads STATE 1. -/
def execSstat (g : BitVec 3) (d : BitVec 5) (k : BitVec 3) (s : State) : Host.Outcome State Fault Refusal :=
  s.act g (fun s => s.putInt d
    (match s.myCore.slots.get? k.toNat with
     | none => 0#64
     | some x => x.word (if k.toNat = s.cur.slot then 1 else x.wait.code)))

/-! ## Control registers -/

/-- The access of a control register: who may read and write it (R35). -/
inductive CsrAccess where
  /-- Read by every mode, written by none. -/
  | readAll
  /-- Read and written by every mode. -/
  | all
  /-- Read by every mode, written from Partition mode up. -/
  | writePartition
  /-- Read by every mode, written by Machine mode. -/
  | writeMachine
  /-- Read and written from Partition mode up. -/
  | partition
  /-- Read from Partition mode up, written by Machine mode. -/
  | partitionMachine
  deriving DecidableEq, Repr

/-- The table of R35. -/
def csrAccess (n : Nat) : Option CsrAccess :=
  match n with
  | 0x000 => some .readAll
  | 0x001 => some .writePartition
  | 0x002 => some .all
  | 0x003 => some .writePartition
  | 0x004 => some .all
  | 0x005 => some .all
  | 0x006 => some .all
  | 0x008 => some .partition
  | 0x009 => some .partition
  | 0x00A => some .partition
  | 0x00B => some .partition
  | 0x040 => some .readAll
  | 0x041 => some .readAll
  | 0x042 => some .readAll
  | 0x043 => some .readAll
  | 0x044 => some .readAll
  | 0x045 => some .readAll
  | 0x046 => some .readAll
  | 0x047 => some .readAll
  | 0x048 => some .partition
  | 0x049 => some .writePartition
  | 0x04A => some .writeMachine
  | 0x04B => some .partitionMachine
  | 0x04C => some .partitionMachine
  | _ => none

/-- May a mode read the register? -/
def CsrAccess.reads (a : CsrAccess) (mode : Nat) : Bool :=
  match a with
  | .partition => mode != 0
  | .partitionMachine => mode != 0
  | _ => true

/-- May a mode write the register? -/
def CsrAccess.writes (a : CsrAccess) (mode : Nat) : Bool :=
  match a with
  | .readAll => false
  | .all => true
  | .writePartition => mode != 0
  | .writeMachine => mode == 3
  | .partition => mode != 0
  | .partitionMachine => mode == 3

/-- `vtime` (R41). -/
def vtimeOf (now toff tscale : Word) : Word :=
  BitVec.ofNat 64 ((now - toff).toNat * tscale.toNat / 2 ^ 32)

/-- The value of a control register at issue (R36 to R41). -/
def State.csrValue (s : State) (n : Nat) : Word :=
  let x := s.me
  let c := s.myCore
  let now : Word := BitVec.ofNat 64 s.now
  match n with
  | 0x000 => s.cur.pc
  | 0x001 => x.sst.setWidth 64
  | 0x002 => x.hsp
  | 0x003 => x.hsl
  | 0x004 => x.dmask.setWidth 64
  | 0x005 => x.fmode.setWidth 64
  | 0x006 => x.srng
  | 0x008 => x.epc
  | 0x009 => x.tcause.setWidth 64
  | 0x00A => x.tval
  | 0x00B => x.esst.setWidth 64
  | 0x040 => BitVec.ofNat 64 c.lcn
  | 0x041 => BitVec.ofNat 64 c.grank
  | 0x042 => BitVec.ofNat 64 c.gsize
  | 0x043 => BitVec.ofNat 64 c.gorg
  | 0x044 => now
  | 0x045 => vtimeOf now c.toff c.tscale
  | 0x046 => BitVec.ofNat 64 c.tree.cls
  | 0x047 => c.clat.setWidth 64
  | 0x048 => c.tvec
  | 0x049 => c.rakeT.setWidth 64
  | 0x04A => c.pcid.setWidth 64
  | 0x04B => c.toff
  | 0x04C => c.tscale
  | _ => 0#64

/-- A write to `sst`: VE only; 0 makes v0 to v15 zero and is ignored while a stream is bound (R31, R37). -/
def Strand.writeSst (x : Strand) (w : Word) : Strand :=
  if w.getLsbD 2 then x.setVe
  else if x.sst.extractLsb' 3 3 = 0#3 then { x with sst := x.sst &&& ~~~(4#13), v := [] }
  else x

/-- A write to a control register of the strand (R36 to R39); per-core numbers leave the strand alone. -/
def Strand.writeCsr (x : Strand) (n : Nat) (w : Word) : Strand :=
  match n with
  | 0x001 => x.writeSst w
  | 0x002 => { x with hsp := w &&& 0x3FFF0#64 }
  | 0x003 => { x with hsl := w &&& 0x3FFF0#64 }
  | 0x004 => x.kill (w.setWidth 32 &&& 0xFFFFFFFE#32)
  | 0x005 => { x with fmode := writeFmode x.fmode (w.setWidth 8) }
  | 0x006 => { x with srng := if w = 0#64 then 0x9E3779B97F4A7C15#64 else w }
  | 0x008 => { x with epc := w &&& ~~~(1#64), epcWritten := true }
  | 0x009 => { x with tcause := w.setWidth 6 }
  | 0x00A => { x with tval := w }
  | 0x00B => { x with esst := w.setWidth 13 }
  | _ => x

/-- A write to a control register of the core (R40). -/
def Core.writeCsr (c : Core) (n : Nat) (w : Word) : Core :=
  match n with
  | 0x048 => { c with tvec := w &&& ~~~(1#64) }
  | 0x049 => { c with rakeT := if (w.setWidth 32).toNat < 0x400 then 0x400#32 else w.setWidth 32 }
  | 0x04A => { c with pcid := w.setWidth 20 }
  | 0x04B => { c with toff := w }
  | 0x04C => { c with tscale := w }
  | _ => c

/-- A write to a control register by the executing strand (R223). -/
def State.writeCsr (s : State) (n : Nat) (w : Word) : State :=
  (s.modMe (fun x => x.writeCsr n w)).modMyCore (fun c => c.writeCsr n w)

/-- A write to `dmask` must not mark a linear capability dead (R39). -/
def State.checkDmask (s : State) (n : Nat) (w : Word) : Except Trap Unit :=
  if n = 4 then
    match s.me.lowestLinear (((List.range 32).filter w.getLsbD).map (BitVec.ofNat 5)) with
    | some i => .error (trapLinearity (regNo i))
    | none => .ok ()
  else .ok ()

/-- The number must be listed and the mode must allow the access (R35, R223). -/
def State.checkCsr (s : State) (n : Nat) (read write : Bool) : Except Trap Unit := do
  match csrAccess n with
  | none => .error (trapIllegal s.instrBits)
  | some a =>
    need ((!read || a.reads s.me.mode) && (!write || a.writes s.me.mode)) (trapPrivileged s.instrBits)

/-- csrr (R223). -/
def execCsrr (g : BitVec 3) (d : BitVec 5) (c : BitVec 12) (s : State) : Host.Outcome State Fault Refusal :=
  s.act g (fun s => do
    s.checkCsr c.toNat true false
    s.putInt d (s.csrValue c.toNat))

/-- csrw (R223). -/
def execCsrw (g : BitVec 3) (c : BitVec 12) (a : BitVec 5) (s : State) : Host.Outcome State Fault Refusal :=
  s.act g (fun s => do
    s.checkCsr c.toNat false true
    let w := s.me.val a
    s.checkDmask c.toNat w
    return (s.writeCsr c.toNat w).advance)

/-- csrx (R223): reads, then writes. The control register is written before c`d`, so a write of `dmask` that marks c`d`
leaves it unmarked, and where both c`d` and a register that the write marks hold linear capabilities (R39, R102) the trap
names c`d`: the model's choices (log entry 84). -/
def execCsrx (g : BitVec 3) (d : BitVec 5) (c : BitVec 12) (a : BitVec 5) (s : State) :
    Host.Outcome State Fault Refusal :=
  s.act g (fun s => do
    s.checkCsr c.toNat true true
    let w := s.me.val a
    let old := s.csrValue c.toNat
    s.writable d
    s.checkDmask c.toNat w
    return ((s.writeCsr c.toNat w).modMe (fun x => x.setReg d (CReg.int old))).advance)

/-! ## System operations -/

/-- The lowest mode of a system operation (R88). -/
def State.checkMode (s : State) (least : Nat) : Except Trap Unit :=
  need (decide (least ≤ s.me.mode)) (trapPrivileged s.instrBits)

/-- dbg (R224): a halt takes effect at the slot's next instruction boundary. -/
def execDbg (g : BitVec 3) (a : BitVec 5) (s : State) : Host.Outcome State Fault Refusal :=
  s.act g (fun s => do
    s.checkMode 1
    let w := s.me.val a
    let op := (w.extractLsb' 4 4).toNat
    need (w >>> 8 == 0#64 && !w.getLsbD 3 && decide (op ≤ 2)) (trapPermission w)
    let k := (w.extractLsb' 0 3).toNat
    let s := s.advance
    let p := s.cur.core
    if op = 0 then return s.postCore p 0 .debugHalt (args p k)
    else if s.occupied p k && (s.strand p k).halt then
      return s.modStrand p k (fun x => { x with halt := false, stepOne := op == 2 })
    else return s)

/-- DEBUG_HALT (R224, R388): the slot issues nothing more; a waiting strand stays in its wait. -/
def execDebugHalt (s : State) : Host.Outcome State Fault Refusal :=
  let p := s.arg.a
  let k := s.arg.b
  .next (if s.occupied p k then s.modStrand p k (fun x => { x with halt := true, stepOne := false }) else s)

/-- DEBUG_REGISTER_WRITE (R388): `c` numbers 0 to 31 the c registers, 32 to 47 the v registers, 48 to 55 the e
registers, 56 the predicates, and 64 + n control register n; a slot that is not halted, and a c register that holds a
linear capability, refuse the write. A write to `pc` (64) discards the repetition. -/
def execDebugRegisterWrite (s : State) : Host.Outcome State Fault Refusal :=
  let p := s.arg.a
  let k := s.arg.b
  let n := s.arg.c
  let w : Word := s.arg.x.setWidth 64
  .next (if s.occupied p k && (s.strand p k).halt then
      if n < 32 then
        if ((s.strand p k).reg (BitVec.ofNat 5 n)).linear then s
        else s.modStrand p k (fun x => x.setReg (BitVec.ofNat 5 n) (CReg.int w))
      else if n < 48 then s.modStrand p k (fun x => x.setVec (BitVec.ofNat 4 (n - 32)) s.arg.x)
      else if n < 56 then s.modStrand p k (fun x => { x with e := x.e.set (n - 48) w })
      else if n = 56 then s.modStrand p k (fun x => { x with p := w.setWidth 8 ||| 1#8 })
      else if n = 64 then s.modStrand p k (fun x => { x with pc := w &&& ~~~(1#64), rep := none })
      else if n = 68 ∧ ((s.strand p k).lowestLinear (((List.range 32).filter w.getLsbD).map (BitVec.ofNat 5))).isSome then s
      else s.modStrand p k (fun x => x.writeCsr (n - 64) w)
    else s)

/-- rmap (R225): the write travels to the block's final router. -/
def execRmap (g : BitVec 3) (d a : BitVec 5) (s : State) : Host.Outcome State Fault Refusal :=
  s.act g (fun s => do
    s.checkMode 3
    let w := s.me.val a
    let blk := (w.extractLsb' 0 16).toNat
    let lane := (w.extractLsb' 16 3).toNat
    need (w >>> 19 == 0#64 && decide (blk < 55296)) (trapBounds w)
    let entry := (s.me.val d).extractLsb' 0 4
    let s := s.sendFrom s.cur.core false (.lane (8 * blk + lane)) 1
      (.remap s.cur.core s.cur.slot blk lane entry) 0
    return s.waitNext .remap)

/-- Does a `chmint` PLCN lie inside the strand's partition (R226, R280, R404, R413)? -/
def State.peerInside (s : State) (w : Word) : Bool :=
  let n := (w.extractLsb' 0 19).toNat
  let sp := s.mySp
  if n < coreCount then s.unitPart (unitOf (coordX n)) == some sp
  else if n = 0x7F000 ∨ n = 0x7F200 then true
  else if 0x7F100 ≤ n ∧ n < 0x7F148 then
    let v := ((s.port (n - 0x7F100)).vfs.getD (w.extractLsb' 19 6).toNat Vf.reset).w0
    decide ((w.extractLsb' 19 6).toNat < 16) && v.getLsbD 0 && (v.extractLsb' 3 5).toNat == sp && !v.getLsbD 1 &&
      (w.extractLsb' 26 2).toNat == (v.extractLsb' 2 1).toNat
  else false

/-- The channel capability of a specification (R226). -/
def channelCap (w : Word) : CReg :=
  let perm : BitVec 12 := (if w.getLsbD 25 then 0x100#12 else 0x080#12) ||| (if w.getLsbD 28 then 0x800#12 else 0#12)
  { tag := true, val := w &&& 0xFFFFFFF#64, mt := (0x6#64 <<< 12) ||| perm.setWidth 64 }

/-- chmint (R226). -/
def execChmint (g : BitVec 3) (d a : BitVec 5) (s : State) : Host.Outcome State Fault Refusal :=
  s.act g (fun s => do
    s.checkMode 1
    let w := s.me.val a
    need (w >>> 29 == 0#64) (trapPermission w)
    need (s.peerInside w) (trapBounds ((w.extractLsb' 0 19).setWidth 64))
    s.writable d
    return (s.modMe (fun x => x.setReg d (channelCap w))).advance)

/-! ## The relaxed prefix -/

/-- May an instruction stand in the second half of a relaxed pair (R69)? -/
def relaxable (w : BitVec 32) (i : Instr) : Bool :=
  let maj := (w.extractLsb' 4 6).toNat
  w.getLsbD 0 && (maj == 0x18 || maj == 0x19 || maj == 0x1C || maj == 0x1D || maj == 0x1E || maj == 0x20 ||
    maj == 0x21 || maj == 0x22 ||
    (match i with
     | .maccMx8 _ _ _ _ => true
     | .maccMx4 _ _ _ _ => true
     | _ => false))

/-- Do the 48 bits of a pair make a legal one (R69)? -/
def pairLegal (bits : BitVec 48) : Bool :=
  let w : BitVec 32 := bits.extractLsb' 16 32
  match decode32 w with
  | .ok i => relaxable w i
  | .error _ => false

/-- rlx (R69): the pair it begins is one instruction, whose bits stand in `cur`; a legal pair is marked, and `step`
then runs its second half in the same cycle. -/
def execRlx (s : State) : Host.Outcome State Fault Refusal :=
  .next (if pairLegal s.cur.bits then { s with cur := { s.cur with relaxed := true } }
    else s.takeTrap (trapIllegal s.instrBits))

end Sys2Proof.Machine
end

