-- ==== Sys2Proof/Machine/Fetch.lean ====
section
/-! DEFINITION. Which strand issues next and what it issues: the rotation, instruction fetch through the block's cache,
repetition bodies, the waits of relaxed accesses at issue, and the choice between a strand's issue and an event
(R60, R69, R105, R127 to R130, R142, R143, R187, R278, R279, R437). -/

namespace Sys2Proof.Machine

/-! ## The rotation -/

/-- The first core cycle of a domain that begins now or later. -/
def State.firstCount (s : State) (dom : Option Nat) : Nat :=
  let k := s.count dom
  if s.timeAt dom k < s.now then k + 1 else k

/-- The first cycle from `c` on in which slot `k` of a core with phase `ph` issues (R278). -/
def slotCycle (ph k c : Nat) : Nat := c + (ph + k + 8 - c % 8) % 8

/-- May the core issue: it runs, its clock runs, and no crystal of it is being read (R219, R351, R371)? -/
def Core.issues (c : Core) : Bool := c.run == .run && c.tree.state == .run && c.crystal.bytes == 0

/-- Is the strand in the rotation (R187, R224)? -/
def Strand.ready (x : Strand) : Bool := x.wait == .ready && !x.halt

/-- The panel time at which a ready strand issues next. -/
def State.issueTime (s : State) (p : Nat) (c : Core) (k : Nat) (x : Strand) : Nat :=
  let d := s.partOf p
  s.timeAt d (slotCycle c.phase k (max x.readyAt (s.firstCount d)))

/-- The earlier of two issues: (time, core, slot); of equal times the first is kept. -/
def earlier : Option (Nat × Nat × Nat) → Nat × Nat × Nat → Option (Nat × Nat × Nat)
  | none, b => some b
  | some a, b => if b.1 < a.1 then some b else some a

/-- The strand that issues next: its time, core and slot. -/
def State.nextIssue (s : State) : Option (Nat × Nat × Nat) :=
  s.cores.foldl (fun best e =>
    if e.2.issues then
      e.2.slots.foldl (fun best y =>
        if y.2.ready then earlier best (s.issueTime e.1 e.2 y.1 y.2, e.1, y.1) else best) best
    else best) none

/-! ## Fetching -/

/-- Why an instruction's halfwords are not at hand. -/
inductive FetchStop where
  /-- The halfword at this address cannot be fetched (R279, R367). -/
  | fault (a : Word)
  /-- The line of this number is absent from the cache (R437). -/
  | miss (line : Nat)
  deriving DecidableEq, Repr

/-- The line of the block's cache, if it is resident (R437). -/
def Block.cached (b : Block) (line : Nat) : Option CacheLine :=
  match Table.get? b.icache (line % 1024) with
  | some l => if l.line = line then some l else none
  | none => none

/-- The halfword at an address, for a strand of core `p` (R60, R279, R437). -/
def State.fetchHalf (s : State) (p : Nat) (x : Strand) (a : Word) : Except FetchStop (BitVec 16) :=
  let n := a.toNat
  if n < x.codeLo ∨ x.codeHi < n + 2 then .error (.fault a)
  else
    match (s.block (blockOf p)).cached (n / 64) with
    | none => .error (.miss (n / 64))
    | some l => .ok (l.bytes.getD (n % 64 + 1) 0#8 ++ l.bytes.getD (n % 64) 0#8)

/-- The instruction at an address: its length in bytes and its bits; `rlx` and what follows it are one (R60, R69). -/
def State.fetchInstr (s : State) (p : Nat) (x : Strand) (a : Word) : Except FetchStop (Nat × BitVec 48) := do
  let h0 ← s.fetchHalf p x a
  if h0 = 0x0014#16 then
    let h1 ← s.fetchHalf p x (a + 2#64)
    if h1.getLsbD 0 then
      let h2 ← s.fetchHalf p x (a + 4#64)
      return (6, h2 ++ h1 ++ h0)
    else return (4, 0#16 ++ h1 ++ h0)
  else if h0.getLsbD 0 then
    let h1 ← s.fetchHalf p x (a + 2#64)
    return (4, 0#16 ++ h1 ++ h0)
  else return (2, 0#32 ++ h0)

/-- Do the bits of a fetched instruction begin with the relaxed prefix (R69)? -/
def isPair (bits : BitVec 48) : Bool := bits.extractLsb' 0 16 == 0x0014#16

/-- Decode a fetched instruction: a pair is `rlx`, which judges its second half itself (R69). -/
def decodeFetched (len : Nat) (bits : BitVec 48) : Option Instr :=
  if isPair bits then some .rlx
  else
    match decodeBits len (bits.extractLsb' 0 32) with
    | .ok i => some i
    | .error _ => none

/-- The second half of a pair. -/
def secondHalf (bits : BitVec 48) : Option Instr :=
  match decode32 (bits.extractLsb' 16 32) with
  | .ok i => some i
  | .error _ => none

/-! ## Repetition bodies -/

/-- The bits of an instruction with its register fields raised by `amt` as STG selects (R128): they are decoded afresh, and
may be illegal. -/
def staggerBits (stg : BitVec 3) (amt : Int) (len : Nat) (bits : BitVec 48) : BitVec 48 :=
  if isPair bits then raiseFields stg amt 16 (((secondHalf bits).map regFields).getD []) bits
  else raiseFields stg amt 0 (((decodeFetched len bits).map regFields).getD []) bits

/-- The instructions that a body must not contain (R129). -/
def barredInBody : Instr → Bool
  | .br _ _ => true
  | .j _ => true
  | .jal _ _ => true
  | .jr _ _ _ => true
  | .ret _ _ => true
  | .rep _ _ _ _ _ _ => true
  | .eret _ => true
  | .br16 _ _ => true
  | .j16 _ => true
  | _ => false

/-- The captured word of the body instruction that issues next, on a pass after the first (R128). -/
def Strand.replayWord (x : Strand) : Option (Nat × BitVec 48) :=
  match x.rep with
  | none => none
  | some r =>
    if r.k = 0 then none
    else (r.captured.get? r.pos).map (fun w => (w.len, staggerBits r.stg (r.k * r.stride.toInt) w.len w.bits))

/-- The bits of a body instruction that is fetched again on a later pass, as after a restore (R128, R372). -/
def Strand.restagger (x : Strand) (len : Nat) (bits : BitVec 48) : BitVec 48 :=
  match x.rep with
  | some r => if r.k = 0 then bits else staggerBits r.stg (r.k * r.stride.toInt) len bits
  | none => bits

/-- Capture the body instruction that issues on pass 0 (R128). -/
def Strand.capture (x : Strand) (len : Nat) (bits : BitVec 48) : Strand :=
  match x.rep with
  | none => x
  | some r =>
    if r.k = 0 then
      { x with rep := some { r with captured := r.captured.set r.pos { addr := x.pc, len := len, bits := bits } } }
    else x

/-! ## Waits before an instruction acts -/

/-- The general and vector registers that an outstanding relaxed load will write (R142). -/
def FarDest.regC : FarDest → Option (BitVec 5)
  | .scalar d _ _ => some d
  | .cap d _ => some d
  | .amo d _ => some d
  | _ => Option.none
def FarDest.regV : FarDest → Option (BitVec 4)
  | .vec d => some d
  | .lanes d _ => some d
  | .vamo d => some d
  | _ => Option.none

/-- The general registers an instruction touches beside those its fields name: a write of `dmask` those it marks
(R39). -/
def Strand.marks (x : Strand) : Instr → List (BitVec 5)
  | .csrw _ c a | .csrx _ _ c a => if c = 4#12 then (List.range 32).filterMap (fun r =>
      if (x.val a).getLsbD r then some (BitVec.ofNat 5 r) else none) else []
  | _ => []

/-- Does the instruction write 0 to VE, which makes v0 to v15 zero (R31)? An `eret` that clears VE does (log entry 85). -/
def Strand.clearsVe (x : Strand) : Instr → Bool
  | .csrw _ c a | .csrx _ _ c a => c == 1#12 && !(x.val a).getLsbD 2 && x.sst.extractLsb' 3 3 == 0#3
  | .eret _ => !x.esst.getLsbD 2 && x.sst.extractLsb' 3 3 == 0#3
  | _ => false

/-- The outstanding relaxed loads whose destination the instruction reads or writes (R142): a register it names, one it
marks in `dmask`, every vector register where it clears VE (R39, R31, log entry 85). -/
def Strand.hazards (x : Strand) (i : Instr) : List Nat :=
  let cs := x.marks i ++ usesC i
  let vs := if x.clearsVe i then (List.range 16).map (BitVec.ofNat 4) else usesV i
  ((x.far.filter (fun f => f.relaxed && f.left != 0)).filter (fun f =>
    (match f.dest.regC with | some d => cs.contains d | none => false) ||
      (match f.dest.regV with | some d => vs.contains d | none => false))).map (·.id)

/-- The guard of a fetched instruction: bits [3:1] of a 32-bit word, but `j` and the 16-bit forms have none (R62). -/
def guardOf (len : Nat) (bits : BitVec 48) : BitVec 3 :=
  let w : BitVec 32 := if isPair bits then bits.extractLsb' 16 32 else bits.extractLsb' 0 32
  if len = 2 ∨ w.extractLsb' 4 6 = 0x11#6 then 0#3 else w.extractLsb' 1 3

/-- A refused relaxed access traps before anything else issues: the earliest one, once every other has replied
(R143). A gather or scatter, which counts as one access, has its refusal when the last of its parts has replied: the
model's choice (log entry 87). -/
def State.refusedRelaxed (s : State) : Option State :=
  let x := s.me
  match x.far.find? (fun f => f.relaxed && f.left == 0 && f.refused.isSome) with
  | none => none
  | some f =>
    if x.relaxedOut ≠ [] then some (s.waitAgain (.relaxed x.relaxedOut))
    else
      let t := (f.refused.map (·.2)).getD (trapNack 0#64)
      some ((s.modMe (fun x => { x with far := x.far.filter (fun f => !f.relaxed) })).takeTrap t)

/-- A line is absent: the strand waits, and the block asks for the line unless it is being fetched (R437). -/
def State.fetchMiss (s : State) (line : Nat) : State :=
  let p := s.cur.core
  let b := s.block (blockOf p)
  if b.fetches.contains line then s.waitAgain (.fetch line)
  else
    match s.sliceOf s.mySp (64 * line) with
    | none => s.takeTrap (trapFetch (if s.cur.pc.toNat / 64 = line then s.cur.pc else BitVec.ofNat 64 (64 * line)))
    | some n =>
      let r := { s.strandRequest 0 0 (64 * line) (.read 64 false false) false with who := .icache (blockOf p) line, payer := none }
      let s := s.modBlock (blockOf p) (fun b => { b with fetches := line :: b.fetches })
      (s.sendFrom p true (.slice n) 1 (.request r) 0).waitAgain (.fetch line)

/-- What an issue does with the instruction it has: the state to act on and the instruction that acts, none where the
issue ends without one (an illegal instruction, a wait for a relaxed load, or a repetition of no passes). In a repetition
of no passes an instruction only passes (R128): what R62 still does under a guard of 0, clearing the predicates of a
`clr` compare and setting VE, is not done: the model's choice (log entry 86). -/
def State.present (s : State) (len : Nat) (bits : BitVec 48) : State × Option Instr :=
  let s := { s with cur := { s.cur with len := len, bits := bits } }
  let illegal : State × Option Instr := (s.takeTrap (trapIllegal s.instrBits), none)
  match decodeFetched len bits with
  | none => illegal
  | some i =>
    let x := s.me
    let second : Option Instr := if isPair bits then (if pairLegal bits then secondHalf bits else none) else some i
    match second with
    | none => illegal
    | some j =>
      if x.rep.isSome && barredInBody j then illegal
      else if (match x.rep with | some r => r.empty | none => false) then (s.advance, none)
      else
        let ids := if x.pred (guardOf len bits) then x.hazards j else []
        if ids ≠ [] then (s.waitAgain (.relaxed ids), none) else (s, some i)

/-- Slot `k` of core `p` issues at panel time `t`. -/
def State.issue (s : State) (t p k : Nat) : State × Option Instr :=
  let x := s.strand p k
  let s := { s with
    now := t, cur := { core := p, slot := k, pc := x.pc, len := 4, bits := 0#48, relaxed := false } }
  let s := s.modMe (fun x => { x with popped := [] })
  match x.pendTrap with
  | some e => (s.takeTrap e, none)
  | none =>
    match s.refusedRelaxed with
    | some s => (s, none)
    | none =>
      match x.replayWord with
      | some (len, bits) => s.present len bits
      | none =>
        match s.fetchInstr p x x.pc with
        | .error (.fault a) => (s.takeTrap (trapFetch a), none)
        | .error (.miss line) => (s.fetchMiss line, none)
        | .ok (len, bits) => (s.modMe (fun x => x.capture len bits)).present len (x.restagger len bits)

/-- After an issue: a slot that was to run one instruction halts, unless its instruction is to issue again (R224). -/
def State.afterIssue (s : State) : State :=
  let p := s.cur.core
  let k := s.cur.slot
  if s.occupied p k && (s.strand p k).stepOne then
    s.modStrand p k (fun x =>
      if x.wait ≠ .ready ∧ x.waitLen = 0 then x else { x with halt := true, stepOne := false })
  else s

/-! ## What happens next -/

/-- What the next step does. -/
inductive NextAct where
  /-- Nothing is to come: the cycle ends. -/
  | idle
  /-- The first event of the agenda is performed. -/
  | event (d : Due) (rest : List Due)
  /-- A strand issues: its time, core and slot. -/
  | issue (t p k : Nat)
  deriving DecidableEq, Repr

/-- Does an event come before an issue at time `t`? Strands issue at place 10 of a cycle. -/
def Due.before (d : Due) (t : Nat) : Bool := decide (d.time < t) || (d.time == t && decide (d.phase < 10))

/-- The event or the issue that comes first. -/
def State.nextAct (s : State) : NextAct :=
  match s.agenda, s.nextIssue with
  | [], none => .idle
  | [], some (t, p, k) => .issue t p k
  | d :: rest, none => .event d rest
  | d :: rest, some (t, p, k) => if d.before t then .event d rest else .issue t p k

/-- The state in which an event is performed: time has come to it, and its operands stand in `arg`. -/
def State.atEvent (s : State) (d : Due) (rest : List Due) : State :=
  { s with now := max s.now d.time, agenda := rest, arg := d.arg, cur := Current.none }

end Sys2Proof.Machine
end

