-- ==== Sys2Proof/Machine/MemoryOps.lean ====
section
/-! DEFINITION. Loads, stores, full/empty forms, capability and vector memory forms, push and pop, fences, atomics,
contributions and full/empty ranges (R135 to R152, R155, R156). -/

namespace Sys2Proof.Machine

/-- Size in bytes and signedness of the SZ codes (R78). -/
def sizeOf (sz : BitVec 3) : Nat := 2 ^ (sz.toNat % 4)
def sizeSigned (sz : BitVec 3) : Bool := decide (sz.toNat < 4)

/-- A scalar load of `n` bytes (R135, R136). -/
def State.load (s : State) (d a : BitVec 5) (ea : Int) (n : Nat) (signed : Bool) : Act := do
  s.checkAccess .ld a permL ea n n false (some d)
  match (s.me.reg a).place with
  | .window =>
    return (s.modMe (fun x => x.setReg d (CReg.int (loadValue n signed (s.spBytes ea n))))).advance
  | .device => return s.sendDevice (.scalar d (8 * n) false) ea.toNat n none
  | .host => return s.sendFar (.scalar d (8 * n) signed) [(ea.toNat, .read n false false)] true id
  | .pan => return s.sendFar (.scalar d (8 * n) signed) [(ea.toNat, .read n false false)] false id

/-- A scalar store of `n` bytes (R135, R136); during replay a store to a pan is not performed (R384). -/
def State.store (s : State) (d a : BitVec 5) (ea : Int) (n : Nat) : Act := do
  s.checkAccess .st a permS ea n n true none
  let b := natBytes n (s.me.val d).toNat
  match (s.me.reg a).place with
  | .window => return (s.spStore ea b).advance
  | .device => return s.sendDevice .none ea.toNat n (some (s.me.val d))
  | .host => return if s.replaying then s.advance else s.sendFar .none [(ea.toNat, .write b false)] true id
  | .pan => return if s.replaying then s.advance else s.sendFar .none [(ea.toNat, .write b false)] false id

/-- ld (R135). -/
def execLd (g : BitVec 3) (d a : BitVec 5) (o : BitVec 9) (sz : BitVec 3) (s : State) :
    Host.Outcome State Fault Refusal :=
  s.act g (fun s => s.load d a (effective (s.me.reg a) o (sizeOf sz)) (sizeOf sz) (sizeSigned sz))

/-- st (R135). -/
def execSt (g : BitVec 3) (d a : BitVec 5) (o : BitVec 9) (sz : BitVec 3) (s : State) :
    Host.Outcome State Fault Refusal :=
  s.act g (fun s => s.store d a (effective (s.me.reg a) o (sizeOf sz)) (sizeOf sz))

/-- The short forms take a scratchpad window only, checked before everything else (R68). -/
def State.shortBase (s : State) (a : BitVec 5) : Except Trap Unit :=
  need ((s.me.reg a).tag && (s.me.reg a).kind == 1) (trapTag (regNo a))

/-- The 16-bit ld (R67, R68): the offset is unsigned. -/
def execLd16 (d : BitVec 4) (i : BitVec 3) (a : BitVec 4) (s : State) : Host.Outcome State Fault Refusal :=
  s.act 0#3 (fun s => do
    let a : BitVec 5 := a.setWidth 5
    s.shortBase a
    s.load (d.setWidth 5) a (((s.me.reg a).val.toNat : Int) + 8 * i.toNat) 8 true)

/-- The 16-bit st (R67, R68). -/
def execSt16 (d : BitVec 4) (i : BitVec 3) (a : BitVec 4) (s : State) : Host.Outcome State Fault Refusal :=
  s.act 0#3 (fun s => do
    let a : BitVec 5 := a.setWidth 5
    s.shortBase a
    s.store (d.setWidth 5) a (((s.me.reg a).val.toNat : Int) + 8 * i.toNat) 8)

/-! ## Full/empty forms -/

/-- The base check of the full/empty forms: scratchpad windows only (R131). -/
def checkWindow (a : BitVec 5) (r : CReg) (bits : BitVec 12) (ea : Int) : Except Trap Unit := do
  need (r.tag && r.kind == 1) (trapTag (regNo a))
  need (r.perm &&& bits == bits) (trapPermission (BitVec.ofInt 64 ea))

/-- A full/empty load: wait for a full granule, load it, and with `clear` mark it empty (R137). -/
def State.loadFull (s : State) (d a : BitVec 5) (o : BitVec 8) (sz : BitVec 3) (clear : Bool) : Act := do
  let r := s.me.reg a
  let n := sizeOf sz
  let ea := effective r o n
  checkWindow a r (if clear then permLS else permL) ea
  checkBounds r ea n
  s.checkLinearity r ea n false (some d)
  checkAlign ea n
  let g := ea.toNat % 2 ^ 18 / 16
  if s.myCore.full g then
    let s := s.modMe (fun x => x.setReg d (CReg.int (loadValue n (sizeSigned sz) (s.spBytes ea n))))
    let s := if clear then (s.modMyCore (fun c => c.setFe [g] false)).wakeFullEmpty s.cur.core else s
    return s.advance
  else return s.waitAgain (.fullEmpty [g] [])

/-- ld.f (R137). -/
def execLdF (g : BitVec 3) (d a : BitVec 5) (o : BitVec 8) (sz : BitVec 3) (s : State) :
    Host.Outcome State Fault Refusal :=
  s.act g (fun s => s.loadFull d a o sz false)

/-- ld.fc (R137). -/
def execLdFc (g : BitVec 3) (d a : BitVec 5) (o : BitVec 8) (sz : BitVec 3) (s : State) :
    Host.Outcome State Fault Refusal :=
  s.act g (fun s => s.loadFull d a o sz true)

/-- st.e (R137): wait for an empty granule, store, mark it full. -/
def execStE (g : BitVec 3) (d a : BitVec 5) (o : BitVec 9) (sz : BitVec 3) (s : State) :
    Host.Outcome State Fault Refusal :=
  s.act g (fun s => do
    let r := s.me.reg a
    let n := sizeOf sz
    let ea := effective r o n
    checkWindow a r permS ea
    checkBounds r ea n
    s.checkLinearity r ea n true none
    checkAlign ea n
    let g := ea.toNat % 2 ^ 18 / 16
    if s.myCore.full g then return s.waitAgain (.fullEmpty [] [g])
    else
      let s := s.spStore ea (natBytes n (s.me.val d).toNat)
      return ((s.modMyCore (fun c => c.setFe [g] true)).wakeFullEmpty s.cur.core).advance)

/-! ## Capabilities in memory -/

/-- ldc (R138). -/
def execLdc (g : BitVec 3) (d a : BitVec 5) (o : BitVec 9) (s : State) : Host.Outcome State Fault Refusal :=
  s.act g (fun s => do
    let r := s.me.reg a
    let ea := effective r o 16
    let w := BitVec.ofInt 64 ea
    s.checkAccess .ldc a permL ea 16 16 false (some d)
    match r.place with
    | .window =>
      let v := granuleReg (s.spBytes ea 16) (s.spTag ea && r.has 3)
      need (loadable v) (trapTag w)
      need (!(v.linear && d == 0#5)) (trapLinearity w)
      let s := s.modMe (fun x => x.setReg d v)
      let gr := ea.toNat % 2 ^ 18 / 16
      return (if v.linear then s.modMyCore (fun c => { c with spTags := NatSet.remove c.spTags gr }) else s).advance
    | .host => return s.sendFar (.cap d false) [(ea.toNat, .read 16 false false)] true id
    | _ => return s.sendFar (.cap d (r.has 3)) [(ea.toNat, .read 16 (r.has 3) (d == 0#5))] false id)

/-- The bytes of a register stored by `stc` (R139). -/
def regBytes (r : CReg) : List Byte := natBytes 8 r.val.toNat ++ natBytes 8 (if r.tag then r.mt.toNat else 0)

/-- stc (R139). -/
def execStc (g : BitVec 3) (d a : BitVec 5) (o : BitVec 9) (s : State) : Host.Outcome State Fault Refusal :=
  s.act g (fun s => do
    let r := s.me.reg a
    let v := s.me.reg d
    let ea := effective r o 16
    let w := BitVec.ofInt 64 ea
    checkPlace .stc a r permS ea
    need (!v.tag || (r.has 4 && (r.kind == 1 || v.has 11) && r.kind != 0xB)) (trapPermission w)
    checkBounds r ea 16
    need (!(v.linear && r.kind != 1)) (trapLinearity (regNo d))
    s.checkLinearity r ea 16 true none
    checkAlignment r ea 16 16
    s.checkHome r ea
    match r.place with
    | .window =>
      let s := s.modMyCore (fun c => c.spPutReg (ea.toNat % 2 ^ 18) v)
      return (if v.linear then s.modMe (fun x => x.setReg d CReg.zero) else s).advance
    | p =>
      return if s.replaying then s.advance
        else s.sendFar .none [(ea.toNat, .write (regBytes v) v.tag)] (p == .host) id)

/-! ## Vector memory -/

/-- vld (R140). -/
def execVld (g : BitVec 3) (d : BitVec 4) (a : BitVec 5) (o : BitVec 9) (s : State) :
    Host.Outcome State Fault Refusal :=
  s.actV g (fun s => do
    let r := s.me.reg a
    let ea := effective r o 64
    s.streamReasons [] [d]
    match s.streamWait [] [d] with
    | some w => return s.waitAgain w
    | none =>
      s.checkVector .vld a permL ea 64 false [d]
      match r.place with
      | .window => return (s.writeVec d (bytesVec (s.spBytes ea 64))).advance
      | p => return s.sendFar (.vec d) [(ea.toNat, .read 64 false false)] (p == .host) id)

/-- vst (R140). -/
def execVst (g : BitVec 3) (d : BitVec 4) (a : BitVec 5) (o : BitVec 9) (s : State) :
    Host.Outcome State Fault Refusal :=
  s.actV g (fun s => do
    let r := s.me.reg a
    let ea := effective r o 64
    s.streamReasons [d] []
    match s.streamWait [d] [] with
    | some w => return s.waitAgain w
    | none =>
      s.checkVector .vst a permS ea 64 true []
      let b := vecBytes (s.readVec d)
      match r.place with
      | .window => return ((s.popAll [d]).spStore ea b).advance
      | p =>
        return if s.replaying then (s.popAll [d]).advance
          else s.sendFar .none [(ea.toNat, .write b false)] (p == .host) (fun s => s.popAll [d]))

/-- The element width of the strided and gathered forms (R141). -/
def elementBits (w : BitVec 2) : Nat := if w = 0#2 then 32 else if w = 1#2 then 16 else 8

/-- The addresses of strided elements (R141). -/
def strided (base stride : Word) (m : Nat) : List Int :=
  (List.range m).map (fun (i : Nat) => (base.toNat : Int) + (i : Int) * stride.toInt)

/-- The addresses of gathered elements (R141). -/
def gathered (base : Word) (w : Nat) (x : BitVec 512) : List Int :=
  (lanesOf w x).map (fun i => (base.toNat : Int) + (i * (w / 8) : Nat))

/-- The checks of every element, stage by stage; within a stage the lowest failing lane supplies `tval` (R141). -/
def State.checkElements (s : State) (u : BaseUse) (a : BitVec 5) (bits : BitVec 12) (eas : List Int) (n : Nat)
    (store : Bool) : Except Trap Unit := do
  let r := s.me.reg a
  checkPlace u a r bits (eas.headD 0)
  eas.forM (fun ea => checkBounds r ea n)
  eas.forM (fun ea => s.checkLinearity r ea n store none)
  eas.forM (fun ea => checkAlign ea n)
  eas.forM (fun ea => s.checkHome r ea)

/-- The checks of a strided or gathered load: those of every element, the granules it pushes onto among those of the
linearity stage (R141, R182). -/
def State.checkLoads (s : State) (a : BitVec 5) (eas : List Int) (n : Nat) (d : BitVec 4) : Except Trap Unit := do
  let r := s.me.reg a
  checkPlace .gather a r permL (eas.headD 0)
  eas.forM (fun ea => checkBounds r ea n)
  s.pushLinear [d]
  eas.forM (fun ea => checkAlign ea n)
  eas.forM (fun ea => s.checkHome r ea)

/-- A strided or gathered load of the elements at `addrs` (R141, R156); an index popped from a stream is there when the
addresses are formed. -/
def State.loadElements (s : State) (d : BitVec 4) (a : BitVec 5) (reads : List (BitVec 4)) (w : Nat)
    (addrs : State → List Int) : Act := do
  s.streamReasons reads [d]
  match s.streamWait reads [d] with
  | some x => return s.waitAgain x
  | none =>
    let eas := addrs s
    s.checkLoads a eas (w / 8) d
    match (s.me.reg a).place with
    | .window =>
      let v := ofLanes w (eas.map (fun ea => bytesNat (s.spBytes ea (w / 8))))
      return ((s.popAll reads).writeVec d v).advanceBy (8 * (512 / w / 16))
    | _ =>
      return s.sendFar (.lanes d w) (eas.map (fun ea => (ea.toNat, .read (w / 8) false false))) false
        (fun s => s.popAll reads)

/-- A strided or scattered store, in ascending lane order (R141, R156). -/
def State.storeElements (s : State) (d : BitVec 4) (a : BitVec 5) (reads : List (BitVec 4)) (w : Nat)
    (addrs : State → List Int) : Act := do
  s.streamReasons reads []
  match s.streamWait reads [] with
  | some x => return s.waitAgain x
  | none =>
    let eas := addrs s
    s.checkElements .scatter a permS eas (w / 8) true
    let parts := eas.zip ((lanesOf w (s.readVec d)).map (fun x => natBytes (w / 8) x))
    match (s.me.reg a).place with
    | .window =>
      return (parts.foldl (fun s p => s.spStore p.1 p.2) (s.popAll reads)).advanceBy (8 * (512 / w / 16))
    | _ =>
      return if s.replaying then (s.popAll reads).advance
        else s.sendFar .none (parts.map (fun p => (p.1.toNat, .write p.2 false))) false
          (fun s => s.popAll reads)

/-- vlds (R141). -/
def execVlds (g : BitVec 3) (d : BitVec 4) (a b : BitVec 5) (w : BitVec 2) (s : State) :
    Host.Outcome State Fault Refusal :=
  s.actV g (fun s =>
    let n := elementBits w
    s.loadElements d a [] n (fun s => strided (s.me.val a) (s.me.val b) (512 / n)))

/-- vsts (R141). -/
def execVsts (g : BitVec 3) (d : BitVec 4) (a b : BitVec 5) (w : BitVec 2) (s : State) :
    Host.Outcome State Fault Refusal :=
  s.actV g (fun s =>
    let n := elementBits w
    s.storeElements d a [d] n (fun s => strided (s.me.val a) (s.me.val b) (512 / n)))

/-- vldg (R141). -/
def execVldg (g : BitVec 3) (d : BitVec 4) (a : BitVec 5) (b : BitVec 4) (w : BitVec 2) (s : State) :
    Host.Outcome State Fault Refusal :=
  s.actV g (fun s =>
    let n := elementBits w
    s.loadElements d a [b] n (fun s => gathered (s.me.val a) n (s.readVec b)))

/-- vstx (R141). -/
def execVstx (g : BitVec 3) (d : BitVec 4) (a : BitVec 5) (b : BitVec 4) (w : BitVec 2) (s : State) :
    Host.Outcome State Fault Refusal :=
  s.actV g (fun s =>
    let n := elementBits w
    s.storeElements d a [d, b] n (fun s => gathered (s.me.val a) n (s.readVec b)))

/-! ## Push and pop -/

/-- The registers c(D) to c(SA) (R144). -/
def regRange (d a : BitVec 5) : List (BitVec 5) :=
  (List.range (a.toNat + 1 - d.toNat)).map (fun i => BitVec.ofNat 5 (d.toNat + i))

/-- pushm (R144). The linearity trap's `tval` is hsp − 16k whichever granule holds the linear capability: R144 has no ea,
and this is the model's choice (log entry 88). -/
def execPushm (g : BitVec 3) (d a : BitVec 5) (s : State) : Host.Outcome State Fault Refusal :=
  s.act g (fun s => do
    let ds := regRange d a
    let k := ds.length
    let at_ : Int := (s.me.hsp.toNat : Int) - 16 * k
    need (decide ((s.me.hsl.toNat : Int) ≤ at_)) (trapBounds (BitVec.ofInt 64 at_))
    s.myCore.checkLinear at_.toNat (16 * k) (BitVec.ofInt 64 at_)
    let s := (ds.zip (List.range k)).foldl
      (fun s p => s.modMyCore (fun c => c.spPutReg (at_.toNat + 16 * p.2) (s.me.reg p.1))) s
    let s := s.modMe (fun x =>
      let y := ds.foldl (fun x i => if (x.reg i).linear then x.setReg i CReg.zero else x) x
      { y with hsp := BitVec.ofInt 64 at_ })
    return s.advanceBy (8 * ((k + 1) / 2)))

/-- popm (R144). -/
def execPopm (g : BitVec 3) (d a : BitVec 5) (s : State) : Host.Outcome State Fault Refusal :=
  s.act g (fun s => do
    let ds := regRange d a
    let k := ds.length
    let at_ := s.me.hsp.toNat
    let top := BitVec.ofNat 64 (at_ + 16 * k)
    need (decide (at_ + 16 * k ≤ 0x40000)) (trapBounds top)
    match ds.find? (fun i => (s.me.reg i).linear) with
    | some i => .error (trapLinearity (regNo i))
    | none => pure ()
    let granule (i : Nat) : CReg :=
      granuleReg (s.myCore.sp.readN (at_ + 16 * i) 16) (NatSet.has s.myCore.spTags (at_ / 16 + i))
    match (List.range k).find? (fun i => !loadable (granule i)) with
    | some i => .error (trapTag (BitVec.ofNat 64 (at_ + 16 * i)))
    | none => pure ()
    let vs := (List.range k).map granule
    let s := s.modMe (fun x =>
      let y := (ds.zip vs).foldl (fun x p => x.setReg p.1 p.2) x
      { y with hsp := top })
    let taken := ((List.range k).zip vs).filter (fun p => p.2.linear)
    let s := s.modMyCore (fun c =>
      { c with spTags := taken.foldl (fun t p => NatSet.remove t (at_ / 16 + p.1)) c.spTags })
    return s.advanceBy (8 * ((k + 1) / 2)))

/-! ## Fences -/

/-- fence.far (R145). -/
def execFenceFar (g : BitVec 3) (s : State) : Host.Outcome State Fault Refusal :=
  s.act g (fun s =>
    let out := s.me.farOut
    .ok (if out = [] then s.advance else s.waitNext (.fence .far out)))

/-- Is an entry's job queued or running and the strand's own (R145)? -/
def entryLive {α : Type} (e : Entry α) : Bool := e.state == .queued || e.state == .running

/-- Has the strand of this serial number a job queued or running in a block (R145)? -/
def Block.jobsOf (b : Block) (serial : Nat) : Bool :=
  b.mxe.entries.any (fun e => entryLive e.2 && (match e.2.job with | some j => j.serial == serial | none => false)) ||
    b.cpe.entries.any (fun e => entryLive e.2 && (match e.2.job with | some j => j.serial == serial | none => false))

/-- fence.eng (R145). -/
def execFenceEng (g : BitVec 3) (s : State) : Host.Outcome State Fault Refusal :=
  s.act g (fun s =>
    .ok (if (s.block (blockOf s.cur.core)).jobsOf s.me.serial then s.waitNext (.fence .eng []) else s.advance))

/-- fence.core (R145). -/
def execFenceCore (g : BitVec 3) (s : State) : Host.Outcome State Fault Refusal :=
  s.act g (fun s =>
    let out := s.myCore.slots.flatMap (fun e => e.2.farOut)
    .ok (if out = [] then s.advance else s.waitNext (.fence .core out)))

/-! ## Atomics -/

/-- A scalar atomic (R146). -/
def State.amo (s : State) (d a b : BitVec 5) (w : BitVec 1) (op : Nat) : Act := do
  let n := if w = 0#1 then 4 else 8
  let r := s.me.reg a
  let ea : Int := r.val.toNat
  s.checkAccess .amo a permLS ea n n true (some d)
  let bits := 8 * n
  let y := (s.me.val b).toNat % 2 ^ bits
  let expect := (s.me.val d).toNat % 2 ^ bits
  match r.place with
  | .window =>
    let old := bytesNat (s.spBytes ea n)
    let x := atomic op bits old y expect
    let s := if x.2 then s.spStore ea (natBytes n x.1) else s
    return (s.modMe (fun x => x.setReg d (CReg.int (BitVec.ofNat 64 old)))).advance
  | _ =>
    return s.sendFar (.amo d bits)
      [(ea.toNat, .amo op bits (BitVec.ofNat 64 y) (BitVec.ofNat 64 expect))] false id

/-- amo.add (R146). -/
def execAmoAdd (g : BitVec 3) (d a b : BitVec 5) (w : BitVec 1) (s : State) : Host.Outcome State Fault Refusal :=
  s.act g (fun s => s.amo d a b w 0)
/-- amo.and (R146). -/
def execAmoAnd (g : BitVec 3) (d a b : BitVec 5) (w : BitVec 1) (s : State) : Host.Outcome State Fault Refusal :=
  s.act g (fun s => s.amo d a b w 1)
/-- amo.or (R146). -/
def execAmoOr (g : BitVec 3) (d a b : BitVec 5) (w : BitVec 1) (s : State) : Host.Outcome State Fault Refusal :=
  s.act g (fun s => s.amo d a b w 2)
/-- amo.xor (R146). -/
def execAmoXor (g : BitVec 3) (d a b : BitVec 5) (w : BitVec 1) (s : State) : Host.Outcome State Fault Refusal :=
  s.act g (fun s => s.amo d a b w 3)
/-- amo.min (R146). -/
def execAmoMin (g : BitVec 3) (d a b : BitVec 5) (w : BitVec 1) (s : State) : Host.Outcome State Fault Refusal :=
  s.act g (fun s => s.amo d a b w 4)
/-- amo.max (R146). -/
def execAmoMax (g : BitVec 3) (d a b : BitVec 5) (w : BitVec 1) (s : State) : Host.Outcome State Fault Refusal :=
  s.act g (fun s => s.amo d a b w 5)
/-- amo.minz (R146). -/
def execAmoMinz (g : BitVec 3) (d a b : BitVec 5) (w : BitVec 1) (s : State) : Host.Outcome State Fault Refusal :=
  s.act g (fun s => s.amo d a b w 6)
/-- amo.maxz (R146). -/
def execAmoMaxz (g : BitVec 3) (d a b : BitVec 5) (w : BitVec 1) (s : State) : Host.Outcome State Fault Refusal :=
  s.act g (fun s => s.amo d a b w 7)
/-- amo.swp (R146). -/
def execAmoSwp (g : BitVec 3) (d a b : BitVec 5) (w : BitVec 1) (s : State) : Host.Outcome State Fault Refusal :=
  s.act g (fun s => s.amo d a b w 8)
/-- amo.cas (R146). -/
def execAmoCas (g : BitVec 3) (d a b : BitVec 5) (w : BitVec 1) (s : State) : Host.Outcome State Fault Refusal :=
  s.act g (fun s => s.amo d a b w 9)

/-- A vector atomic on the 32 bytes at the base, which are read and written together, the model's choice (R148, log entry 117). -/
def State.vamo (s : State) (d : BitVec 4) (a : BitVec 5) (b : BitVec 4) (w : BitVec 1) (op : Nat) : Act := do
  let bits := if w = 0#1 then 32 else 64
  let r := s.me.reg a
  let ea : Int := r.val.toNat
  s.streamReasons [b] [d]
  match s.streamWait [b] [d] with
  | some x => return s.waitAgain x
  | none =>
    s.checkVector .amo a permLS ea 32 true [d]
    let y := s.readVec b
    match r.place with
    | .window =>
      let old := s.spBytes ea 32
      let s := (s.popAll [b]).spStore ea (vectorAtomic op bits old ((vecBytes y).take 32))
      return (s.writeVec d (bytesVec old)).advance
    | _ => return s.sendFar (.vamo d) [(ea.toNat, .vamo op bits y)] false (fun s => s.popAll [b])

/-- vamo.add (R148). -/
def execVamoAdd (g : BitVec 3) (d : BitVec 4) (a : BitVec 5) (b : BitVec 4) (w : BitVec 1) (s : State) :
    Host.Outcome State Fault Refusal :=
  s.actV g (fun s => s.vamo d a b w 0)
/-- vamo.and (R148). -/
def execVamoAnd (g : BitVec 3) (d : BitVec 4) (a : BitVec 5) (b : BitVec 4) (w : BitVec 1) (s : State) :
    Host.Outcome State Fault Refusal :=
  s.actV g (fun s => s.vamo d a b w 1)
/-- vamo.or (R148). -/
def execVamoOr (g : BitVec 3) (d : BitVec 4) (a : BitVec 5) (b : BitVec 4) (w : BitVec 1) (s : State) :
    Host.Outcome State Fault Refusal :=
  s.actV g (fun s => s.vamo d a b w 2)
/-- vamo.xor (R148). -/
def execVamoXor (g : BitVec 3) (d : BitVec 4) (a : BitVec 5) (b : BitVec 4) (w : BitVec 1) (s : State) :
    Host.Outcome State Fault Refusal :=
  s.actV g (fun s => s.vamo d a b w 3)
/-- vamo.min (R148). -/
def execVamoMin (g : BitVec 3) (d : BitVec 4) (a : BitVec 5) (b : BitVec 4) (w : BitVec 1) (s : State) :
    Host.Outcome State Fault Refusal :=
  s.actV g (fun s => s.vamo d a b w 4)
/-- vamo.max (R148). -/
def execVamoMax (g : BitVec 3) (d : BitVec 4) (a : BitVec 5) (b : BitVec 4) (w : BitVec 1) (s : State) :
    Host.Outcome State Fault Refusal :=
  s.actV g (fun s => s.vamo d a b w 5)
/-- vamo.minz (R148). -/
def execVamoMinz (g : BitVec 3) (d : BitVec 4) (a : BitVec 5) (b : BitVec 4) (w : BitVec 1) (s : State) :
    Host.Outcome State Fault Refusal :=
  s.actV g (fun s => s.vamo d a b w 6)
/-- vamo.maxz (R148). -/
def execVamoMaxz (g : BitVec 3) (d : BitVec 4) (a : BitVec 5) (b : BitVec 4) (w : BitVec 1) (s : State) :
    Host.Outcome State Fault Refusal :=
  s.actV g (fun s => s.vamo d a b w 7)
/-- vamo.swp (R148). -/
def execVamoSwp (g : BitVec 3) (d : BitVec 4) (a : BitVec 5) (b : BitVec 4) (w : BitVec 1) (s : State) :
    Host.Outcome State Fault Refusal :=
  s.actV g (fun s => s.vamo d a b w 8)

/-! ## Contributions -/

/-- The CSEQ of a slot (R150). -/
def Core.cseqOf (c : Core) (k : Nat) : Word := c.cseq.getD k 0#64

/-- Send a contribution: the slot's CSEQ rises by one and goes with it (R150). -/
def State.contribute (s : State) (a : BitVec 5) (reads : List (BitVec 4)) (x : Contribution) : Act := do
  let va := (s.me.val a).toNat
  let q := s.myCore.cseqOf s.cur.slot + 1#64
  return s.sendFar .none [(va, .contribute x q)] false (fun s =>
    (s.popAll reads).modMyCore (fun c => { c with cseq := c.cseq.set s.cur.slot q }))

/-- acc (R149): f is the pan's format (0 fp32, 1 bf16, 2 xs), l the lanes' (0 f32, 1 bf16, 2 f16). -/
def execAcc (g : BitVec 3) (a : BitVec 5) (b : BitVec 4) (l f : BitVec 2) (s : State) :
    Host.Outcome State Fault Refusal :=
  s.actV g (fun s => do
    let r := s.me.reg a
    let size := if f = 0#2 then 4 else if f = 1#2 then 2 else 48
    let m := if l = 0#2 then 16 else 32
    let n := m * size
    let ea : Int := r.val.toNat
    s.streamReasons [b] []
    match s.streamWait [b] [] with
    | some w => return s.waitAgain w
    | none =>
      checkPlace .acc a r permA ea
      checkBounds r ea n
      checkAlign ea (if f = 2#2 then 16 else size)
      need (decide (r.val.toNat % 2048 + n ≤ 2048)) (trapAlignment r.val)
      s.checkHome r ea
      s.contribute a [b] (.acc f l (s.readVec b)))

/-- A Microscaling contribution (R152); `fmt` is 1 E4M3, 2 E5M2 or 3 E2M1. -/
def State.maccMx (s : State) (d a : BitVec 5) (b : BitVec 4) (fmt : Nat) : Act := do
  let r := s.me.reg a
  let ea : Int := r.val.toNat
  s.streamReasons [b] []
  match s.streamWait [b] [] with
  | some w => return s.waitAgain w
  | none =>
    checkPlace .acc a r permA ea
    checkBounds r ea 64
    checkAlign ea 64
    s.checkHome r ea
    s.contribute a [b] (.mx fmt ((s.me.val d).extractLsb' 0 8) (s.readVec b))

/-- macc.mx8 (R152). -/
def execMaccMx8 (g : BitVec 3) (d a : BitVec 5) (b : BitVec 4) (s : State) : Host.Outcome State Fault Refusal :=
  s.actV g (fun s => s.maccMx d a b (if (s.me.val d).getLsbD 8 then 2 else 1))

/-- macc.mx4 (R152). -/
def execMaccMx4 (g : BitVec 3) (d a : BitVec 5) (b : BitVec 4) (s : State) : Host.Outcome State Fault Refusal :=
  s.actV g (fun s => s.maccMx d a b 3)

/-! ## Full/empty ranges -/

/-- `fe.set` and `fe.clr` (R155). -/
def State.feRange (s : State) (a b : BitVec 5) (v : Bool) : Act := do
  let r := s.me.reg a
  let ea : Int := r.val.toNat
  let n := (s.me.val b).toNat
  checkWindow a r permS ea
  checkBounds r ea n
  need (decide (ea % 16 = 0) && decide (n % 16 = 0)) (trapAlignment r.val)
  return ((s.modMyCore (fun c => c.setFe (granules (r.val.toNat % 2 ^ 18) n) v)).wakeFullEmpty s.cur.core).advance

/-- fe.set (R155). -/
def execFeSet (g : BitVec 3) (a b : BitVec 5) (s : State) : Host.Outcome State Fault Refusal :=
  s.act g (fun s => s.feRange a b true)

/-- fe.clr (R155). -/
def execFeClr (g : BitVec 3) (a b : BitVec 5) (s : State) : Host.Outcome State Fault Refusal :=
  s.act g (fun s => s.feRange a b false)

end Sys2Proof.Machine
end

