-- ==== Sys2Proof/Machine/Arrivals.lean ====
section
/-! DEFINITION. What reaches a core: replies of far accesses, cache lines, messages, acknowledgements and NACKs at the
ends of a lane, and the waits that end with them (R132, R141 to R145, R187, R194 to R202, R225, R259 to R261, R313,
R437). -/

namespace Sys2Proof.Machine

/-! ## Waits on far accesses -/

/-- Does the condition of a fence, or of a `ckpt` that waits for another's end, hold for slot `k` of core `p` (R145, R219)? -/
def State.fenceHolds (s : State) (p k : Nat) : Bool :=
  let x := s.strand p k
  match x.wait with
  | .fence .eng _ => !(s.block (blockOf p)).jobsOf x.serial
  | .fence _ ids => ids.all (fun i => !s.outstanding p i)
  | .fenceFirst ids _ _ => ids.all (fun i => !s.outstanding p i)
  | .ckptFirst _ _ => (s.core p).crystal.writing.isNone
  | _ => false

/-- The waits of a core on far accesses are looked at again: relaxed ones end now, a fence's condition is an event of
this cycle (R142, R145, R187). -/
def State.checkWaits (s : State) (p : Nat) : State :=
  (List.range 8).foldl (fun s k =>
    if s.occupied p k then
      match (s.strand p k).wait with
      | .relaxed ids => if ids.all (fun i => !s.outstanding p i) then s.wake p k else s
      | .fence _ _ => if s.fenceHolds p k then s.postCore p 0 .fenceConditionMet (args p k) else s
      | .fenceFirst _ _ _ => if s.fenceHolds p k then s.postCore p 0 .fenceConditionMet (args p k) else s
      | _ => s
    else s) s

/-- A wait ends in a trap at the waiting instruction; the handler issues at the slot in which the strand would have
(R368). What the instruction popped is there again (R183). -/
def State.trapWait (s : State) (p k : Nat) (t : Trap) : State :=
  let x := s.strand p k
  (s.unpop p k).trapAt p k t x.waitPc x.waitRep (s.countCore p + 1)

/-! ## Replies -/

/-- The register that a far access's reply pushes on or writes. -/
def FarDest.vector : FarDest → Option (BitVec 4)
  | .vec d => some d
  | .lanes d _ => some d
  | .vamo d => some d
  | _ => Option.none

/-- The out-stream onto which a far access's reply pushes (R140, R182). -/
def Strand.pushStream (x : Strand) (f : Far) : Option Stream := f.dest.vector.bind x.stream

/-- Must the push of a reply wait for empty granules (R184)? -/
def State.pushWaits (s : State) (p k : Nat) (f : Far) : Bool :=
  match (s.strand p k).pushStream f with
  | some st => st.fe && !(granules (st.addr st.done) 64).all (fun g => !(s.core p).full g)
  | none => false

/-- A push by a reply must not destroy a linear capability that has come to its granules since the issue (R134, R182). -/
def State.pushAllowed (s : State) (p k : Nat) (f : Far) : Except Trap Unit :=
  match (s.strand p k).pushStream f with
  | some st => (s.core p).checkLinear (st.addr st.done) 64 (BitVec.ofNat 64 (st.addr st.done))
  | none => .ok ()

/-- What a far access's last reply writes, with the register of the access's destination (R135, R138, R140, R141,
R146, R148); a trap where a loaded capability is not one (R138). VE is not looked at: an instruction that clears
it has waited for the relaxed loads of vector registers (R31, R142, log entry 85). -/
def State.farWrite (s : State) (p k : Nat) (f : Far) (b : List Byte) (tag : Bool) : Except Trap State :=
  let ea : Word := BitVec.ofNat 64 (f.eas.headD 0)
  let vector (d : BitVec 4) (x : BitVec 512) : State :=
    let c := s.cur
    let t := { s with cur := { c with core := p, slot := k } }.writeVec d x
    { t with cur := c }
  match f.dest with
  | .none => .ok s
  | .scalar d bits signed =>
    .ok (s.modStrand p k (fun x => x.setReg d (CReg.int (loadValue (bits / 8) signed b))))
  | .cap d lc =>
    let r := granuleReg b (tag && lc)
    if !loadable r then .error (trapTag ea)
    else if r.linear && d == 0#5 then .error (trapLinearity ea)
    else .ok (s.modStrand p k (fun x => x.setReg d r))
  | .vec d => .ok (vector d (bytesVec b))
  | .lanes d _ => .ok (vector d f.data)
  | .amo d _ => .ok (s.modStrand p k (fun x => x.setReg d (CReg.int (BitVec.ofNat 64 (bytesNat b)))))
  | .vamo d => .ok (vector d (bytesVec b))

/-- The lanes of a gather after part `j` has come (R141). -/
def Far.collect (f : Far) (j : Nat) (b : List Byte) : BitVec 512 :=
  match f.dest with
  | .lanes _ w => f.data ||| (BitVec.ofNat 512 (bytesNat b) <<< (w * j))
  | _ => f.data

/-- A far access is complete: its register is written, or its refusal stands. An unrelaxed one ends its strand's wait,
in the trap if it was refused; the refusal of a relaxed one stays until the strand next issues (R132, R142, R143). -/
def State.farDone (s : State) (p k : Nat) (f : Far) (b : List Byte) (tag : Bool) : State :=
  let waits := (s.strand p k).wait == .far f.id
  let gone (s : State) : State :=
    s.modStrand p k (fun x => { x with far := x.far.filter (fun g => g.id != f.id) })
  let refuse (t : Trap) : State :=
    if f.relaxed then
      s.modStrand p k (fun x =>
        { x with far := x.far.map (fun g => if g.id = f.id then { f with refused := some (0, t) } else g) })
    else if waits then (gone s).trapWait p k t
    else gone s
  let s := match f.refused with
    | some (_, t) => refuse t
    | none =>
      match s.pushAllowed p k f *> s.farWrite p k f b tag with
      | .error t => refuse t
      | .ok s => if waits then (gone s).wake p k else gone s
  s.checkWaits p

/-- The reply of part `j` of far access `id` of slot `k`. -/
def State.farReply (s : State) (p k id j : Nat) (x : Result) : State :=
  match (s.strand p k).far.find? (fun f => f.id == id), s.occupied p k with
  | some f, true =>
    let f := match x with
      | .ok b _ => { f with left := f.left - 1, data := f.collect j b }
      | .nack c =>
        let t : Trap := { cause := c, value := BitVec.ofNat 64 (f.eas.getD j 0) }
        { f with
          left := f.left - 1
          refused := match f.refused with
            | some (i, u) => if i ≤ j then some (i, u) else some (j, t)
            | none => some (j, t) }
    if f.left = 0 then
      match x with
      | .ok b tag =>
        if f.refused.isNone && s.pushWaits p k f then
          s.modStrand p k (fun y => { y with far := y.far.map (fun g =>
            if g.id = id then { f with left := 1, landed := some (b, tag) } else g) })
        else s.farDone p k f b tag
      | .nack _ => s.farDone p k f [] false
    else s.modStrand p k (fun y => { y with far := y.far.map (fun g => if g.id = id then f else g) })
  | _, _ => s

/-- The pushes of slot `k`'s far loads that waited for empty granules, as far as they are empty now (R184). -/
def State.pushLanded (s : State) (p k : Nat) : State :=
  if s.occupied p k then
    (s.strand p k).far.foldl (fun s f =>
      match f.landed with
      | some (b, tag) => if s.pushWaits p k f then s else s.farDone p k { f with left := 0, landed := none } b tag
      | none => s) s
  else s

/-- A line of the channel entries of a wake has come, which no slot asked for (slot 8); after the last, the ends are
bound (R289). -/
def State.wakeLine (s : State) (p : Nat) : State :=
  let n := (s.core p).wakeLeft
  let s := s.modCore p (fun c => { c with wakeLeft := n - 1 })
  if n = 1 then s.postCore p 0 .wakeChannelBind (args p) else s

/-- FAR_REPLY_ARRIVAL (R313, R225, R343): a slice's, the host's or a device's reply, or a remap's acknowledgement,
reaches the core. -/
def execFarReplyArrival (s : State) : Host.Outcome State Fault Refusal :=
  let pkt := s.arg.a
  .next (match Table.get? s.packets pkt with
    | none => s
    | some q =>
      let p := q.phys
      let s := s.dropPacket pkt
      match q.body with
      | .reply (.strand _ k id j) x => if k = 8 then s.wakeLine p else s.farReply p k id j x
      | .deviceReply k id (some w) => s.farReply p k id 0 (.ok (natBytes 8 w.toNat) false)
      | .deviceReply k id none => s.farReply p k id 0 (.nack 0x06#6)
      | .remapAck k => if s.occupied p k && (s.strand p k).wait == .remap then s.wake p k else s
      | _ => s)

/-! ## The instruction cache -/

/-- Where the fetch of a strand that waits for a line failed: the first halfword of its instruction in the line. -/
def missAddress (x : Strand) (line : Nat) : Word :=
  if x.pc.toNat / 64 = line then x.pc else BitVec.ofNat 64 (64 * line)

/-- ICACHE_LINE_FILL (R437): the line is resident and the strands that wait for it are ready in the next cycle; a
refused fetch is each one's fetch fault. -/
def execIcacheLineFill (s : State) : Host.Outcome State Fault Refusal :=
  let pkt := s.arg.a
  .next (match Table.get? s.packets pkt with
    | none => s
    | some q =>
      let s := s.dropPacket pkt
      match q.body with
      | .reply (.icache blk line) x =>
        let s := s.modBlock blk (fun b =>
          { b with
            fetches := b.fetches.filter (· != line)
            icache := match x with
              | .ok bytes _ => b.icache.set (line % 1024) { line := line, bytes := bytes }
              | .nack _ => b.icache })
        (List.range 64).foldl (fun s i =>
          let p := 8 * blk + i / 8
          let k := i % 8
          if s.occupied p k && (s.strand p k).wait == .fetch line then
            match x with
            | .ok _ _ => s.wake p k
            | .nack _ => s.trapWait p k (trapFetch (missAddress (s.strand p k) line))
          else s) s
      | _ => s)

/-! ## Messages at the ends of a lane -/

/-- A strand of the slot that waits on end `h` becomes ready (R187, R259). -/
def State.wakeEnd (s : State) (p k h : Nat) : State :=
  if s.occupied p k then
    match (s.strand p k).wait with
    | .recv h' => if h' = h then s.wake p k else s
    | .alt ends _ => if ends.contains h then s.wake p k else s
    | _ => s
  else s

/-- A message or offer at end `h` of core `p` (R194, R259): it parks, enters the inbox, or is refused, as the answer
says. A parked one has its log entry too: a free end that holds a message is an in-end (R189, R381, R385). -/
def State.arriveAt (s : State) (p h fromLcn fromEnd : Nat) (x : Payload) : State × Bool :=
  let e := (s.core p).endAt h
  if e.state = .free then
    ((s.setEnd p h { e with
      state := .parked, dirIn := true, psz := x.size, plcn := fromLcn, pend := fromEnd, inbox := some x }).logArrival p noSlot h
      x, true)
  else if (e.state = .idle ∨ e.state = .recvWait) ∧ e.dirIn ∧ e.plcn = fromLcn ∧ e.pend = fromEnd ∧ e.psz = x.size then
    (((s.setEnd p h { e with state := .full, inbox := some x }).logArrival p e.slot h x).wakeEnd p e.slot h, true)
  else (s, false)

/-- A message or offer reaches a lane; one that its end does not take is NACKed (R194). -/
def State.laneMessage (s : State) (p h fromLcn fromEnd : Nat) (x : Payload) : State :=
  match s.arriveAt p h fromLcn fromEnd x with
  | (s, true) => s
  | (s, false) => s.nackEnd p h fromLcn fromEnd (some x)

/-- `clat` takes the round trip of end `e`'s rendezvous, saturating (R40); of those acknowledged in one cycle the one of the
highest slot (R42). -/
def State.noteClat (s : State) (p : Nat) (e : End) : State :=
  let k := s.countCore p
  s.modCore p (fun c =>
    if c.clatOf.1 = k ∧ e.slot < c.clatOf.2 then c
    else { c with clat := BitVec.ofNat 32 (min (k - e.sentAt) 0xFFFFFFFF), clatOf := (k, e.slot) })

/-- The acknowledgement or release of a send (R42, R195, R199, R259); while the core is being saved it is kept with the
end (R375). The log's entry of the send is settled, whatever the end's state (R384). -/
def State.laneAck (s : State) (p h : Nat) : State :=
  let s := (s.logSettle p logSend h 1).crystalReply p h false
  let e := (s.core p).endAt h
  if e.state = .sendWait ∧ (s.core p).run = .saving then
    (s.noteClat p e).setEnd p h { e with ackd := true, nakd := false }
  else if e.state = .sendWait then
    let s := s.noteClat p e
    let s := s.setEnd p h { e with state := .idle, clear := none, ackd := false, nakd := false }
    if s.occupied p e.slot && (s.strand p e.slot).wait == .send h then
      let s := match e.clear with
        | some a => s.modStrand p e.slot (fun x => x.setReg a CReg.zero)
        | none => s
      s.wake p e.slot
    else s
  else s

/-- The NACK of a send (R195, R259, R368); while the core is being saved it is kept with the end (R375). -/
def State.laneNack (s : State) (p h : Nat) (absent : Bool) : State :=
  let s := (s.logSettle p logSend h 2).crystalReply p h true
  let e := (s.core p).endAt h
  if e.state = .sendWait ∧ (s.core p).run = .saving then s.setEnd p h { e with ackd := true, nakd := true }
  else if e.state = .sendWait then
    let s := s.setEnd p h { e with state := .idle, clear := none, ackd := false, nakd := false }
    let w : Word := BitVec.ofNat 64 (e.plcn * 64 + e.pend)
    if s.occupied p e.slot && (s.strand p e.slot).wait == .send h then
      s.trapWait p e.slot (if absent then trapAbsent w else trapNack w)
    else s
  else s

/-- ALT_DEADLINE (R202): `ptime` has reached the deadline of a waiting `alt`. -/
def execAltDeadline (s : State) : Host.Outcome State Fault Refusal :=
  let p := s.arg.a
  let k := s.arg.b
  .next (if s.occupied p k then
      match (s.strand p k).wait with
      | .alt _ (some t) => if t ≤ s.now then s.wake p k else s
      | _ => s
    else s)

end Sys2Proof.Machine
end

