-- ==== Sys2Proof/Machine/Engine.lean ====
section
/-! DEFINITION. The instructions that drive the MXE and the CPE, the job queues and job ids (R204 to R210, R235). -/

namespace Sys2Proof.Machine

/-! ## Job ids and queues -/

/-- A job id (R204). -/
def jobId (eng lane entry uses : Nat) : Nat := eng * 2 ^ 15 + lane % 8 * 2 ^ 12 + entry % 16 * 2 ^ 8 + uses % 256

/-- May the entry be allocated: free, done, or a fault its lane has read (R208, R235)? -/
def Entry.open {α : Type} (e : Entry α) : Bool := e.state == .free || (e.state == .faulted && e.seen)

/-- The lowest free entry of a queue (R235). -/
def freeEntry {α : Type} (t : Table (Entry α)) : Option Nat :=
  (List.range 16).find? (fun i => (t.getD i Entry.unused).open)

/-- STATE and CODE of a job in its queue (R208, R235): an entry that another lane's job holds has been reused. -/
def entryState {α : Type} (t : Table (Entry α)) (lane : Nat) (id : Word) : Nat × Nat :=
  let e := t.getD (id.extractLsb' 8 4).toNat Entry.unused
  if id >>> 16 != 0#64 || (id.extractLsb' 12 3).toNat != lane || !e.ever then (0, 0)
  else if e.uses != (id.extractLsb' 0 8).toNat || e.lane != lane then (3, 0)
  else match e.state with
    | .queued => (1, 0)
    | .running => (2, 0)
    | .faulted => (4, e.code)
    | _ => (3, 0)

/-- STATE and CODE of a job of lane `lane` (R208). -/
def Block.jobState (b : Block) (lane : Nat) (id : Word) : Nat × Nat :=
  if id.getLsbD 15 then entryState b.cpe.entries lane id else entryState b.mxe.entries lane id

/-- Change the entry that an id names, in either queue. -/
def Block.modEntry (b : Block) (id : Word) (f : {α : Type} → Entry α → Entry α) : Block :=
  let i := (id.extractLsb' 8 4).toNat
  if id.getLsbD 15 then
    { b with cpe := { b.cpe with entries := b.cpe.entries.set i (f (b.cpe.entries.getD i Entry.unused)) } }
  else { b with mxe := { b.mxe with entries := b.mxe.entries.set i (f (b.mxe.entries.getD i Entry.unused)) } }

/-- The lane after which round-robin visits `l` first: lanes in order from `last + 1` (R235, R237, R249). -/
def lanesAfter (last : Nat) : List Nat := (List.range 8).map (fun i => (last + 1 + i) % 8)

/-- Free queue entries go to waiting lanes in the cycle (R235). -/
def State.queueKick (s : State) (blk eng : Nat) : State := s.postCore (8 * blk) 0 .queueEntryGrant (args blk eng)

/-- The engine capability in cJ (R204). -/
def State.checkEngine (s : State) (d : BitVec 5) (eng : Nat) : Except Trap Unit :=
  let r := s.me.reg d
  need (r.tag && r.kind == 7 && r.has 9 && r.val.toNat == eng) (trapTag (regNo d))

/-! ## mxq -/

/-- The fields of a matrix descriptor (R205). -/
def mxeJobOf (e : Word) (a b lane slot serial order markers : Nat) : MxeJob :=
  { mt := (e.extractLsb' 0 2).toNat, nt := (e.extractLsb' 2 2).toNat, kt := (e.extractLsb' 4 12).toNat
    cacc := (e.extractLsb' 16 2).toNat, zero := e.getLsbD 18, fmt := (e.extractLsb' 19 3).toNat
    op := (e.extractLsb' 22 2).toNat, bsrc := e.getLsbD 24, fwd := e.getLsbD 25
    rin := (e.extractLsb' 26 6).toNat, rout := (e.extractLsb' 32 6).toNat, a := a, b := b, lane := lane, slot := slot
    serial := serial, order := order, markers := markers, granted := 0, step := 0, writesLeft := 0, leaving := false
    last := 0 }

/-- The fault code of a descriptor that breaks R205 or R241; 0 for none. -/
def mxeFault (e : Word) (j : MxeJob) : Nat :=
  let tiles := (j.mt + 1) * (j.nt + 1)
  if e >>> 38 != 0#64 || j.fmt == 7 || j.op == 3 then 1
  else if j.op != 0 && (j.fmt != 0 || j.zero || j.bsrc || j.fwd || j.rin != 0 || j.rout != 0) then 1
  else if 4 < tiles || 4 < j.cacc + tiles then 2
  else if j.op != 0 && j.kt != 0 then 2
  else 0

/-- Bytes of a tile without scales (R205). -/
def tileBytes (fmt : Nat) : Nat :=
  if fmt = 0 then 2048 else if fmt = 3 ∨ fmt = 6 then 512 else 1024

/-- Bytes of an operand of `n` tiles, with the scale array of the MX formats (R234). -/
def operandBytes (fmt n : Nat) : Nat := n * tileBytes fmt + if 4 ≤ fmt then 32 * n else 0

/-- Bytes of a drained tile (R241). -/
def drainBytes (op : Nat) : Nat := if op = 1 then 4096 else 2048

/-- A tile end of the needed direction, in state 7 and bound to the core (R206). -/
def Core.tileEnd (c : Core) (h : Nat) (dirIn : Bool) : Bool :=
  (c.endAt h).state == .tile && (c.endAt h).dirIn == dirIn

/-- The strand waits for a queue entry; the grant comes in this cycle if one is free (R206, R235). -/
def State.awaitEntry (s : State) (eng : Nat) : State :=
  (s.waitNext (.queue eng)).queueKick (blockOf s.cur.core) eng

/-- mxq (R205, R206). -/
def execMxq (g : BitVec 3) (d a b : BitVec 5) (e : BitVec 3) (s : State) : Host.Outcome State Fault Refusal :=
  s.act g (fun s => do
    s.checkEngine d 0
    let w := s.me.ext e.toNat
    let ra := s.me.reg a
    let rb := s.me.reg b
    let blk := s.block (blockOf s.cur.core)
    let lane := s.laneOf s.cur.core
    let j := mxeJobOf w (ra.val.toNat % 2 ^ 18) (rb.val.toNat % 2 ^ 18) lane s.cur.slot s.me.serial blk.mxe.order
      (blk.mxe.markers.getD lane 0)
    need (mxeFault w j == 0) (trapEngine 0xFFFF (mxeFault w j))
    let useA := j.op == 0
    let useB := j.op != 0 || !j.bsrc
    if useA then need (ra.tag && ra.kind == 1) (trapTag (regNo a))
    if useB then need (rb.tag && rb.kind == 1) (trapTag (regNo b))
    if useA then need (ra.has 0) (trapPermission (regNo a))
    if useB then need (rb.has (if j.op = 0 then 0 else 1)) (trapPermission (regNo b))
    let tiles := (j.mt + 1) * (j.nt + 1)
    if useA then checkBounds ra ra.val.toNat (operandBytes j.fmt ((j.mt + 1) * (j.kt + 1)))
    if useB then
      checkBounds rb rb.val.toNat
        (if j.op = 0 then operandBytes j.fmt ((j.kt + 1) * (j.nt + 1)) else tiles * drainBytes j.op)
    if useA then checkAlign ra.val.toNat 64
    if useB then checkAlign rb.val.toNat 64
    need ((!j.bsrc || s.myCore.tileEnd j.rin true) && (!j.fwd || s.myCore.tileEnd j.rout false))
      (trapEngine 0xFFFF 5)
    s.fenceFirst (fun s =>
      let p : Pending MxeJob := { lane := lane, slot := s.cur.slot, at_ := s.k, d := d, job := j }
      .ok ((s.modBlock (blockOf s.cur.core) (fun x =>
        { x with mxe := { x.mxe with waiting := x.mxe.waiting ++ [p], order := x.mxe.order + 1 } })).awaitEntry 0)))

/-- A lane's waiting enqueues stand in the order of their issue cycles (R235). -/
def insertPending {α : Type} : List (Pending α) → Pending α → List (Pending α)
  | [], w => [w]
  | v :: rest, w => if w.at_ < v.at_ then w :: v :: rest else v :: insertPending rest w

/-- The waiting enqueue of a lane's slot has issued in cycle `k` (R235). -/
def issuedAt {α : Type} (ws : List (Pending α)) (lane slot k : Nat) : List (Pending α) :=
  match ws.find? (fun w => w.lane == lane && w.slot == slot) with
  | some w => insertPending (ws.filter (fun v => !(v.lane == lane && v.slot == slot))) { w with at_ := k }
  | none => ws

/-- The enqueue of a lane's slot, which waited for its fence, has issued in cycle `k` (R145, R235, R249). -/
def Block.enqueuedAt (b : Block) (lane slot k : Nat) : Block :=
  { b with
    mxe := { b.mxe with waiting := issuedAt b.mxe.waiting lane slot k }
    cpe := { b.cpe with waiting := issuedAt b.cpe.waiting lane slot k } }

/-- The crystal of a lane whose `ckpt` waited for the end of another has its place by the cycle `k` of its issue (R249). -/
def Cpe.crystalAt (c : Cpe) (lane k : Nat) : Cpe :=
  let ws := c.work.getD lane []
  match ws.find? (fun w => w.2 == .crystal) with
  | some w => { c with work := c.work.set lane (insertWork (ws.filter (fun v => v.2 != .crystal)) k w.2) }
  | none => c

/-! ## cpq -/

/-- The fields of a copy descriptor (R207). -/
def cpeJobOf (m : Word) (src dst : Operand) (lane slot serial : Nat) : CpeJob :=
  { op := (m.extractLsb' 0 4).toNat, ew := (m.extractLsb' 4 2).toNat, rows := (m.extractLsb' 6 16).toNat + 1
    cols := (m.extractLsb' 22 16).toNat + 1, sstr := (m.extractLsb' 38 18).toNat, pad := m.getLsbD 56
    src := src, dst := dst, lane := lane, slot := slot, serial := serial }

/-- Element bytes. -/
def CpeJob.elem (j : CpeJob) : Nat := 2 ^ j.ew

/-- The fault code of a copy descriptor (R207, R250); 0 for none. -/
def cpeFault (m : Word) (j : CpeJob) : Nat :=
  if m >>> 57 != 0#64 || decide (4 ≤ j.op) || j.ew == 3 || (j.pad && j.op != 1) then 1
  else if j.cols * j.elem % 16 ≠ 0 then 2
  else if ((j.op = 1 ∧ !j.pad) ∨ j.op = 2) ∧ (j.rows % 32 ≠ 0 ∨ j.cols % 32 ≠ 0) then 2
  else if j.op = 2 ∧ j.sstr ≠ 0 then 2
  else if j.op = 3 ∧ j.rows * j.elem % 16 ≠ 0 then 2
  else 0

/-- The source's row stride in bytes (R250). -/
def CpeJob.stride (j : CpeJob) : Nat := if j.sstr = 0 then j.cols * j.elem else 16 * j.sstr

/-- Rounded up to a multiple of 32. -/
def up32 (n : Nat) : Nat := (n + 31) / 32 * 32

/-- Source and destination bytes of a copy (R207, R250). -/
def CpeJob.srcBytes (j : CpeJob) : Nat :=
  if j.op = 2 then j.rows * j.cols * j.elem else (j.rows - 1) * j.stride + j.cols * j.elem
def CpeJob.dstBytes (j : CpeJob) : Nat :=
  if j.op = 1 ∧ j.pad then up32 j.rows * up32 j.cols * j.elem else j.rows * j.cols * j.elem

/-- cpq (R207); during replay a copy to a pan is not performed and reads done at once (R384). -/
def execCpq (g : BitVec 3) (d a b : BitVec 5) (m : BitVec 3) (s : State) : Host.Outcome State Fault Refusal :=
  s.act g (fun s => do
    s.checkEngine d 1
    let w := s.me.ext m.toNat
    let ra := s.me.reg a
    let rb := s.me.reg b
    let lane := s.laneOf s.cur.core
    let j := cpeJobOf w { kind := ra.kind, addr := ra.val.toNat } { kind := rb.kind, addr := rb.val.toNat } lane
      s.cur.slot s.me.serial
    need (cpeFault w j == 0) (trapEngine 0xFFFF (cpeFault w j))
    need (ra.tag && (ra.kind == 1 || ra.kind == 2 || ra.kind == 3 || ra.kind == 0xB)) (trapTag (regNo a))
    need (rb.tag && (rb.kind == 1 || rb.kind == 2) && (ra.kind == 1 || rb.kind == 1)) (trapTag (regNo b))
    need (ra.has 0) (trapPermission (regNo a))
    need (rb.has 1) (trapPermission (regNo b))
    checkBounds ra ra.val.toNat j.srcBytes
    checkBounds rb rb.val.toNat j.dstBytes
    s.checkHome ra ra.val.toNat
    s.checkHome rb rb.val.toNat
    s.fenceFirst (fun s =>
      let blk := blockOf s.cur.core
      if rb.kind = 2 ∧ s.replaying then
        let es := (s.block blk).cpe.entries
        let i := (freeEntry es).getD 0
        let e := es.getD i Entry.unused
        let n := (e.uses + 1) % 256
        let s := match freeEntry es with
          | some _ => s.modBlock blk (fun x =>
              { x with cpe := { x.cpe with entries := es.set i { e with uses := n, ever := true, state := .free } } })
          | none => s
        .ok (s.modMe (fun x => x.setReg d (CReg.int (BitVec.ofNat 64 (jobId 1 lane i n))))).advance
      else
        let p : Pending CpeJob := { lane := lane, slot := s.cur.slot, at_ := s.k, d := d, job := j }
        .ok ((s.modBlock blk (fun x => { x with cpe := { x.cpe with waiting := x.cpe.waiting ++ [p] } })).awaitEntry 1)))

/-! ## Reading job states -/

/-- jst (R208). -/
def execJst (g : BitVec 3) (d a : BitVec 5) (s : State) : Host.Outcome State Fault Refusal :=
  s.act g (fun s => do
    s.writable d
    let id := s.me.val a
    let blk := blockOf s.cur.core
    let st := (s.block blk).jobState (s.laneOf s.cur.core) id
    let s := if st.1 = 4 then s.modBlock blk (fun b => b.modEntry id (fun e => { e with seen := true })) else s
    let s := if st.1 = 4 then s.queueKick blk (if id.getLsbD 15 then 1 else 0) else s
    s.putInt d (BitVec.ofNat 64 (st.1 + st.2 * 2 ^ 8 + id.toNat % 2 ^ 16 * 2 ^ 16)))

/-- jwait (R209). -/
def execJwait (g : BitVec 3) (a : BitVec 5) (s : State) : Host.Outcome State Fault Refusal :=
  s.act g (fun s =>
    let id := s.me.val a
    let blk := blockOf s.cur.core
    let st := (s.block blk).jobState (s.laneOf s.cur.core) id
    if st.1 = 1 ∨ st.1 = 2 then .ok (s.waitNext (.job id.toNat))
    else if st.1 = 4 then
      let s := (s.modBlock blk (fun b => b.modEntry id (fun e => { e with state := .free, seen := true }))).queueKick blk
        (if id.getLsbD 15 then 1 else 0)
      .ok (s.takeTrap (trapEngine (id.toNat % 2 ^ 16) st.2))
    else .ok s.advance)

/-- mxf (R210). -/
def execMxf (g : BitVec 3) (s : State) : Host.Outcome State Fault Refusal :=
  s.act g (fun s =>
    let lane := s.laneOf s.cur.core
    .ok (s.modBlock (blockOf s.cur.core) (fun b =>
      { b with mxe := { b.mxe with markers := b.mxe.markers.set lane (b.mxe.markers.getD lane 0 + 1) } })).advance)

end Sys2Proof.Machine
end

