-- ==== Sys2Proof/Machine/Special.lean ====
section
/-! DEFINITION. The special functions (R163, R164): the results that R164 lists, and elsewhere a value that is free
within the error bound of R163. The exact value of a function is computed in fixed point with 320 fraction bits, of which
all but the last few are right. -/

namespace Sys2Proof.Machine

/-! ## Values in fixed point -/

/-- 1 in the fixed point of this file. -/
def fixOne : Nat := 2 ^ 320

/-- A product in fixed point. -/
def fixMul (a b : Nat) : Nat := a * b / fixOne

/-- m × 2^e in fixed point. -/
def fixOf (m : Nat) (e : Int) : Nat :=
  if 0 ≤ e + 320 then m * 2 ^ (e + 320).toNat else m / 2 ^ (-(e + 320)).toNat

/-- ln 2, the sum of 1 ÷ (k × 2^k). -/
def fixLn2 : Nat := ((List.range 320).map (fun k => fixOne / 2 ^ (k + 1) / (k + 1))).sum

/-- The sum of t^j ÷ j! from term `a` = t^j ÷ j! on. -/
def expTerms (t : Nat) : Nat → Nat → Nat → Nat
  | 0, _, _ => 0
  | n + 1, j, a => a + expTerms t n (j + 1) (fixMul a t / (j + 1))

/-- 2^y of a signed y in fixed point. -/
def fixExp2 (y : Int) : Nat :=
  let i := y / (fixOne : Int)
  let x := expTerms (fixMul (y % (fixOne : Int)).toNat fixLn2) 100 0 fixOne
  if 0 ≤ i then x * 2 ^ i.toNat else x / 2 ^ (-i).toNat

/-- `n` bits after the point of log2 y, for y from 1 to 2, onto the bits `b` before them. -/
def logBits : Nat → Nat → Nat → Nat
  | 0, _, b => b
  | n + 1, y, b =>
    let z := fixMul y y
    if 2 * fixOne ≤ z then logBits n (z / 2) (2 * b + 1) else logBits n z (2 * b)

/-- log2 of m × 2^e, m > 0, as a signed value in fixed point; 100 bits after the point are right. -/
def fixLog2 (m : Nat) (e : Int) : Int :=
  let k := bitLen 1200 m - 1
  ((k : Int) + e) * (fixOne : Int) + ((logBits 100 (m * fixOne / 2 ^ k) 0 * 2 ^ 220 : Nat) : Int)

/-- tanh of a value x ≥ 0 in fixed point: (e^(2x) − 1) ÷ (e^(2x) + 1). -/
def fixTanh (x : Nat) : Nat :=
  if 64 * fixOne ≤ x then fixOne - 1
  else
    let e := fixExp2 ((2 * x * fixOne / fixLn2 : Nat) : Int)
    (e - fixOne) * fixOne / (e + fixOne)

/-- The terms of the arc tangent of 1 ÷ n from the j-th on, whose power of 1 ÷ n is `a`. -/
def atanTerms (n : Nat) : Nat → Nat → Nat → Int
  | 0, _, _ => 0
  | k + 1, j, a => ((a / (2 * j + 1) : Nat) : Int) - atanTerms n k (j + 1) (a / (n * n))

/-- π = 16 atan(1 ÷ 5) − 4 atan(1 ÷ 239). -/
def fixPi : Nat :=
  (16 * atanTerms 5 150 0 (fixOne / 5) - 4 * atanTerms 239 150 0 (fixOne / 239)).toNat

/-- The terms of sin t from term `a` = t^j ÷ j! on. -/
def sinTerms (t : Nat) : Nat → Nat → Nat → Int
  | 0, _, _ => 0
  | n + 1, j, a => (a : Int) - sinTerms t n (j + 2) (fixMul (fixMul a t) t / ((j + 1) * (j + 2)))

/-- sin(π × x) of a value x ≥ 0 in fixed point. -/
def fixSinPi (x : Nat) : Int :=
  let r := x % fixOne
  let q := if fixOne < 2 * r then fixOne - r else r
  let t := fixMul q fixPi
  let v := sinTerms t 60 1 t
  if x / fixOne % 2 = 0 then v else -v

/-! ## The functions -/

/-- Is a finite value an integer? -/
def isWhole (m : Nat) (e : Int) : Bool := decide (0 ≤ e) || m % 2 ^ (-e).toNat == 0

/-- The FP32 power 2^k, as bits. -/
def powerOfTwo (k : Int) : Nat :=
  if -126 ≤ k then (k + 127).toNat * 2 ^ 23 else 2 ^ (k + 149).toNat

/-- The results that R164 lists, with the flags that it gives them; `none` where it lists none. -/
def specialListed (code : Nat) (x : Nat) : Option (Nat × BitVec 5) :=
  let qnan := fp32.nan
  let posInf := fp32.infinity
  match fp32.decode x with
  | .nan => some (qnan, flagNone)
  | .inf neg =>
    match code with
    | 0 => some (fp32.sign neg, flagNone)
    | 1 => some (if neg then (qnan, flagNV ||| flagNX) else (0, flagNone))
    | 2 => some (if neg then 0 else posInf, flagNone)
    | 3 => some (if neg then (qnan, flagNV ||| flagNX) else (posInf, flagNone))
    | 4 => some (fp32.sign neg + 0x3F800000, flagNone)
    | _ => some (qnan, flagNV ||| flagNX)
  | .fin neg m e =>
    match code with
    | 0 => if m = 0 then some (fp32.sign neg + posInf, flagDZ ||| flagNX) else none
    | 1 =>
      if m = 0 then some (fp32.sign neg + posInf, flagDZ ||| flagNX)
      else if neg then some (qnan, flagNV ||| flagNX) else none
    | 2 =>
      let v := scaled neg m e (-149)
      if (128 : Int) * 2 ^ 149 ≤ v then some (posInf, flagOF ||| flagNX)
      else if v < (-149 : Int) * 2 ^ 149 then some (0, flagUF ||| flagNX)
      else if isWhole m e then some (powerOfTwo (v / 2 ^ 149), flagNX) else none
    | 3 =>
      if m = 0 then some (fp32.sign true + posInf, flagDZ ||| flagNX)
      else if neg then some (qnan, flagNV ||| flagNX)
      else
        let k := floorLog2 m e
        if m = 2 ^ (bitLen 1200 m - 1) then
          some ((fp32.roundVal .rne (FVal.ofInt k) 0).1, flagNone)
        else none
    | 4 => if m = 0 then some (fp32.sign neg, flagNone) else none
    | _ =>
      if isWhole m e then some (fp32.sign (neg && m != 0), flagNone)
      else if isWhole (2 * m) e then
        -- x = n + 0.5: +1 for even n, −1 for odd n
        let h : Int := (2 * m / 2 ^ (-e).toNat : Nat)
        let n := ((if neg then -h else h) - 1) / 2
        some (fp32.sign (n % 2 != 0) + 0x3F800000, flagNone)
      else none

/-- The exact value of a function at (−1)^neg × m × 2^e, m > 0, where R164 lists no result: signed, in fixed point. -/
def specialValue (code : Nat) (neg : Bool) (m : Nat) (e : Int) : Int :=
  let sgn (v : Int) : Int := if neg then -v else v
  match code with
  | 0 => sgn ((if 0 ≤ e then fixOne / (m * 2 ^ e.toNat) else fixOne * 2 ^ (-e).toNat / m : Nat) : Int)
  | 1 => ((isqrtFrom (if 0 ≤ e then fixOne * fixOne / (m * 2 ^ e.toNat) else fixOne * fixOne * 2 ^ (-e).toNat / m) 400 0 : Nat)
      : Int)
  | 2 => ((fixExp2 (sgn ((fixOf m e : Nat) : Int)) : Nat) : Int)
  | 3 => fixLog2 m e
  | 4 => sgn ((fixTanh (fixOf m e) : Nat) : Int)
  | _ => sgn (fixSinPi (fixOf m e))

/-- One unit in the last place of an FP32 value of magnitude `a`, in fixed point. -/
def fixUlp (a : Nat) : Nat :=
  let k : Int := (bitLen 1200 a : Int) - 321
  2 ^ ((if k < -126 then -126 else k) + 297).toNat

/-- Is a finite result `y` within the bound of R163 of the exact value `v`? -/
def specialBound (code : Nat) (v y : Int) : Bool :=
  let d := (y - v).natAbs
  let units := if 4 ≤ code then 2 else 1
  decide (d ≤ units * fixUlp v.natAbs) ||
    (code == 3 && decide (v.natAbs < fixOne) && decide (d ≤ 2 ^ 298)) ||
    (code == 5 && decide (2 * v.natAbs < fixOne) && decide (d ≤ 2 ^ 297))

/-- The result of a function where R164 lists none (R163): the free value where it meets the bound, else the nearest FP32
value, which does; where the value lies beyond the largest finite one, the free value. The flags are those of R38: NX;
OF for a value beyond the largest finite one; UF for a tiny result. -/
def specialFree (code : Nat) (x : Nat) (neg : Bool) (m : Nat) (e : Int) : Nat × BitVec 5 :=
  let free := (Config.special code (BitVec.ofNat 32 x)).toNat
  let v := specialValue code neg m e
  let near := fp32.roundVal .rne (.fin (decide (v < 0)) v.natAbs (-320)) 0
  if near.2 &&& flagOF != flagNone then (free, flagOF ||| flagNX)
  else
    let y :=
      match fp32.decode free with
      | .fin n m e => if specialBound code v (scaled n m e (-320)) then free else near.1
      | _ => near.1
    (y, flagNX ||| if y % 2 ^ 31 < 2 ^ 23 then flagUF else flagNone)

/-- A special function of an FP32 operand (R163, R164). -/
def specialFp32 (code : Nat) (x : Nat) : Nat × BitVec 5 :=
  match specialListed code x, fp32.decode x with
  | some r, _ => r
  | none, .fin neg m e => specialFree code x neg m e
  | none, _ => (fp32.nan, flagNone)

end Sys2Proof.Machine
end

