-- ==== Sys2Proof/Machine/Vector.lean ====
section
/-! DEFINITION. The vector instructions of majors 0x24 to 0x2C (R157 to R177). -/

namespace Sys2Proof.Machine

/-- The format of a floating lane type. -/
def vfmt (t : BitVec 3) : Fmt := fmtOfT t.toNat

/-- A floating operation on pairs of lanes (R160, R161). -/
def floatPairs (t : BitVec 3) (f : Fmt → FVal → FVal → Nat × BitVec 5) (x y : BitVec 512) :
    BitVec 512 × BitVec 5 :=
  let m := vfmt t
  zipLanes (laneWidth t) (fun a b => f m (m.decode a) (m.decode b)) x y

/-- Two sources, one floating result (R161). -/
def State.vecArith (s : State) (g : BitVec 3) (d : BitVec 4) (t : BitVec 3) (a b : BitVec 4) (r : BitVec 3) (n : Nat)
    (f : Fmt → Rnd → FVal → FVal → Nat × BitVec 5) : Host.Outcome State Fault Refusal :=
  s.vector g [a, b] d n (fun s =>
    let mode := (s.me.rounding r).plain
    floatPairs t (fun m => f m mode) (s.readVec a) (s.readVec b))

/-- A lane as sw, or as zw with U (R157). -/
def laneInt (t : BitVec 3) (u : BitVec 1) (x : Nat) : Int :=
  if u = 1#1 then (x : Int) else toSigned (laneWidth t) x

/-- `vmin` and `vmax` of one pair of lanes (R161). -/
def minMaxLane (t : BitVec 3) (u : BitVec 1) (larger : Bool) (x y : Nat) : Nat :=
  if isFloating t then (vfmt t).minMax larger x y
  else
    let less := decide (laneInt t u x < laneInt t u y)
    if larger then (if less then y else x) else (if less then x else y)

/-- `vmin` and `vmax` (R161). -/
def State.vecMinMax (s : State) (g : BitVec 3) (d : BitVec 4) (t : BitVec 3) (a b : BitVec 4) (u : BitVec 1)
    (larger : Bool) : Host.Outcome State Fault Refusal :=
  s.vector g [a, b] d 8 (fun s =>
    zipLanes (laneWidth t) (fun x y => (minMaxLane t u larger x y, flagNone)) (s.readVec a) (s.readVec b))

/-- A lane operation of one source without flags. -/
def State.vecUnary (s : State) (g : BitVec 3) (d : BitVec 4) (t : BitVec 3) (a : BitVec 4) (f : Nat → Nat) :
    Host.Outcome State Fault Refusal :=
  s.vector g [a] d 8 (fun s => mapLanes (laneWidth t) (fun x => (f x, flagNone)) (s.readVec a))

/-- |x| of a lane: the sign bit cleared, or the magnitude modulo 2^w (R161). -/
def absLane (t : BitVec 3) (x : Nat) : Nat :=
  let w := laneWidth t
  if isFloating t then x % 2 ^ (w - 1) else (toSigned w x).natAbs % 2 ^ w

/-- −x of a lane: the sign bit inverted, or the negation modulo 2^w (R161). -/
def negLane (t : BitVec 3) (x : Nat) : Nat :=
  let w := laneWidth t
  if isFloating t then x ^^^ 2 ^ (w - 1) else (2 ^ w - x) % 2 ^ w

/-- The fused forms: VD is the addend and the result (R162). -/
def State.vecFma (s : State) (g : BitVec 3) (d : BitVec 4) (t : BitVec 3) (a b : BitVec 4) (r : BitVec 3)
    (negProd negAdd : Bool) : Host.Outcome State Fault Refusal :=
  s.vector g [a, b, d] d 8 (fun s =>
    let mode := (s.me.rounding r).plain
    let m := vfmt t
    let w := laneWidth t
    let rs := ((lanesOf w (s.readVec a)).zip ((lanesOf w (s.readVec b)).zip (lanesOf w (s.readVec d)))).map
      (fun p => m.fma mode negProd negAdd (m.decode p.1) (m.decode p.2.1) (m.decode p.2.2))
    (ofLanes w (rs.map (·.1)), rs.foldl (fun fl x => fl ||| x.2) flagNone))

/-! ## Special functions -/

/-- A special function of a lane: 16-bit lanes widen to FP32 and the result rounds to the lane format with RNE
(R163). -/
def specialLane (t : BitVec 3) (code : Nat) (x : Nat) : Nat × BitVec 5 :=
  if t = 0#3 then specialFp32 code x
  else
    let wide := (fp32.roundVal .rne ((vfmt t).decode x) 0).1
    let r := specialFp32 code wide
    let n := (vfmt t).narrow .rne (fp32.decode r.1) 0
    (n.1, r.2 ||| n.2)

/-- Major 0x26: two slot periods (R163, R177). -/
def State.vecSpecial (s : State) (g : BitVec 3) (d : BitVec 4) (t : BitVec 3) (a : BitVec 4) (code : Nat) :
    Host.Outcome State Fault Refusal :=
  s.vector g [a] d 16 (fun s => mapLanes (laneWidth t) (specialLane t code) (s.readVec a))

/-! ## Conversions -/

/-- The element width of a conversion type code (R82, R165). -/
def cvtWidth (c : Nat) : Nat :=
  match c with
  | 0 | 5 | 9 => 32
  | 1 | 2 | 6 | 10 => 16
  | 8 => 4
  | _ => 8

/-- The format of a floating conversion code, and none for an integer one (R82). -/
def cvtFmt (c : Nat) : Option Fmt :=
  match c with
  | 0 => some fp32
  | 1 => some bf16
  | 2 => some fp16
  | 3 => some e4m3
  | 4 => some e5m2
  | 8 => some e2m1
  | _ => none

/-- Is an integer conversion code signed (R82)? -/
def cvtSigned (c : Nat) : Bool := decide (c ≤ 7)

/-- The range of an integer conversion code. -/
def cvtLo (c : Nat) : Int := if cvtSigned c then -(2 ^ (cvtWidth c - 1) : Int) else 0
def cvtHi (c : Nat) : Int := if cvtSigned c then (2 ^ (cvtWidth c - 1) : Int) - 1 else (2 ^ cvtWidth c : Int) - 1

/-- A conversion narrows when the target has fewer mantissa bits or a smaller largest finite value (R166). -/
def narrows (dst src : Fmt) : Bool :=
  decide (dst.mb < src.mb) ||
    decide ((FVal.cmp (dst.decode dst.largest) (src.decode src.largest)) < 0)

/-- Convert one element (R165 to R167); `rnd` is the lane's random number. -/
def convert (dt st : Nat) (mode : Rnd) (x : Nat) (rnd : Nat) : Nat × BitVec 5 :=
  match cvtFmt dt, cvtFmt st with
  | some f, some h =>
    if narrows f h then f.narrow mode (h.decode x) rnd
    else f.narrow .rne (h.decode x) 0
  | some f, none =>
    let v : Int := if cvtSigned st then toSigned (cvtWidth st) x else x
    if v = 0 then (0, flagNone) else f.narrow mode.plain (FVal.ofInt v) 0
  | none, some h =>
    match h.decode x with
    | .nan => (0, flagNV)
    | .inf neg => (((if neg then cvtLo dt else cvtHi dt) % 2 ^ cvtWidth dt).toNat, flagNV)
    | .fin neg m e =>
      let (v, inexact) := roundToInt mode.plain neg m e
      if v < cvtLo dt ∨ cvtHi dt < v then ((saturate (cvtLo dt) (cvtHi dt) v % 2 ^ cvtWidth dt).toNat, flagNV)
      else ((v % 2 ^ cvtWidth dt).toNat, if inexact then flagNX else flagNone)
  | none, none =>
    let v : Int := if cvtSigned st then toSigned (cvtWidth st) x else x
    ((saturate (cvtLo dt) (cvtHi dt) v % 2 ^ cvtWidth dt).toNat, flagNone)

/-- Convert elements in ascending order, an SR conversion taking one generator step each (R54, R166). -/
def convertAll (dt st : Nat) (mode : Rnd) (stochastic : Bool) : List Nat → Word → List Nat × BitVec 5 × Word
  | [], g => ([], flagNone, g)
  | x :: rest, g =>
    let (g, rnd) := if stochastic then srngStep g else (g, 0)
    let (y, fl) := convert dt st mode x rnd
    let (ys, fl', g) := convertAll dt st mode stochastic rest g
    (y :: ys, fl ||| fl', g)

/-- Does a conversion take generator steps: SR on a narrowing floating conversion (R166, R167)? -/
def stochasticCvt (dt st : Nat) (mode : Rnd) : Bool :=
  match cvtFmt dt, cvtFmt st with
  | some f, some h => mode == .sr && narrows f h
  | _, _ => false

/-- vcvt (R165): n = 512 ÷ max(ws, wd) elements; the rest of vD is 0. -/
def execVcvt (g : BitVec 3) (d a e c : BitVec 4) (r : BitVec 3) (s : State) : Host.Outcome State Fault Refusal :=
  s.actV g (fun s => do
    match ← s.streamGate [a] [d] with
    | some w => return s.waitAgain w
    | none =>
      let dt := e.toNat
      let st := c.toNat
      let mode := s.me.rounding r
      let ws := cvtWidth st
      let wd := cvtWidth dt
      let n := 512 / (if ws < wd then wd else ws)
      let x := s.readVec a
      let src := (List.range n).map (lane ws x)
      let (ys, fl, gen) := convertAll dt st mode (stochasticCvt dt st mode) src s.me.srng
      let out := ofLanes wd ys
      return (((s.popAll [a]).modMe (fun x => { x.raise fl with srng := gen })).writeVec d out).advance)

/-! ## Dot products and reductions -/

/-- The exact sum of values with the NaN rules of R168: invalid products and opposite infinities give NaN with NV. -/
def exactSum (f : Fmt) (mode : Rnd) (products : List (FVal × FVal)) (addend : FVal) : Nat × BitVec 5 :=
  let bad := products.any (fun p => invalidProduct p.1 p.2)
  let ps := products.map (fun p => (p.1.mul p.2).1)
  let all := ps ++ [addend]
  let hasInf (n : Bool) := all.any (fun v => v == .inf n)
  if bad || (hasInf true && hasInf false) then (f.nan, flagNV)
  else if all.any FVal.isNan then (f.nan, flagNone)
  else if hasInf true then (f.sign true + f.infinity, flagNone)
  else if hasInf false then (f.infinity, flagNone)
  else
    let v := ps.foldl (fun v p => (v.add mode p).1) addend
    f.roundVal mode v 0

/-- vdot of one result lane (R168). -/
def dotLane (t : BitVec 3) (mode : Rnd) (xs ys : List Nat) (c : Nat) : Nat × BitVec 5 :=
  if isInteger t then
    let w := laneWidth t
    let sum := (xs.zip ys).foldl (fun (s : Int) p => s + toSigned w p.1 * toSigned w p.2) (toSigned 32 c)
    ((sum % 2 ^ 32).toNat, flagNone)
  else
    let m := vfmt t
    exactSum fp32 mode ((xs.zip ys).map (fun p => (m.decode p.1, m.decode p.2))) (fp32.decode c)

/-- vdot (R168). -/
def execVdot (g : BitVec 3) (d : BitVec 4) (t : BitVec 3) (a b : BitVec 4) (r : BitVec 3) (s : State) :
    Host.Outcome State Fault Refusal :=
  s.vector g [a, b, d] d 8 (fun s =>
    let mode := (s.me.rounding r).plain
    let w := laneWidth t
    let k := 32 / w
    let x := s.readVec a
    let y := s.readVec b
    let c := s.readVec d
    let rs := (List.range 16).map (fun i =>
      dotLane t mode ((List.range k).map (fun j => lane w x (k * i + j)))
        ((List.range k).map (fun j => lane w y (k * i + j))) (lane 32 c i))
    (ofLanes 32 (rs.map (·.1)), rs.foldl (fun fl x => fl ||| x.2) flagNone))

/-- One level of the tree of R58: adjacent pairs, lowest first. -/
def sumPairs (f : Fmt) (mode : Rnd) : List Nat → List Nat × BitVec 5
  | x :: y :: rest =>
    let (z, fl) := f.add mode (f.decode x) (f.decode y)
    let (zs, fl') := sumPairs f mode rest
    (z :: zs, fl ||| fl')
  | xs => (xs, flagNone)

/-- The tree of R58 by levels. -/
def sumTree (f : Fmt) (mode : Rnd) : Nat → List Nat → List Nat × BitVec 5
  | 0, xs => (xs, flagNone)
  | n + 1, xs =>
    let (ys, fl) := sumPairs f mode xs
    let (zs, fl') := sumTree f mode n ys
    (zs, fl ||| fl')

/-- vredsum (R169). -/
def execVredsum (g : BitVec 3) (d : BitVec 4) (t : BitVec 3) (a : BitVec 4) (r : BitVec 3) (s : State) :
    Host.Outcome State Fault Refusal :=
  s.vector g [a] d 8 (fun s =>
    let w := laneWidth t
    let xs := lanesOf w (s.readVec a)
    if isFloating t then
      let (ys, fl) := sumTree (vfmt t) (s.me.rounding r).plain (if w = 32 then 4 else 5) xs
      (BitVec.ofNat 512 (ys.headD 0), fl)
    else
      let sum := xs.foldl (fun (v : Int) x => v + toSigned w x) 0
      (BitVec.ofNat 512 (sum % 2 ^ 32).toNat, flagNone))

/-- The reduction of R170: floating as `vmin` and `vmax`, integers sign-extended to 32 bits. -/
def reduceLanes (t : BitVec 3) (larger : Bool) (x : BitVec 512) : BitVec 512 :=
  let w := laneWidth t
  match lanesOf w x with
  | [] => 0#512
  | y :: ys =>
    let r := ys.foldl (minMaxLane t 0#1 larger) y
    let r := if isFloating t then (if ((vfmt t).decode r).isNan then (vfmt t).nan else r)
      else (toSigned w r % 2 ^ 32).toNat
    BitVec.ofNat 512 r

/-- vredmax (R170). -/
def execVredmax (g : BitVec 3) (d : BitVec 4) (t : BitVec 3) (a : BitVec 4) (s : State) :
    Host.Outcome State Fault Refusal :=
  s.vector g [a] d 8 (fun s => (reduceLanes t true (s.readVec a), flagNone))

/-- vredmin (R170). -/
def execVredmin (g : BitVec 3) (d : BitVec 4) (t : BitVec 3) (a : BitVec 4) (s : State) :
    Host.Outcome State Fault Refusal :=
  s.vector g [a] d 8 (fun s => (reduceLanes t false (s.readVec a), flagNone))

/-- vredx (R171): every lane into the XS320 object at C[B].val, one scratchpad access. -/
def execVredx (g t : BitVec 3) (a b : BitVec 4) (s : State) : Host.Outcome State Fault Refusal :=
  s.actV g (fun s => do
    match ← s.streamGate [a] [] with
    | some w => return s.waitAgain w
    | none =>
      let br : BitVec 5 := b.setWidth 5
      let r := s.me.reg br
      let ea : Int := r.val.toNat
      checkBase .window br r permLS r.val
      checkBounds r ea 48
      s.myCore.checkLinear r.val.toNat 48 r.val
      checkAlign ea 16
      let addr := r.val.toNat
      let old := s.myCore.sp.readN addr 48
      need (xsReservedOk old) (trapPermission r.val)
      let xs := lanesOf (laneWidth t) (s.readVec a)
      let obj := xs.foldl (fun o x => o.add ((vfmt t).decode x)) (Xs.ofBytes old)
      let s := s.popAll [a]
      return (s.modMyCore (fun c => c.spWrite addr obj.bytes)).advanceBy (8 * (512 / laneWidth t / 16)))

/-! ## Compares, selects and integer lanes -/

/-- vcmp (R172): all ones where the condition holds. -/
def execVcmp (g : BitVec 3) (d : BitVec 4) (t c : BitVec 3) (a b : BitVec 4) (u : BitVec 1) (s : State) :
    Host.Outcome State Fault Refusal :=
  s.vector g [a, b] d 8 (fun s =>
    let w := laneWidth t
    zipLanes w (fun x y =>
      let r : Bool × BitVec 5 :=
        if isFloating t then compareFloat c.toNat ((vfmt t).decode x) ((vfmt t).decode y)
        else
          let p := laneInt t u x
          let q := laneInt t u y
          (match c.toNat with
          | 0 => p == q
          | 1 => p != q
          | 2 => decide (p < q)
          | 3 => decide (q ≤ p)
          | 4 => decide (p ≤ q)
          | _ => decide (q < p), flagNone)
      (if r.1 then 2 ^ w - 1 else 0, r.2)) (s.readVec a) (s.readVec b))

/-- A bitwise operation on all 512 bits (R173). -/
def State.vecBits (s : State) (g : BitVec 3) (d a b : BitVec 4) (f : BitVec 512 → BitVec 512 → BitVec 512) :
    Host.Outcome State Fault Refusal :=
  s.vector g [a, b] d 8 (fun s => (f (s.readVec a) (s.readVec b), flagNone))

/-- vsel (R173): the mask in vD is read before it is overwritten. -/
def execVsel (g : BitVec 3) (d : BitVec 4) (t : BitVec 3) (a b : BitVec 4) (s : State) :
    Host.Outcome State Fault Refusal :=
  s.vector g [a, b, d] d 8 (fun s =>
    let w := laneWidth t
    let x := s.readVec a
    let y := s.readVec b
    let m := s.readVec d
    (ofLanes w ((List.range (512 / w)).map (fun i => if lane w m i ≠ 0 then lane w x i else lane w y i)), flagNone))

/-- An integer lane operation modulo 2^w (R174). -/
def State.vecInt (s : State) (g : BitVec 3) (d : BitVec 4) (t : BitVec 3) (a b : BitVec 4) (f : Nat → Nat → Nat → Nat) :
    Host.Outcome State Fault Refusal :=
  s.vector g [a, b] d 8 (fun s =>
    let w := laneWidth t
    zipLanes w (fun x y => (f w x y % 2 ^ w, flagNone)) (s.readVec a) (s.readVec b))

/-- The shift count of a lane: its low log2 w bits (R174). -/
def laneShift (w y : Nat) : Nat := y % w

/-! ## Moves and permutes -/

/-- The source lane of a `vshuf` pattern (R176). -/
def shuffleSource (m : Nat) (idx : BitVec 6) (i : Nat) : Nat :=
  let p := idx.toNat % 16
  match idx.toNat / 16 with
  | 0 => i ^^^ p
  | 1 => i ^^^ (16 * p)
  | 2 => 16 * (i / 16) + p
  | _ =>
    match p with
    | 0 => if i % 2 = 0 then i / 2 else m / 2 + (i - 1) / 2
    | 1 => if i < m / 2 then 2 * i else 2 * (i - m / 2) + 1
    | 2 => m - 1 - i
    | _ => i ^^^ (m / 2)

/-- Lanes chosen by index: `none` is 0 (R175). -/
def State.vecPick (s : State) (g : BitVec 3) (d : BitVec 4) (t : BitVec 3) (reads : List (BitVec 4)) (a : BitVec 4)
    (f : State → Nat → Option Nat) : Host.Outcome State Fault Refusal :=
  s.vector g reads d 8 (fun s =>
    let w := laneWidth t
    let x := s.readVec a
    (ofLanes w ((List.range (512 / w)).map (fun i => match f s i with
      | some j => lane w x j
      | none => 0)), flagNone))

/-- vadd (R161). -/
def execVadd (g : BitVec 3) (d : BitVec 4) (t : BitVec 3) (a b : BitVec 4) (r : BitVec 3) (s : State) :
    Host.Outcome State Fault Refusal :=
  s.vecArith g d t a b r 8 (fun m mode x y => m.add mode x y)

/-- vsub (R161): a + (−b). -/
def execVsub (g : BitVec 3) (d : BitVec 4) (t : BitVec 3) (a b : BitVec 4) (r : BitVec 3) (s : State) :
    Host.Outcome State Fault Refusal :=
  s.vecArith g d t a b r 8 (fun m mode x y => m.add mode x y.neg)

/-- vmul (R161). -/
def execVmul (g : BitVec 3) (d : BitVec 4) (t : BitVec 3) (a b : BitVec 4) (r : BitVec 3) (s : State) :
    Host.Outcome State Fault Refusal :=
  s.vecArith g d t a b r 8 (fun m mode x y => m.mul mode x y)

/-- vdiv (R161): three slot periods (R177). -/
def execVdiv (g : BitVec 3) (d : BitVec 4) (t : BitVec 3) (a b : BitVec 4) (r : BitVec 3) (s : State) :
    Host.Outcome State Fault Refusal :=
  s.vecArith g d t a b r 24 (fun m mode x y => m.div mode x y)

/-- vmin (R161). -/
def execVmin (g : BitVec 3) (d : BitVec 4) (t : BitVec 3) (a b : BitVec 4) (u : BitVec 1) (s : State) :
    Host.Outcome State Fault Refusal :=
  s.vecMinMax g d t a b u false

/-- vmax (R161). -/
def execVmax (g : BitVec 3) (d : BitVec 4) (t : BitVec 3) (a b : BitVec 4) (u : BitVec 1) (s : State) :
    Host.Outcome State Fault Refusal :=
  s.vecMinMax g d t a b u true

/-- vabs (R161). -/
def execVabs (g : BitVec 3) (d : BitVec 4) (t : BitVec 3) (a : BitVec 4) (s : State) :
    Host.Outcome State Fault Refusal :=
  s.vecUnary g d t a (absLane t)

/-- vneg (R161). -/
def execVneg (g : BitVec 3) (d : BitVec 4) (t : BitVec 3) (a : BitVec 4) (s : State) :
    Host.Outcome State Fault Refusal :=
  s.vecUnary g d t a (negLane t)

/-- vsqrt (R161): three slot periods (R177). -/
def execVsqrt (g : BitVec 3) (d : BitVec 4) (t : BitVec 3) (a : BitVec 4) (r : BitVec 3) (s : State) :
    Host.Outcome State Fault Refusal :=
  s.vector g [a] d 24 (fun s =>
    let mode := (s.me.rounding r).plain
    mapLanes (laneWidth t) (fun x => (vfmt t).sqrt mode ((vfmt t).decode x)) (s.readVec a))

/-- vfma (R162). -/
def execVfma (g : BitVec 3) (d : BitVec 4) (t : BitVec 3) (a b : BitVec 4) (r : BitVec 3) (s : State) :
    Host.Outcome State Fault Refusal :=
  s.vecFma g d t a b r false false

/-- vfms (R162). -/
def execVfms (g : BitVec 3) (d : BitVec 4) (t : BitVec 3) (a b : BitVec 4) (r : BitVec 3) (s : State) :
    Host.Outcome State Fault Refusal :=
  s.vecFma g d t a b r false true

/-- vfnma (R162). -/
def execVfnma (g : BitVec 3) (d : BitVec 4) (t : BitVec 3) (a b : BitVec 4) (r : BitVec 3) (s : State) :
    Host.Outcome State Fault Refusal :=
  s.vecFma g d t a b r true false

/-- vfnms (R162). -/
def execVfnms (g : BitVec 3) (d : BitVec 4) (t : BitVec 3) (a b : BitVec 4) (r : BitVec 3) (s : State) :
    Host.Outcome State Fault Refusal :=
  s.vecFma g d t a b r true true

/-- vrcp (R163, R164). -/
def execVrcp (g : BitVec 3) (d : BitVec 4) (t : BitVec 3) (a : BitVec 4) (s : State) :
    Host.Outcome State Fault Refusal :=
  s.vecSpecial g d t a 0

/-- vrsq (R163, R164). -/
def execVrsq (g : BitVec 3) (d : BitVec 4) (t : BitVec 3) (a : BitVec 4) (s : State) :
    Host.Outcome State Fault Refusal :=
  s.vecSpecial g d t a 1

/-- vex2 (R163, R164). -/
def execVex2 (g : BitVec 3) (d : BitVec 4) (t : BitVec 3) (a : BitVec 4) (s : State) :
    Host.Outcome State Fault Refusal :=
  s.vecSpecial g d t a 2

/-- vlg2 (R163, R164). -/
def execVlg2 (g : BitVec 3) (d : BitVec 4) (t : BitVec 3) (a : BitVec 4) (s : State) :
    Host.Outcome State Fault Refusal :=
  s.vecSpecial g d t a 3

/-- vtanh (R163, R164). -/
def execVtanh (g : BitVec 3) (d : BitVec 4) (t : BitVec 3) (a : BitVec 4) (s : State) :
    Host.Outcome State Fault Refusal :=
  s.vecSpecial g d t a 4

/-- vsin (R163, R164). -/
def execVsin (g : BitVec 3) (d : BitVec 4) (t : BitVec 3) (a : BitVec 4) (s : State) :
    Host.Outcome State Fault Refusal :=
  s.vecSpecial g d t a 5

/-- vand (R173). -/
def execVand (g : BitVec 3) (d a b : BitVec 4) (s : State) :
    Host.Outcome State Fault Refusal :=
  s.vecBits g d a b (· &&& ·)

/-- vor (R173). -/
def execVor (g : BitVec 3) (d a b : BitVec 4) (s : State) :
    Host.Outcome State Fault Refusal :=
  s.vecBits g d a b (· ||| ·)

/-- vxor (R173). -/
def execVxor (g : BitVec 3) (d a b : BitVec 4) (s : State) :
    Host.Outcome State Fault Refusal :=
  s.vecBits g d a b (· ^^^ ·)

/-- viadd (R174). -/
def execViadd (g : BitVec 3) (d : BitVec 4) (t : BitVec 3) (a b : BitVec 4) (s : State) :
    Host.Outcome State Fault Refusal :=
  s.vecInt g d t a b (fun _ x y => x + y)

/-- visub (R174). -/
def execVisub (g : BitVec 3) (d : BitVec 4) (t : BitVec 3) (a b : BitVec 4) (s : State) :
    Host.Outcome State Fault Refusal :=
  s.vecInt g d t a b (fun w x y => x + 2 ^ w - y)

/-- vimul (R174). -/
def execVimul (g : BitVec 3) (d : BitVec 4) (t : BitVec 3) (a b : BitVec 4) (s : State) :
    Host.Outcome State Fault Refusal :=
  s.vecInt g d t a b (fun _ x y => x * y)

/-- vshl (R174). -/
def execVshl (g : BitVec 3) (d : BitVec 4) (t : BitVec 3) (a b : BitVec 4) (s : State) :
    Host.Outcome State Fault Refusal :=
  s.vecInt g d t a b (fun w x y => x * 2 ^ laneShift w y)

/-- vshr (R174). -/
def execVshr (g : BitVec 3) (d : BitVec 4) (t : BitVec 3) (a b : BitVec 4) (s : State) :
    Host.Outcome State Fault Refusal :=
  s.vecInt g d t a b (fun w x y => x / 2 ^ laneShift w y)

/-- vsar (R174). -/
def execVsar (g : BitVec 3) (d : BitVec 4) (t : BitVec 3) (a b : BitVec 4) (s : State) :
    Host.Outcome State Fault Refusal :=
  s.vecInt g d t a b (fun w x y => (toSigned w x / 2 ^ laneShift w y % 2 ^ w).toNat)

/-- vclm (R174). -/
def execVclm (g : BitVec 3) (d : BitVec 4) (t : BitVec 3) (a b : BitVec 4) (s : State) :
    Host.Outcome State Fault Refusal :=
  s.vecInt g d t a b (fun w x y => carryLess w x y)

/-- vpcnt (R174). -/
def execVpcnt (g : BitVec 3) (d : BitVec 4) (t : BitVec 3) (a : BitVec 4) (s : State) :
    Host.Outcome State Fault Refusal :=
  s.vecUnary g d t a (fun x => popCount (BitVec.ofNat 32 x))

/-- vperm (R175). -/
def execVperm (g : BitVec 3) (d : BitVec 4) (t : BitVec 3) (a b : BitVec 4) (s : State) :
    Host.Outcome State Fault Refusal :=
  s.vecPick g d t [a, b] a (fun s i =>
    let w := laneWidth t
    some (lane w (s.readVec b) i % (512 / w)))

/-- vshuf (R176). -/
def execVshuf (g : BitVec 3) (d : BitVec 4) (t : BitVec 3) (a : BitVec 4) (idx : BitVec 6) (s : State) :
    Host.Outcome State Fault Refusal :=
  s.vecPick g d t [a] a (fun _ i => some (shuffleSource (laneCount t) idx i))

/-- The sources of a slide; VD is one with n = 0 (R159). -/
def slideSources (d a : BitVec 4) (idx : BitVec 6) : List (BitVec 4) := if idx = 0#6 then [a, d] else [a]

/-- vslide.up (R175). -/
def execVslideUp (g : BitVec 3) (d : BitVec 4) (t : BitVec 3) (a : BitVec 4) (idx : BitVec 6) (s : State) :
    Host.Outcome State Fault Refusal :=
  s.vecPick g d t (slideSources d a idx) a (fun _ i => if idx.toNat ≤ i then some (i - idx.toNat) else none)

/-- vslide.dn (R175). -/
def execVslideDn (g : BitVec 3) (d : BitVec 4) (t : BitVec 3) (a : BitVec 4) (idx : BitVec 6) (s : State) :
    Host.Outcome State Fault Refusal :=
  s.vecPick g d t (slideSources d a idx) a (fun _ i => if i + idx.toNat < laneCount t then some (i + idx.toNat) else none)

/-- vsplat (R175): every lane takes the low bits of cA. -/
def execVsplat (g : BitVec 3) (d : BitVec 4) (t : BitVec 3) (a : BitVec 4) (s : State) :
    Host.Outcome State Fault Refusal :=
  s.vector g [] d 8 (fun s =>
    let w := laneWidth t
    (ofLanes w (List.replicate (512 / w) (s.me.val (a.setWidth 5)).toNat), flagNone))

/-- vins (R175): the other lanes of vD stay. -/
def execVins (g : BitVec 3) (d : BitVec 4) (t : BitVec 3) (a : BitVec 4) (idx : BitVec 6) (s : State) :
    Host.Outcome State Fault Refusal :=
  s.vector g [d] d 8 (fun s =>
    let w := laneWidth t
    let x := s.readVec d
    let v := (s.me.val (a.setWidth 5)).toNat
    (ofLanes w ((List.range (512 / w)).map (fun i => if i = idx.toNat then v else lane w x i)), flagNone))

/-- vext (R175): lane k into cD, sign-extended for integer T. -/
def execVext (g : BitVec 3) (d : BitVec 4) (t : BitVec 3) (a : BitVec 4) (idx : BitVec 6) (s : State) :
    Host.Outcome State Fault Refusal :=
  s.actV g (fun s => do
    match ← s.streamGate [a] [] with
    | some w => return s.waitAgain w
    | none =>
      let w := laneWidth t
      let x := lane w (s.readVec a) idx.toNat
      let v : Word := if isInteger t then BitVec.ofInt 64 (toSigned w x) else BitVec.ofNat 64 x
      (s.popAll [a]).putInt (d.setWidth 5) v)

/-- vmov (R175): the register whole. -/
def execVmov (g : BitVec 3) (d : BitVec 4) (_t : BitVec 3) (a : BitVec 4) (s : State) :
    Host.Outcome State Fault Refusal :=
  s.vector g [a] d 8 (fun s => (s.readVec a, flagNone))

end Sys2Proof.Machine
end

