-- ==== Sys2Proof/Machine/Matrix.lean ====
section
/-! DEFINITION. The matrix engine: granting queue entries, choosing and performing steps, accumulators, drains, the
latches and the forwarding of tiles, completion and faults (R59, R208, R209, R211, R234 to R247). -/

namespace Sys2Proof.Machine

/-- The physical core of a block's logical lane. -/
def State.lanePhys (s : State) (blk lane : Nat) : Nat := (s.remapOf (8 * blk + lane)).1

/-! ## Queue entries -/

/-- Take one entry for each waiting lane, in round-robin order, while entries are free: what is granted, as (entry,
pending), the queue and the lane last granted (R235). -/
def grantLanes {α : Type} : List Nat → Table (Entry α) → List (Pending α) → Nat →
    List (Nat × Pending α) × Table (Entry α) × List (Pending α) × Nat
  | [], es, ws, last => ([], es, ws, last)
  | l :: rest, es, ws, last =>
    match ws.find? (fun w => w.lane == l), freeEntry es with
    | some w, some i =>
      let e := es.getD i Entry.unused
      let e := { e with
        state := .queued, code := 0, seen := false, uses := (e.uses + 1) % 256, ever := true, lane := l, job := some w.job }
      let r := grantLanes rest (es.set i e) (ws.filter (fun v => !(v.lane == l && v.slot == w.slot))) l
      ((i, w) :: r.1, r.2)
    | _, _ => grantLanes rest es ws last

/-- A granted strand gets its job id and goes on (R206, R207). -/
def State.granted (s : State) (blk eng i lane slot uses : Nat) (d : BitVec 5) : State :=
  let p := s.lanePhys blk lane
  if s.occupied p slot && (s.strand p slot).wait == .queue eng then
    (s.modStrand p slot (fun x => x.setReg d (CReg.int (BitVec.ofNat 64 (jobId eng lane i uses))))).wake p slot
  else s

/-- Other grants of the same engine in this cycle are this one. -/
def State.onceNow (s : State) (i : Instr) : State :=
  { s with agenda := s.agenda.filter (fun e =>
      !(e.event == i && e.time == s.now && e.arg.a == s.arg.a && e.arg.b == s.arg.b && !e.arg.flag)) }

/-- The lanes in round-robin order that have been granted no entry in cycle `k` (R235). -/
def lanesToGrant (last k : Nat) (grantedAt : Table Nat) : List Nat :=
  (lanesAfter last).filter (fun l => Table.get? grantedAt l != some k)

/-- The enqueues that still wait after those of `gs` were granted. -/
def ungranted {α : Type} (ws : List (Pending α)) (gs : List (Nat × Pending α)) : List (Pending α) :=
  ws.filter (fun w => !gs.any (fun g => g.2.lane == w.lane && g.2.slot == w.slot))

/-- Has the core of a lane lost its clock? It keeps its registers, so its enqueues wait (R351). -/
def State.laneStopped (s : State) (blk lane : Nat) : Bool := s.clockHeld (s.lanePhys blk lane)

/-- Is slot `k` of core `p` at an `mxq` that waits for its fence.far condition (R206), and will it act? -/
def State.fencedMxq (s : State) (p k : Nat) : Bool :=
  s.occupied p k &&
    (match (s.strand p k).wait with
     | .fenceFirst _ len bits =>
       ((s.core p).run == .run || !s.fenceHolds p k) &&
         (match (decode32 (if len = 6 then bits.extractLsb' 16 32 else bits.extractLsb' 0 32)).toOption with
          | some (.mxq _ _ _ _ _) => true
          | _ => false)
     | _ => false)

/-- Has a lane an `mxq` that issued before the enqueue `w` and waits for its fence? A lane's enqueues are granted, and its
jobs of one shape so begin, in the order in which they issued (R235, R236, R239, log entry 115). -/
def State.behindFence (s : State) (blk : Nat) (w : Pending MxeJob) : Bool :=
  let p := s.lanePhys blk w.lane
  (List.range 8).any (fun k => s.fencedMxq p k && decide ((s.strand p k).waitStart < w.at_))

/-- QUEUE_ENTRY_GRANT (R235): with the flag, entry `c`, whose job completed in the last cycle, is freed; then free
entries go to the waiting lanes, at most one to each in a cycle. -/
def execQueueEntryGrant (s : State) : Host.Outcome State Fault Refusal :=
  let blk := s.arg.a
  let eng := s.arg.b
  let o := s.arg
  .next (if o.flag then
    let free {α : Type} (t : Table (Entry α)) : Table (Entry α) :=
      let e := t.getD o.c Entry.unused
      if e.state = .done then t.set o.c { e with state := .free } else t
    (s.modBlock blk (fun b =>
      if eng = 0 then { b with mxe := { b.mxe with entries := free b.mxe.entries } }
      else { b with cpe := { b.cpe with entries := free b.cpe.entries } })).queueKick blk eng
  else
    let s := s.onceNow .queueEntryGrant
    let b := s.block blk
    let k := s.countCore (8 * blk)
    if eng = 0 then
      let r := grantLanes (lanesToGrant b.mxe.lastGranted k b.mxe.grantedAt) b.mxe.entries
        (b.mxe.waiting.filter (fun w => !s.behindFence blk w && !s.laneStopped blk w.lane)) b.mxe.lastGranted
      let es := r.1.zipIdx.foldl (fun (t : Table (Entry MxeJob)) g =>
        let e := t.getD g.1.1 Entry.unused
        t.set g.1.1 { e with job := e.job.map (fun j => { j with granted := k, order := b.mxe.order + g.2 }) }) r.2.1
      let s := s.setBlock blk { b with mxe := { b.mxe with
        entries := es, waiting := ungranted b.mxe.waiting r.1
        lastGranted := r.2.2.2, order := b.mxe.order + r.1.length
        grantedAt := r.1.foldl (fun t g => t.set g.2.lane k) b.mxe.grantedAt } }
      let s := r.1.foldl (fun s g => s.granted blk 0 g.1 g.2.lane g.2.slot (es.getD g.1 Entry.unused).uses g.2.d) s
      let s := if r.1 = [] then s else (s.mxeKick blk 1).mxeKick blk 8
      if r.2.2.1 ≠ [] && (freeEntry es).isSome then s.postCore (8 * blk) 1 .queueEntryGrant (args blk 0) else s
    else
      let r := grantLanes (lanesToGrant b.cpe.lastGranted k b.cpe.grantedAt) b.cpe.entries
        (b.cpe.waiting.filter (fun w => !s.laneStopped blk w.lane)) b.cpe.lastGranted
      let es := r.2.1
      let s := s.setBlock blk { b with cpe := { b.cpe with
        entries := es, waiting := ungranted b.cpe.waiting r.1, lastGranted := r.2.2.2
        grantedAt := r.1.foldl (fun t g => t.set g.2.lane k) b.cpe.grantedAt } }
      let s := r.1.foldl (fun s g =>
        (s.granted blk 1 g.1 g.2.lane g.2.slot (es.getD g.1 Entry.unused).uses g.2.d).cpeWorkOf
          (s.lanePhys blk g.2.lane) g.2.at_ (.job g.1)) s
      if r.2.2.1 ≠ [] && (freeEntry es).isSome then s.postCore (8 * blk) 1 .queueEntryGrant (args blk 1) else s)

/-! ## The end of a job -/

/-- A strand that waits in `jwait` for the job re-evaluates: done, it goes on; faulted, the first of them takes the
trap and frees the entry (R209). -/
def State.jobWaiters (s : State) (blk eng i lane uses code : Nat) : State :=
  let p := s.lanePhys blk lane
  let id := jobId eng lane i uses
  ((List.range 8).foldl (fun (t : State × Bool) k =>
    let s := t.1
    if s.occupied p k then
      match (s.strand p k).wait with
      | .job w =>
        if w = id then
          if code ≠ 0 && t.2 then
            let s := s.modBlock blk (fun b => b.modEntry (BitVec.ofNat 64 id) (fun e => { e with state := .free, seen := true }))
            ((s.trapWait p k (trapEngine id code)).queueKick blk eng, false)
          else (s.wake p k, t.2)
        else t
      | _ => t
    else t) (s, true)).1

/-- A job of engine `eng` (0 MXE, 1 CPE) ends, done or with a fault code: the single status transition of R208, and
what waits for it. -/
def State.jobEnded (s : State) (blk eng i code : Nat) : State :=
  let b := s.block blk
  let meta0 := if eng = 0 then
      let e := b.mxe.entries.getD i Entry.unused
      (e.lane, e.uses)
    else
      let e := b.cpe.entries.getD i Entry.unused
      (e.lane, e.uses)
  let fin {α : Type} (t : Table (Entry α)) : Table (Entry α) :=
    t.set i { t.getD i Entry.unused with
      state := if code = 0 then .done else .faulted, code := code, seen := false, job := none }
  let s := s.setBlock blk (if eng = 0 then { b with mxe := { b.mxe with entries := fin b.mxe.entries } }
    else { b with cpe := { b.cpe with entries := fin b.cpe.entries } })
  let s := s.jobWaiters blk eng i meta0.1 meta0.2 code
  let s := if code = 0 then s.postCore (8 * blk) 1 .queueEntryGrant { args blk eng i with flag := true } else s
  let p := s.lanePhys blk meta0.1
  let s := (s.checkWaits p).finishCheck p
  if eng ≠ 0 then s else if code = 0 ∨ code = 2 then s.mxeKick blk 0 else s.mxeNext blk

/-- The entry of the job with a place in its lane's order, with the job, while it is queued or running. -/
def Mxe.findJob (m : Mxe) (order : Nat) : Option (Nat × Entry MxeJob × MxeJob) :=
  m.entries.findSome? (fun e =>
    match e.2.job with
    | some j => if j.order = order ∧ entryLive e.2 then some (e.1, e.2, j) else none
    | none => none)

/-- Change the job of an entry. -/
def State.modJob (s : State) (blk i : Nat) (f : MxeJob → MxeJob) : State :=
  s.modBlock blk (fun b =>
    let e := b.mxe.entries.getD i Entry.unused
    { b with mxe := { b.mxe with entries := b.mxe.entries.set i { e with job := e.job.map f } } })

/-- A job faults (R246): it performs no further step; what it has written remains. -/
def State.mxeJobFault (s : State) (blk order code : Nat) : State :=
  match (s.block blk).mxe.findJob order with
  | some (i, _, _) => s.jobEnded blk 0 i code
  | none => s

/-- The number of steps of a job (R237). -/
def MxeJob.steps (j : MxeJob) : Nat :=
  if j.op = 0 then (j.kt + 1) * (j.nt + 1) * (j.mt + 1) else (j.mt + 1) * (j.nt + 1)

/-- A job completes in the cycle after its last write and its last forwarded beat (R247). -/
def State.mxeMayComplete (s : State) (blk order : Nat) : State :=
  match (s.block blk).mxe.findJob order with
  | some (i, _, j) =>
    if j.step = j.steps ∧ j.writesLeft = 0 ∧ !j.leaving then
      s.postCore (8 * blk) (j.last + 1 - s.countCore (8 * blk)) .mxeJobCompletion (args blk i order)
    else s
  | none => s

/-- MXE_JOB_COMPLETION (R208, R247): `c` is the place of the job in its lane's order. -/
def execMxeJobCompletion (s : State) : Host.Outcome State Fault Refusal :=
  let o := s.arg
  .next (match (s.block o.a).mxe.findJob o.c with
    | some (i, _, _) => if i = o.b then s.jobEnded o.a 0 i 0 else s
    | none => s)

/-! ## Choosing a step -/

/-- Put a job into a list that is in its lane's order. -/
def insertJob : List (Nat × MxeJob) → Nat × MxeJob → List (Nat × MxeJob)
  | [], j => [j]
  | o :: rest, j => if j.2.order < o.2.order then j :: o :: rest else o :: insertJob rest j

/-- The live jobs of a lane, oldest first (R236). -/
def Mxe.laneJobs (m : Mxe) (lane : Nat) : List (Nat × MxeJob) :=
  let js := m.entries.filterMap (fun e =>
    match e.2.job with
    | some j => if entryLive e.2 && e.2.lane == lane then some (e.1, j) else none
    | none => none)
  js.foldl insertJob []

/-- Is a job eligible, given the live jobs of its lane (R236)? -/
def eligible (js : List (Nat × MxeJob)) (j : MxeJob) : Bool :=
  (js.filter (fun o => decide (o.2.order < j.order))).all (fun o =>
    o.2.markers == j.markers &&
      !(o.2.op == j.op && o.2.mt == j.mt && o.2.nt == j.nt && o.2.cacc == j.cacc) &&
      !(j.bsrc && o.2.bsrc) && !(j.fwd && o.2.fwd))

/-- The indices i, t, c of the next product (R237). -/
def MxeJob.product (j : MxeJob) : Nat × Nat × Nat :=
  (j.step % (j.mt + 1), j.step / ((j.mt + 1) * (j.nt + 1)), j.step / (j.mt + 1) % (j.nt + 1))

/-- How a job's next step stands: ready, waiting, or faulted by the latch's tile (R237, R246). -/
inductive StepState where
  | ready
  | waits
  | badTile
  deriving DecidableEq, Repr

/-- The state of a job's next step at cycle `k` (R237, R242, R246). -/
def MxeJob.next (j : MxeJob) (x : MxeLane) (k : Nat) : StepState :=
  if j.steps ≤ j.step ∨ k < j.granted + 8 then .waits
  else if j.op ≠ 0 then .ready
  else
    let first := j.product.1 == 0
    let latch : StepState := match j.bsrc, x.latch with
      | false, _ => .ready
      | true, t :: _ =>
        if k < t.readyAt then .waits
        else if t.fmt ≠ j.fmt ∨ t.bytes.length ≠ tileSize j.fmt then .badTile
        else .ready
      | true, [] => .waits
    if latch = .ready && first && j.fwd && x.out.isSome then .waits else latch

/-- The step that the array takes, of a lane whose clock runs, or the first job that a latch tile faults (R237, R246). -/
def Block.chooseStep (b : Block) (k : Nat) (stopped : Nat → Bool) : Option (Nat × Nat × MxeJob × Bool) :=
  ((lanesAfter b.mxe.lastServed).filter (fun l => !stopped l)).findSome? (fun l =>
    let js := b.mxe.laneJobs l
    js.findSome? (fun e =>
      if eligible js e.2 then
        match e.2.next (b.mxeLane l) k with
        | .ready => some (l, e.1, e.2, true)
        | .badTile => some (l, e.1, e.2, false)
        | .waits => none
      else none))

/-! ## Products -/

/-- The element format of a matrix format (R240). -/
def mxeFmt (fmt : Nat) : Fmt :=
  if fmt = 0 then bf16 else if fmt = 1 ∨ fmt = 4 then e4m3 else if fmt = 2 ∨ fmt = 5 then e5m2 else e2m1

/-- Element `idx` of a tile, with its scale byte (R30, R234, R240). -/
def tileValue (fmt : Nat) (tile : Nat) (scale : Nat) (idx : Nat) : FVal :=
  let f := mxeFmt fmt
  let x := tile / 2 ^ (f.bits * idx) % 2 ^ f.bits
  if 4 ≤ fmt then mxValue f scale x else f.decode x

/-- Product time (R240). -/
def productTime (fmt : Nat) : Nat := if fmt = 0 then 32 else if fmt = 3 ∨ fmt = 6 then 8 else 16

/-- Beats of a tile on MNet (R243). -/
def tileBeats (fmt : Nat) : Nat := if fmt = 0 then 16 else if fmt ≤ 2 then 8 else if fmt = 3 then 4 else if fmt ≤ 5 then 9 else 5

/-- Tile `idx` of an operand of `n` tiles at a scratchpad address, with its scale bytes after it (R234), as the engine reads
it in cycle `k`. -/
def Core.operandTile (c : Core) (k fmt addr n idx : Nat) : List Byte :=
  let sz := tileBytes fmt
  c.readEngine k (addr + idx * sz) sz ++ (if 4 ≤ fmt then c.readEngine k (addr + n * sz + 32 * idx) 32 else [])

/-- One accumulator element after a product (R59, R239). -/
def chunkAdd (fmt : Nat) (a b : List Byte) (old : BitVec 32) (r c : Nat) : BitVec 32 :=
  let sz := tileBytes fmt
  let ta := bytesNat (a.take sz)
  let tb := bytesNat (b.take sz)
  let sa := (a.getD (sz + r) 0#8).toNat
  let sb := (b.getD (sz + c) 0#8).toNat
  let ps := (List.range 32).map (fun k => (tileValue fmt ta sa (32 * r + k), tileValue fmt tb sb (32 * k + c)))
  let s := (exactSum fp32 .rne ps (.fin false 0 0)).1
  BitVec.ofNat 32 (fp32.add .rne (fp32.decode old.toNat) (fp32.decode s)).1

/-- An accumulator tile as the latest product of the lane leaves it: a write still to be made counts (R239, R247). -/
def Block.accTile (b : Block) (lane tile : Nat) : List (BitVec 32) :=
  match (b.mxe.writes.filter (fun w => w.2.lane == lane && w.2.tile == tile && w.2.elems != [])).getLast? with
  | some w => w.2.elems
  | none => (List.range 1024).map (fun i => (b.mxeLane lane).acc.getD (1024 * tile + i) 0#32)

/-- Put a write into the engine's list. -/
def State.addWrite (s : State) (blk : Nat) (w : EngineWrite) : Nat × State :=
  let (id, s) := s.fresh
  (id, s.modBlock blk (fun b => { b with mxe := { b.mxe with writes := b.mxe.writes.set id w } }))

/-- The array is busy for `n` cycles with a step of lane `l`. -/
def State.arrayBusy (s : State) (blk l n : Nat) : State :=
  let k := s.countCore (8 * blk)
  (s.modBlock blk (fun b => { b with mxe := { b.mxe with freeAt := k + n, lastServed := l } })).mxeKick blk n

/-- A tile of a lane is +0 from now on: what products that began earlier have still to write there reads +0 too (R238). -/
def Block.zeroTile (b : Block) (lane tile : Nat) : Block :=
  let ws : Table EngineWrite := b.mxe.writes.map (fun w =>
    if w.2.lane = lane ∧ w.2.tile = tile ∧ w.2.elems ≠ [] then (w.1, { w.2 with elems := List.replicate 1024 0#32 }) else w)
  ({ b with mxe := { b.mxe with writes := ws } } : Block).setMxeLane lane { b.mxeLane lane with
    acc := (b.mxeLane lane).acc.filter (fun e => decide (e.1 / 1024 ≠ tile)) }

/-- Begin a product of job `j` in entry `i` (R237 to R244, R247); its operands were read in the cycle before (R247, R248). -/
def State.beginProduct (s : State) (blk l i : Nat) (j : MxeJob) : State :=
  let b := s.block blk
  let p := s.lanePhys blk l
  let x := b.mxeLane l
  let (r, t, c) := j.product
  let before := s.countCore (8 * blk) - 1
  let a := (s.core p).operandTile before j.fmt j.a ((j.mt + 1) * (j.kt + 1)) (r * (j.kt + 1) + t)
  let bt := if j.bsrc then (x.latch.headD { fmt := 0, bytes := [], readyAt := 0 }).bytes
    else (s.core p).operandTile before j.fmt j.b ((j.kt + 1) * (j.nt + 1)) (t * (j.nt + 1) + c)
  let tile := j.cacc + r * (j.nt + 1) + c
  let clears := j.zero && t == 0
  let old := if clears then List.replicate 1024 0#32 else b.accTile l tile
  let elems := old.zipIdx.map (fun e => chunkAdd j.fmt a bt e.1 (e.2 / 32) (e.2 % 32))
  let tp := productTime j.fmt
  let s := if clears then s.modBlock blk (fun b => b.zeroTile l tile) else s
  let (w, s) := s.addWrite blk
    { lane := l, entry := i, order := j.order, tile := tile, addr := 0, elems := elems, bytes := [] }
  let s := s.postCore (8 * blk) (tp + 6) .accumulatorWrite (args blk w)
  let sends := j.fwd && r == 0
  let s := s.modJob blk i (fun j => { j with
    step := j.step + 1, writesLeft := j.writesLeft + 1, leaving := j.leaving || sends })
  let s := if sends then
      let s := s.modBlock blk (fun b => b.setMxeLane l { b.mxeLane l with
        out := some { fmt := j.fmt, bytes := bt, readyAt := 0 }, outSent := false, outEnd := j.rout, outOrder := j.order })
      let e := (s.core p).endAt j.rout
      s.sendToEnd p e.plcn e.pend 1
        (fun q => .message q (s.core p).lcn j.rout (.tile j.fmt (tileSize j.fmt))) 0
    else s
  let s := if j.bsrc && r == j.mt then
      (s.modBlock blk (fun b => b.setMxeLane l { b.mxeLane l with latch := (b.mxeLane l).latch.drop 1 })).latchGrant p
    else s
  (s.chargeCore p .mxe tp).arrayBusy blk l tp

/-- The bytes of a drained tile (R241). -/
def drainTile (op : Nat) (elems : List (BitVec 32)) : List Byte :=
  elems.flatMap (fun e =>
    if op = 1 then natBytes 4 e.toNat else natBytes 2 (bf16.narrow .rne (fp32.decode e.toNat) 0).1)

/-- Begin a drain step (R237, R241, R247): the tile is read now, and 128 bytes a cycle are written from 6 cycles on. -/
def State.beginDrain (s : State) (blk l i : Nat) (j : MxeJob) : State :=
  let x := (s.block blk).mxeLane l
  let q := j.step
  let bytes := drainTile j.op ((List.range 1024).map (fun n => x.acc.getD (1024 * (j.cacc + q) + n) 0#32))
  let d := bytes.length / 128
  let s := (List.range d).foldl (fun s m =>
    let (w, s) := s.addWrite blk
      { lane := l, entry := i, order := j.order, tile := 0, addr := j.b + q * bytes.length + 128 * m, elems := []
        bytes := (bytes.drop (128 * m)).take 128 }
    s.postCore (8 * blk) (6 + m) .drainGranuleWrite (args blk w)) s
  let s := s.modJob blk i (fun j => { j with step := j.step + 1, writesLeft := j.writesLeft + d })
  (s.chargeCore (s.lanePhys blk l) .mxe d).arrayBusy blk l d

/-- MXE_STEP_BEGIN (R237): the free array begins the next ready step, or idles; a job whose latch tile does not fit
faults and the array looks again (R246). -/
def execMxeStepBegin (s : State) : Host.Outcome State Fault Refusal :=
  let blk := s.arg.a
  let s := s.onceNow .mxeStepBegin
  let b := s.block blk
  let k := s.countCore (8 * blk)
  .next (if k < b.mxe.freeAt then s
    else
      match b.chooseStep k (s.laneStopped blk) with
      | none => s
      | some (_, i, _, false) => s.jobEnded blk 0 i 2
      | some (l, i, j, true) =>
        let s := s.modBlock blk (fun b =>
          let e := b.mxe.entries.getD i Entry.unused
          { b with mxe := { b.mxe with entries := b.mxe.entries.set i { e with state := .running } } })
        if j.op = 0 then s.beginProduct blk l i j else s.beginDrain blk l i j)

/-- A write of a job is made. -/
def State.writeMade (s : State) (blk w : Nat) (order : Nat) : State :=
  let k := s.countCore (8 * blk)
  let s := s.modBlock blk (fun b => { b with mxe := { b.mxe with writes := b.mxe.writes.erase w } })
  match (s.block blk).mxe.findJob order with
  | some (i, _, _) =>
    (s.modJob blk i (fun j => { j with writesLeft := j.writesLeft - 1, last := max j.last k })).mxeMayComplete blk order
  | none => s

/-- ACCUMULATOR_WRITE (R239, R247). -/
def execAccumulatorWrite (s : State) : Host.Outcome State Fault Refusal :=
  let blk := s.arg.a
  let w := s.arg.b
  .next (match Table.get? (s.block blk).mxe.writes w with
    | none => s
    | some e =>
      let s := s.modBlock blk (fun b =>
        let x := b.mxeLane e.lane
        let acc := e.elems.zipIdx.foldl (fun (t : Table (BitVec 32)) v =>
          let key := 1024 * e.tile + v.2
          if v.1 = 0#32 then t.erase key else t.set key v.1) x.acc
        b.setMxeLane e.lane { x with acc := acc })
      s.writeMade blk w e.order)

/-- DRAIN_GRANULE_WRITE (R43, R134, R241, R247): 128 bytes of a drained tile, granule by granule; one that holds a
tagged linear capability stops the job with code 0x09. -/
def execDrainGranuleWrite (s : State) : Host.Outcome State Fault Refusal :=
  let blk := s.arg.a
  let w := s.arg.b
  .next (match Table.get? (s.block blk).mxe.writes w with
    | none => s
    | some e =>
      let r := s.engineWrite (s.lanePhys blk e.lane) e.addr e.bytes
      match r.2 with
      | none => r.1.writeMade blk w e.order
      | some _ =>
        let s := r.1.modBlock blk (fun b =>
          { b with mxe := { b.mxe with writes := b.mxe.writes.filter (fun x => x.2.order != e.order) } })
        s.mxeJobFault blk e.order 9)

/-! ## Tiles -/

/-- TILE_OFFER (R243, R245): at a free end it parks; at the bound tile in-end of its sender the latch takes it; else
it is NACKed. An idle tile end takes its peer's offer, the model's choice (log entry 122). -/
def execTileOffer (s : State) : Host.Outcome State Fault Refusal :=
  let pkt := s.arg.a
  .next (match Table.get? s.packets pkt with
    | none => s
    | some q =>
      let s := s.dropPacket pkt
      let p := q.phys
      match q.body with
      | .message h fromLcn fromEnd (.tile fmt size) =>
        let e := (s.core p).endAt h
        if (e.state = .tile ∨ (e.state = .idle ∧ e.psz = 3)) ∧ e.dirIn ∧ e.plcn = fromLcn ∧ e.pend = fromEnd then
          (s.setEnd p h { e with state := .tile }).latchOffer p fromLcn fromEnd fmt size
        else s.laneMessage p h fromLcn fromEnd (.tile fmt size)
      | _ => s)

/-- TILE_GRANT (R243, R244): the sender pushes the tile; the out buffer is free after its last beat. -/
def execTileGrant (s : State) : Host.Outcome State Fault Refusal :=
  let pkt := s.arg.a
  .next (match Table.get? s.packets pkt with
    | none => s
    | some q =>
      let s := s.dropPacket pkt
      let p := q.phys
      let l := s.laneOf p
      let x := (s.block (blockOf p)).mxeLane l
      match q.body, x.out with
      | .grant h, some t =>
        if x.outEnd = h then
          let e := (s.core p).endAt h
          let b := tileBeats t.fmt
          let s := s.modBlock (blockOf p) (fun b => b.setMxeLane l { x with outSent := true })
          (s.sendFrom p true (destOf e.plcn) b (.tile e.pend t) 0).postCore p b .outBufferFree (args (blockOf p) l)
        else s
      | _, _ => s)

/-- TILE_LANDS (R244): the tile is ready in the next cycle. -/
def execTileLands (s : State) : Host.Outcome State Fault Refusal :=
  let pkt := s.arg.a
  .next (match Table.get? s.packets pkt with
    | none => s
    | some q =>
      let s := s.dropPacket pkt
      let p := q.phys
      let l := s.laneOf p
      match q.body with
      | .tile _ t =>
        let x := (s.block (blockOf p)).mxeLane l
        if x.granted = 0 then s
        else
          (s.modBlock (blockOf p) (fun b => b.setMxeLane l { x with
            granted := x.granted - 1, latch := x.latch ++ [{ t with readyAt := s.countCore p + 1 }] })).mxeKick
            (blockOf p) 1
      | _ => s)

/-- OUT_BUFFER_FREE (R242, R247). -/
def execOutBufferFree (s : State) : Host.Outcome State Fault Refusal :=
  let blk := s.arg.a
  let l := s.arg.b
  let x := (s.block blk).mxeLane l
  let k := s.countCore (8 * blk)
  let s := s.modBlock blk (fun b => b.setMxeLane l { x with out := none, outSent := false })
  .next (match (s.block blk).mxe.findJob x.outOrder with
    | some (i, _, _) =>
      ((s.modJob blk i (fun j => { j with leaving := false, last := max j.last (k - 1) })).mxeMayComplete blk
        x.outOrder).mxeKick blk 0
    | none => s.mxeKick blk 0)

/-- The offer of a lane's out buffer is NACKed (R246): the buffer is emptied and the job faults with code 0x04. -/
def State.tileOfferRefused (s : State) (p h : Nat) : State :=
  let blk := blockOf p
  let l := s.laneOf p
  let x := (s.block blk).mxeLane l
  if x.out.isSome && x.outEnd == h then
    ((s.modBlock blk (fun b => b.setMxeLane l { x with out := none })).mxeJobFault blk x.outOrder 4).mxeNext blk
  else s

/-- TILE_OFFER_NACK (R246). -/
def execTileOfferNack (s : State) : Host.Outcome State Fault Refusal :=
  let pkt := s.arg.a
  .next (match Table.get? s.packets pkt with
    | none => s
    | some q =>
      match q.body with
      | .nack h _ => (s.dropPacket pkt).tileOfferRefused q.phys h
      | _ => s.dropPacket pkt)

end Sys2Proof.Machine
end

