-- ==== Sys2Proof/Machine/Slice.lean ====
section
/-! DEFINITION. What a slice knows and does: translation, the pan table, the checks of a request, its round schedule
and claims, the bytes of pans, contributions and the conversion of a seal (R147 to R154, R300 to R314). -/

namespace Sys2Proof.Machine

/-! ## Translation -/

/-- The key of a byte of slice `n` at frame address `a`. -/
def hbmKey (n a : Nat) : Nat := n * 2 ^ 52 + a

/-- Walk the page table of a partition for an address: the levels read, and the frame of the address's 2 MiB page;
none where an entry has V = 0, or a bit set that is reserved (R19, R307, R308; log 112). -/
def Partition.walk (x : Partition) (va : Nat) : Nat × Option Nat :=
  let a := va % 2 ^ 48
  let e1 := x.pt1.getD (a / 2 ^ 30) 0#64
  if !e1.getLsbD 0 || e1.extractLsb' 2 10 != 0#10 || e1.extractLsb' 52 12 != 0#12 then (1, none)
  else
    let f := (e1.extractLsb' 12 40).toNat * 4096
    if e1.getLsbD 1 then (1, some (f / 2 ^ 21 + a / 2 ^ 21 % 512))
    else
      let e2 := x.pt2.getD (f / 8 + a / 2 ^ 21 % 512) 0#64
      if e2.getLsbD 0 && e2.extractLsb' 1 20 == 0#20 && e2.extractLsb' 52 12 == 0#12 then
        (2, some (e2.extractLsb' 21 31).toNat)
      else (2, none)

/-- The walk of a slice: the boot partition's table maps every hashed address below 2^40 with 1 GiB leaves from step 4
on, and nothing on a channel that failed training (R425). -/
def State.walkPage (s : State) (n sp va : Nat) : Nat × Option Nat :=
  if (s.slice n).failed then (1, none)
  else if s.sup.boot then
    (1, if 4 ≤ s.sup.stepDone ∧ va % 2 ^ 48 < 2 ^ 40 then some (va / 2 ^ 21) else none)
  else (s.part sp).walk va

/-- The key of an address's byte in its slice, if it is mapped. -/
def State.keyOf (s : State) (sp va : Nat) : Option Nat :=
  match s.sliceOf sp va with
  | none => none
  | some n =>
    match (s.walkPage n sp va).2 with
    | none => none
    | some f => some (hbmKey n (f * 2 ^ 21 + va % 2 ^ 21))

/-- The pieces of `n` bytes at `va` that lie within one 2 KiB block each, as (address, bytes); at most `fuel`. -/
def blockPieces : Nat → Nat → Nat → List (Nat × Nat)
  | 0, _, _ => []
  | fuel + 1, va, n =>
    if n = 0 then []
    else
      let m := min n (2048 - va % 2048)
      (va, m) :: blockPieces fuel (va + m) (n - m)

/-- Bytes of a pan, read at once; an unmapped byte reads 0. -/
def State.panRead (s : State) (sp va n : Nat) : List Byte :=
  (blockPieces (n / 2048 + 2) va n).flatMap (fun p =>
    match s.keyOf sp p.1 with
    | some k => s.hbm.readN k p.2
    | none => List.replicate p.2 0#8)

/-- Is the tag of the granule at `va` set? -/
def State.panTag (s : State) (sp va : Nat) : Bool :=
  match s.keyOf sp va with
  | some k => NatSet.has s.hbmTags (k / 16)
  | none => false

/-- Write bytes of HBM at a key: the granules' tags clear (R134). -/
def State.hbmWrite (s : State) (k : Nat) (b : List Byte) : State :=
  { s with hbm := s.hbm.writeN k b, hbmTags := (granules k b.length).foldl NatSet.remove s.hbmTags }

/-- Write bytes of a pan at once; an unmapped byte is dropped. -/
def State.panWrite (s : State) (sp va : Nat) (b : List Byte) : State :=
  ((blockPieces (b.length / 2048 + 2) va b.length).foldl (fun (t : State × List Byte) p =>
    (match t.1.keyOf sp p.1 with
     | some k => t.1.hbmWrite k (t.2.take p.2)
     | none => t.1, t.2.drop p.2)) (s, b)).1

/-- Set the tag of a pan's granule. -/
def State.panSetTag (s : State) (sp va : Nat) : State :=
  match s.keyOf sp va with
  | some k => { s with hbmTags := NatSet.insert s.hbmTags (k / 16) }
  | none => s

/-! ## The pan table -/

/-- The lowest free entry (R305). -/
def Slice.freePan (x : Slice) : Option Nat :=
  (List.range 1024).find? (fun i => (Table.get? x.pans i).isNone && x.mints.all (fun m => m.entry != i))

/-- Change entry `i`. -/
def State.modPan (s : State) (n i : Nat) (f : PanEntry → PanEntry) : State :=
  s.modSlice n (fun x => match Table.get? x.pans i with
    | some e => { x with pans := x.pans.set i (f e) }
    | none => x)

/-- Do two runs of pages have a page in common? -/
def PanEntry.overlaps (e : PanEntry) (page pages : Nat) : Bool :=
  decide (e.basep < page + pages) && decide (page < e.basep + e.pages)

/-- A `pmint` that is not complete does not enter its pan (R305). -/
def Slice.dropMint (x : Slice) (op : Nat) : Slice := { x with mints := x.mints.filter (fun m => m.op != op) }

/-- A pan-table entry's three words (R305). -/
def PanEntry.word (e : PanEntry) (i : Nat) : Word :=
  if i = 0 then
    BitVec.ofNat 64 (e.basep % 2 ^ 27 + (e.pages - 1) % 2 ^ 27 * 2 ^ 27 + e.kind % 16 * 2 ^ 54 + e.fmt % 4 * 2 ^ 58 +
      (if e.tbl then 2 ^ 60 else 0) + (if e.isSealed then 2 ^ 61 else 0))
  else if i = 1 then BitVec.ofNat 64 (if e.tbl then e.holder else 0)
  else if i = 2 then BitVec.ofNat 64 (e.ncon % 2 ^ 24 + e.done % 2 ^ 24 * 2 ^ 24)
  else 0#64

/-- Bytes a request covers. -/
def ReqKind.bytes : ReqKind → Nat
  | .read n _ _ => n
  | .write b _ => b.length
  | .amo _ bits _ _ => bits / 8
  | .vamo _ _ _ => 32
  | .contribute (.acc f l _) _ => (if l = 0#2 then 16 else 32) * (if f = 0#2 then 4 else if f = 1#2 then 2 else 48)
  | .contribute (.mx _ _ _) _ => 64

/-- The 64-byte lines a request covers, by address. -/
def Request.lines (r : Request) : List Nat :=
  let n := r.kind.bytes
  (List.range ((r.va + (n - 1)) / 64 - r.va / 64 + 1)).map (fun i => r.va / 64 + i)

/-- Is it a reservation request (R311)? -/
def ReqKind.reserves : ReqKind → Bool
  | .read _ _ _ => false
  | .write _ _ => false
  | _ => true

/-- Slots that a request takes (R311). -/
def ReqKind.width : ReqKind → Nat
  | .contribute (.acc f _ _) _ => if f = 2#2 then 3 else 1
  | _ => 1

/-- FMT of the pan that a contribution needs (R305). -/
def Contribution.pan : Contribution → Nat
  | .acc f _ _ => f.toNat
  | .mx _ _ _ => 3

/-- The mark of a contributor (R150). -/
def Slice.mark (x : Slice) (base who : Nat) : Option Word :=
  (x.marks.find? (fun m => m.1 == base && m.2.1 == who)).map (·.2.2)

/-- The refusal of a request at a slice, if any, once its address is translated (R306, R309). -/
def Slice.refuses (x : Slice) (r : Request) : Option (BitVec 6) :=
  match x.panAt r.va with
  | none => some 0x06#6
  | some (_, e) =>
    match r.kind with
    | .read _ _ _ => if e.kind = 5 ∨ e.kind = 9 then some 0x06#6 else none
    | .contribute c _ =>
      if e.kind ≠ 5 ∨ e.isSealed ∨ e.fmt ≠ c.pan then some 0x06#6
      else if (x.mark e.basep (r.lcn * 8 + r.slot)).isNone && decide (2 ^ 20 ≤ x.marks.length) then some 0x06#6
      else none
    | _ => if e.kind = 2 then none else some 0x06#6

/-! ## Rounds -/

/-- Is round `k` fallow (R310)? -/
def fallow (k : Nat) : Bool := k % 5 == 4

/-- The last round that is not fallow among rounds 0 to `k`. -/
def lastServing (k : Nat) : Nat := if fallow k then k - 1 else k

/-- `ptime` at which the last round that is not fallow before round `k` of a domain began: where it is a round of the
mode before, it began by that mode's clock (R395, R396). -/
def State.lastRoundTime (s : State) (dom : Option Nat) (k : Nat) : Nat :=
  let prev := lastServing (k - 1)
  let x := s.part (dom.getD 31)
  if dom.isSome && decide (64 * prev < x.m) then
    timeOfCount x.wasMode x.wasM (64 * lastServing (countOfTime x.wasMode x.wasM (x.m - 1) / 64))
  else s.timeAt dom (64 * prev)

/-- Is round `k` of a domain the refresh round of its interval: the first that is not fallow and begins at or after a
multiple of 5,850 of `ptime` (R310, R396)? -/
def State.isRefresh (s : State) (dom : Option Nat) (k : Nat) : Bool :=
  if fallow k then false
  else if k = 0 then true
  else s.lastRoundTime dom k / 5850 != s.timeAt dom (64 * k) / 5850

/-- The row of the opcode table that round `k` is (R310). -/
def State.roundEvent (s : State) (dom : Option Nat) (k : Nat) : Instr :=
  if fallow k then .fallowRound else if s.isRefresh dom k then .refreshRound else .activeRoundStart

/-- The slice follows its rounds while requests wait in it: its next round is put on the agenda. -/
def State.armSlice (s : State) (n : Nat) : State :=
  if (s.slice n).armed then s
  else
    let d := s.sliceDom n
    let k := s.count d / 64 + 1
    (s.modSlice n (fun x => { x with armed := true })).postAt d (s.timeAt d (64 * k)) (s.roundEvent d k) (args n)

/-- Does a claim hold round `k`? -/
def Slice.claimed (x : Slice) (k : Nat) : Bool := x.claims.any (fun c => c.rounds.contains k)

/-- The rounds that are claimed or reserved already, over which a new claim may have to look. -/
def Slice.roundsTaken (x : Slice) : Nat := x.claims.foldl (fun n c => n + c.rounds.length) x.reserved.length

/-- The first `n` active rounds from `k` on that hold no reserved slot and no claim, among the next `fuel` (R314). -/
def State.claimRounds (s : State) (dom : Option Nat) (x : Slice) : Nat → Nat → Nat → List Nat
  | 0, _, _ => []
  | fuel + 1, k, n =>
    if n = 0 then []
    else if fallow k || s.isRefresh dom k || x.claimed k || x.reserved.any (fun r => r.1 == k) then
      s.claimRounds dom x fuel (k + 1) n
    else k :: s.claimRounds dom x fuel (k + 1) (n - 1)

/-- Claim ⌈bytes ÷ 1,024⌉ rounds now (R314); the event falls due in the last cycle of the last of them, and `free`
cycles from now where the slice holds no byte of the pan and so claims no round. -/
def State.claim (s : State) (n base bytes free : Nat) (i : Instr) (o : Operands) : State :=
  let d := s.sliceDom n
  let need := (bytes + 1023) / 1024
  let x := s.slice n
  if need = 0 then s.post d free i o
  else
    let rounds := s.claimRounds d x (4 * (need + x.roundsTaken) + 4096) (s.count d / 64 + 1) need
    let last := rounds.getLastD (s.count d / 64)
    (s.modSlice n (fun x => { x with claims := x.claims ++ [{ base := base, rounds := rounds }] })).postAt d
      (s.timeAt d (64 * last + 63)) i o

/-- A claim ends. -/
def State.unclaim (s : State) (n base : Nat) : State :=
  s.modSlice n (fun x => { x with claims := x.claims.filter (fun c => c.base != base) })

/-! ## Requests -/

/-- The access of a strand that a request is part of, if it has several parts. -/
def State.manyParts (s : State) (r : Request) : Option (Nat × Nat × Nat × Far) :=
  match r.who with
  | .strand p k id j =>
    (((s.strand p k).far.find? (fun f => f.id == id)).filter (fun f => decide (1 < f.eas.length))).map
      (fun f => (p, k, j, f))
  | _ => none

/-- The refusal of element `j` of an access is noted as it is decided: a scattered store performs none of the elements
that are still to come (R141). -/
def State.noteRefusal (s : State) (r : Request) (c : BitVec 6) : State :=
  match s.manyParts r with
  | none => s
  | some (p, k, j, f) =>
    let t : Trap := { cause := c, value := BitVec.ofNat 64 r.va }
    let g : Far := match f.refused with
      | some (i, _) => if i ≤ j then f else { f with refused := some (j, t) }
      | none => { f with refused := some (j, t) }
    s.modStrand p k (fun x => { x with far := x.far.map (fun h => if h.id = f.id then g else h) })

/-- Is the request an element of a scattered store of which another element has been refused (R141)? -/
def State.abandoned (s : State) (r : Request) : Bool :=
  match s.manyParts r with
  | some (_, _, _, f) => f.refused.isSome
  | none => false

/-- A reply leaves a slice `after` cycles from now; `placed` says that the request was placed (R309, R312). -/
def State.sliceAnswer (s : State) (n : Nat) (placed : Bool) (r : Request) (x : Result) (after : Nat) : State :=
  let s := match x with
    | .nack c => s.noteRefusal r c
    | .ok _ _ => s
  let (id, s) := s.fresh
  (s.modSlice n (fun y => { y with outs := y.outs.set id { req := r, result := x, placed := placed } })).post (s.sliceDom n) after
    .sliceReply (args n id)

/-- Set a contributor's mark (R150). -/
def Slice.setMark (x : Slice) (base who : Nat) (w : Word) : Slice :=
  { x with marks := (x.marks.filter (fun m => !(m.1 == base && m.2.1 == who))) ++ [(base, who, w)] }

/-- The first contribution of a contributor creates its record, with no contribution performed yet (R306). -/
def Slice.openMark (x : Slice) (r : Request) : Slice :=
  match r.kind, x.panAt r.va with
  | .contribute _ _, some (_, e) =>
    let who := r.lcn * 8 + r.slot
    if (x.mark e.basep who).isNone then x.setMark e.basep who 0#64 else x
  | _, _ => x

/-- Check a translated request: none where it is refused, its NACK leaving in the next cycle; a contribution let in has
its record from now on (R306, R309). -/
def State.check (s : State) (n : Nat) (r : Request) : State × Bool :=
  match (s.slice n).refuses r with
  | some c => (s.sliceAnswer n false r (.nack c) 1, false)
  | none => (s.modSlice n (fun x => x.openMark r), true)

/-- A translated request is checked and waits for a round; while TRAIN = 1 it waits unchecked (R309, R311, R417). -/
def State.letIn (s : State) (n : Nat) (r : Request) : State :=
  let wait (s : State) (r : Request) : State :=
    (s.modSlice n (fun x => { x with queue := x.queue ++ [r] })).armSlice n
  if r.unchecked then wait s r
  else
    let t := s.check n r
    if t.2 then wait t.1 r else t.1

/-- Check the requests of the slice's queue that `due` names, in their order, and leave the refused ones out (R309,
R417). -/
def State.checkQueue (s : State) (n : Nat) (due : Request → Bool) : State :=
  (s.slice n).queue.foldl (fun t r =>
    if due r then
      let u := t.check n r
      u.1.modSlice n (fun x =>
        { x with queue := if u.2 then x.queue.map (fun q => if q.id = r.id then { q with unchecked := false } else q)
                          else x.queue.filter (fun q => q.id != r.id) })
    else t) s

/-- The TLB entry of an address: index and tag (R308). -/
def tlbIndex (va : Nat) : Nat := va / 2 ^ 21 % 2 ^ 12
def tlbTag (va : Nat) : Nat := va / 2 ^ 33 % 2 ^ 15

/-- A TLB miss: the request waits for the page's walk, which starts unless one runs (R308). -/
def State.missSlice (s : State) (n : Nat) (r : Request) : State :=
  let page := r.va % 2 ^ 48 / 2 ^ 21
  let d := s.sliceDom n
  let s' := s.modSlice n (fun x => { x with queue := x.queue ++ [{ r with walking := true }] })
  if (s.slice n).walks.any (fun w => w.1 == page) then s'
  else
    let s' := s'.modSlice n (fun x => { x with walks := (page, 0) :: x.walks })
    if (s.slice n).waits then s' else s'.post d 128 .tlbWalkEnd (args n page r.part)

/-- The reads of walks that waited for training to end are made (R308, R417). -/
def State.startWalks (s : State) (n : Nat) : State :=
  let d := s.sliceDom n
  (s.slice n).walks.foldl (fun s w =>
    let mine := (s.slice n).queue.find? (fun r => r.walking && r.va % 2 ^ 48 / 2 ^ 21 == w.1)
    let begun := s.agenda.any (fun e => e.event == .tlbWalkEnd && e.arg.a == n && e.arg.b == w.1)
    match mine with
    | some r => if begun then s else s.post d 128 .tlbWalkEnd (args n w.1 r.part)
    | none => s) s

/-- A request enters a slice (R308, R309, R311). -/
def State.enterSlice (s : State) (n : Nat) (r : Request) : State :=
  let d := s.sliceDom n
  let now := s.count d
  let s := s.modSlice n (fun x => { x with lastEntry := now + 1 })
  let (id, s) := s.fresh
  let x := s.slice n
  let r := { r with id := id, arrived := now, unchecked := x.waits }
  match Table.get? x.tlb (tlbIndex r.va) with
  | some (tag, f) =>
    if tag = tlbTag r.va then s.letIn n { r with frame := f * 2 ^ 21 + r.va % 2 ^ 21 } else s.missSlice n r
  | none => s.missSlice n r

/-! ## The two inputs -/

/-- The LCN that stands for a partition's host function (R413). -/
def hostLcn : Nat := 0x7F200

/-- The entry of the pan that covers an address, at the pan's table slice (R305). -/
def State.tableEntry (s : State) (sp va : Nat) : Option (Nat × Nat × PanEntry) :=
  match s.sliceOf sp va with
  | none => none
  | some n =>
    match (s.slice n).panAt va with
    | none => none
    | some (_, e) =>
      match s.sliceOf sp (e.basep * 2 ^ 21) with
      | none => none
      | some m => ((s.slice m).panAt va).map (fun r => (m, r.1, r.2))

/-- Is an operand of HOST_PAN_ACCESS a write of partition `sp` to an address in [lo, hi)? -/
def hostWrites (o : Operands) (sp lo hi : Nat) : Bool :=
  o.flag && o.a == sp && decide (lo ≤ o.b) && decide (o.b < hi)

/-- Has the host a request of partition `sp` to an address in [lo, hi) at a slice, not yet performed; with `writes`, a
write? -/
def State.hostAtSlice (s : State) (sp lo hi : Nat) (writes : Bool) : Bool :=
  let mine (q : Request) : Bool :=
    q.who == Requester.host && q.part == sp && decide (lo ≤ q.va) && decide (q.va < hi) &&
      (!writes || (match q.kind with
        | .write _ _ => true
        | _ => false))
  s.slices.any (fun e => e.2.queue.any mine || e.2.placed.any (fun x => mine x.2.req))

/-- Is a write of the host to the pan of a write that came over the link earlier, and is still to be performed (R413)? -/
def State.hostBehind (s : State) (o : Operands) (e : PanEntry) : Bool :=
  let lo := e.basep * 2 ^ 21
  let hi := lo + e.pages * 2 ^ 21
  o.flag && (s.hostAtSlice o.a lo hi true ||
    s.agenda.any (fun d => d.event == .hostPanAccess && d.phase == delayedPhase && decide (s.now < d.time) &&
      hostWrites d.arg o.a lo hi))

/-- Does the host spine hold a request that may enter slice `n` in this cycle (R311, R413)? -/
def State.hostAtLink (s : State) (n : Nat) : Bool :=
  s.agenda.any (fun d => d.event == .hostPanAccess && d.time == s.now && s.sliceOf d.arg.a d.arg.b == some n &&
    (match s.tableEntry d.arg.a d.arg.b with
     | some (_, _, e) => e.holder == hostLcn && !s.hostBehind d.arg e
     | none => false))

/-- Does the edge link hold a request for slice `n` in this cycle (R311)? -/
def State.edgeAtLink (s : State) (n : Nat) : Bool :=
  s.agenda.any (fun d => d.event == .sliceRequestArrival && d.time == s.now &&
    (match Table.get? s.packets d.arg.a with
     | some k => decide (k.dst = .slice n)
     | none => false))

/-- In cycle `k` both inputs hold a request: the one enters that did not at their last contest (R311). -/
def Slice.contend (x : Slice) (k : Nat) : Slice :=
  if x.contest ≠ k + 1 then { x with contest := k + 1, lastHost := !x.lastHost } else x

/-- A request from the host spine, or from the edge link, enters slice `n` as `enter` says, or is put off a cycle: where a
request has entered in this cycle, or the other input has won this cycle's contest (R311). A request that is put off goes
before the ones that arrive in the next cycle, so that requests enter in the order in which they came. -/
def State.atLink (s : State) (n : Nat) (host rival : Bool) (i : Instr) (enter : State → State) : State :=
  let d := s.sliceDom n
  let k := s.count d
  if (s.slice n).lastEntry = k + 1 then s.postDelayed d i s.arg
  else
    let t := if rival then s.modSlice n (fun x => x.contend k) else s
    if rival && (t.slice n).lastHost != host then t.postDelayed d i s.arg else enter t

/-- SLICE_REQUEST_ARRIVAL (R311): one request enters a slice per cycle; when the edge link and the host spine meet,
the one that did not enter at their last contest goes first. -/
def execSliceRequestArrival (s : State) : Host.Outcome State Fault Refusal :=
  let id := s.arg.a
  .next (match Table.get? s.packets id with
    | none => s
    | some k =>
      match k.dst, k.body with
      | .slice n, .request r =>
        s.atLink n false (s.hostAtLink n) .sliceRequestArrival (fun s => (s.dropPacket id).enterSlice n r)
      | _, _ => s.dropPacket id)

/-- A request of a slice's queue that waits for the walk of a page (R308). -/
def Request.walks (r : Request) (page : Nat) : Bool := r.walking && r.va % 2 ^ 48 / 2 ^ 21 == page

/-- A walk ends without a frame: its requests are refused, but those that arrived while TRAIN = 1 wait for it to end, and
their walk is made again then (R309, R417). -/
def State.walkFails (s : State) (n page : Nat) : State :=
  let x := s.slice n
  let stays (r : Request) : Bool := r.unchecked && x.waits
  let goes (r : Request) : Bool := r.walks page && !stays r
  let kept := x.queue.any (fun r => r.walks page && stays r)
  let s := s.modSlice n (fun x =>
    { x with
      queue := x.queue.filter (fun r => !goes r)
      walks := (if kept then [(page, 0)] else []) ++ x.walks.filter (fun w => w.1 != page) })
  (x.queue.filter goes).foldl (fun t r => t.sliceAnswer n false r (.nack 0x09#6) 1) s

/-- A walk ends with the page's frame: the TLB has it, and the waiting requests are checked, or wait for TRAIN to end
(R308, R309, R417). -/
def State.walkFills (s : State) (n page frame : Nat) : State :=
  let x := s.slice n
  let va := page * 2 ^ 21
  let now := s.count (s.sliceDom n)
  let mine := x.queue.filter (fun r => r.walks page)
  let due (r : Request) : Bool := mine.any (fun q => q.id == r.id) && !(r.unchecked && x.waits)
  ((s.modSlice n (fun x =>
    { x with
      tlb := x.tlb.set (tlbIndex va) (tlbTag va, frame), walks := x.walks.filter (fun w => w.1 != page)
      queue := x.queue.map (fun r =>
        if r.walks page then { r with walking := false, arrived := now, frame := frame * 2 ^ 21 + r.va % 2 ^ 21 }
        else r) })).checkQueue n due).armSlice n

/-- TLB_WALK_END (R308): a read of the walker ends. A second level is read next, unless training holds it back (R417);
after the last level the entry is filled, or the waiting requests are refused. -/
def execTlbWalkEnd (s : State) : Host.Outcome State Fault Refusal :=
  let n := s.arg.a
  let page := s.arg.b
  let sp := s.arg.c
  let x := s.slice n
  let read := ((x.walks.find? (fun w => w.1 == page)).map (·.2)).getD 0 + 1
  let w := s.walkPage n sp (page * 2 ^ 21)
  .next (if read < w.1 then
      let s := s.modSlice n (fun x =>
        { x with walks := x.walks.map (fun w => if w.1 = page then (page, read) else w) })
      if x.waits then s else s.post (s.sliceDom n) 128 .tlbWalkEnd (args n page sp)
    else
      match w.2 with
      | none => s.walkFails n page
      | some f => s.walkFills n page f)

/-! ## Placement -/

/-- The lowest slot from which `w` consecutive slots are free. -/
def freeSlots (used : List Nat) (w : Nat) : Option Nat :=
  (List.range 16).find? (fun j => decide (j + w ≤ 16) && (List.range w).all (fun i => !used.contains (j + i)))

/-- Does a later request join a group: the same kind, core and 256-byte range, another line, and no older unplaced
request to its line (R311)? -/
def joinsGroup (lead : Request) (taken : List Request) (older : List Request) (r : Request) : Bool :=
  let same : Bool := match lead.kind, r.kind with
    | .read _ _ _, .read _ _ _ => true
    | .write _ _, .write _ _ => true
    | _, _ => false
  same && r.lcn == lead.lcn && r.va / 256 == lead.va / 256 && taken.all (fun t => t.va / 64 != r.va / 64) &&
    older.all (fun o => !o.lines.contains (r.va / 64))

/-- Up to `fuel` later requests that join the group of `lead`; the rest keep their order. -/
def takeGroup (ok : Request → Bool) (lead : Request) : Nat → List Request → List Request → List Request →
    List Request × List Request
  | _, taken, older, [] => (taken, older)
  | fuel, taken, older, r :: rest =>
    if decide (0 < fuel) && ok r && joinsGroup lead (lead :: taken) older r then
      takeGroup ok lead (fuel - 1) (taken ++ [r]) older rest
    else takeGroup ok lead fuel taken (older ++ [r]) rest

/-- Place one group in slot `j`: each member's performance point is on the agenda (R311, R312). -/
def State.placeGroup (s : State) (n k j : Nat) (group : List Request) : State :=
  let d := s.sliceDom n
  (group.foldl (fun (t : State × Nat) r =>
    let (id, u) := t.1.fresh
    let p : Placed := { req := r, perform := 64 * k + 4 * j, member := t.2, width := r.kind.width }
    let u := u.modSlice n (fun x =>
      { x with
        placed := x.placed.set id p
        lines := if r.kind.reserves then x.lines ++ r.lines.map (fun l => (l, id)) else x.lines
        reserved := if r.kind.reserves then x.reserved ++ (List.range p.width).map (fun i => (k + 2, j + i))
          else x.reserved })
    (u.postAt d (u.timeAt d (64 * k + 4 * j)) .slotPerform (args n id), t.2 + 1)) (s, 0)).1

/-- Is the request a contribution? -/
def ReqKind.contributes : ReqKind → Bool
  | .contribute _ _ => true
  | _ => false

/-- Is the request a contribution behind one of the same strand that still waits (R142)? -/
def Request.behind (r : Request) (older : List Request) : Bool :=
  r.kind.contributes && older.any (fun o => o.kind.contributes && o.lcn == r.lcn && o.slot == r.slot)

/-- The first slot of round `k` behind the placed contributions of a contribution's strand, which are performed in issue
order (R142); 0 for other requests. -/
def Slice.firstSlot (x : Slice) (k : Nat) (r : Request) : Nat :=
  if r.kind.contributes then
    x.placed.foldl (fun m p =>
      if p.2.req.kind.contributes && p.2.req.lcn == r.lcn && p.2.req.slot == r.slot && p.2.perform / 64 == k then
        max m (p.2.perform % 64 / 4 + p.2.width) else m) 0
  else 0

/-- Place the waiting requests of a slice in round `k`, oldest first, with the used slots; `kept` are the older ones
passed over (R142, R311). -/
def State.placeAll (s : State) (n k : Nat) : Nat → List Nat → List Request → List Request → State
  | 0, _, kept, rest => s.modSlice n (fun x => { x with queue := kept ++ rest })
  | _, _, kept, [] => s.modSlice n (fun x => { x with queue := kept })
  | fuel + 1, used, kept, r :: rest =>
    let x := s.slice n
    let held (r : Request) : Bool := r.lines.any (fun l => x.lines.any (fun e => e.1 == l))
    let ready (r : Request) : Bool := !r.walking && !r.unchecked && decide (r.arrived < 64 * k) && !held r
    if !ready r || r.behind kept then s.placeAll n k fuel used (kept ++ [r]) rest
    else
      match freeSlots (List.range (x.firstSlot k r) ++ used) r.kind.width with
      | none => s.modSlice n (fun x => { x with queue := kept ++ r :: rest })
      | some j =>
        if r.kind.reserves then
          if x.claimed (k + 2) then s.modSlice n (fun x => { x with queue := kept ++ r :: rest })
          else
            (s.placeGroup n k j [r]).placeAll n k fuel (used ++ (List.range r.kind.width).map (fun i => j + i)) kept rest
        else
          let g := takeGroup ready r 3 [] kept rest
          let later := g.2.drop kept.length
          (s.placeGroup n k j (r :: g.1)).placeAll n k fuel (j :: used) kept later

/-- Is a pattern test still to begin (R418)? -/
def Slice.testDue (x : Slice) : Bool := x.tstat.getLsbD 0 && x.pending.isNone

/-- After a round the slice's next round is on the agenda while requests or a pattern test wait. -/
def State.rearm (s : State) (n : Nat) : State :=
  let s := s.modSlice n (fun x => { x with armed := false })
  if (s.slice n).queue = [] ∧ !(s.slice n).testDue then s else s.armSlice n

/-- The requests that waited for the end of training or of a service are checked, and placement and waiting walks begin
again (R417, R434). -/
def State.resumeSlice (s : State) (n : Nat) : State :=
  let s := (s.checkQueue n (fun r => r.unchecked && !r.walking)).startWalks n
  let s := s.modSlice n (fun x => { x with queue := x.queue.map (fun r => { r with unchecked := false }) })
  if (s.slice n).queue = [] then s else s.armSlice n

/-! ## Pattern tests -/

/-- TSTAT.HELD (R416, R417): TRAIN is 1 and no placed request awaits its reply. -/
def Slice.isHeld (x : Slice) : Bool := x.tctl.getLsbD 0 && x.placed == [] && x.outs.all (fun o => !o.2.placed)

/-- The delays of a lane as they are after reset (R416). -/
def ldlyReset : Word := 0x2020#64

/-- LDLY of a lane (R416). -/
def Slice.delayOf (x : Slice) (l : Nat) : Word := x.ldly.getD l ldlyReset

/-- Does physical lane `l` of a channel pass a test with the delays of R419: with SWEEP, TAP on the swept path? -/
def Slice.lanePass (x : Slice) (n l : Nat) : Bool :=
  let w := x.delayOf l
  let tap := (x.tctl.extractLsb' 2 6).toNat
  let sweep := x.tctl.getLsbD 8
  let dir := x.tctl.getLsbD 1
  let rd := if sweep && !dir then tap else (w.extractLsb' 0 6).toNat
  let wr := if sweep && dir then tap else (w.extractLsb' 8 6).toNat
  Config.lanePasses n l 0 rd && Config.lanePasses n l 1 wr

/-- The words of the 64 lines of a test, in ascending address order: the states of the generator of R54 stepped from
SEED (R418). -/
def testWords : Nat → Word → List Word
  | 0, _ => []
  | n + 1, x =>
    let y := (srngStep x).1
    y :: testWords n y

/-- The lanes among 0 to 63 that fail a test on their own path: a spare in use stands for its lane (R420). -/
def Slice.badLanes (x : Slice) (n : Nat) : Word :=
  let l0 := (x.repair.extractLsb' 0 6).toNat
  let l1 := (x.repair.extractLsb' 8 6).toNat
  let v0 := x.repair.getLsbD 6
  let v1 := x.repair.getLsbD 14
  let ok (l : Nat) : Bool :=
    if v0 && l == l0 then x.lanePass n 64 else if v1 && l == l1 then x.lanePass n 65 else x.lanePass n l
  BitVec.ofNat 64 ((List.range 64).foldl (fun a l => if ok l then a else a + 2 ^ l) 0)

/-- The lines of the test's row as a test reads them back: each bit that a failing lane carried has changed (R418,
R419). -/
def Slice.readRow (x : Slice) (n : Nat) : List Word := x.testRow.map (· ^^^ x.badLanes n)

/-- The test's write round: the row holds the lines formed from SEED (R418). -/
def Slice.writeRow (x : Slice) : Slice := { x with testRow := testWords 512 x.seed }

/-- PASS0 and PASS1 of a test: bit `l` is 1 if every bit that lane `l` carried compared equal; a spare that is in use
reports in its lane's bit, and its own bit reads 1 (R418, R420). -/
def Slice.testResult (x : Slice) (n : Nat) : Word × Word :=
  let v0 := x.repair.getLsbD 6
  let v1 := x.repair.getLsbD 14
  let differ := ((x.readRow n).zip (testWords 512 x.seed)).foldl (fun a p => a ||| (p.1 ^^^ p.2)) 0#64
  (~~~differ,
    BitVec.ofNat 64 ((if v0 || x.lanePass n 64 then 1 else 0) + (if v1 || x.lanePass n 65 then 2 else 0)))

/-- The taps at which a lane passes on one path (0 read, 1 write) while the other path keeps its reset delay of 32: the
sweep of the training program (R419, R422). -/
def sweptTaps (n l path : Nat) : List Nat :=
  (List.range 64).filter (fun t => Config.lanePasses n l path t && Config.lanePasses n l (1 - path) 32)

/-- The middle of a lane's eye, from the first to the last passing tap (R414, R422). -/
def eyeCentre (taps : List Nat) : Nat := (taps.headD 0 + taps.getLastD 0) / 2

/-- A lane is dead: on some path it passes at no tap (R414, R422). -/
def laneDead (n l : Nat) : Bool := sweptTaps n l 0 == [] || sweptTaps n l 1 == []

/-- Does a lane pass the confirmation test, with its delays in the middle of its eyes (R419, R422)? -/
def laneConfirms (n l : Nat) : Bool :=
  Config.lanePasses n l 0 (eyeCentre (sweptTaps n l 0)) && Config.lanePasses n l 1 (eyeCentre (sweptTaps n l 1))

/-- Does the training program pass on channel `n` (Program: Training One HBM4 Channel): no spare lane dead, at most one
lane dead in each group of 32, and every lane in use confirmed? -/
def trainingPasses (n : Nat) : Bool :=
  let dead := (List.range 64).filter (laneDead n)
  !laneDead n 64 && !laneDead n 65 && decide ((dead.filter (fun l => decide (l < 32))).length ≤ 1) &&
    decide ((dead.filter (fun l => decide (32 ≤ l))).length ≤ 1) && laneConfirms n 64 && laneConfirms n 65 &&
    (List.range 64).all (fun l => dead.contains l || laneConfirms n l)

/-- The training of a channel has passed its confirmation test and released the slice (R414, R423). -/
def Slice.confirmed (x : Slice) : Bool := !x.tctl.getLsbD 0 && x.pass0 == ~~~0#64 && x.pass1 == 3#64

/-- Step 4 of the bring-up marks a channel unusable: its training trapped, and so left TRAIN set, or it ran where the model
shows no strand, and does not pass (R424). -/
def Slice.unusable (x : Slice) (n : Nat) : Bool := x.tctl.getLsbD 0 || (!x.confirmed && !trainingPasses n)

/-- The claim that holds the two rounds of a pattern test. -/
def testClaim : Nat := 2 ^ 60

/-- The test takes round `k` as its write round and the next active round as its read round; its results take effect
176 cycles after the read round begins (R418). -/
def State.startTest (s : State) (n k : Nat) : State :=
  let d := s.sliceDom n
  let x := s.slice n
  let r1 := (s.claimRounds d x (4 * x.roundsTaken + 4096) (k + 1) 1).getLastD (k + 1)
  (s.modSlice n (fun x => { x.writeRow with
    pending := some (x.writeRow.testResult n), claims := x.claims ++ [{ base := testClaim, rounds := [k, r1] }] })).postAt d
    (s.timeAt d (64 * r1 + 176)) .patternTestResult (args n)

/-- Does a contribution to the pan of base page `basep` that the slice has let in still wait for its round (R149, R321)? -/
def Slice.contributing (x : Slice) (basep : Nat) : Bool :=
  x.queue.any (fun r => r.kind.contributes && !r.walking && !r.unchecked &&
    (match x.panAt r.va with
     | some (_, e) => e.basep == basep
     | none => false))

/-- Sealed pans whose conversion waits for contributions begin it once the slice has placed them all (R149, R314, R321). -/
def State.sealWaits (s : State) (n : Nat) : State :=
  let x := s.slice n
  x.pans.foldl (fun t p =>
    match p.2.sealing with
    | some pkt =>
      if p.2.isSealed && !x.contributing p.2.basep && x.claims.all (fun c => c.base != p.2.basep * 2 ^ 21) then
        t.post (s.sliceDom n) 0 .sealBegin (args n (p.2.basep * 2 ^ 21) pkt)
      else t
    | none => t) s

/-- ACTIVE_ROUND_START (R311): the slice places waiting requests, unless the round is claimed or training holds it
(R314, R417). -/
def execActiveRoundStart (s : State) : Host.Outcome State Fault Refusal :=
  let n := s.arg.a
  let k := s.count (s.sliceDom n) / 64
  let x := s.slice n
  .next ((if x.claimed k then s
    else if x.testDue && x.isHeld then s.startTest n k
    else if x.waits then s
    else (s.placeAll n k (x.queue.length + 1) ((x.reserved.filter (fun r => r.1 == k)).map (·.2)) [] x.queue).sealWaits
      n).rearm n)

/-- FALLOW_ROUND (R310): bus turnaround; no slot is placed. -/
def execFallowRound (s : State) : Host.Outcome State Fault Refusal := .next (s.rearm s.arg.a)

/-- REFRESH_ROUND (R310): no slot is placed. -/
def execRefreshRound (s : State) : Host.Outcome State Fault Refusal := .next (s.rearm s.arg.a)

/-! ## Performing requests -/

/-- The lanes of a contribution as exact values (R149). -/
def laneValues (l : BitVec 2) (x : BitVec 512) : List FVal :=
  let f := if l = 0#2 then fp32 else if l = 1#2 then bf16 else fp16
  let w := if l = 0#2 then 32 else 16
  (List.range (512 / w)).map (fun i => f.decode (x.extractLsb' (w * i) w).toNat)

/-- One element of an accumulate pan with a value added (R56, R149). -/
def addElement (f : BitVec 2) (old : List Byte) (v : FVal) : List Byte :=
  if f = 2#2 then ((Xs.ofBytes old).add v).bytes
  else
    let t := if f = 0#2 then fp32 else bf16
    natBytes (t.bits / 8) (t.add (rndOf 0) (t.decode (bytesNat old)) v).1

/-- The element formats of MX records: 1 E4M3, 2 E5M2, 3 E2M1 (R151). -/
def mxFmt (n : Nat) : Fmt := if n = 1 then e4m3 else if n = 2 then e5m2 else e2m1

/-- The 32 element codes of an MX block (R30, R151). -/
def mxElements (n : Nat) (x : Nat) : List Nat :=
  if n = 3 then (List.range 32).map (fun i => x / 2 ^ (4 * i) % 16) else (List.range 32).map (fun i => x / 2 ^ (8 * i) % 256)

/-- Elements packed (R30). -/
def mxPack (n : Nat) (e : List Nat) : List Byte :=
  if n = 3 then natBytes 32 (e.foldr (fun c t => c + 16 * t) 0) else natBytes 32 (e.foldr (fun c t => c + 256 * t) 0)

/-- An MX record after a contribution; none where the record breaks its layout (R151, R152). -/
def mxContribute (old : List Byte) (fi : Nat) (scale : Nat) (x : BitVec 512) : Option (List Byte) :=
  let fmt := bytesNat ((old.drop 33).take 1)
  let count := bytesNat ((old.drop 36).take 3)
  if 4 ≤ fmt ∨ bytesNat ((old.drop 34).take 2) ≠ 0 ∨ bytesNat (old.drop 39) ≠ 0 then none
  else
    let xs := (mxElements fi (x.toNat % 2 ^ 256)).map (fun e => mxValue (mxFmt fi) scale e)
    let ys := if fmt = 0 then xs.map (fun _ => FVal.fin false 0 0)
      else (mxElements fmt (bytesNat (old.take 32))).map (fun e =>
        mxValue (mxFmt fmt) (bytesNat ((old.drop 32).take 1)) e)
    let fo := if fmt = 0 then fi else fmt
    let sums := (xs.zip ys).map (fun p => (FVal.add (rndOf 0) p.1 p.2).1)
    let r := mxEncode (mxFmt fo) (rndOf 0) sums
    some (mxPack fo r.2.1 ++ natBytes 1 r.1 ++ natBytes 1 fo ++ natBytes 2 0 ++
      natBytes 4 (if count + 1 ≤ 0xFFFFFF then count + 1 else 0xFFFFFF) ++ natBytes 24 0)

/-- The bytes that a reservation writes, from the bytes it read; none where a contribution is refused (R146, R148,
R149, R152). -/
def reserveWrite (k : ReqKind) (old : List Byte) : Option (List Byte) :=
  match k with
  | .amo op bits b e => some (natBytes (bits / 8) (atomic op bits (bytesNat old) b.toNat e.toNat).1)
  | .vamo op bits b => some (vectorAtomic op bits old ((vecBytes b).take 32))
  | .contribute (.acc f l x) _ =>
    let sz := if f = 0#2 then 4 else if f = 1#2 then 2 else 48
    let vs := laneValues l x
    some ((List.range vs.length).flatMap (fun i => addElement f ((old.drop (sz * i)).take sz) (vs.getD i .nan)))
  | .contribute (.mx fmt scale x) _ => mxContribute old fmt scale.toNat x
  | _ => some old

/-- Does a reservation write: a `cas` only where memory holds the expected value (R146)? -/
def ReqKind.writes (k : ReqKind) (old : List Byte) : Bool :=
  match k with
  | .amo op bits b e => (atomic op bits (bytesNat old) b.toNat e.toNat).2
  | _ => true

/-- Drop the record of a contributor none of whose contributions is performed or waiting: a refused contribution has no
effect (R306, R309). -/
def Slice.dropMark (x : Slice) (r : Request) : Slice :=
  match r.kind, x.panAt r.va with
  | .contribute _ _, some (_, e) =>
    let who := r.lcn * 8 + r.slot
    let same (q : Request) : Bool :=
      q.id != r.id && q.kind.contributes && q.lcn == r.lcn && q.slot == r.slot && e.covers q.va
    if x.mark e.basep who == some 0#64 && !(x.queue.any same || x.placed.any (fun p => same p.2.req)) then
      { x with marks := x.marks.filter (fun m => !(m.1 == e.basep && m.2.1 == who)) }
    else x
  | _, _ => x

/-- Is the contribution at or below its contributor's mark (R150)? -/
def Slice.repeated (x : Slice) (r : Request) : Bool :=
  match r.kind, x.panAt r.va with
  | .contribute _ q, some (_, e) =>
    match x.mark e.basep (r.lcn * 8 + r.slot) with
    | some m => decide (q.toNat ≤ m.toNat)
    | none => false
  | _, _ => false

/-- Is a placed write or atomic one of a pan that has been frozen since the slice let it in? Frozen pans are never written,
and keep their contents as they stood at the freeze (R323, R324). -/
def Slice.frozen (x : Slice) (r : Request) : Bool :=
  match r.kind, x.panAt r.va with
  | .write _ _, some (_, e) | .amo _ _ _ _, some (_, e) | .vamo _ _ _, some (_, e) => e.kind == 3
  | _, _ => false

/-- The reservations of the pan of base page `basep` that have been performed are written now, before their reserved
rounds: what reads the pan as it stands at a freeze or at the end of a seal finds them (R321, R323). -/
def State.flushHeld (s : State) (n basep : Nat) : State :=
  (s.slice n).placed.foldl (fun t p =>
    match (s.slice n).panAt p.2.req.va, Table.get? (s.slice n).held p.1 with
    | some (_, e), some b =>
      if e.basep = basep then
        (t.hbmWrite (hbmKey n p.2.req.frame) b).modSlice n (fun x => { x with held := x.held.erase p.1 })
      else t
    | _, _ => t) s

/-- Charge the HBM meter 64 per line of a request, to the owner of the job that asked (R432). -/
def State.chargeLines (s : State) (r : Request) : State := s.chargeOwner r.payer .hbm (64 * r.lines.length)

/-- SLOT_PERFORM (R147, R150, R312): a read or write takes effect; a reservation reads, and its write and reply are on
the agenda. A write to a pan frozen meanwhile is refused (R324). -/
def execSlotPerform (s : State) : Host.Outcome State Fault Refusal :=
  let n := s.arg.a
  let id := s.arg.b
  let x := s.slice n
  let d := s.sliceDom n
  .next (match Table.get? x.placed id with
    | none => s
    | some p =>
      let key := hbmKey n p.req.frame
      let len := p.req.kind.bytes
      let old := s.hbm.readN key len
      let tag := NatSet.has s.hbmTags (key / 16)
      let gone (s : State) : State := s.modSlice n (fun x => { x with placed := x.placed.erase id })
      match p.req.kind with
      | .read _ cap keep =>
        let takes := cap && !keep && tag && linearKind ((old.getD 9 0#8).toNat / 16) &&
          decide ((old.getD 10 0#8).toNat % 64 ≤ 43)
        let s := (if takes then { s with hbmTags := NatSet.remove s.hbmTags (key / 16) } else s).chargeLines p.req
        (gone s).sliceAnswer n true p.req (.ok old (cap && tag)) (112 + p.member)
      | .write b t =>
        if x.frozen p.req then (gone s).sliceAnswer n true p.req (.nack 0x06#6) (48 + p.member)
        else
          let done := s.hbmWrite key b
          let done := if t then { done with hbmTags := NatSet.insert done.hbmTags (key / 16) } else done
          let s := if s.abandoned p.req then s else done.chargeLines p.req
          (gone s).sliceAnswer n true p.req (.ok [] false) (48 + p.member)
      | k =>
        let out : Result := .ok (match k with | .contribute _ _ => [] | _ => old) false
        let reply := 4 * (p.width - 1) + 176
        let s := s.chargeLines p.req
        let s :=
          if x.frozen p.req then s.sliceAnswer n true p.req (.nack 0x06#6) reply
          else if x.repeated p.req || !k.writes old then s.sliceAnswer n true p.req out reply
          else
            match reserveWrite k old with
            | none => (s.modSlice n (fun x => x.dropMark p.req)).sliceAnswer n true p.req (.nack 0x06#6) reply
            | some b =>
              let s := s.modSlice n (fun x =>
                let x := { x with held := x.held.set id b }
                match k, x.panAt p.req.va with
                | .contribute _ q, some (_, e) => x.setMark e.basep (p.req.lcn * 8 + p.req.slot) q
                | _, _ => x)
              s.sliceAnswer n true p.req out reply
        s.post d 128 .reservedWrite (args n id))

/-- RESERVED_WRITE (R147): the write of a reservation, in its reserved slot; the line is free again. The elements of a `vamo`
are written together, the model's choice (R148, log entry 117). -/
def execReservedWrite (s : State) : Host.Outcome State Fault Refusal :=
  let n := s.arg.a
  let id := s.arg.b
  let x := s.slice n
  .next (match Table.get? x.placed id with
    | none => s
    | some p =>
      let j := p.perform % 64 / 4
      let s := s.modSlice n (fun x =>
        { x with
          placed := x.placed.erase id, held := x.held.erase id, lines := x.lines.filter (fun l => l.2 != id)
          reserved := x.reserved.filter (fun r =>
            !(r.1 == p.perform / 64 + 2 && decide (j ≤ r.2) && decide (r.2 < j + p.width))) })
      match Table.get? x.held id with
      | none => s
      | some b => s.hbmWrite (hbmKey n p.req.frame) b)

/-- SLICE_REPLY (R312, R313): the reply leaves the slice for the core, the CPE or the cache that asked. -/
def execSliceReply (s : State) : Host.Outcome State Fault Refusal :=
  let n := s.arg.a
  let id := s.arg.b
  .next (match Table.get? (s.slice n).outs id with
    | none => s
    | some o =>
      let s := s.modSlice n (fun x => { x with outs := x.outs.erase id })
      match o.req.who with
      | .host => s
      | w => s.sendSlice n true o.req.part o.req.lcn 1 (.reply w o.result) 0)

/-! ## Seals -/

/-- The 2 KiB blocks of a pan that lie on a slice, by address, ascending (R303). -/
def State.blocksOn (s : State) (n sp : Nat) (e : PanEntry) : List Nat :=
  ((List.range (e.pages * 1024)).map (fun i => e.basep * 2 ^ 21 + 2048 * i)).filter (fun a => s.sliceOf sp a == some n)

/-- The pan's bytes on a slice (R314). -/
def State.bytesOn (s : State) (n sp : Nat) (e : PanEntry) : Nat := 2048 * (s.blocksOn n sp e).length

/-- The bytes that a seal leaves of one element: its value in the result format, then zeros (R154). -/
def sealElement (fmt res mode : Nat) (old : List Byte) : List Byte :=
  if res = 2 ∨ fmt = 3 ∨ (res = 0 ∧ fmt ≤ 1) ∨ (res = 1 ∧ fmt = 1) then old
  else
    let t := if res = 0 then fp32 else bf16
    let v := if fmt = 2 then ((Xs.ofBytes old).read t (rndOf mode)).1
      else (t.narrow (rndOf mode) (fp32.decode (bytesNat old)) 0).1
    natBytes (t.bits / 8) v ++ natBytes (old.length - t.bits / 8) 0

/-- Element size of a pan's format (R149, R151). -/
def elementSize (fmt : Nat) : Nat := if fmt = 0 then 4 else if fmt = 1 then 2 else if fmt = 2 then 48 else 64

/-- The elements of a pan that lie whole in a block, by address (R154, R303). -/
def elementsIn (e : PanEntry) (a : Nat) : List Nat :=
  let sz := elementSize e.fmt
  let base := e.basep * 2 ^ 21
  let i0 := (a - base + sz - 1) / sz
  ((List.range (2048 / sz + 1)).map (fun i => base + (i0 + i) * sz)).filter (fun x => decide (x + sz ≤ a + 2048))

/-- Convert the elements of a pan on a slice (R154). -/
def State.convert (s : State) (n sp : Nat) (e : PanEntry) (res mode : Nat) : State :=
  (s.blocksOn n sp e).foldl (fun s a =>
    (elementsIn e a).foldl (fun s x =>
      match s.keyOf sp x with
      | none => s
      | some k => { s with hbm := s.hbm.writeN k (sealElement e.fmt res mode (s.hbm.readN k (elementSize e.fmt))) }) s) s

/-- Zero a pan's bytes on a slice (R228). -/
def State.zeroPan (s : State) (n sp : Nat) (e : PanEntry) : State :=
  (s.blocksOn n sp e).foldl (fun s a =>
    match s.keyOf sp a with
    | none => s
    | some k => { s with hbm := s.hbm.filter (fun c => decide (c.1 < k) || decide (k + 2048 ≤ c.1)) }) s

/-- Clear the tags of a pan's granules on a slice (R134, R228). -/
def State.clearPanTags (s : State) (n sp : Nat) (e : PanEntry) : State :=
  (s.blocksOn n sp e).foldl (fun s a =>
    match s.keyOf sp a with
    | none => s
    | some k => { s with hbmTags := s.hbmTags.filter (fun g => decide (16 * g < k) || decide (k + 2048 ≤ 16 * g)) }) s

/-! ## Entering pans -/

/-- Every slice has accepted a `pmint`: this one enters the pan, its granules' tags clear (R134), and an accumulate pan
reads zero (R228). -/
def State.enterMint (s : State) (n sp op : Nat) : State :=
  match (s.slice n).mints.find? (fun m => m.op == op) with
  | none => s
  | some m =>
    let s := (s.modSlice n (fun x => { x.dropMint op with pans := x.pans.set m.entry m.pan })).clearPanTags n sp m.pan
    if m.pan.kind = 5 then s.zeroPan n sp m.pan else s

end Sys2Proof.Machine
end

