-- ==== Sys2Proof/Machine/Copy.lean ====
section
/-! DEFINITION. The copy engine: turns, copies between windows, pans and host memory, and bulk pulls (R200, R203, R219,
R249 to R251). -/

namespace Sys2Proof.Machine

/-! ## What a copy moves -/

/-- The byte offset in a canonical matrix of `cols` columns (a multiple of 32) of byte `o` of element (r, c) (R233). -/
def canonicalOffset (cols e r c o : Nat) : Nat :=
  (r / 32 * (cols / 32) + c / 32) * (1024 * e) + (r % 32 * 32 + c % 32) * e + o

/-- The element (r, c) and the byte in it that stand at byte `i` of a canonical matrix (R233). -/
def canonicalAt (cols e i : Nat) : Nat × Nat × Nat :=
  let t := i / (1024 * e)
  let j := i % (1024 * e) / e
  (t / (cols / 32) * 32 + j / 32, t % (cols / 32) * 32 + j % 32, i % e)

/-- The source offset of destination byte `i`; none for padding (R250). -/
def CpeJob.sourceOf (j : CpeJob) (i : Nat) : Option Nat :=
  let e := j.elem
  let rowByte (r c o : Nat) : Nat := r * j.stride + c * e + o
  match j.op with
  | 0 =>
    let w := j.cols * e
    some (i / w * j.stride + i % w)
  | 1 =>
    let cols := if j.pad then up32 j.cols else j.cols
    let (r, c, o) := canonicalAt cols e i
    if r < j.rows ∧ c < j.cols then some (rowByte r c o) else none
  | 2 =>
    let w := j.cols * e
    some (canonicalOffset j.cols e (i / w) (i % w / e) (i % e))
  | _ =>
    let w := j.rows * e
    some (rowByte (i % w / e) (i / w) (i % e))

/-- The bytes of a copy's destination, given the source's bytes by their offsets (R250). -/
def CpeJob.gather (j : CpeJob) (i n : Nat) (src : Nat → Byte) : List Byte :=
  (List.range n).map (fun k =>
    match j.sourceOf (i + k) with
    | some o => src o
    | none => 0#8)

/-- Put a number into a rising list without repeats, from the end where it mostly belongs. -/
def addLine (t : NatSet) (l : Nat) : NatSet :=
  match t.getLast? with
  | some m => if m < l then t ++ [l] else NatSet.insert t l
  | none => [l]

/-- The 64-byte lines of the source's rows, ascending, each once (R250, R251). -/
def CpeJob.sourceLines (j : CpeJob) : List Nat :=
  let rows := if j.op = 2 then [(0, j.rows * j.cols * j.elem)]
    else (List.range j.rows).map (fun r => (r * j.stride, j.cols * j.elem))
  rows.foldl (fun t r =>
    let a := j.src.addr + r.1
    (List.range ((a + r.2 - 1) / 64 - a / 64 + 1)).foldl (fun t i => addLine t (a / 64 + i)) t) []

/-- The pieces of the destination that lie in one 64-byte line each: address, first byte and number of bytes. -/
def linePieces : Nat → Nat → Nat → Nat → List (Nat × Nat × Nat)
  | 0, _, _, _ => []
  | fuel + 1, a, i, n =>
    if n = 0 then []
    else
      let m := min n (64 - a % 64)
      (a, i, m) :: linePieces fuel (a + m) (i + m) (n - m)

/-- The pieces of a copy's destination. -/
def CpeJob.pieces (j : CpeJob) : List (Nat × Nat × Nat) := linePieces (j.dstBytes / 64 + 2) j.dst.addr 0 j.dstBytes

/-! ## Turns -/

/-- Change the transfer in progress. -/
def State.modTransfer (s : State) (blk : Nat) (f : Transfer → Transfer) : State :=
  s.modBlock blk (fun b => { b with cpe := { b.cpe with current := b.cpe.current.map f } })

/-- The job of a queue entry. -/
def Cpe.job (c : Cpe) (i : Nat) : Option CpeJob := (c.entries.getD i Entry.unused).job

/-- Post the writes of the chunks of a scratchpad destination, `first` cycles from now on, one a cycle. -/
def State.postChunks (s : State) (blk turn first chunks : Nat) : State :=
  (List.range chunks).foldl (fun s m => s.postCore (8 * blk) (first + m) .cpeChunkWrite (args blk m turn)) s

/-- A line request of the CPE for a lane's transfer, `after` cycles from now (R251). -/
def State.cpeRequest (s : State) (blk lane turn j va : Nat) (kind : ReqKind) (host : Bool) (after : Nat) : State :=
  let p := s.lanePhys blk lane
  let sp := (s.partOf p).getD 31
  let r : Request :=
    { id := 0, who := .cpe blk turn j, lcn := (s.core p).lcn, slot := 0, part := sp, va := va, kind := kind, arrived := 0
      walking := false, frame := 0, host := host, unchecked := false, payer := s.ownerOf p }
  s.sendFrom p true (if host then .host else .slice ((s.sliceOf sp va).getD 0)) 1 (.request r) after

/-- Byte `o` of a window at an address, as an engine reads it in cycle `k` (R316). -/
def Core.windowByte (c : Core) (k addr o : Nat) : Byte := (c.readEngine k ((addr + o) % 2 ^ 18) 1).headD 0#8

/-- Begin a copy job (R251). -/
def State.beginCopy (s : State) (blk lane i : Nat) (j : CpeJob) : State :=
  let q := s.countCore (8 * blk)
  let p := s.lanePhys blk lane
  let n := j.dstBytes
  let chunks := (n + 127) / 128
  let t : Transfer :=
    { work := .job i, lane := lane, turn := q, bytes := [], addrs := [], left := 0, lines := [], refused := false
      chunks := chunks, stopped := none, last := 0 }
  let s := s.modBlock blk (fun b =>
    let e := b.cpe.entries.getD i Entry.unused
    { b with cpe := { b.cpe with entries := b.cpe.entries.set i { e with state := .running } } })
  let start (t : Transfer) (s : State) : State :=
    s.modBlock blk (fun b => { b with cpe := { b.cpe with current := some t } })
  if j.dst.kind ≠ 1 then
    let ps := j.pieces
    (List.range ps.length).foldl
      (fun s m => s.postCore (8 * blk) m .cpeChunkWrite { args blk m q with flag := true })
      (start { t with left := ps.length } s)
  else if j.src.kind = 1 then
    let bytes := j.gather 0 n ((s.core p).windowByte q j.src.addr)
    ((start { t with bytes := bytes } s).postChunks blk q 4 chunks).postCore (8 * blk) (4 + chunks) .cpeJobCompletion
      (args blk q)
  else
    let ls := j.sourceLines
    ls.zipIdx.foldl (fun s l => s.cpeRequest blk lane q l.2 (64 * l.1) (.read 64 false false) (j.src.kind == 0xB) l.2)
      (start { t with addrs := ls, left := ls.length } s)

/-- Begin a bulk pull (R200, R203): its request goes to the sender's lane over MNet. With the data's way back it is complete
at q + 20 + 4h + 2X + ⌈n ÷ 128⌉ where nothing waits, the granules written in its last cycles. -/
def State.beginPull (s : State) (blk lane : Nat) (w : CpeWork) (h src n : Nat) : State :=
  let p := s.lanePhys blk lane
  let t : Transfer :=
    { work := w, lane := lane, turn := s.countCore p, bytes := [], addrs := [], left := 0, lines := [], refused := false
      chunks := (n + 127) / 128, stopped := none, last := 0 }
  let s := s.modBlock blk (fun b => { b with cpe := { b.cpe with current := some t } })
  s.sendFrom p true (.lane src) 0 (.leg .pullCompletion { args 0 h t.turn p with flag := true, w := 1#64 }) 0

/-- Begin a crystal read (R219): the core issues again when the CPE has read the bytes, which go to the buddy over MNet; its
acknowledgement comes back over CNet, ⌈B ÷ 128⌉ + 15 + 2h_m + X_m + 2h + X cycles from the turn on where nothing waits. -/
def State.beginCrystal (s : State) (blk lane : Nat) : State :=
  let p := s.lanePhys blk lane
  let bytes := (s.core p).crystal.bytes
  let t : Transfer :=
    { work := .crystal, lane := lane, turn := s.countCore p, bytes := [], addrs := [], left := 0, lines := []
      refused := false, chunks := (bytes + 127) / 128, stopped := none, last := 0 }
  let s := s.modBlock blk (fun b => { b with cpe := { b.cpe with current := some t } })
  let s := s.postCore p t.chunks .cpeJobCompletion (args blk t.turn)
  match s.buddyOf p with
  | none => s.postCore p t.chunks .crystalCurrent (args p)
  | some b =>
    s.sendFrom p true (.lane (s.core b).lcn) t.chunks (.leg .crystalCurrent { args 0 p with flag := true }) 0

/-- Begin the reload of a substitute (R383): its line requests leave one a cycle. -/
def State.beginReload (s : State) (blk lane : Nat) (pairs : List (Nat × Nat × Nat)) : State :=
  let q := s.countCore (8 * blk)
  let ls := pairs.flatMap (fun p => (List.range (p.2.2 / 64)).map (fun i => p.1 / 64 + i))
  let t : Transfer :=
    { work := .reload pairs, lane := lane, turn := q, bytes := [], addrs := ls, left := ls.length, lines := []
      refused := false, chunks := 0, stopped := none, last := 0 }
  let s := s.modBlock blk (fun b => { b with cpe := { b.cpe with current := some t } })
  if ls = [] then s.postCore (8 * blk) 0 .cpeJobCompletion (args blk q)
  else ls.zipIdx.foldl (fun s l => s.cpeRequest blk lane q l.2 (64 * l.1) (.read 64 false false) false l.2) s

/-- The 128-byte chunks of a reload: destination, first byte and bytes. -/
def reloadChunks : List (Nat × Nat × Nat) → Nat → List (Nat × Nat × Nat)
  | [], _ => []
  | (_, dst, n) :: rest, o =>
    (List.range ((n + 127) / 128)).map (fun m => (dst + 128 * m, o + 128 * m, min 128 (n - 128 * m))) ++
      reloadChunks rest (o + n)

/-- The substitute of a lane runs with every slot empty and every end free; unless the retirement is hidden a record of
TYPE 0x04 names it, and the lane's packets go on (R364, R386). -/
def State.startEmpty (s : State) (p : Nat) : State :=
  let c := s.core p
  let s := s.setCore p { c with slots := [], ends := [], crystal := Crystal.none, run := .run, replaces := none }
  let s := match c.replaces with
    | some (old, false) => s.postRecord ((s.partOf p).getD 31) 4 (recordEntry c.lcn 0 (old + p % 8 * 8) 0)
    | _ => s
  (s.rescan.finishCheck p).askBuddies p

/-- Does an address lie in a frozen pan (R309, R383)? -/
def State.inFrozen (s : State) (sp va : Nat) : Bool :=
  match s.sliceOf sp va with
  | some n => (match (s.slice n).panAt va with | some (_, e) => decide (e.kind = 3) | none => false)
  | none => false

/-- CPE_TURN (R249): the free CPE takes the oldest work of the next lane that has any. -/
def execCpeTurn (s : State) : Host.Outcome State Fault Refusal :=
  let blk := s.arg.a
  let b := s.block blk
  .next (if b.cpe.current.isSome then s
    else
      match (lanesAfter b.cpe.lastServed).find? (fun l => b.cpe.work.getD l [] != [] && !s.laneStopped blk l) with
      | none => s
      | some l =>
        let ws := b.cpe.work.getD l []
        let s := s.setBlock blk { b with cpe := { b.cpe with work := b.cpe.work.set l (ws.drop 1), lastServed := l } }
        match ws.head? with
        | some (_, .job i) =>
          match b.cpe.job i with
          | some j => s.beginCopy blk l i j
          | none => s.cpeKick blk
        | some (_, .pull h src base n dst k) => s.beginPull blk l (.pull h src base n dst k) h src n
        | some (_, .crystal) => s.beginCrystal blk l
        | some (_, .reload pairs) => s.beginReload blk l pairs
        | none => s)

/-! ## Replies, chunks and completion -/

/-- The source byte of a transfer at an offset, from the lines received. -/
def Transfer.byteAt (t : Transfer) (addr : Nat) : Byte :=
  match t.addrs.findIdx? (· == addr / 64) with
  | some j => (t.lines.getD j []).getD (addr % 64) 0#8
  | none => 0#8

/-- CPE_LINE_REPLY (R251): after the last reply the chunks are written, or the job faults; a reload with a line outside
a frozen pan is aborted (R383, R386). -/
def execCpeLineReply (s : State) : Host.Outcome State Fault Refusal :=
  let pkt := s.arg.a
  .next (match Table.get? s.packets pkt with
    | none => s
    | some q =>
      let s := s.dropPacket pkt
      match q.body with
      | .reply (.cpe blk turn j) x =>
        match ((s.block blk).cpe.current).filter (fun t => t.turn == turn) with
        | none => s
        | some t =>
          if t.left = 0 then s
          else
            let t := match x with
              | .ok b _ => { t with left := t.left - 1, lines := t.lines.set j b }
              | .nack _ => { t with left := t.left - 1, refused := true }
            let put (t : Transfer) (s : State) : State :=
              s.modBlock blk (fun b => { b with cpe := { b.cpe with current := some t } })
            let p := s.lanePhys blk t.lane
            let reload := match t.work with
              | .reload pairs => some pairs
              | _ => none
            let t := if reload.isSome && !s.inFrozen ((s.partOf p).getD 31) (64 * t.addrs.getD j 0) then { t with refused := true }
              else t
            if t.left ≠ 0 then put t s
            else if let some pairs := reload then
              if t.refused then
                (s.modBlock blk (fun b => { b with cpe := { b.cpe with current := none } })).startEmpty p |>.cpeKick blk
              else
                let n := (reloadChunks pairs 0).length
                ((put { t with bytes := t.lines.flatMap (·.2) } s).postChunks blk t.turn 1 n).postCore (8 * blk) (1 + n)
                  .cpeJobCompletion (args blk t.turn)
            else
              let job := match t.work with
                | .job i => (s.block blk).cpe.job i
                | _ => none
              match job with
              | none => put t s
              | some c =>
                if c.dst.kind ≠ 1 then
                  (put t s).postCore (8 * blk) (1 + t.chunks) .cpeJobCompletion (args blk t.turn)
                else if t.refused then (put t s).postCore (8 * blk) 1 .cpeJobCompletion (args blk t.turn)
                else
                  let bytes := c.gather 0 c.dstBytes (fun o => t.byteAt (c.src.addr + o))
                  ((put { t with bytes := bytes } s).postChunks blk t.turn 1 t.chunks).postCore (8 * blk) (1 + t.chunks)
                    .cpeJobCompletion (args blk t.turn)
      | _ => s)


/-- Bytes `o` to `o + n` of a reload replace whole granules, with the tags of the frozen pan's (R134, R383). -/
def State.reloadWrite (s : State) (p : Nat) (t : Transfer) (a o n : Nat) : State :=
  let sp := (s.partOf p).getD 31
  let gs : List Granule := (List.range (n / 16)).map (fun i =>
    let x := o + 16 * i
    ((t.bytes.drop x).take 16, s.panTag sp (64 * t.addrs.getD (x / 64) 0 + x % 64)))
  (s.setCore p ((((s.core p).keepOld (s.countCore p) (granules a n)).putGranules a gs).setFe (granules a n) true)).wakeFullEmpty p

/-- CPE_CHUNK_WRITE (R43, R134, R200, R251): chunk `b` of a scratchpad destination is written, granule by granule; with
the flag, the line write `b` of a pan destination leaves with the window's bytes of this cycle. -/
def execCpeChunkWrite (s : State) : Host.Outcome State Fault Refusal :=
  let blk := s.arg.a
  let m := s.arg.b
  .next (match ((s.block blk).cpe.current).filter (fun t => t.turn == s.arg.c) with
    | none => s
    | some t =>
      let p := s.lanePhys blk t.lane
      let write (a : Nat) (b : List Byte) : State :=
        if t.stopped.isSome then s
        else
          let r := s.engineWrite p a b
          match r.2 with
          | none => r.1
          | some g => r.1.modTransfer blk (fun t => { t with stopped := some g })
      match t.work with
      | .job i =>
        match (s.block blk).cpe.job i with
        | none => s
        | some j =>
          if s.arg.flag then
            match j.pieces[m]? with
            | none => s
            | some (a, i, n) =>
              s.cpeRequest blk t.lane t.turn m a
                (.write (j.gather i n ((s.core p).windowByte (s.countCore p) j.src.addr)) false) false 0
          else write (j.dst.addr % 2 ^ 18 + 128 * m) ((t.bytes.drop (128 * m)).take 128)
      | .pull _ src base n dst _ =>
        let q := (s.remapOf src).1
        write (dst + 128 * m) ((s.core q).readEngine (s.countCore q) (base + 128 * m) (min 128 (n - 128 * m)))
      | .reload pairs =>
        match (reloadChunks pairs 0)[m]? with
        | some (a, o, n) => s.reloadWrite p t a o n
        | none => s
      | .crystal => s)

/-- The transfer is over; the CPE is free. -/
def State.cpeFree (s : State) (blk : Nat) : State :=
  (s.modBlock blk (fun b => { b with cpe := { b.cpe with current := none } })).cpeKick blk

/-- CPE_JOB_COMPLETION (R211, R251): a copy job is done or faulted; after a crystal read the core issues again (R219);
after a reload the crystal is restored, as a copy between windows (R383). -/
def execCpeJobCompletion (s : State) : Host.Outcome State Fault Refusal :=
  let blk := s.arg.a
  .next (match ((s.block blk).cpe.current).filter (fun t => t.turn == s.arg.b) with
    | none => s
    | some t =>
      match t.work with
      | .crystal =>
        (s.modCore (s.lanePhys blk t.lane) (fun c => { c with crystal := { c.crystal with bytes := 0 } })).cpeFree blk
      | .reload _ =>
        let p := s.lanePhys blk t.lane
        (s.cpeFree blk).postCore p (4 + ((s.core p).crystal.bytes + 127) / 128) .substitutionRestoreDone (args p)
      | .job i =>
        let toPan := match (s.block blk).cpe.job i with
          | some j => j.dst.kind != 1
          | none => false
        let code := if t.stopped.isSome then 9 else if t.refused then (if toPan then 7 else 6) else 0
        (s.cpeFree blk).jobEnded blk 1 i code
      | _ => s)

/-- The transfer in progress of end `h`'s pull at core `p`, by its turn. -/
def State.pullAt (s : State) (p h turn : Nat) : Option Transfer :=
  ((s.block (blockOf p)).cpe.current).filter (fun t =>
    t.turn == turn && t.lane == s.laneOf p && (match t.work with | .pull h' _ _ _ _ _ => h' == h | _ => false))

/-- The sender's lane is absent and its final router has refused the pull (R331): the CPE is free, the end is idle, and the
strand takes the absent-lane trap as after a send (R195; log 40). -/
def State.pullRefused (s : State) (p h turn : Nat) : State :=
  let e := (s.core p).endAt h
  match s.pullAt p h turn with
  | none => s
  | some _ =>
    let s := s.cpeFree (blockOf p)
    if e.state = .pull then
      let s := ((s.crystalTaken p h).setEnd p h { e with state := .idle, inbox := none }).logSettle p logArrive h 1
      if s.occupied p e.slot && (s.strand p e.slot).wait == .pull h then
        s.trapWait p e.slot (trapAbsent (BitVec.ofNat 64 (e.plcn * 64 + e.pend)))
      else s
    else s

/-- A pull's request has reached the sender's core `a`, or (w = 2) its data the receiver's, or (w = 3) its refusal (R200, R203, R331). -/
def State.pullLeg (s : State) (o : Operands) : State :=
  if o.w = 1#64 then
    s.sendFrom o.a true (.lane (s.core o.d).lcn) 0 (.leg .pullCompletion { o with w := 2#64 }) 0
  else if o.w = 3#64 then s.pullRefused o.a o.b o.c
  else
    match s.pullAt o.a o.b o.c with
    | none => s
    | some t => (s.postChunks (blockOf o.a) t.turn 0 t.chunks).postCore o.a t.chunks .pullCompletion (args o.a o.b o.c)

/-- PULL_COMPLETION (R200): the release leaves, the end is idle, and the strand goes on, or takes the linearity trap
with the address of the granule at which the pull stopped; the CPE is free. With the flag, a part of the pull's way. -/
def execPullCompletion (s : State) : Host.Outcome State Fault Refusal :=
  let p := s.arg.a
  let h := s.arg.b
  let e := (s.core p).endAt h
  .next (if s.arg.flag then s.pullLeg s.arg else
    match s.pullAt p h s.arg.c with
    | none => s
    | some t =>
      let s := s.cpeFree (blockOf p)
      if e.state = .pull then
        let s := (s.crystalTaken p h).setEnd p h { e with state := .idle, inbox := none }
        let s := (s.sendToEnd p e.plcn e.pend 1 (fun q => .release q) 0).logSettle p logArrive h 1
        if s.occupied p e.slot && (s.strand p e.slot).wait == .pull h then
          match t.stopped with
          | some g => s.trapWait p e.slot (trapLinearity (BitVec.ofNat 64 g))
          | none => if s.crystalOn p then (s.wake p e.slot).postCore p 1 .selfCrystal (args p) else s.wake p e.slot
        else s
      else s)

end Sys2Proof.Machine
end

