-- ==== Sys2Proof/Machine/Capability.lean ====
section
/-! DEFINITION. The capability instructions that the core completes by itself (R113 to R121). `cfrz`, which asks the
slices, stands with the pan-table operations. -/

namespace Sys2Proof.Machine

/-- The kinds `cbnd` and `cadd` accept (R113). -/
def narrowableKind (k : Nat) : Bool := (decide (1 ≤ k) && decide (k ≤ 5)) || k == 8 || k == 0xA || k == 0xB

/-- A `meta` with KIND, PERM or bounds replaced (R24). -/
def setKind (m : Word) (k : Nat) : Word :=
  (m &&& ~~~(0xF000#64)) ||| (BitVec.ofNat 64 (k % 16) <<< 12)
def setPerm (m : Word) (p : BitVec 12) : Word := (m &&& ~~~(0x0FFF#64)) ||| p.setWidth 64
def setBoundsFields (m : Word) (ex bm tm : Nat) : Word :=
  (m &&& 0xFFFF#64) ||| (BitVec.ofNat 64 (ex % 64) <<< 16) ||| (BitVec.ofNat 64 (bm % 2 ^ 21) <<< 22)
    ||| (BitVec.ofNat 64 (tm % 2 ^ 21) <<< 43)

/-- The smallest exponent from `e` on that holds a length, among the next `fuel` of them (R114). -/
def boundsExponent (len : Nat) : Nat → Nat → Option Nat
  | 0, _ => none
  | fuel + 1, e => if len ≤ 2 ^ (e + 21) - 2 ^ e then some e else boundsExponent len fuel (e + 1)

/-- The `meta` of `m` narrowed to [nb, nb + len), if the range is exactly representable (R114). -/
def narrowMeta (m : Word) (nb len : Nat) : Option Word :=
  match boundsExponent len 44 0 with
  | none => none
  | some ex =>
    if nb % 2 ^ ex ≠ 0 ∨ len % 2 ^ ex ≠ 0 then none
    else some (setBoundsFields m ex (nb / 2 ^ ex % 2 ^ 21) ((nb + len) % 2 ^ 64 / 2 ^ ex % 2 ^ 21))

/-- The narrowed capability of `cbnd` (R114). -/
def narrowReg (r : CReg) (len : Nat) : Except Trap CReg := do
  let nb := r.val.toNat
  let b := r.bounds
  need (validBounds b && decide (b.1 ≤ nb) && decide ((nb : Int) + len ≤ b.2)) (trapBounds r.val)
  match narrowMeta r.mt nb len with
  | none => .error (trapBounds r.val)
  | some m => .ok { tag := true, val := r.val, mt := m }

/-- cbnd (R114): narrow to C[SB].val bytes from the address. -/
def execCbnd (g : BitVec 3) (d a b : BitVec 5) (s : State) : Host.Outcome State Fault Refusal :=
  s.act g (fun s => do
    let r := s.me.reg a
    need (r.tag && narrowableKind r.kind) (trapTag (regNo a))
    let n ← narrowReg r (s.me.val b).toNat
    s.moveCap d a n)

/-- cprm (R115): drop permissions; a scratchpad window has G = 0. -/
def execCprm (g : BitVec 3) (d a b : BitVec 5) (s : State) : Host.Outcome State Fault Refusal :=
  s.act g (fun s => do
    let r := s.me.reg a
    need (r.tag && !reservedKind r.kind) (trapTag (regNo a))
    let p := r.perm &&& (s.me.val b).extractLsb' 0 12
    let p := if r.kind = 1 then p &&& 0x7FF#12 else p
    s.moveCap d a { r with mt := setPerm r.mt p })

/-- The integer that `cget` reads (R116). -/
def capField (r : CReg) (sel : Nat) : Word :=
  if !r.tag then 0#64
  else if sel ≤ 2 then
    if r.kind = 6 then 0#64
    else
      let b := r.bounds
      if sel = 0 then BitVec.ofInt 64 b.1
      else if sel = 1 then if b.2 ≤ 2 ^ 64 - 1 then BitVec.ofInt 64 b.2 else BitVec.allOnes 64
      else BitVec.ofInt 64 (b.2 - b.1)
  else if sel = 3 then r.perm.setWidth 64
  else if sel = 4 then BitVec.ofNat 64 r.kind
  else 1#64

/-- cget (R116). -/
def execCget (g : BitVec 3) (d a sel : BitVec 5) (s : State) : Host.Outcome State Fault Refusal :=
  s.act g (fun s => s.putInt d (capField (s.me.reg a) sel.toNat))

/-- cmv (R118): the whole register; a linear source moves. With D = SA it only advances. -/
def execCmv (g : BitVec 3) (d a : BitVec 5) (s : State) : Host.Outcome State Fault Refusal :=
  s.act g (fun s => if d = a then .ok s.advance else s.moveCap d a (s.me.reg a))

/-- The integer that `ctst` writes (R119). -/
def capTest (r : CReg) : Word :=
  if !r.tag then 0#64
  else if r.kind ≠ 6 && r.inBounds r.val.toNat 1 then 3#64 else 1#64

/-- ctst (R119). -/
def execCtst (g : BitVec 3) (d a : BitVec 5) (s : State) : Host.Outcome State Fault Refusal :=
  s.act g (fun s => s.putInt d (capTest (s.me.reg a)))

/-- Move the address of C[SA] by an offset (R120). -/
def State.moveAddress (s : State) (d a : BitVec 5) (off : Word) : Act := do
  let r := s.me.reg a
  let na := r.val + off
  if !r.tag then s.putInt d na
  else do
    need (narrowableKind r.kind) (trapTag (regNo a))
    if r.representable na then s.moveCap d a { r with val := na }
    else if r.linear then .error (trapBounds na)
    else s.putInt d na

/-- cadd with a register offset (R120). -/
def execCadd (g : BitVec 3) (d a b : BitVec 5) (s : State) : Host.Outcome State Fault Refusal :=
  s.act g (fun s => s.moveAddress d a (s.me.val b))

/-- cadd with an immediate offset (R120). -/
def execCaddImm (g : BitVec 3) (d a : BitVec 5) (i : BitVec 12) (s : State) : Host.Outcome State Fault Refusal :=
  s.act g (fun s => s.moveAddress d a (imm i))

/-- The capability that `cmint` builds from an address and a `meta` (R121). -/
def mintReg (machine : Bool) (a m : Word) (b : BitVec 5) : Except Trap CReg := do
  let r : CReg := { tag := true, val := a, mt := m }
  need (!reservedKind r.kind && decide (r.bexp ≤ 43)) (trapTag (regNo b))
  need (r.kind == 1 || r.kind == 7 || r.kind == 8 || (r.kind == 0xA && machine))
    (trapPermission (BitVec.ofNat 64 r.kind))
  need (r.representable a) (trapBounds a)
  if r.kind = 1 then
    need (decide (r.bounds.2 ≤ 0x40000)) (trapBounds a)
    return { r with mt := m &&& ~~~(0x800#64) }
  if r.kind = 7 then need (decide (a.toNat ≤ 1)) (trapBounds a)
  return r

/-- cmint (R121): Partition and Machine mode. -/
def execCmint (g : BitVec 3) (d a b : BitVec 5) (s : State) : Host.Outcome State Fault Refusal :=
  s.act g (fun s => do
    need (s.me.mode != 0) (trapPrivileged s.instrBits)
    let r ← mintReg (s.me.mode == 3) (s.me.val a) (s.me.val b) b
    s.writable d
    return (s.modMe (fun x => x.setReg d r)).advance)

end Sys2Proof.Machine
end

