-- ==== Sys2Proof/Machine/Rake.lean ====
section
/-! DEFINITION. The rake: blocked strands and their edges, the probe, the record and its delivery (R257, R263 to R273). -/

namespace Sys2Proof.Machine

/-! ## Blocked strands and their edges -/

/-- Is the strand blocked (R263)? -/
def Strand.blocked (x : Strand) : Bool := x.wait.isEdge && !x.halt

/-- The edges of a blocked strand, each with the strand's own end (R264). A barrier whose release is on its way gives none. -/
def State.edges (s : State) (p : Nat) (x : Strand) : List (Nat × Edge) :=
  let c := s.core p
  let along (h : Nat) (send : Bool) : Nat × Edge :=
    (h, { lcn := (c.endAt h).plcn, target := (c.endAt h).pend, barrier := false, send := send })
  match x.wait with
  | .send h => [along h true]
  | .recv h => [along h false]
  | .alt ends none => ends.map (fun h => along h false)
  | .barrier b _ _ =>
    if s.releasing p b then [] else
    ((s.barrierMembers p b).filter (fun m => !s.arrived m b)).map
      (fun m => (b, { lcn := (s.core m).lcn, target := b, barrier := true, send := false }))
  | _ => []

/-- The END and WAIT codes of the entries of a blocked strand (R257, R267, R269). -/
def Strand.entryCodes (x : Strand) : List (Nat × Nat) :=
  match x.wait with
  | .send h => [(h, 0)]
  | .recv h => [(h, 1)]
  | .alt ends _ => ends.map (fun h => (h, 2))
  | .barrier b _ _ => [(b, 3)]
  | _ => []

/-- Is an edge valid at the target core now (R264)? A core that has arrived, released or not, is no target of a barrier's
edge: its strands leave that barrier without an action of theirs. -/
def State.edgeValid (s : State) (p fromLcn fromEnd : Nat) (e : Edge) : Bool :=
  let t := (s.core p).endAt e.target
  let own := (s.core p).lcn == fromLcn && e.target == fromEnd
  if e.barrier then (s.core p).slots != [] && !(s.core p).barr.getLsbD e.target
  else if own then false
  else if e.send then t.state == .full && t.plcn == fromLcn && t.pend == fromEnd && s.occupied p t.slot
  else t.state == .idle && !t.dirIn && s.occupied p t.slot

/-- Is one probe id earlier than another (R267)? -/
def ProbeId.earlier (a b : ProbeId) : Bool :=
  decide (a.time < b.time) || (a.time == b.time && (decide (a.lcn < b.lcn) || (a.lcn == b.lcn && decide (a.slot < b.slot))))

/-! ## Engagements -/

/-- The engagement of a slot that is in force. -/
def Core.engagedIn (c : Core) (k : Nat) : Option Engaged :=
  (c.engaged.find? (fun e => e.1 % 16 == k && !e.2.aborted)).map (·.2)

/-- The engagement of that key in a probe, aborted or not. The key is the slot, plus 16 for each engagement that the slot has
in the same probe already, aborted and still to hear its END (R267). -/
def Core.engagement (c : Core) (k : Nat) (id : ProbeId) : Option Engaged :=
  (c.engaged.find? (fun e => e.1 == k && e.2.id == id)).map (·.2)

/-- The key under which slot `k` engages in a probe. -/
def Core.newKey (c : Core) (k : Nat) (id : ProbeId) : Nat :=
  ((List.range (c.engaged.length + 1)).map (fun i => k + 16 * i)).find? (fun j => (c.engagement j id).isNone) |>.getD k

/-- Change the engagement of a key in a probe. -/
def State.modEngaged (s : State) (p k : Nat) (id : ProbeId) (f : Engaged → Engaged) : State :=
  s.modCore p (fun c =>
    { c with engaged := c.engaged.map (fun e => if e.1 = k ∧ e.2.id = id then (k, f e.2) else e) })

/-- The slot's engagement in force is aborted, for a probe that is earlier (R267). -/
def State.abortEngaged (s : State) (p k : Nat) (id : ProbeId) : State :=
  s.modCore p (fun c =>
    { c with engaged := c.engaged.map (fun e =>
        if e.1 % 16 = k ∧ e.2.id = id then (e.1, { e.2 with aborted := true }) else e) })

/-- The slot is engaged in the probe no more. -/
def State.disengage (s : State) (p k : Nat) (id : ProbeId) : State :=
  s.modCore p (fun c => { c with engaged := c.engaged.filter (fun e => !(e.1 == k && e.2.id == id)) })

/-- Does the wait in which a slot was engaged still stand (R267)? -/
def State.stillBlocked (s : State) (p k wstart : Nat) : Bool :=
  s.occupied p (k % 16) && (s.strand p (k % 16)).blocked && (s.strand p (k % 16)).waitStart == wstart

/-- The same, of a strand that a debugger may have halted since: it stays in its wait (R268, R388). -/
def State.stillWaits (s : State) (p k wstart : Nat) : Bool :=
  s.occupied p (k % 16) && (s.strand p (k % 16)).wait.isEdge && (s.strand p (k % 16)).waitStart == wstart

/-- Send a rake packet to the core of a strand (R266). -/
def State.sendRake (s : State) (p q : Nat) (b : Body) : State := s.sendFrom p false (.lane (s.core q).lcn) 1 b 0

/-- Put an entry among those of an initiator: by arrival, and in one cycle by LCN, slot and END (R269). -/
def insertEntry : List (Nat × Nat × Nat × Nat × Word) → Nat × Nat × Nat × Nat × Word →
    List (Nat × Nat × Nat × Nat × Word)
  | [], e => [e]
  | f :: rest, e =>
    let key (x : Nat × Nat × Nat × Nat × Word) : Nat := (x.1 * 2 ^ 20 + x.2.1) * 2 ^ 12 + x.2.2.1 * 2 ^ 8 + x.2.2.2.1
    if key e < key f then e :: f :: rest else f :: insertEntry rest e

/-! ## Delivery of a record -/

/-- Send the next word of the record that core `p` holds, or try again `rakeT` cycles later (R273). -/
def State.sendRecordWord (s : State) (p : Nat) : State :=
  let c := s.core p
  match c.record, s.partOf p with
  | some r, some sp =>
    let x := s.part sp
    match r.words[r.next]? with
    | none => (s.modCore p (fun c => { c with record := none })).sendFrom p false .head 1 (.token true) 0
    | some w =>
      if x.evv then
        s.sendFrom p false (.lane x.evLcn) 1 (.message x.evEnd x.evLcn x.evEnd (.word (CReg.int w))) 0
      else s.postCore p c.rakeT.toNat .recordWordResend (args sp p)
  | _, _ => s

/-- A packet from the head of a partition (R266, R280). -/
def State.sendHead (s : State) (sp : Nat) (dst : Dest) (b : Body) (after : Nat) : State :=
  s.sendAt (32 * (s.part sp).base) 0 sp 0x7F000 dst 1 b after

/-- Send the next word of the record that the head delivers (R273). -/
def State.sendHeadWord (s : State) (sp : Nat) : State :=
  let x := s.part sp
  match x.rake.current with
  | none => s
  | some r =>
    match r.words[r.next]? with
    | none => s
    | some w =>
      if x.evv then s.sendHead sp (.lane x.evLcn) (.message x.evEnd x.evLcn x.evEnd (.word (CReg.int w))) 0
      else s.post (some sp) 0x10000 .recordWordResend (args sp coreCount)

/-- The free token goes to the SEQ-REQ that has waited longest, or else to the head's oldest held record (R269,
R273). -/
def State.giveToken (s : State) (sp : Nat) : State :=
  let x := s.part sp
  let r := x.rake
  let n := (r.seq + 1) % 2 ^ 32
  if r.tokenOut then s
  else
    match r.waiting, r.held with
    | id :: rest, _ =>
      (s.modPart sp (fun x => { x with rake := { r with tokenOut := true, waiting := rest } })).sendHead sp
        (.lane id.lcn) (.seqGrant id n) 0
    | [], (typ, es) :: rest =>
      (s.modPart sp (fun x => { x with rake := { r with
        tokenOut := true, seq := n, held := rest
        current := some { words := recordHeader typ es.length false n :: es, next := 0 } } })).sendHeadWord sp
    | [], [] => s

/-- SUPERVISOR_RECORD (R257, R273): a record of TYPE 0x02 to 0x06 is handed to the rake head. -/
def execSupervisorRecord (s : State) : Host.Outcome State Fault Refusal :=
  let o := s.arg
  .next ((s.modPart o.a (fun x =>
    { x with rake := { x.rake with held := x.rake.held ++ [(o.b, [o.w])] } })).giveToken o.a)

/-- The event end has taken a word of the record that core `p` holds (R273). -/
def State.recordAck (s : State) (p : Nat) : State :=
  (s.modCore p (fun c => { c with record := c.record.map (fun r => { r with next := r.next + 1 }) })).sendRecordWord p

/-- It was refused: it is sent again `rakeT` cycles later (R273). -/
def State.recordNack (s : State) (p : Nat) : State :=
  match (s.core p).record with
  | some _ => s.postCore p (s.core p).rakeT.toNat .recordWordResend (args ((s.partOf p).getD 31) p)
  | none => s

/-- The event end has taken a word of the head's record; after the last, the token is free (R273). -/
def State.headRecordAck (s : State) (sp : Nat) : State :=
  match (s.part sp).rake.current with
  | none => s
  | some r =>
    if r.next + 1 < r.words.length then
      (s.modPart sp (fun x => { x with rake := { x.rake with current := some { r with next := r.next + 1 } } })).sendHeadWord
        sp
    else
      (s.modPart sp (fun x => { x with rake := { x.rake with current := none, tokenOut := false } })).giveToken sp

/-- It was refused (R273). -/
def State.headRecordNack (s : State) (sp : Nat) : State :=
  s.post (some sp) 0x10000 .recordWordResend (args sp coreCount)

/-- RECORD_WORD_RESEND (R273): `b` is the core that holds the record, or `coreCount` for the head. -/
def execRecordWordResend (s : State) : Host.Outcome State Fault Refusal :=
  .next (if s.arg.b = coreCount then s.sendHeadWord s.arg.a else s.sendRecordWord s.arg.b)

/-- SEQ_REQ (R269): the head grants the next number with the token, or the request waits for it. -/
def execSeqReq (s : State) : Host.Outcome State Fault Refusal :=
  let pkt := s.arg.a
  .next (match Table.get? s.packets pkt with
    | some q =>
      match q.body with
      | .seqReq id =>
        ((s.dropPacket pkt).modPart q.sp (fun x =>
          { x with rake := { x.rake with waiting := x.rake.waiting ++ [id] } })).giveToken q.sp
      | _ => s.dropPacket pkt
    | none => s)

/-- DELIVERY_TOKEN_RETURN (R269, R273): the counter has risen only if a record was written with the number. -/
def execDeliveryTokenReturn (s : State) : Host.Outcome State Fault Refusal :=
  let pkt := s.arg.a
  .next (match Table.get? s.packets pkt with
    | some q =>
      match q.body with
      | .token written =>
        ((s.dropPacket pkt).modPart q.sp (fun x =>
          { x with rake := { x.rake with
            tokenOut := false, seq := if written then (x.rake.seq + 1) % 2 ^ 32 else x.rake.seq } })).giveToken q.sp
      | _ => s.dropPacket pkt
    | none => s)

/-! ## The probe -/

/-- END to the children of an engagement (R267). -/
def State.endChildren (s : State) (p : Nat) (g : Engaged) (success : Bool) : State :=
  g.children.foldl (fun s c => s.sendRake p c.1 (.fin g.id c.2 success)) s

/-- The initiator's probe ends: END goes down the tree and the strand disengages; after success it is reported
(R267, R268). -/
def State.endProbe (s : State) (p k : Nat) (g : Engaged) (success : Bool) : State :=
  let s := (s.endChildren p g success).disengage p k g.id
  let s := if success && s.stillBlocked p k g.wstart then s.modStrand p (k % 16) (fun x => { x with reported := true }) else s
  if success then s
  else
    match g.grant with
    | some _ => s.sendFrom p false .head 1 (.token false) 0
    | none => s

/-- The record of a confirmed probe is written and its delivery begins (R257, R267, R269, R270, R273). -/
def State.writeRecord (s : State) (p k : Nat) (g : Engaged) (seq : Nat) : State :=
  let es := g.entries.map (fun e => e.2.2.2.2)
  let n := min 64 es.length
  let r : Record := { words := recordHeader 1 n (decide (64 < es.length)) seq :: es.take 64, next := 0 }
  ((s.endProbe p k g true).modCore p (fun c => { c with record := some r })).sendRecordWord p

/-- The initiator looks whether its probe is settled: every confirm echo in, and the grant held (R267). -/
def State.settleProbe (s : State) (p k : Nat) (id : ProbeId) : State :=
  match (s.core p).engagement k id with
  | none => s
  | some g =>
    if g.confirmsLeft ≠ 0 then s
    else if g.confirmBad || g.aborted || !s.stillBlocked p k g.wstart then s.endProbe p k g false
    else
      match g.grant with
      | some n => s.writeRecord p k g n
      | none => s

/-- Strand `k` has answered in the gather of a probe that `parent` sent: 0 YES, 1 NO, 2 BUSY, as one that the gather engaged or
not; the agent echoes when all have (R264, R267). -/
def State.gatherAnswer (s : State) (p k answer : Nat) (id : ProbeId) (parent : Nat × Nat) (engaged : Bool) : State :=
  match (s.core p).gathers.find? (fun g => g.id == id && g.parent == parent && g.left.contains (k % 16)) with
  | none => s
  | some g =>
    let g' : Gather :=
      { g with
        left := g.left.filter (· != k % 16)
        children := if engaged then g.children else g.children.filter (fun j => j % 16 != k % 16)
        anyNo := g.anyNo || answer == 1, anyBusy := g.anyBusy || answer == 2 }
    let keep := g'.left != [] || g'.children != []
    let s := s.modCore p (fun c =>
      { c with gathers := (c.gathers.filter (fun h => h != g)) ++ (if keep then [g'] else []) })
    if g'.left = [] then
      s.sendRake p g.parent.1 (.echo id g.parent.2 (if g'.anyBusy then 2 else if g'.anyNo then 1 else 0)
        (if g'.children = [] then none else some (p, 8)))
    else s

/-- The prober whose gather engaged strand `k` (R267). -/
def Core.gatherOf (c : Core) (k : Nat) (id : ProbeId) : Option (Nat × Nat) :=
  (c.gathers.find? (fun g => g.id == id && g.children.contains k)).map (·.parent)

/-- The answer of an engaged strand whose echoes have all come (R267); the initiator confirms on YES. -/
def State.echoesIn (s : State) (p k : Nat) (id : ProbeId) : State :=
  match (s.core p).engagement k id with
  | none => s
  | some g =>
    if g.echoesLeft ≠ 0 then s
    else
      let yes := !g.anyNo && !g.anyBusy && !g.aborted && s.stillBlocked p k g.wstart
      let answer := if yes then 0 else if g.anyBusy && !g.aborted then 2 else 1
      match g.parent with
      | some (q, 8) =>
        match (s.core p).gatherOf k id with
        | some parent => if q = p then s.gatherAnswer p k answer id parent true else s
        | none => s
      | some (q, j) => s.sendRake p q (.echo id j answer (some (p, k)))
      | none =>
        if yes then
          let s := s.modEngaged p k id (fun g => { g with confirmsLeft := g.children.length })
          let s := g.children.foldl (fun s c => s.sendRake p c.1 (.confirm id c.2 (p, k))) s
          (s.sendFrom p false .head 1 (.seqReq id) 0).settleProbe p k id
        else s.endProbe p k g false

/-- Engage slot `k` in a probe: its entries go to the initiator, and the probe along its edges; an edge that leads to no
core is answered NO (R264, R267, R269). -/
def State.engage (s : State) (p k : Nat) (id : ProbeId) (parent : Option (Nat × Nat)) : State :=
  let x := s.strand p k
  let lcn := (s.core p).lcn
  let es := s.edges p x
  let lanes := es.filter (fun e => decide (e.2.lcn < coreCount))
  let codes := x.entryCodes
  let own := parent.isNone
  let key := (s.core p).newKey k id
  let entries := if own then
      (codes.map (fun c => (0, lcn, k, c.1, recordEntry lcn k c.1 c.2))).foldl insertEntry []
    else []
  let g : Engaged :=
    { id := id, parent := parent, wstart := x.waitStart, echoesLeft := lanes.length
      anyNo := lanes.length != es.length || es == [], anyBusy := false, aborted := false, children := []
      confirmsLeft := 0, confirmBad := false, entries := entries, grant := none }
  let s := s.modCore p (fun c => { c with engaged := c.engaged ++ [(key, g)] })
  let s := if own then s
    else codes.foldl (fun s c => s.sendFrom p false (.lane id.lcn) 1
      (.entry id (lcn, k, c.1, c.2, recordEntry lcn k c.1 c.2)) 0) s
  let s := lanes.foldl (fun s e => s.sendFrom p false (.lane e.2.lcn) 1 (.probe id p key e.1 e.2) 0) s
  s.echoesIn p key id

/-- A probe reaches strand `k` of core `p` over a valid edge: its answer, or it engages (R267). -/
def State.probeStrand (s : State) (p k : Nat) (id : ProbeId) (parent : Nat × Nat) : State × Option Nat :=
  let x := s.strand p k
  if !x.blocked || x.reported then (s, some 1)
  else
    match (s.core p).engagedIn k with
    | none => (s.engage p k id (some parent), none)
    | some g =>
      if g.id = id then (s, some 0)
      else if g.id.earlier id then (s, some 2)
      else ((s.abortEngaged p k g.id).engage p k id (some parent), none)

/-- PROBE (R264, R266, R267). Along a barrier's edge the agent asks every strand of the core; its gather's children are those
that it has engaged, or has still to ask. -/
def execRakeProbe (s : State) : Host.Outcome State Fault Refusal :=
  let pkt := s.arg.a
  .next (match Table.get? s.packets pkt with
    | none => s
    | some q =>
      let s := s.dropPacket pkt
      let p := q.phys
      match q.body with
      | .probe id from_ k h e =>
        let echo (s : State) (answer : Nat) : State := s.sendRake p from_ (.echo id k answer none)
        if !s.edgeValid p q.srcLcn h e then echo s 1
        else if e.barrier then
          let ks := (List.range 8).filter (s.occupied p)
          let g : Gather :=
            { id := id, parent := (from_, k), left := ks, children := ks.map (fun j => (s.core p).newKey j id), anyNo := false, anyBusy := false
              confirmsLeft := 0, confirmBad := false }
          let s := s.modCore p (fun c => { c with gathers := c.gathers ++ [g] })
          ks.foldl (fun s j =>
            match s.probeStrand p j id (p, 8) with
            | (s, some a) => s.gatherAnswer p j a id (from_, k) false
            | (s, none) => s) s
        else
          match s.probeStrand p ((s.core p).endAt e.target).slot id (from_, k) with
          | (s, some a) => echo s a
          | (s, none) => s
      | _ => s)

/-- ECHO (R267). -/
def execRakeEcho (s : State) : Host.Outcome State Fault Refusal :=
  let pkt := s.arg.a
  .next (match Table.get? s.packets pkt with
    | none => s
    | some q =>
      let s := s.dropPacket pkt
      let p := q.phys
      match q.body with
      | .echo id k answer child =>
        match (s.core p).engagement k id with
        | none =>
          match child with
          | some c => s.sendRake p c.1 (.fin id c.2 false)
          | none => s
        | some _ =>
          (s.modEngaged p k id (fun g =>
            { g with
              echoesLeft := g.echoesLeft - 1, anyNo := g.anyNo || answer == 1, anyBusy := g.anyBusy || answer == 2
              children := g.children ++ child.toList })).echoesIn p k id
      | _ => s)

/-- ENTRY (R269): a record entry reaches the initiator. -/
def execRakeEntry (s : State) : Host.Outcome State Fault Refusal :=
  let pkt := s.arg.a
  .next (match Table.get? s.packets pkt with
    | none => s
    | some q =>
      let s := s.dropPacket pkt
      let p := q.phys
      match q.body with
      | .entry id (lcn, k, h, _, w) =>
        s.modEngaged p id.slot id (fun g => { g with entries := insertEntry g.entries (s.countCore p, lcn, k, h, w) })
      | _ => s)

/-- A strand of a gather has answered a confirm; the agent's echo goes to the prober when all have (R267). -/
def State.gatherConfirm (s : State) (p k : Nat) (id : ProbeId) (ok : Bool) : State :=
  match (s.core p).gathers.find? (fun g => g.id == id && g.children.contains k && g.confirmsLeft != 0) with
  | none => s
  | some g =>
    let g' : Gather := { g with confirmsLeft := g.confirmsLeft - 1, confirmBad := g.confirmBad || !ok }
    let s := s.modCore p (fun c => { c with gathers := c.gathers.map (fun h => if h = g then g' else h) })
    if g'.confirmsLeft = 0 then s.sendRake p g.parent.1 (.confirmEcho id g.parent.2 (!g'.confirmBad)) else s

/-- A confirm echo to a parent: another core's, or the own agent's gather (R267). -/
def State.confirmUp (s : State) (p k : Nat) (id : ProbeId) (parent : Nat × Nat) (ok : Bool) : State :=
  if parent = (p, 8) then s.gatherConfirm p k id ok else s.sendRake p parent.1 (.confirmEcho id parent.2 ok)

/-- The confirm echo of an engaged strand: OK if its wait still stands and every child answered OK (R267). -/
def State.confirmAnswer (s : State) (p k : Nat) (g : Engaged) (parent : Nat × Nat) : State :=
  s.confirmUp p k g.id parent (!g.confirmBad && !g.aborted && s.stillBlocked p k g.wstart)

/-- A confirm for strand `k` (R267). -/
def State.confirmStrand (s : State) (p k : Nat) (id : ProbeId) (parent : Nat × Nat) : State :=
  match (s.core p).engagement k id with
  | none => s.confirmUp p k id parent false
  | some g =>
    if g.children = [] ∨ g.aborted then s.confirmAnswer p k g parent
    else
      let s := s.modEngaged p k id (fun g => { g with parent := some parent, confirmsLeft := g.children.length })
      g.children.foldl (fun s c => s.sendRake p c.1 (.confirm id c.2 (p, k))) s

/-- CONFIRM (R267): the agent of a core passes it to the strands that a barrier edge engaged. -/
def execRakeConfirm (s : State) : Host.Outcome State Fault Refusal :=
  let pkt := s.arg.a
  .next (match Table.get? s.packets pkt with
    | none => s
    | some q =>
      let s := s.dropPacket pkt
      let p := q.phys
      match q.body with
      | .confirm id k parent =>
        if k = 8 then
          match (s.core p).gathers.find? (fun g => g.id == id && g.parent == parent) with
          | none => s.sendRake p parent.1 (.confirmEcho id parent.2 false)
          | some g =>
            let s := s.modCore p (fun c => { c with gathers := c.gathers.map (fun h =>
              if h = g then { h with confirmsLeft := g.children.length } else h) })
            g.children.foldl (fun s j => s.confirmStrand p j id (p, 8)) s
        else s.confirmStrand p k id parent
      | _ => s)

/-- CONFIRM_ECHO (R267). -/
def execRakeConfirmEcho (s : State) : Host.Outcome State Fault Refusal :=
  let pkt := s.arg.a
  .next (match Table.get? s.packets pkt with
    | none => s
    | some q =>
      let s := s.dropPacket pkt
      let p := q.phys
      match q.body with
      | .confirmEcho id k ok =>
        if k = 8 then s.gatherConfirm p k id ok
        else
          let s := s.modEngaged p k id (fun g =>
            { g with confirmsLeft := g.confirmsLeft - 1, confirmBad := g.confirmBad || !ok })
          match (s.core p).engagement k id with
          | none => s
          | some g =>
            if g.confirmsLeft ≠ 0 then s
            else
              match g.parent with
              | none => s.settleProbe p k id
              | some parent => s.confirmAnswer p k g parent
      | _ => s)

/-- END reaches strand `k` (R267, R268). -/
def State.endStrand (s : State) (p k : Nat) (id : ProbeId) (success : Bool) : State :=
  match (s.core p).engagement k id with
  | none => s
  | some g =>
    let s := (s.endChildren p g success).disengage p k id
    if success && s.stillWaits p k g.wstart then
      s.modStrand p (k % 16) (fun x => { x with reported := true })
    else s

/-- END (R267, R268): it goes on down the tree and the member disengages; success marks a strand that still waits
reported. -/
def execRakeEnd (s : State) : Host.Outcome State Fault Refusal :=
  let pkt := s.arg.a
  .next (match Table.get? s.packets pkt with
    | none => s
    | some q =>
      let s := s.dropPacket pkt
      let p := q.phys
      match q.body with
      | .fin id k success =>
        if k = 8 then
          let gs := (s.core p).gathers.filter (fun g => g.id == id)
          let s := s.modCore p (fun c => { c with gathers := c.gathers.filter (fun g => g.id != id) })
          gs.foldl (fun s g => g.children.foldl (fun s j => s.endStrand p j id success) s) s
        else s.endStrand p k id success
      | _ => s)

/-- SEQ_GRANT (R267, R269): the number and the token; the initiator of an ended probe returns them unused. -/
def execSeqGrant (s : State) : Host.Outcome State Fault Refusal :=
  let pkt := s.arg.a
  .next (match Table.get? s.packets pkt with
    | none => s
    | some q =>
      let s := s.dropPacket pkt
      let p := q.phys
      match q.body with
      | .seqGrant id n =>
        match (s.core p).engagement id.slot id with
        | none => s.sendFrom p false .head 1 (.token false) 0
        | some _ => (s.modEngaged p id.slot id (fun g => { g with grant := some n })).settleProbe p id.slot id
      | _ => s)

/-- RAKE_THRESHOLD (R267): the wait age reaches its threshold; the next one is set, and the strand may start a probe, but not
while its core is saved or restored, the model's choice (log entry 123). -/
def execRakeThreshold (s : State) : Host.Outcome State Fault Refusal :=
  let p := s.arg.a
  let k := s.arg.b
  let x := s.strand p k
  let c := s.core p
  .next (if s.occupied p k && x.wait.isEdge && s.countCore p == x.waitStart + x.threshold then
      let t := c.rakeT.toNat
      let s := s.modStrand p k (fun x => { x with threshold := x.threshold + t })
      let s := s.postCore p t .rakeThreshold (args p k)
      if x.blocked && !x.reported && (c.engagedIn k).isNone && c.record.isNone && c.run == .run then
        s.engage p k { time := s.now, lcn := c.lcn, slot := k } none
      else s
    else s)

/-- A final router answers for a lane that is absent or held (R266): the packet's body, at the router (x, y). -/
def State.rakeRefuse (s : State) (q : Packet) : State :=
  match q.body with
  | .probe id from_ k _ _ => s.sendAt q.x q.y q.sp q.srcLcn (.lane (s.core from_).lcn) 1 (.echo id k 1 none) 0
  | .confirm id _ parent => s.sendAt q.x q.y q.sp q.srcLcn (.lane (s.core parent.1).lcn) 1 (.confirmEcho id parent.2 false) 0
  | _ => s

end Sys2Proof.Machine
end

