-- ==== Sys2Proof/Machine/Launch.lean ====
section
/-! DEFINITION. The launch head: job records, queues, selection, placement, the wake, completion and notices (R277 to
R292). -/

namespace Sys2Proof.Machine

/-! ## Job records -/

/-- `n` bits of a record at bit `i`. -/
def recField (r : BitVec 512) (i n : Nat) : Nat := (r.extractLsb' i n).toNat

/-- The fields of R282 and R283. -/
def jobCode (r : BitVec 512) : Nat := recField r 0 64
def jobPages (r : BitVec 512) : Nat := recField r 64 16
def jobArgPages (r : BitVec 512) : Nat := recField r 80 16
def jobEntry (r : BitVec 512) : Nat := recField r 96 32
def jobTvec (r : BitVec 512) : Nat := recField r 128 32
def jobIdOf (r : BitVec 512) : Nat := recField r 160 32
def jobArg (r : BitVec 512) : Nat := recField r 192 64
def jobBw (r : BitVec 512) : Nat := recField r 256 9
def jobBh (r : BitVec 512) : Nat := recField r 265 8
def jobOrgX (r : BitVec 512) : Nat := recField r 273 9
def jobOrgY (r : BitVec 512) : Nat := recField r 282 8
def jobPri (r : BitVec 512) : Nat := recField r 290 2
def jobMode (r : BitVec 512) : Nat := recField r 292 1
def jobDiein (r : BitVec 512) : Bool := r.getLsbD 293
def jobFixed (r : BitVec 512) : Bool := r.getLsbD 294
def jobWmask (r : BitVec 512) : BitVec 16 := r.extractLsb' 320 16
def jobChidx (r : BitVec 512) : Nat := recField r 336 10
def jobNchan (r : BitVec 512) : Nat := recField r 346 6
def jobNoteLcn (r : BitVec 512) : Nat := recField r 352 19
def jobNoteEnd (r : BitVec 512) : Nat := recField r 371 6
def jobNoteV (r : BitVec 512) : Bool := r.getLsbD 377
def jobPreds (r : BitVec 512) : List Nat := (List.range 4).map (fun i => recField r (384 + 32 * i) 32)

/-- Block columns of a partition (R283, R357); a unit that is being recalled takes no job (R379). -/
def Partition.columns (x : Partition) : Nat := 16 * (x.home + if x.recalling = 0 then x.lent else x.lent - 1)

/-- Does a rectangle lie within one die (R283, R287)? -/
def Partition.oneDie (x : Partition) (ox oy bw bh : Nat) : Bool :=
  let c := 16 * x.base + ox
  c / 32 == (c + bw - 1) / 32 && oy / 24 == (oy + bh - 1) / 24

/-- The origins of a partition, in ascending by and then bx (R287). -/
def Partition.origins (x : Partition) : List (Nat × Nat) :=
  (List.range 144).flatMap (fun oy => (List.range x.columns).map (fun ox => (ox, oy)))

/-- Does the rectangle of a record lie inside the partition at an origin? -/
def Partition.inside (x : Partition) (r : BitVec 512) (o : Nat × Nat) : Bool :=
  decide (o.1 + jobBw r ≤ x.columns) && decide (o.2 + jobBh r ≤ 144)

/-- Does a record's geometry fit at an origin (R284, R287)? -/
def Partition.fits (x : Partition) (r : BitVec 512) (o : Nat × Nat) : Bool :=
  x.inside r o && (!jobDiein r || x.oneDie o.1 o.2 (jobBw r) (jobBh r))

/-- Does an address start a frozen pan of exactly `pages` pages, as its slice records it (R284)? -/
def State.frozenAt (s : State) (sp va pages : Nat) : Bool :=
  match s.sliceOf sp va with
  | none => false
  | some n =>
    match (s.slice n).panAt va with
    | some (_, e) => e.kind == 3 && decide (e.basep * 2 ^ 21 = va) && e.pages == pages
    | none => false

/-- The ids of the jobs that are queued or running in a partition (R284, R285). -/
def Partition.jobIds (x : Partition) : List Nat :=
  x.jobs.map (·.1) ++ x.queues.flatMap (fun q => q.2.records.map (fun r => jobIdOf r.2))

/-- The status with which a record is rejected; 0 for none (R284). -/
def State.recordStatus (s : State) (sp q : Nat) (r : BitVec 512) : Nat :=
  let x := s.part sp
  let size := jobPages r * 2 ^ 21
  let bad (n : Nat) : Bool := n % 2 != 0 || decide (size ≤ n)
  if recField r 378 6 ≠ 0 ∨ recField r 295 25 ≠ 0 ∨ (!jobFixed r && (jobOrgX r != 0 || jobOrgY r != 0)) ∨
      (jobArg r = 0 ∧ jobArgPages r ≠ 0) then 1
  else if jobBw r = 0 ∨ x.columns < jobBw r ∨ jobBh r = 0 ∨ 144 < jobBh r || bad (jobEntry r) || bad (jobTvec r) ||
      (if jobFixed r then !x.fits r (jobOrgX r, jobOrgY r) else !x.origins.any (x.fits r)) then 2
  else if jobMode r = 1 ∧ !((x.queues.getD q LaunchQueue.reset).pm) then 3
  else if !s.frozenAt sp (jobCode r) (jobPages r) || (jobArg r != 0 && !s.frozenAt sp (jobArg r) (jobArgPages r)) then 4
  else if jobIdOf r = 0 ∨ x.jobIds.contains (jobIdOf r) then 5
  else 0

/-! ## Notices -/

/-- Send a notice that waits to be sent (R284). -/
def State.sendNotice (s : State) (sp id : Nat) : State :=
  match (s.part sp).notices.get? id with
  | none => s
  | some n =>
    let (m, s) := s.fresh
    let s := s.modPart sp (fun x => { x with notices := x.notices.set id { n with sent := some m } })
    s.sendHead sp (destOf n.lcn) (.message n.toEnd 0x7F000 n.queue (.word (CReg.int n.word))) 0

/-- The notice of a record, if it asks for one: JOBID and the status (R284, R374). -/
def State.notify (s : State) (sp q : Nat) (r : BitVec 512) (status : Nat) : State :=
  if jobNoteV r then
    let (id, s) := s.fresh
    let n : Notice :=
      { id := id, lcn := jobNoteLcn r, toEnd := jobNoteEnd r, queue := q
        word := BitVec.ofNat 64 (jobIdOf r + status * 2 ^ 32), sent := none }
    (s.modPart sp (fun x => { x with notices := x.notices.set id n })).sendNotice sp id
  else s

/-- The notices of a queue that are out to an end of a core with a word, the one sent first in front. -/
def Partition.noticesOut (x : Partition) (q lcn h : Nat) (w : Word) : List Notice :=
  x.notices.foldl (fun l e =>
    if e.2.queue = q ∧ e.2.lcn = lcn ∧ e.2.toEnd = h ∧ e.2.word = w ∧ e.2.sent.isSome then
      l.takeWhile (fun n => decide (n.sent.getD 0 ≤ e.2.sent.getD 0)) ++ [e.2] ++
        l.dropWhile (fun n => decide (n.sent.getD 0 ≤ e.2.sent.getD 0))
    else l) []

/-- A notice has been taken: of equal ones out to one end the first. -/
def State.noticeAck (s : State) (sp q lcn h : Nat) (w : Word) : State :=
  match (s.part sp).noticesOut q lcn h w with
  | n :: _ => s.modPart sp (fun x => { x with notices := x.notices.erase n.id })
  | [] => s

/-- A notice has been refused, of equal ones out to one end the last: it is sent again 65,536 cycles later (R284). -/
def State.noticeNack (s : State) (sp q lcn h : Nat) (w : Word) : State :=
  match ((s.part sp).noticesOut q lcn h w).getLast? with
  | some n =>
    (s.modPart sp (fun x => { x with notices := x.notices.set n.id { n with sent := none } })).post (some sp) 65536
      .noticeResend (args sp n.id)
  | none => s

/-- NOTICE_RESEND (R284). -/
def execNoticeResend (s : State) : Host.Outcome State Fault Refusal := .next (s.sendNotice s.arg.a s.arg.b)

/-! ## Readiness -/

/-- Is a record ready (R285)? -/
def Partition.readyRecord (x : Partition) (r : BitVec 512) : Bool :=
  let ids := x.jobIds
  (jobPreds r).all (fun i => i == 0 || !ids.contains i)

/-- The owners that hold a ready record (R286). -/
def Partition.readyOwners (x : Partition) : List Nat :=
  (x.queues.filter (fun q => q.2.records.any (fun r => x.readyRecord r.2))).map (fun q => q.2.owner)

/-- Change a partition; an owner that gains its first ready record by it starts no earlier than V (R286). -/
def State.modReady (s : State) (sp : Nat) (f : Partition → Partition) : State :=
  let before := (s.part sp).readyOwners
  s.modPart sp (fun x =>
    let y := f x
    { y with vf := y.readyOwners.foldl (fun (t : Table Nat) o =>
        if before.contains o then t else t.set o (max (t.getD o 0) y.vtime)) y.vf })

/-- Is a job pending (R286)? -/
def Partition.pending (x : Partition) : Option Job := (x.jobs.find? (fun j => j.2.state == .pending)).map (·.2)

/-- Does a ready record wait for its dispatch at cycle `k`: no job is pending, or the dispatch of one is under way (R291)? -/
def Partition.dispatchDue (x : Partition) (k : Nat) : Bool :=
  x.readyOwners != [] && (match x.pending with
    | none => true
    | some j => decide (k < j.placeFrom))

/-- A dispatch becomes due in cycle `k`: of the intakes and completions that the head has still to serve, 28 go before it and the
others after it (R291, R295). -/
def Partition.dueFrom (x : Partition) (k : Nat) : Partition :=
  let n := (x.busy - k + 9) / 10
  { x with busy := min x.busy (k + 280), passed := min n 28, late := x.late + (n - 28) }

/-- Does a job hold blocks and barriers now (R287, R375)? -/
def Job.holds (j : Job) : Bool := j.state == .running || j.state == .saving || j.state == .restoring

/-- Do two rectangles of blocks meet? -/
def rectsMeet (ax ay aw ah bx by_ bw bh : Nat) : Bool :=
  decide (ax < bx + bw) && decide (bx < ax + aw) && decide (ay < by_ + bh) && decide (by_ < ay + ah)

/-- Is the rectangle of a record free at an origin (R287)? -/
def Partition.rectFree (x : Partition) (r : BitVec 512) (o : Nat × Nat) : Bool :=
  x.jobs.all (fun j => !j.2.holds ||
    !rectsMeet o.1 o.2 (jobBw r) (jobBh r) j.2.ox j.2.oy (jobBw j.2.record) (jobBh j.2.record))

/-- Are the barriers of a record free (R287)? -/
def Partition.barriersFree (x : Partition) (r : BitVec 512) : Bool :=
  x.jobs.all (fun j => !j.2.holds || jobWmask j.2.record &&& jobWmask r == 0#16)

/-- Where a record can be placed now (R287). -/
def Partition.placeFor (x : Partition) (r : BitVec 512) : Option (Nat × Nat) :=
  if !x.barriersFree r then none
  else if jobFixed r then
    (if x.fits r (jobOrgX r, jobOrgY r) && x.rectFree r (jobOrgX r, jobOrgY r) then some (jobOrgX r, jobOrgY r) else none)
  else x.origins.find? (fun o => x.fits r o && x.rectFree r o)

/-- Is a dispatch of the head due at cycle `k`: of a ready record, or of a pending job that can be placed now (R291)? -/
def Partition.headDue (x : Partition) (k : Nat) : Bool :=
  x.dispatchDue k || (match x.pending with
    | some j => (x.placeFor j.record).isSome
    | none => false)

/-- What a change of the partition makes due, is due from now on. -/
def State.noteDue (s : State) (sp : Nat) (before : Bool) : State :=
  let k := s.count (some sp)
  s.modPart sp (fun x => if !before && x.headDue k then x.dueFrom k else x)

/-- The head looks for a job to select when it is free (R291). -/
def State.headLooks (s : State) (sp : Nat) : State :=
  s.post (some sp) ((s.part sp).busy - s.count (some sp)) .jobSelection (args sp)

/-- The head is busy with an intake or completion for 10 cycles. Of those that come while a dispatch is due, 28 go before it
and the others after it (R291, R295). -/
def State.headWork (s : State) (sp : Nat) : State :=
  let k := s.count (some sp)
  let x := s.part sp
  let s := s.modPart sp (fun y =>
    if !x.dispatchDue k then { y with busy := max k x.busy + 10 }
    else if x.passed < 28 then { y with busy := max k x.busy + 10, passed := x.passed + 1 }
    else { y with late := x.late + 1 })
  s.headLooks sp

/-! ## Intake -/

/-- Acknowledge a message to the head (R280). -/
def State.headAck (s : State) (sp lcn endNo : Nat) : State := s.sendHead sp (destOf lcn) (.ack endNo) 0

/-- A record is taken into queue `q`, or rejected with a notice (R280, R284). -/
def State.takeRecord (s : State) (sp q : Nat) (r : BitVec 512) : State :=
  let st := s.recordStatus sp q r
  let k := s.count (some sp)
  let due := (s.part sp).headDue k
  let s := if st = 0 then
      (s.modReady sp (fun x =>
        let y := x.queues.getD q LaunchQueue.reset
        { x with queues := x.queues.set q { y with records := y.records ++ [(k, r)] } })).noteDue sp due
    else s.notify sp q r st
  s.headWork sp

/-- A record of the host is taken or rejected, and QST and QNUM say which (R411, R412). -/
def State.takeHostRecord (s : State) (sp q : Nat) (r : BitVec 512) : State :=
  (s.modPart sp (fun x => { x with hostFn := { x.hostFn with qst := s.recordStatus sp q r, qnum := q } })).takeRecord sp q r

/-- A strand's record at queue `q` (R280): a disabled queue NACKs it, an enabled one takes it while it has room and no
record waits before it, and else the record waits. -/
def State.offerRecord (s : State) (sp q : Nat) (w : Nat × Nat × BitVec 512) : State :=
  let y := (s.part sp).queues.getD q LaunchQueue.reset
  if !y.en then s.sendHead sp (destOf w.1) (.nack w.2.1 false) 0
  else if y.records.length < 16 ∧ y.waiting = [] then (s.takeRecord sp q w.2.2).headAck sp w.1 w.2.1
  else s.modPart sp (fun x => { x with queues := x.queues.set q { y with waiting := y.waiting ++ [w] } })

/-- A host record at queue `q` (R411, R412): a disabled queue discards it, an enabled one takes it while it has room and no
record waits before it, and else it stays at the link. -/
def State.offerHost (s : State) (sp q : Nat) (r : BitVec 512) : State :=
  let y := (s.part sp).queues.getD q LaunchQueue.reset
  if !y.en then s.modPart sp (fun x => { x with hostFn := { x.hostFn with qst := 10, qnum := q } })
  else if y.records.length < 16 ∧ y.waiting = [] ∧ y.hostWaiting = [] then s.takeHostRecord sp q r
  else s.modPart sp (fun x => { x with queues := x.queues.set q { y with hostWaiting := y.hostWaiting ++ [r] } })

/-- A queue looks at what waits for it: the strands' records in order, then the host's (R280, R281, R412). -/
def State.takeWaiting (s : State) (sp q : Nat) : State :=
  let y := (s.part sp).queues.getD q LaunchQueue.reset
  let s := s.modPart sp (fun x => { x with queues := x.queues.set q { y with waiting := [], hostWaiting := [] } })
  y.hostWaiting.foldl (fun s r => s.offerHost sp q r) (y.waiting.foldl (fun s w => s.offerRecord sp q w) s)

/-- JOB_RECORD_INTAKE (R280, R284): a queue is offered the record; any other message to the head is NACKed. -/
def execJobRecordIntake (s : State) : Host.Outcome State Fault Refusal :=
  let pkt := s.arg.a
  .next (match Table.get? s.packets pkt with
    | none => s
    | some k =>
      let s := s.dropPacket pkt
      match k.body with
      | .message q lcn h (.vector r) =>
        if 16 ≤ q then s.sendHead k.sp (destOf lcn) (.nack h false) 0 else s.offerRecord k.sp q (lcn, h, r)
      | .message _ lcn h _ => s.sendHead k.sp (destOf lcn) (.nack h false) 0
      | _ => s)

/-- QCFG_WRITE (R281): a WEIGHT of 0 stores 1. A queue that is disabled by it refuses what waits for it (R280). -/
def execQcfgWrite (s : State) : Host.Outcome State Fault Refusal :=
  let sp := s.arg.a
  let q := s.arg.b
  let w := s.arg.w
  .next (((s.modReady sp (fun x =>
    let y := x.queues.getD q LaunchQueue.reset
    let n := (w.extractLsb' 10 8).toNat
    { x with queues := x.queues.set q { y with
        en := w.getLsbD 0, pm := w.getLsbD 1, owner := (w.extractLsb' 2 8).toNat, weight := if n = 0 then 1 else n } })).takeWaiting
    sp q).headLooks sp)

/-- QCFG as it is read (R281). -/
def LaunchQueue.word (y : LaunchQueue) : Word :=
  BitVec.ofNat 64 ((if y.en then 1 else 0) + (if y.pm then 2 else 0) + y.owner * 4 + y.weight * 2 ^ 10 +
    y.records.length * 2 ^ 18)

/-! ## Selection and placement -/

/-- The least of owners by VF, then by number (R286). -/
def Partition.nextOwner (x : Partition) : Option Nat :=
  x.readyOwners.foldl (fun best o =>
    match best with
    | none => some o
    | some b =>
      let v := x.vf.getD o 0
      let w := x.vf.getD b 0
      if v < w ∨ (v = w ∧ o < b) then some o else some b) none

/-- An owner's ready record of highest PRI, of those the earliest accepted: its queue, its place in it and the record
(R286). -/
def Partition.nextRecord (x : Partition) (o : Nat) : Option (Nat × Nat × Nat × BitVec 512) :=
  let rs := (x.queues.filter (fun q => q.2.owner == o)).flatMap (fun q =>
    (q.2.records.zipIdx.filter (fun r => x.readyRecord r.1.2)).map (fun r => (q.1, r.2, r.1.1, r.1.2)))
  rs.foldl (fun best r =>
    match best with
    | none => some r
    | some b =>
      if jobPri b.2.2.2 < jobPri r.2.2.2 ∨ (jobPri b.2.2.2 = jobPri r.2.2.2 ∧ r.2.2.1 < b.2.2.1) then some r else some b) none

/-- JOB_SELECTION (R286, R291): with no job pending and the head free, the next owner's record becomes pending; its
placement follows 30 cycles after the selection begins. VF and V are 64-bit registers. Of the intakes and completions that
wait, 28 may go before the dispatch after it. -/
def execJobSelection (s : State) : Host.Outcome State Fault Refusal :=
  let sp := s.arg.a
  let x := s.part sp
  let k := s.count (some sp)
  .next (if k < x.busy ∨ x.pending.isSome then s
    else
      match x.nextOwner with
      | none => s
      | some o =>
        match x.nextRecord o with
        | none => s
        | some (q, i, _, r) =>
          let y := x.queues.getD q LaunchQueue.reset
          let st := max (x.vf.getD o 0) x.vtime
          let cost := (2 ^ 16 * jobBw r * jobBh r + y.weight - 1) / y.weight
          let j : Job :=
            { id := jobIdOf r, record := r, queue := q, owner := o, state := .pending, ox := 0, oy := 0, members := []
              left := [], placeFrom := k + 30, save := 0, recallArea := 0, sent := [], kept := [], held := [], command := none, recalled := false }
          let s := s.modPart sp (fun x =>
            { x with
              vf := x.vf.set o ((st + cost) % 2 ^ 64), vtime := st, busy := k + 30 + 10 * min x.late 28
              passed := min x.late 28, late := x.late - 28, jobs := x.jobs.set (jobIdOf r) j
              queues := x.queues.set q { y with records := y.records.eraseIdx i } })
          (s.takeWaiting sp q).post (some sp) 30 .jobPlacement (args sp))

/-- The block at partition block coordinates (R283). -/
def Partition.blockAt (x : Partition) (bx by_ : Nat) : Nat :=
  let c := 16 * x.base + bx
  (by_ / 24 * 12 + c / 32) * 768 + by_ % 24 * 32 + c % 32

/-- The blocks of a rectangle. -/
def Partition.rectBlocks (x : Partition) (ox oy bw bh : Nat) : List Nat :=
  (List.range bh).flatMap (fun j => (List.range bw).map (fun i => x.blockAt (ox + i) (oy + j)))

/-- Put a number into a rising list. -/
def insertNat : List Nat → Nat → List Nat
  | [], n => [n]
  | m :: rest, n => if n < m then n :: m :: rest else m :: insertNat rest n

/-- Is a logical lane a member of a gang on its block: live, and one of the lanes 0 to L − 1 where R4 holds (R277,
R335)? -/
def State.memberLane (s : State) (l : Nat) : Bool :=
  (s.remapOf l).2 && ((s.block (l / 8)).short || decide (l % 8 < (s.block (l / 8)).live))

/-- The LCNs of the members of a rectangle: the live logical lanes of its blocks, ascending (R277). -/
def State.memberLcns (s : State) (sp ox oy bw bh : Nat) : List Nat :=
  let bs := ((s.part sp).rectBlocks ox oy bw bh).foldl insertNat []
  bs.flatMap (fun b => ((List.range 8).map (fun k => 8 * b + k)).filter s.memberLane)

/-- The member cores of a rectangle, in ascending LCN. -/
def State.memberCores (s : State) (sp ox oy bw bh : Nat) : List Nat :=
  (s.memberLcns sp ox oy bw bh).map (fun l => (s.remapOf l).1)

/-- Resume commands that wait for their rectangle look again (R378). -/
def State.kickResumes (s : State) (sp : Nat) : State :=
  (s.part sp).jobs.foldl (fun s j =>
    if j.2.state = .preempted ∧ j.2.command.isSome then s.post (some sp) 0 .resume { args sp j.1 with flag := true }
    else s) s

/-- The core rows of dies that the wake of a gang floods, each as one of its cores (R290). -/
def floodRows (ms : List Nat) : List Nat :=
  ms.foldl (fun l p =>
    if l.any (fun q => coordY q / 4 == coordY p / 4 && coordX q / 64 == coordX p / 64) then l else l ++ [p]) []

/-- The wake sets out to the row of core `p` (R290): it is at the rectangle's first core column on that die, in the top core row
of the block row, 16 + 5·DH cycles after the placement. -/
def State.sendWake (s : State) (sp ox id p : Nat) : State :=
  let col := max (16 * (s.part sp).base + ox) (coordX p / 64 * 32)
  let (n, s) := s.fresh
  let k := newPacket false 0x7F000 sp (2 * col) (coordY p / 4 * 4) .head 1 (.leg .wake { args 0 id with flag := true })
  ({ s with packets := s.packets.set n { k with inPort := 4 } }).post (some sp) (16 + 5 * s.spineHops p) .packetHop (args n)

/-- JOB_PLACEMENT (R287, R290, R291): the pending job takes its rectangle and barriers if they are free, not before its
selection and placement have taken their 30 cycles, and the wake sets out to its members, which are members of its barriers
from then on (R212). Resumes that wait may go on. -/
def execJobPlacement (s : State) : Host.Outcome State Fault Refusal :=
  let sp := s.arg.a
  let x := s.part sp
  .next (match x.pending with
    | none => s
    | some j =>
      match if s.count (some sp) < j.placeFrom then none else x.placeFor j.record with
      | none => s
      | some (ox, oy) =>
        let ms := s.memberCores sp ox oy (jobBw j.record) (jobBh j.record)
        let s := s.modPart sp (fun x => { x with
          jobs := x.jobs.set j.id { j with state := .running, ox := ox, oy := oy, members := ms, left := ms } })
        let s := ms.foldl (fun s p => s.modCore p (fun c => { c with bmem := jobWmask j.record })) s
        let s := (floodRows ms).foldl (fun s p => s.sendWake sp ox j.id p) s
        ((if j.placeFrom < s.count (some sp) then s.noteDue sp false else s).headLooks sp).kickResumes sp)

/-! ## The wake -/

/-- The job that core `p` belongs to, with its partition. -/
def State.jobOf (s : State) (p id : Nat) : Option (Nat × Job) :=
  (s.partOf p).bind (fun sp => ((s.part sp).jobs.get? id).map (fun j => (sp, j)))

/-- The argument capability of a woken slot 0 (R279, R289). -/
def argumentCap (r : BitVec 512) : CReg :=
  if jobArg r = 0 then CReg.zero
  else
    match narrowMeta (setPerm (setKind 0#64 3) 0x809#12) (jobArg r) (jobArgPages r * 2 ^ 21) with
    | some m => { tag := true, val := BitVec.ofNat 64 (jobArg r), mt := m }
    | none => CReg.zero

/-- A woken slot 0 (R279). -/
def wokenStrand (r : BitVec 512) : Strand :=
  let c2 := argumentCap r
  { Strand.fresh with
    pc := BitVec.ofNat 64 (jobCode r + jobEntry r), c := if c2 = CReg.zero then [] else [(2, c2)]
    sst := BitVec.ofNat 13 (jobMode r), codeLo := jobCode r, codeHi := jobCode r + jobPages r * 2 ^ 21
    job := jobIdOf r }

/-- The lines of the channel entries of a job (R289). -/
def entryLines (r : BitVec 512) : List Nat :=
  let a := jobArg r + 16 * jobChidx r
  (List.range ((a + 16 * jobNchan r - 1) / 64 - a / 64 + 1)).map (fun i => 64 * (a / 64 + i))

/-- A wake that finds its core out of service waits at its router (R326, R336). -/
def State.holdWake (s : State) (sp p id : Nat) : State :=
  let (n, s) := s.fresh
  let k := newPacket false 0x7F000 sp (coordX p) (coordY p) (.lane (s.core p).lcn) 1 (.leg .wake (args p id))
  { s with packets := s.packets.set n { k with stage := .held } }

/-- Is the logical lane of core `p` absent (R326)? -/
def State.laneGone (s : State) (p : Nat) : Bool := !(s.remapOf (s.core p).lcn).2

/-- The lane of member `p` of job `id` is absent, and refuses the head's order to it (R331): the member is finished (log 40). -/
def State.memberAbsent (s : State) (p id : Nat) : State :=
  ((s.modCore p (fun c => { c with
    slots := [], job := id, run := if c.run = .restoring then .run else c.run })).meterStop p).finishCheck p

/-- WAKE (R288): the core takes its place in the gang, and slot 0 starts, or its channel entries are read. A core that a double
trap stopped stays so (R370); a substitute that is being restored is woken after it (R383). A lane that is absent refuses the wake (R331). -/
def execWake (s : State) : Host.Outcome State Fault Refusal :=
  let p := s.arg.a
  let id := s.arg.b
  .next (match s.jobOf p id with
    | none => s
    | some (sp, j) =>
      if (s.core p).run = .doubleTrap then s
      else if s.arg.c = 1 ∨ s.laneGone p then s.memberAbsent p id
      else if s.outOfService p then s.holdWake sp p id
      else if (s.core p).run = .restoring then s.postCore p 1 .wake (args p id) else
      let r := j.record
      let lcns := j.members.map (fun m => (s.core m).lcn)
      let rank := (j.members.findIdx? (· == p)).getD 0
      let org := 8 * (s.part sp).blockAt j.ox j.oy
      let s := s.modCore p (fun c =>
        { c with
          grank := rank, gsize := lcns.length, gorg := org, bmem := jobWmask r, barr := 0#17, job := id
          tvec := if jobTvec r = 0 then c.tvec else BitVec.ofNat 64 (jobCode r + jobTvec r) })
      let s := s.meterStart p
      if jobNchan r = 0 then s.startStrand p 0 (wokenStrand r) 1
      else
        let ls := entryLines r
        let s := s.modCore p (fun c => { c with wakeLeft := ls.length })
        ls.zipIdx.foldl (fun s e =>
          let q : Request :=
            { id := 0, who := .strand p 8 0 e.2, lcn := (s.core p).lcn, slot := 0, part := sp, va := e.1
              kind := .read 64 false false, arrived := 0, walking := false, frame := 0, host := false, unchecked := false }
          s.sendFrom p true (.slice ((s.sliceOf sp e.1).getD 0)) 1 (.request q) e.2) s)

/-- Bind one channel entry of a wake; answers the END of a bad one (R289), as of one with a reserved field that is not 0
(R19): `hi` is bytes 8 to 15. -/
def State.bindEntry (s : State) (p : Nat) (lcns : List Nat) (w hi : Word) : State × Option Nat :=
  let h := (w.extractLsb' 0 6).toNat
  let n := (w.extractLsb' 16 32).toInt
  let rank : Int := if w.getLsbD 15 then n else n + (s.core p).grank
  let e := (s.core p).endAt h
  let tileIn := w.extractLsb' 6 3 == 7#3
  if rank < 0 ∨ (lcns.length : Int) ≤ rank ∨ (e.state ≠ .free ∧ e.state ≠ .parked) ∨ (tileIn ∧ (s.core p).hasTileIn) ∨
      w >>> 48 ≠ 0#64 ∨ hi ≠ 0#64 then
    (s, some h)
  else
    let v : Word := BitVec.ofNat 64 (lcns.getD rank.toNat 0 + (w.extractLsb' 9 6).toNat * 2 ^ 19 +
      (w.extractLsb' 6 3).toNat * 2 ^ 25)
    (s.bindEnd p h 0 v, none)

/-- WAKE_CHANNEL_BIND (R289): the entries have come; their ends are bound and slot 0 starts, in its handler where an
entry is bad. -/
def execWakeChannelBind (s : State) : Host.Outcome State Fault Refusal :=
  let p := s.arg.a
  .next (match s.jobOf p (s.core p).job with
    | none => s
    | some (sp, j) =>
      let r := j.record
      let lcns := j.members.map (fun m => (s.core m).lcn)
      let b := s.panRead sp (jobArg r + 16 * jobChidx r) (16 * jobNchan r)
      let t := (List.range (jobNchan r)).foldl (fun (t : State × Option Nat) i =>
        let half (o : Nat) : Word := BitVec.ofNat 64 (bytesNat ((b.drop (16 * i + o)).take 8))
        let u := t.1.bindEntry p lcns (half 0) (half 8)
        (u.1, if t.2.isSome then t.2 else u.2)) (s, none)
      let x := wokenStrand r
      match t.2 with
      | none => t.1.startStrand p 0 x 1
      | some h => t.1.startStrand p 0 (x.enter (trapChannel h 1) x.pc none (t.1.core p).tvec) 1)

/-! ## Completion -/

/-- Free every end of a core: what stands in one is discarded and its sender NACKed (R292). -/
def State.freeEnds (s : State) (p : Nat) : State :=
  let s := (s.core p).ends.foldl (fun s e => if e.2.inbox.isSome then s.nackEnd p e.1 e.2.plcn e.2.pend e.2.inbox else s) s
  s.modCore p (fun c => { c with ends := [], crystal := { c.crystal with back := [] } })

/-- A job leaves its rectangle and barriers (R292, R375). -/
def State.leaveGang (s : State) (p : Nat) (wmask : BitVec 16) : State :=
  s.modCore p (fun c =>
    { c with bmem := c.bmem &&& ~~~wmask, barr := c.barr &&& ~~~(wmask.setWidth 17), job := 0 })

/-- The job is over, with the status of its notice (R292, R374). A pending job that waited is placed when the head has served the
completion, in 10 cycles, and placed it, in 24 (R290, R291; log 95). -/
def State.completeJob (s : State) (sp : Nat) (j : Job) (status : Nat) : State :=
  let s := j.members.foldl (fun s p => (s.freeEnds p).leaveGang p (jobWmask j.record)) s
  let due := (s.part sp).headDue (s.count (some sp))
  let s := (s.modReady sp (fun x => { x with jobs := x.jobs.erase j.id })).noteDue sp due
  let s := (s.notify sp j.queue j.record status).headWork sp
  (s.post (some sp) ((s.part sp).busy + 24 - s.count (some sp)) .jobPlacement (args sp)).kickResumes sp

/-- JOB_COMPLETION (R292): every member is finished, as the head has learned. -/
def execJobCompletion (s : State) : Host.Outcome State Fault Refusal :=
  let sp := s.arg.a
  .next (match (s.part sp).jobs.get? s.arg.b with
    | some j => if j.state = .running ∧ j.left = [] ∧ j.members.all s.finished then s.completeJob sp j 0 else s
    | none => s)

end Sys2Proof.Machine
end

