-- ==== Sys2Proof/Machine/Streams.lean ====
section
/-! DEFINITION. Binding, freeing and skipping streams (R178 to R185). -/

namespace Sys2Proof.Machine

/-- The descriptor's reserved and unused fields are 0 (R179). -/
def streamFieldsOk (w0 w1 w2 : Word) : Bool :=
  let nd := (w0.extractLsb' 18 2).toNat
  let rest := 64 - 16 * (nd + 1)
  (w0 &&& 0xF#64) == 0#64 && w0 >>> 21 == 0#64 &&
    decide (w1.toNat / 2 ^ (64 - rest) = 0) && decide (w2.toNat / 2 ^ (64 - rest) = 0)

/-- The stream a descriptor describes (R179, R180). -/
def streamOf (w0 w1 w2 : Word) (out : Bool) : Stream :=
  let nd := (w0.extractLsb' 18 2).toNat
  { base := (w0.extractLsb' 4 14).toNat, ndim := nd, fe := w0.getLsbD 20
    cnt := (List.range (nd + 1)).map (fun d => (w1.extractLsb' (16 * d) 16).toNat)
    stride := (List.range (nd + 1)).map (fun d => (w2.extractLsb' (16 * d) 16).toInt)
    out := out, done := 0 }

/-- The lowest address and the highest end of a stream's elements, exactly, from the corners (R181). -/
def Stream.extent (x : Stream) : Int × Int :=
  let spans := (x.cnt.zip x.stride).map (fun p => (p.1 : Int) * p.2)
  let lo := spans.foldl (fun a d => a + min d 0) (x.base : Int)
  let hi := spans.foldl (fun a d => a + max d 0) (x.base : Int)
  (16 * lo, 16 * hi + 64)

/-- The stream generators a core's strands hold (R178). -/
def Core.generators (c : Core) : Nat := c.slots.foldl (fun n e => n + e.2.streams.length) 0

/-- `sbind` (R181). -/
def State.bindStream (s : State) (d : BitVec 5) (a : BitVec 3) (b : BitVec 5) (out : Bool) : Act := do
  let w0 := s.me.ext a.toNat
  let w1 := s.me.ext (a.toNat + 1)
  let w2 := s.me.ext (a.toNat + 2)
  let r := s.me.reg b
  need (streamFieldsOk w0 w1 w2) (trapStream d.toNat 2)
  need (r.tag && r.kind == 1) (trapTag (regNo b))
  need (r.has (if out then 1 else 0)) (trapPermission (regNo b))
  let st := streamOf w0 w1 w2 out
  let x := st.extent
  need (validBounds r.bounds && decide (r.bounds.1 ≤ x.1) && decide (x.2 ≤ r.bounds.2))
    (trapBounds (BitVec.ofNat 64 (16 * st.base)))
  need ((s.me.streams.get? d.toNat).isSome || decide (s.myCore.generators < 4)) (trapStream d.toNat 1)
  return (s.modMe (fun x =>
    let x := x.freeStream d.toNat
    { x with streams := x.streams.set d.toNat st, sst := streamBits x.sst d.toNat true out })).advance

/-- sbind.in (R181). -/
def execSbindIn (g : BitVec 3) (d : BitVec 5) (a : BitVec 3) (b : BitVec 5) (s : State) :
    Host.Outcome State Fault Refusal :=
  s.actV g (fun s => s.bindStream d a b false)

/-- sbind.out (R181). -/
def execSbindOut (g : BitVec 3) (d : BitVec 5) (a : BitVec 3) (b : BitVec 5) (s : State) :
    Host.Outcome State Fault Refusal :=
  s.actV g (fun s => s.bindStream d a b true)

/-- sfree (R185). -/
def execSfree (g : BitVec 3) (d : BitVec 5) (s : State) : Host.Outcome State Fault Refusal :=
  s.actV g (fun s => .ok (s.modMe (fun x => x.freeStream d.toNat)).advance)

/-- sskip (R185). -/
def execSskip (g : BitVec 3) (d a : BitVec 5) (s : State) : Host.Outcome State Fault Refusal :=
  s.actV g (fun s => .ok (s.modMe (fun x =>
    match x.streams.get? d.toNat with
    | none => x
    | some st =>
      let n := min (x.val a).toNat (st.total - st.done)
      { x with streams := x.streams.set d.toNat { st with done := st.done + n } })).advance)

end Sys2Proof.Machine
end

