-- ==== Sys2Proof/Machine/Context.lean ====
section
/-! DEFINITION. The records in which pre-emption and crystals keep strands, ends and cores (R372, R373, R376, R380),
and what they restore. -/

namespace Sys2Proof.Machine

/-! ## Granules -/

/-- Bytes as untagged granules. -/
def plainGranules (b : List Byte) : List Granule :=
  (List.range ((b.length + 15) / 16)).map (fun i => ((b.drop (16 * i)).take 16, false))

/-- The granule of a register: `val`, then `meta`, with the tag (R372). -/
def regGranule (r : CReg) : Granule :=
  (natBytes 8 r.val.toNat ++ natBytes 8 (if r.tag then r.mt.toNat else 0), r.tag)

/-- The bytes of granules. -/
def granuleBytes (g : List Granule) : List Byte := g.flatMap (·.1)

/-- A number in the bytes of a record. -/
def fieldAt (b : List Byte) (o n : Nat) : Nat := bytesNat ((b.drop o).take n)

/-- The register in granule `i` of a record. -/
def regAt (g : List Granule) (i : Nat) : CReg :=
  match g[i]? with
  | some x => granuleReg x.1 x.2
  | none => CReg.zero

/-- Write granules to a pan, with their tags. -/
def State.panPutGranules (s : State) (sp va : Nat) (g : List Granule) : State :=
  g.zipIdx.foldl (fun s e =>
    let s := s.panWrite sp (va + 16 * e.2) e.1.1
    if e.1.2 then s.panSetTag sp (va + 16 * e.2) else s) s

/-- Read `n` granules of a pan, with their tags. -/
def State.panGetGranules (s : State) (sp va n : Nat) : List Granule :=
  (List.range n).map (fun i => (s.panRead sp (va + 16 * i) 16, s.panTag sp (va + 16 * i)))

/-! ## The strand context record -/

/-- How a strand that stands in its wait is recorded (R219, R375): where it stands, its repetition, the length of the
instruction that has passed (0: it issues again), and what the wait keeps. A send wait, a barrier wait and a `wtu` are
kept as waits; a store, a contribution and a `ckpt` have had their effect; every other instruction issues again. -/
structure Standing where
  pc : Word
  rep : Option Rep
  passed : Nat
  endNo : Nat
  code : Nat
  clear : Nat
  target : Nat
  deriving DecidableEq, Repr

/-- The standing of a strand. -/
def Strand.standing (x : Strand) (ends : Table End) : Standing :=
  let past : Standing := { pc := x.pc, rep := x.rep, passed := 0, endNo := 0, code := 1, clear := 0, target := 0 }
  let again (h : Nat) : Standing :=
    { past with pc := x.waitPc, rep := x.waitRep, endNo := h, code := x.wait.code }
  let kept (h clear target : Nat) : Standing := { again h with passed := x.waitLen, clear := clear, target := target }
  match x.wait with
  | .ready => past
  | .far id =>
    match x.far.find? (fun f => f.id == id) with
    | some f => if f.dest = FarDest.none then { past with code := x.wait.code } else again 0
    | none => past
  | .ckpt => past
  | .send h =>
    kept h (match (ends.getD h End.free).clear with | some a => a.toNat + 1 | none => 0) 0
  | .barrier b false _ => kept b 0 0
  | .barrier b true _ => again b
  | .time t => kept 0 0 t
  | .recv h => again h
  | .alt hs _ => again (hs.headD 0)
  | .pull h => again h
  | .holder h => again h
  | _ => again 0

/-- A repetition in 32 bytes: body address, LEN, STG, STRIDE, then the model's own byte (in use, no passes, the body
instruction that issues next), k and the passes left (R130, R372). -/
def repBytes (r : Option Rep) : List Byte :=
  match r with
  | none => natBytes 32 0
  | some r =>
    natBytes 8 r.body.toNat ++ natBytes 1 r.len ++ natBytes 1 r.stg.toNat ++ natBytes 1 r.stride.toNat ++
      natBytes 1 (1 + (if r.empty then 2 else 0) + 4 * r.pos) ++ natBytes 4 0 ++ natBytes 8 r.k ++ natBytes 8 r.left

/-- A repetition from its 32 bytes; its captured words are fetched again (R128). -/
def repOf (b : List Byte) : Option Rep :=
  let f := fieldAt b 11 1
  if f % 2 = 0 then none
  else some
    { body := BitVec.ofNat 64 (fieldAt b 0 8) &&& ~~~1#64, len := fieldAt b 8 1, stg := BitVec.ofNat 3 (fieldAt b 9 1)
      stride := BitVec.ofNat 4 (fieldAt b 10 1), k := fieldAt b 16 8, left := fieldAt b 24 8, captured := []
      pos := f / 4, empty := f / 2 % 2 == 1 }

/-- Does a repetition's part of a record hold no reserved value (R19, R127, R130)? -/
def repSound (b : List Byte) : Bool :=
  let f := fieldAt b 11 1
  f == 0 || (f % 2 == 1 && fieldAt b 0 1 % 2 == 0 && decide (1 ≤ fieldAt b 8 1) && decide (fieldAt b 8 1 ≤ 16) &&
    decide (fieldAt b 9 1 < 8) && decide (fieldAt b 10 1 < 16) && decide (f / 4 < fieldAt b 8 1) && fieldAt b 12 4 == 0)

/-- A stream in 48 bytes (R178, R179, R372). -/
def streamBytes (x : Option Stream) : List Byte :=
  match x with
  | none => natBytes 48 0
  | some st =>
    let pad (l : List Nat) : List Nat := (l ++ [0, 0, 0, 0]).take 4
    let idx := pad (streamIndex st.cnt st.done)
    natBytes 8 (st.base * 2 ^ 4 + st.ndim * 2 ^ 18 + (if st.fe then 2 ^ 20 else 0)) ++
      (pad st.cnt).flatMap (natBytes 2) ++
      (pad (st.stride.map (fun i => (BitVec.ofInt 16 i).toNat))).flatMap (natBytes 2) ++
      idx.flatMap (natBytes 2) ++ natBytes 8 st.done ++ natBytes 8 (if st.out then 1 else 0)

/-- A stream from its 48 bytes. -/
def streamFrom (b : List Byte) : Stream :=
  let w (o : Nat) : Word := BitVec.ofNat 64 (fieldAt b o 8)
  { streamOf (w 0) (w 8) (w 16) (fieldAt b 40 8 % 2 == 1) with done := fieldAt b 32 8 }

/-- Does a bound stream's part of a record hold a descriptor that `sbind` takes, and no reserved value (R19, R179, R372)? -/
def streamSound (b : List Byte) : Bool :=
  let w (o : Nat) : Word := BitVec.ofNat 64 (fieldAt b o 8)
  streamFieldsOk (w 0) (w 8) (w 16) && decide (fieldAt b 40 8 ≤ 1)

/-- The trap that a strand has pending, a refused relaxed access's among them (R143, R375). -/
def Strand.pending (x : Strand) : Option Trap :=
  match x.pendTrap with
  | some t => some t
  | none => (x.far.find? (fun f => f.relaxed && f.left == 0 && f.refused.isSome)).bind (fun f => f.refused.map (·.2))

/-- Does the record keep which in-streams the waiting instruction popped: one that re-executes pops them again, and a send that
is NACKed too (R183, R186)? -/
def Strand.keepsPops (x : Strand) : Bool :=
  match x.wait with
  | .far id => (x.far.find? (fun f => f.id == id)).any (fun f => f.dest != FarDest.none)
  | .send _ => true
  | _ => false

/-- The element that a relaxed load has brought and still has to push onto out-stream `d` (R142, R184). -/
def Strand.landedPush (x : Strand) (d : Nat) : Option (BitVec 512) :=
  (x.far.find? (fun f => f.relaxed && f.landed.isSome && f.dest.vector == some (BitVec.ofNat 4 d))).map (fun f =>
    match f.dest, f.landed with
    | .lanes _ _, _ => f.data
    | _, some (b, _) => bytesVec b
    | _, none => f.data)

/-- What a record keeps besides in one byte: the in-streams that the waiting instruction popped (R186), that its wait has
been reported by the rake (R268), and the out-streams onto which a relaxed load's element still has to be pushed (R184). -/
def Strand.keptFlags (x : Strand) : Nat :=
  let mask (f : Nat → Bool) : Nat := ([13, 14, 15].filter f).foldl (fun n d => n + 2 ^ (d - 13)) 0
  (if x.keepsPops then mask (fun d => x.popped.contains (BitVec.ofNat 4 d)) else 0) + (if x.reported then 8 else 0) +
    16 * mask (fun d => (x.landedPush d).isSome)

/-- The strand context record (R372): 2,048 bytes, or the first 1,024 while VE is 0. Bytes 0x071 to 0x07F hold what the
model keeps of a wait: the length passed, the register that an acknowledgement clears, `keptFlags`, and a `wtu`'s target;
an element still to be pushed stands in its register's place. -/
def Strand.toRecord (x : Strand) (ends : Table End) (cseq : Word) : List Granule :=
  let w := x.standing ends
  let ctl := [w.pc.toNat, x.sst.toNat, x.hsp.toNat, x.hsl.toNat, x.dmask.toNat, x.fmode.toNat, x.srng.toNat, x.epc.toNat,
    x.tcause.toNat, x.tval.toNat, x.esst.toNat, cseq.toNat].flatMap (natBytes 8)
  let trap := x.pending
  let wait := natBytes 2 (w.code + w.endNo % 64 * 8) ++
    natBytes 6 (match trap with | some t => t.cause.toNat | none => 0xFF) ++
    natBytes 8 (match trap with | some t => t.value.toNat | none => 0) ++
    natBytes 1 (if x.halt then 1 else 0) ++ natBytes 1 w.passed ++ natBytes 1 w.clear ++ natBytes 1 x.keptFlags ++ natBytes 4 0 ++
    natBytes 8 w.target
  let rep := repBytes w.rep ++ repBytes (if x.epcWritten then none else x.repShadow)
  let ep := (List.range 8).flatMap (fun i => natBytes 8 (x.e.getD i 0#64).toNat)
  let strm := [13, 14, 15].flatMap (fun d => streamBytes (x.streams.get? d))
  plainGranules (ctl ++ wait ++ rep ++ ep ++ strm ++ natBytes 1 x.p.toNat ++ natBytes 111 0) ++
    (List.range 32).map (fun i => regGranule (x.reg (BitVec.ofNat 5 i))) ++
    (if x.ve then (List.range 16).flatMap (fun i =>
      plainGranules (vecBytes ((x.landedPush i).getD (x.v.getD i 0#512)))) else [])

/-- A strand from its record, with its CSEQ. The wait it stands in is read with `Strand.rewait`. -/
def strandOf (g : List Granule) (job codeLo codeHi serial : Nat) : Strand × Word :=
  let b := granuleBytes (g.take 32)
  let w (i : Nat) : Word := BitVec.ofNat 64 (fieldAt b (8 * i) 8)
  let sst : BitVec 13 := (w 1).setWidth 13
  let cause := fieldAt b 0x62 1
  let kept (i d : Nat) : Bool := (fieldAt b 0x73 1).testBit (i + d - 13)
  let vec (i : Nat) : List Byte := granuleBytes ((g.drop (64 + 4 * i)).take 4)
  let x : Strand :=
    { Strand.fresh with
      c := ((List.range 32).map (fun i => (i, regAt g (32 + i)))).filter (fun e => e.1 != 0 && e.2 != CReg.zero)
      v := if sst.getLsbD 2 then
          (List.range 16).map (fun i => (i, bytesVec (vec i)))
        else []
      p := BitVec.ofNat 8 (fieldAt b 0x190 1) ||| 1#8
      e := (List.range 8).map (fun i => (i, w (24 + i)))
      pc := w 0 &&& ~~~1#64, sst := sst, hsp := w 2 &&& 0x7FFF0#64, hsl := w 3 &&& 0x3FFF0#64
      dmask := (w 4).setWidth 32 &&& 0xFFFFFFFE#32, fmode := (w 5).setWidth 8, srng := w 6
      epc := w 7 &&& ~~~1#64, tcause := (w 8).setWidth 6, tval := w 9, esst := (w 10).setWidth 13
      rep := repOf ((b.drop 0x80).take 32), repShadow := repOf ((b.drop 0xA0).take 32)
      streams := ([13, 14, 15].filter (fun d => sst.getLsbD (d - 10))).map
        (fun d => (d, streamFrom ((b.drop (0x100 + 48 * (d - 13))).take 48)))
      pendTrap := if cause = 0xFF then none else some { cause := BitVec.ofNat 6 cause, value := BitVec.ofNat 64 (fieldAt b 0x68 8) }
      halt := fieldAt b 0x70 1 % 2 == 1
      popped := ([13, 14, 15].filter (kept 0)).map (BitVec.ofNat 4)
      far := ([13, 14, 15].filter (kept 4)).map (fun d =>
        { id := serial + d - 12, relaxed := true, eas := [0], dest := .vec (BitVec.ofNat 4 d), left := 1, data := 0#512
          refused := none, landed := some (vec d, false) })
      job := job, codeLo := codeLo, codeHi := codeHi, serial := serial }
  (x, w 11)

/-- Does a strand record hold no reserved value and nothing in a reserved field (R19, R36 to R39, R138, R372)? `esst` may
hold every MODE (R36, R222), `hsp` what `popm` leaves (R144), and a stream or a repetition counts where one is in use. -/
def strandSound (g : List Granule) : Bool :=
  let b := granuleBytes (g.take 32)
  let w (i : Nat) : Nat := fieldAt b (8 * i) 8
  decide (w 0 % 2 = 0) && decide (w 1 < 2 ^ 13) && w 1 % 4 != 2 && decide (w 10 < 2 ^ 13) &&
    decide (w 2 % 16 = 0) && decide (w 2 ≤ 2 ^ 18) && decide (w 3 % 16 = 0) && decide (w 3 < 2 ^ 18) &&
    decide (w 4 < 2 ^ 32) && decide (w 4 % 2 = 0) && decide (w 5 < 2 ^ 8) && decide (w 5 % 8 ≤ 4) && decide (w 7 % 2 = 0) &&
    decide (w 8 < 2 ^ 6) && decide (fieldAt b 0x60 2 < 2 ^ 9) &&
    (fieldAt b 0x62 1 == 0xFF || decide (fieldAt b 0x62 1 < 64)) && fieldAt b 0x63 5 == 0 &&
    decide (fieldAt b 0x70 1 ≤ 1) && decide (fieldAt b 0x71 1 ≤ 6) && fieldAt b 0x71 1 % 2 == 0 && decide (fieldAt b 0x72 1 ≤ 32) &&
    decide (fieldAt b 0x73 1 < 128) && fieldAt b 0x74 4 == 0 && repSound ((b.drop 0x80).take 32) && repSound ((b.drop 0xA0).take 32) &&
    ([13, 14, 15].filter (fun d => (w 1).testBit (d - 10))).all (fun d => streamSound ((b.drop (0x100 + 48 * (d - 13))).take 48)) &&
    (b.drop 0x191).all (· == 0#8) && (List.range 32).all (fun i => loadable (regAt g (32 + i)))

/-- The wait of a record: its code, the end or barrier, the length passed, the register an acknowledgement clears, a
`wtu`'s target, and whether the wait has been reported. -/
def waitField (g : List Granule) : Nat × Nat × Nat × Option (BitVec 5) × Nat × Bool :=
  let b := granuleBytes (g.take 32)
  let f := fieldAt b 0x60 2
  let c := fieldAt b 0x72 1
  (f % 8, f / 8 % 64, fieldAt b 0x71 1, if c = 0 then none else some (BitVec.ofNat 5 (c - 1)), fieldAt b 0x78 8,
    (fieldAt b 0x73 1).testBit 3)

/-- Slot `k` of core `p` goes on from a record (R378, R383, R384): a send wait stands until its reply, unless it has come
in the end's ACKD and NAKD; a barrier wait stands until the release; a `wtu` waits for its target; every other strand is
ready `n` cycles from now, and pops again what it had popped (R186). Wait ages restart; a wait that has been reported stays
so (R268). -/
def State.rewait (s : State) (p k : Nat) (g : List Granule) (n : Nat) : State :=
  let (code, h, passed, clear, target, reported) := waitField g
  let now := s.countCore p
  let t := (s.core p).rakeT.toNat
  let s := s.modStrand p k (fun x => { x with wait := .ready, readyAt := now + n })
  let hold (w : Wait) (s : State) : State :=
    let s := s.modStrand p k (fun x => { x.waitFor w false passed now t with reported := reported })
    if w.isEdge then s.postCore p t .rakeThreshold (args p k) else s
  if passed = 0 then s.unpop p k
  else if code = 3 then
    let e := (s.core p).endAt h
    if !e.ackd then
      hold (.send h) (s.setEnd p h { e with clear := clear })
    else
      let s := s.setEnd p h { e with state := .idle, clear := none, ackd := false, nakd := false }
      if e.nakd then (s.unpop p k).modStrand p k (fun x => { x with pendTrap := some (trapNack (BitVec.ofNat 64 (e.plcn * 64 + e.pend))) })
      else
        s.modStrand p k (fun x => match clear with
          | some a => (x.setReg a CReg.zero).past passed
          | none => x.past passed)
  else if code = 4 then
    if (s.core p).barr.getLsbD h then hold (.barrier h false false) s else s.modStrand p k (fun x => x.past passed)
  else
    let s := hold (.time target) s
    if target ≤ s.now then s.modStrand p k (fun x => { x with wait := .ready, readyAt := now + n })
    else s.postAt none target .wtuTargetReached (args p k)

/-! ## The end record -/

/-- The end record (R373): the `chst` word, ACKD and NAKD, the model's bit for a message taken before a failure, and what
stands in the end. -/
def End.toRecord (e : End) : List Granule :=
  let head := natBytes 8 e.word.toNat ++ natBytes 8 ((if e.ackd then 1 else 0) + (if e.nakd then 2 else 0) +
    (if e.taken then 4 else 0))
  let word : Granule := match e.inbox with
    | some (.word r) => regGranule r
    | _ => (natBytes 16 0, false)
  let body : List Byte := match e.inbox with
    | some (.vector x) => vecBytes x
    | some (.offer base n) => natBytes 8 base ++ natBytes 8 n ++ natBytes 48 0
    | some (.tile f n) => natBytes 8 f ++ natBytes 8 n ++ natBytes 48 0
    | _ => natBytes 64 0
  plainGranules head ++ [word] ++ plainGranules (body ++ natBytes 32 0)

/-- The state of a STATE code (R189). -/
def endStateOf (n : Nat) : EndState :=
  match n with
  | 0 => .free
  | 1 => .parked
  | 2 => .idle
  | 3 => .full
  | 4 => .recvWait
  | 5 => .sendWait
  | 6 => .pull
  | _ => .tile

/-- An end from its record; a pull begins anew, from its offer. -/
def endOf (g : List Granule) : End :=
  let b := granuleBytes g
  let w := fieldAt b 0 8
  let st := endStateOf (w % 8)
  let psz := w / 2 ^ 4 % 4
  let holds := st == .parked || st == .full || st == .pull
  let payload : Payload :=
    if psz = 0 then .word (regAt g 1)
    else if psz = 1 then .vector (bytesVec ((b.drop 32).take 64))
    else if psz = 2 then .offer (fieldAt b 32 8 % 2 ^ 18) (fieldAt b 40 8)
    else .tile (fieldAt b 32 8) (fieldAt b 40 8)
  { End.free with
    state := if st = .pull then .full else st
    dirIn := w / 8 % 2 == 1, psz := psz, slot := w / 2 ^ 6 % 8, plcn := w / 2 ^ 9 % 2 ^ 19, pend := w / 2 ^ 28 % 64
    inbox := if holds then some payload else none
    ackd := fieldAt b 8 1 % 2 == 1, nakd := fieldAt b 8 1 / 2 % 2 == 1
    taken := fieldAt b 8 1 / 4 % 2 == 1 }

/-- Does an end record hold no reserved value and nothing in a reserved field (R19, R26, R199, R373)? -/
def endSound (g : List Granule) : Bool :=
  let b := granuleBytes g
  decide (fieldAt b 0 8 < 2 ^ 34) && decide (fieldAt b 8 8 < 8) && loadable (regAt g 1) &&
    (fieldAt b 0 8 / 2 ^ 4 % 4 != 2 ||
      (decide (fieldAt b 32 8 < 2 ^ 18) && decide (fieldAt b 40 8 ≤ 2 ^ 18) && ((b.drop 48).take 48).all (· == 0#8))) &&
    (b.drop 96).all (· == 0#8)

/-! ## The header -/

/-- The slots that hold a strand, as a mask. -/
def Core.presentMask (c : Core) : Nat := c.slots.foldl (fun n e => n + 2 ^ e.1) 0

/-- The first 12 words of a header (R376): `lcn` to `tscale`, the membership and ARR masks, PRESENT and VALID. -/
def Core.headerWords (c : Core) (valid : Bool) : List Nat :=
  [c.lcn, c.grank, c.gsize, c.gorg, c.tvec.toNat, c.rakeT.toNat, c.toff.toNat, c.tscale.toNat,
    c.bmem.toNat + 2 ^ 16, c.barr.toNat, c.presentMask, if valid then 1 else 0]

/-- Does a header hold nothing in a reserved field (R19, R376)? -/
def headerSound (w : Nat → Nat) : Bool :=
  decide (w 0 < coreCount) && decide (w 1 < 2 ^ 19) && decide (w 2 < 2 ^ 19) && decide (w 3 < 2 ^ 19) && decide (w 4 % 2 = 0) &&
    decide (w 5 < 2 ^ 32) && decide (w 8 < 2 ^ 17) && decide (w 9 < 2 ^ 17) && decide (w 10 < 2 ^ 8) &&
    decide (w 11 ≤ 1)

/-- The per-core registers of a header; barrier membership and ARR come with it only at a resume. -/
def Core.fromHeader (c : Core) (w : Nat → Nat) (barriers : Bool) : Core :=
  let c := { c with
    grank := w 1 % 2 ^ 19, gsize := w 2 % 2 ^ 19, gorg := w 3 % 2 ^ 19, tvec := BitVec.ofNat 64 (w 4) &&& ~~~1#64, rakeT := BitVec.ofNat 32 (w 5)
    toff := BitVec.ofNat 64 (w 6), tscale := BitVec.ofNat 64 (w 7) }
  if barriers then { c with bmem := BitVec.ofNat 16 (w 8), barr := BitVec.ofNat 17 (w 9) } else c

/-- The code range of the strands of a job (R279). -/
def jobRange (r : BitVec 512) : Nat × Nat := (jobCode r, jobCode r + jobPages r * 2 ^ 21)

end Sys2Proof.Machine
end

