-- ==== Sys2Proof/Machine/Crystal.lean ====
section
/-! DEFINITION. Crystals, containment, substitution and replay (R219, R335, R364, R371, R380 to R387). -/

namespace Sys2Proof.Machine

/-! ## Taking a crystal -/

/-- A crystal descriptor: the region, and the reload pairs (R380). -/
structure CrystalDesc where
  rbase : Nat
  rlen : Nat
  pairs : List (Nat × Nat × Nat)
  deriving DecidableEq, Repr

/-- The descriptor in 64 bytes; none where it breaks the layout of R380. -/
def crystalDesc (b : List Byte) : Option CrystalDesc :=
  let rbase := fieldAt b 0 4
  let rlen := fieldAt b 4 4
  let n := fieldAt b 8 1
  let pair (i : Nat) : Nat × Nat × Nat := (fieldAt b (16 + 16 * i) 8, fieldAt b (24 + 16 * i) 4, fieldAt b (28 + 16 * i) 4)
  let pairs := (List.range n).map pair
  if rbase % 16 = 0 ∧ rlen % 16 = 0 ∧ rlen ≤ 16384 ∧ rbase + rlen ≤ 0x30000 ∧ n ≤ 3 ∧ fieldAt b 9 7 = 0 ∧
      pairs.all (fun p => p.1 % 64 == 0 && p.2.1 % 64 == 0 && p.2.2 % 64 == 0 && decide (p.2.1 + p.2.2 ≤ 0x30000)) ∧
      ((List.range 3).filter (fun i => decide (n ≤ i))).all (fun i => pair i == (0, 0, 0)) then
    some { rbase := rbase, rlen := rlen, pairs := pairs }
  else none

/-- B, the bytes of a crystal (R380). -/
def Core.crystalBytes (c : Core) (d : CrystalDesc) : Nat :=
  256 + c.slots.foldl (fun n e => n + if e.2.ve then 2048 else 1024) 0 +
    128 * (c.ends.filter (fun e => decide (e.2.state ≠ .free))).length + d.rlen

/-- The crystal of a core as it stands (R380). -/
def Core.crystalOf (c : Core) (desc : List Byte) (d : CrystalDesc) : List Granule :=
  let mask := c.ends.foldl (fun n e => if e.2.state = .free then n else n + 2 ^ e.1) 0
  let head := (c.headerWords true ++ [c.crystalBytes d, mask]).flatMap (natBytes 8) ++ desc ++ natBytes 80 0
  plainGranules head ++
    c.slots.flatMap (fun e => e.2.toRecord c.ends (c.cseq.getD e.1 0#64)) ++
    (c.ends.filter (fun e => decide (e.2.state ≠ .free))).flatMap (fun e => e.2.toRecord) ++
    c.getGranules d.rbase (d.rlen / 16)

/-- Core `p` takes a crystal now (R219, R382): it goes to the buddy's other buffer, the log's mark is set, and the core
issues nothing until the CPE has read it. -/
def State.takeCrystal (s : State) (p : Nat) (slot : Option Nat) (at_ : Nat) (desc : List Byte) (d : CrystalDesc) : State :=
  let c := s.core p
  let buf := if c.crystal.current = some 0 then 1 else 0
  let (held, s) := match s.buddyOf p with
    | some b => if s.clockHeld b then (c.crystalOf desc d, s)
      else ([], s.modCore b (fun x => x.putGranules (crystalBase buf) (c.crystalOf desc d)))
    | none => ([], s)
  let s := s.modCore p (fun x => { x with crystal := { x.crystal with
    writing := some buf, bytes := c.crystalBytes d, slot := slot, desc := some at_, due := false, mark := x.crystal.next, taking := c.cseq, image := held } })
  s.cpeWork p .crystal

/-- ckpt (R219, R380). -/
def execCkpt (g : BitVec 3) (a : BitVec 5) (s : State) : Host.Outcome State Fault Refusal :=
  s.act g (fun s => do
    let p := s.cur.core
    let r := s.me.reg a
    let ea : Int := r.val.toNat
    need (r.tag && r.kind == 1) (trapTag (regNo a))
    need (s.crystalOn p) (trapPermission 0#64)
    need (r.has 0) (trapPermission (regNo a))
    checkBounds r ea 64
    checkAlign ea 16
    let b := s.spBytes ea 64
    match crystalDesc b with
    | none => .error (trapCrystal 1)
    | some d =>
      need (decide (s.myCore.crystalBytes d ≤ 28672)) (trapCrystal 2)
      need (s.buddyOf p).isSome (trapCrystal 3)
      if s.myCore.crystal.writing.isSome then return s.waitAgain (.ckptFirst s.cur.len s.cur.bits)
      else return (s.waitNext .ckpt).takeCrystal p (some s.cur.slot) (ea.toNat % 2 ^ 18) b d)

/-- A crystal is over: its strand goes on, and the strands whose `ckpt` waits for the end of another act in this cycle, the
lowest slot's first (R187, R219). -/
def State.wakeCkpt (s : State) (p : Nat) : State :=
  (List.range 8).foldl (fun s k =>
    if s.occupied p k then
      match (s.strand p k).wait with
      | .ckpt => s.wake p k
      | .ckptFirst _ _ => s.postCore p 0 .fenceConditionMet (args p k)
      | _ => s
    else s) s

/-- The bytes of core `b`'s crystal that waited for the release of its buddy `p` land there (R351). -/
def State.landCrystal (s : State) (p b : Nat) : State :=
  let c := (s.core b).crystal
  match c.writing, c.image with
  | _, [] => s
  | none, _ => s
  | some buf, g =>
    (s.modCore p (fun x => x.putGranules (crystalBase buf) g)).modCore b (fun x =>
      { x with crystal := { x.crystal with image := [] } })

/-- CRYSTAL_CURRENT (R219, R382): the crystal is current, and the log's entries before the mark are discarded. With the flag,
the bytes of core `b`'s crystal have landed at its buddy `a`, which acknowledges them. Where the buddy's lane was absent and the
bytes were refused (`c` = 1, R331), the crystal is not current. -/
def execCrystalCurrent (s : State) : Host.Outcome State Fault Refusal :=
  let p := s.arg.a
  .next (if s.arg.flag then
      (s.landCrystal p s.arg.b).sendFrom p false (.lane (s.core s.arg.b).lcn) 1 (.leg .crystalCurrent (args s.arg.b)) 0
    else
    let c := (s.core p).crystal
    let s := match if s.arg.c = 1 then none else c.writing with
      | none => if s.arg.c = 1 then (s.modCore p (fun x => { x with crystal := { c with writing := none, slot := none, image := [] } })).askCrystal p else s
      | some b =>
        let s := s.modCore p (fun x => { x with crystal := { c with
          current := some b, writing := none, slot := none, cseqs := c.taking, rows := c.rows.filter (fun r => decide (c.mark ≤ r.number)) } })
        s.askCrystal p
    (s.wakeCkpt p).rescan)

/-- SELF_CRYSTAL (R382): with the descriptor of its last `ckpt`, unless `ckpt` would refuse it; without a current crystal
only where the flag asks for one, after its buddy's substitution. A crystal that comes due while another is being written,
while the core is saved or restored, or while its log is replayed, is taken after that (log entry 114). -/
def execSelfCrystal (s : State) : Host.Outcome State Fault Refusal :=
  let p := s.arg.a
  let c := s.core p
  let due (b : Bool) : State := s.modCore p (fun x => { x with crystal := { x.crystal with due := b } })
  .next (match c.crystal.desc with
    | none => s
    | some a =>
      if s.crystalOn p && (c.crystal.current.isSome || s.arg.flag) && (s.buddyOf p).isSome then
        if c.run == .saving || c.run == .restoring || c.crystal.writing.isSome || c.crystal.replay != [] then due true
        else if c.run != .run then s
        else
          let b := c.sp.readN a 64
          match crystalDesc b with
          | none => due false
          | some d => if c.crystalBytes d ≤ 28672 then s.takeCrystal p none a b d else due false
      else s)

/-! ## Containment -/

/-- The crystals and logs that a core holds for other lanes are lost (R382). -/
def State.loseCrystals (s : State) (p : Nat) : State :=
  (s.crystalsIn p).foldl (fun s q =>
    s.modCore q (fun c => { c with crystal := { c.crystal with
      current := none, writing := none, bytes := 0, slot := none, due := false, image := [], mark := c.crystal.next, rows := []
      replay := [], back := [] } })) s

/-- Members of the block barrier that have all arrived are released (R212). -/
def State.releaseBlock (s : State) (p : Nat) : State :=
  let ms := s.barrierMembers p 16
  if ms ≠ [] ∧ ms.all (fun m => s.arrived m 16) then
    ms.foldl (fun t m => t.postCore m (s.releaseDelay p m 16) .barrierRelease (args m 16)) s
  else s

/-- The block is short: logical lane `k` is absent, and a record of TYPE 0x02 names it (R335), of a hidden retirement too (log
entry 127). -/
def State.blockShort (s : State) (p k : Nat) : State :=
  let blk := blockOf p
  let s := s.modBlock blk (fun b =>
    { b with short := true, live := b.live - 1, remap := b.remap.set k (b.remap.getD k 0#4 &&& 7#4) })
  ((s.postRecord ((s.partOf p).getD 31) 2 (recordEntry (8 * blk + k) 0 0 0)).releaseBlock p).rescan

/-- What is on its way to core `p` goes to core `q`. -/
def State.redirect (s : State) (p q : Nat) : State :=
  { s with
    packets := s.packets.map (fun e =>
      match e.2.body with
      | .leg .wake o => if !o.flag && o.a == p then (e.1, { e.2 with body := .leg .wake { o with a := q } }) else e
      | _ => e)
    agenda := s.agenda.map (fun e =>
      if e.arg.a = p ∧ (e.event = .barrierRelease ∨ e.event = .wake ∨ e.event = .wakeChannelBind ∨
          e.event = .preemptionMessage) then { e with arg := { e.arg with a := q } }
      else e) }

/-- Core `q` is a member of its partition's jobs where core `p` was. -/
def State.replaceMember (s : State) (sp p q : Nat) : State :=
  let f (l : List Nat) : List Nat := l.map (fun m => if m = p then q else m)
  s.modPart sp (fun x => { x with jobs := x.jobs.map (fun e => (e.1, { e.2 with members := f e.2.members, left := f e.2.left })) })

/-- The reserve takes lane `k` from core `p` (R334, R383, R386): with a current crystal it reloads and restores, else it
starts empty; a core that was being saved leaves an image that is not valid, and is restored from its crystal at the resume
(R376). A record that the retired core still held stays with it, and its token with the record (log 97). -/
def State.substitute (s : State) (p k : Nat) (hidden : Bool) : State :=
  let blk := blockOf p
  let old := s.core p
  let rlane := (s.block blk).rlane
  let q := 8 * blk + rlane
  let exact := s.crystalOn p && old.crystal.current.isSome
  let holder := (s.buddyOf p).map s.core
  let buf := old.crystal.current.getD 0
  let bytes := (holder.map (fun c => c.crystalWord buf 12)).getD 0
  let pairs := ((holder.bind (fun c => crystalDesc (c.sp.readN (crystalBase buf + 112) 64))).map (·.pairs)).getD []
  let s := s.modBlock blk (fun b =>
    ({ b with rav := false, remap := b.remap.set k (BitVec.ofNat 4 (rlane + 8)) }).setMxeLane k MxeLane.empty)
  let s := s.modCore q (fun c =>
    { c with
      lcn := 8 * blk + k, pcid := if hidden then old.pcid else (Core.reset q).pcid, bmem := old.bmem, barr := old.barr, job := old.job
      wakeLeft := old.wakeLeft, meterFrom := old.meterFrom, invalid := old.run == .saving, replaces := some (p % 8, hidden)
      tableOps := old.tableOps.filter (fun e => e.2.kind == 1), cseq := old.cseq
      crystal := { old.crystal with writing := none, slot := none, due := false, image := [], bytes := if exact then bytes else 0 } })
  let s := s.modCore p (fun c =>
    { c with crystal := Crystal.none, meterFrom := none, bmem := 0#16, barr := 0#17, tableOps := [] })
  let s := (s.redirect p q).replaceMember ((s.partOf p).getD 31) p q
  if exact && old.run == .saving then s.modCore q (fun c => { c with run := .saving })
  else if exact then (s.modCore q (fun c => { c with run := .restoring })).cpeWork q (.reload pairs)
  else
    let s := s.startEmpty q
    if old.run = .saving then s.modCore q (fun c => { c with run := .saving }) else s

/-- A core is contained for a reason other than a double trap (R371, R386). A member whose slots are empty and whose engine jobs
are so discarded is finished (R292). A hidden retirement without a reserve writes the record of TYPE 0x02 too (log entry 127). -/
def State.contain (s : State) (p : Nat) (hidden : Bool) : State :=
  let c := s.core p
  if c.run = .contained ∨ c.run = .doubleTrap then s
  else
    let k := c.lcn % 8
    let b := s.block (blockOf p)
    let serves := s.remapOf (8 * blockOf p + k) == (p, true)
    let t := (s.containAs p .contained).loseCrystals p
    let t := if c.run = .saving then t.modCore p (fun x => { x with run := .saving }) else t
    let t := if b.rav && b.rlane == p % 8 then t.modBlock (blockOf p) (fun x => { x with rav := false }) else t
    let t := if !serves then t else if b.rav && b.rlane != p % 8 then t.substitute p k hidden else t.blockShort p k
    (t.modCore p (fun x => { x with run := .contained, invalid := c.run == .saving })).finishCheck p

/-- UNCORRECTABLE_SOFT_ERROR (R371). -/
def execUncorrectableSoftError (s : State) : Host.Outcome State Fault Refusal := .next (s.contain s.arg.a false)

/-- SOFT_ERROR_CORRECTED (R371): corrected in place and counted. -/
def execSoftErrorCorrected (s : State) : Host.Outcome State Fault Refusal :=
  .next { s with sup := { s.sup with corrected := s.sup.corrected + 1 } }

/-- CORE_RETIREMENT (R371, R387). -/
def execCoreRetirement (s : State) : Host.Outcome State Fault Refusal := .next (s.contain s.arg.a s.arg.flag)

/-! ## Restoring -/

/-- The code range of a restored strand of slot `k`: its job's, or that of the strands of the core it is restored from
(R279). -/
def State.rangeFor (s : State) (p from_ k : Nat) : Nat × Nat :=
  match s.jobOf p (s.core p).job with
  | some (_, j) => jobRange j.record
  | none =>
    match Table.get? (s.core from_).slots k with
    | some x => (x.codeLo, x.codeHi)
    | none => (((s.core from_).slots.head?).map (fun e => (e.2.codeLo, e.2.codeHi))).getD (0, 0)

/-- A slot from its record, with the slot's CSEQ as `f` makes it from the saved value (R150). -/
def State.restoreSlot (s : State) (p from_ k : Nat) (g : List Granule) (f : Word → Word → Word) : State :=
  let (lo, hi) := s.rangeFor p from_ k
  let id := s.nextId
  let s := { s with nextId := id + 4 }
  let (x, c) := strandOf g (s.core p).job lo hi id
  s.modCore p (fun d => { d with slots := d.slots.set k x, cseq := d.cseq.set k (f (d.cseq.getD k 0#64) c) })

/-- The records of the slots of a crystal, by slot. -/
def Core.crystalSlots (c : Core) (buf : Nat) : List (Nat × List Granule) :=
  ((List.range 8).filter (fun k => (c.crystalWord buf 10).testBit k)).map (fun k =>
    let a := c.crystalSlot buf k
    (k, c.getGranules a (if (c.sp.read (a + 8)).getLsbD 2 then 128 else 64)))

/-- The ends of a crystal. -/
def Core.crystalEnds (c : Core) (buf : Nat) : Table End :=
  ((List.range 64).filter (fun h => (c.crystalWord buf 13).testBit h)).map (fun h =>
    (h, endOf (c.getGranules (c.crystalEnd buf h) 8)))

/-- Does a crystal hold no reserved value and nothing in a reserved field (R19, R380)? -/
def Core.crystalSound (c : Core) (buf : Nat) : Bool :=
  headerSound (c.crystalWord buf) && (crystalDesc (c.sp.readN (crystalBase buf + 112) 64)).isSome &&
    (c.crystalSlots buf).all (fun e => strandSound e.2) &&
    ((List.range 64).filter (fun h => (c.crystalWord buf 13).testBit h)).all (fun h =>
      endSound (c.getGranules (c.crystalEnd buf h) 8))

/-- SUBSTITUTION_RESTORE_DONE (R364, R383): registers, slots, ends and region come from the crystal, the log is replayed
from the mark, the record of TYPE 0x03 is written unless the retirement is hidden, and the lane's packets go on. A message
that was parked in the crystal and has been bound or refused since is gone from its end; a send that is still out counts its
round trip from its issue (R387). A crystal that R19 rejects leaves the substitute empty (R386). -/
def execSubstitutionRestoreDone (s : State) : Host.Outcome State Fault Refusal :=
  let p := s.arg.a
  let c := s.core p
  .next (
    if c.run ≠ .restoring then s
    else
      match c.replaces, c.crystal.current, s.buddyOf p with
      | some (old, hidden), some buf, some b =>
        let d := s.core b
        if !d.crystalSound buf then s.startEmpty p else
        let region := (crystalDesc (d.sp.readN (crystalBase buf + 112) 64)).getD { rbase := 0, rlen := 0, pairs := [] }
        let rows := c.crystal.rows
        let here (r : LogRow) : Bool := r.kind == logArrive && r.st == 0
        let left := (rows.filter (fun r => !here r)).map (·.number)
        let gone := (s.core (p / 8 * 8 + old)).ends
        let ends := ((d.crystalEnds buf).filter (fun e => !(e.2.state == .parked && e.2.taken))).map (fun e =>
          if e.2.state = .sendWait then (e.1, { e.2 with sentAt := (gone.getD e.1 End.free).sentAt }) else e)
        let s := s.setCore p { (c.fromHeader (d.crystalWord buf) false) with
          slots := [], ends := ends, run := .run, replaces := none, cseq := c.crystal.cseqs
          crystal := { c.crystal with
            bytes := 0, mark := (rows.head?.map (·.number)).getD c.crystal.next, replay := left
            back := (rows.filter here).map (·.number) } }
        let s := s.modCore p (fun x =>
          let a := d.crystalEnd buf 64
          (x.putGranules region.rbase (d.getGranules a (region.rlen / 16))).setFe (granules region.rbase region.rlen) true)
        let slots := d.crystalSlots buf
        let s := slots.foldl (fun s e => s.restoreSlot p (p / 8 * 8 + old) e.1 e.2 (fun _ saved => saved)) s
        let s := (rows.filter here).foldl (fun s r => s.rearrive p r.endNo) s
        let s := slots.foldl (fun s e => s.rewait p e.1 e.2 1) s
        let s := if hidden then s
          else s.postRecord ((s.partOf p).getD 31) 3 (recordEntry c.lcn 0 (old + p % 8 * 8) 0)
        (((s.rescan.wakeFullEmpty p).finishCheck p).askBuddies p).askCrystal p
      | _, _, _ => s.startEmpty p)

end Sys2Proof.Machine
end

