-- ==== Sys2Proof/Machine/Device.lean ====
section
/-! DEFINITION. Device-register windows: what each register reads as, which events their writes are, and what those
writes do (R225, R305, R326, R333 to R335, R340, R341, R343, R349, R355, R416 to R421). -/

namespace Sys2Proof.Machine

/-! ## Reading -/

/-- The CLASS code of a depth and the other fields of TCFG (R349). -/
def TreeNode.word (t : TreeNode) : Word :=
  let st := match t.state with
    | .run => 0
    | .hold => 1
    | .adopt => 2
    | .off => 3
  BitVec.ofNat 64 (t.pport.toNat + (if t.root then 4 else 0) + t.child.toNat * 2 ^ 3 + t.depth % 256 * 2 ^ 7 +
    t.cls * 2 ^ 15 + st * 2 ^ 17)

/-- BCFG of a block (R333). -/
def Block.bcfg (b : Block) : Word :=
  BitVec.ofNat 64 (b.fuse.toNat + b.oos.toNat * 2 ^ 8 + (if b.rsv then 2 ^ 16 else 0) + b.rlane % 8 * 2 ^ 17 +
    (if b.rav then 2 ^ 20 else 0) + (if b.short then 2 ^ 21 else 0) + b.live % 16 * 2 ^ 22)

/-- The cores of a die, by number. -/
def dieCores (die : Nat) : List Nat := (List.range 6144).map (fun i => 6144 * die + i)

/-- The core at die-local (cx, cy) of a die (R348). -/
def dieCore (die cx cy : Nat) : Nat := coreAt (die % 12 * 64 + cx) (die / 12 * 96 + cy)

/-- The registers of a die clock manager (R355). -/
def State.dcmRead (s : State) (die off : Nat) : Option Word :=
  let d := s.dcm die
  let held := ((dieCores die).filter (fun p =>
    let t := (s.core p).tree; t.state == .hold || t.state == .adopt)).length
  if off = 0x000 then some (BitVec.ofNat 64 (d.state + min 255 held * 2 ^ 8))
  else if off = 0x008 then some (BitVec.ofNat 64 (32 + 48 * 2 ^ 8))
  else if off = 0x010 then some (BitVec.ofNat 64 (d.failX + d.failY * 2 ^ 8 + d.failT % 2 ^ 48 * 2 ^ 16))
  else if off = 0x018 then some (BitVec.ofNat 64 d.release)
  else if off = 0x020 then some (BitVec.ofNat 64 d.count)
  else if off = 0x028 then
    some (BitVec.ofNat 64 ((dieCores die).foldl (fun m p => max m (s.core p).tree.depth) 0))
  else if off = 0x030 then
    some (BitVec.ofNat 64 ((List.range 4).foldl (fun a c => a + ((dieCores die).filter (fun p => (s.core p).tree.cls == c)).length * 2 ^ (16 * c)) 0))
  else if 0x100 ≤ off ∧ off < 0x100 + 8 * 6144 then
    let i := (off - 0x100) / 8
    some (s.core (dieCore die (i % 64) (i / 64))).tree.word
  else none

/-- The registers of a slice (R305, R416). -/
def Slice.regRead (x : Slice) (off : Nat) : Option Word :=
  if off = 0x000 then some x.tctl
  else if off = 0x008 then some 0#64
  else if off = 0x010 then some ((x.tstat &&& 1#64) ||| (if x.isHeld then 2#64 else 0#64))
  else if off = 0x018 then some x.pass0
  else if off = 0x020 then some x.pass1
  else if off = 0x028 then some x.seed
  else if 0x100 ≤ off ∧ off < 0x310 then some (x.delayOf ((off - 0x100) / 8))
  else if off = 0x400 then some x.repair
  else if 0x10000 ≤ off ∧ off < 0x10000 + 32 * 1024 then
    some (match Table.get? x.pans ((off - 0x10000) / 32) with
      | some e => e.word (off / 8 % 4)
      | none => 0#64)
  else none

/-- TYPE, INDEX and the offset of the 64-bit register that a device-window address names (R343). -/
def deviceFields (ea : Nat) : Nat × Nat × Nat := (ea / 2 ^ 40 % 256, ea / 2 ^ 20 % 2 ^ 20, ea % 2 ^ 20 / 8 * 8)

/-- The 64-bit register at a device-window address; none where the map lists none (R343). -/
def State.deviceRead (s : State) (ea : Nat) : Option Word :=
  let (typ, idx, off) := deviceFields ea
  let p := coreAt (idx % 768) (idx / 768)
  if typ = 1 then
    if off < 0x80 then some ((s.routeTable false (idx % 768) (idx / 768)).getD (off / 8) 0#64)
    else if 0x100 ≤ off ∧ off < 0x140 then
      some (((s.block (blockOf p)).remap.getD ((off - 0x100) / 8) 0#4).setWidth 64)
    else if off = 0x140 then some (s.block (blockOf p)).bcfg
    else if off = 0x1C0 then some (s.core p).tree.word
    else none
  else if typ = 2 then
    if off < 0x80 then some ((s.routeTable true (idx % 768) (idx / 768)).getD (off / 8) 0#64) else none
  else if typ = 3 then s.dcmRead idx off
  else if typ = 4 then (s.slice idx).regRead off
  else none

/-- The half or whole of a register that an access reads (R343). -/
def halfOf (w : Word) (ea size : Nat) : Word :=
  if size = 4 then (if ea % 8 = 4 then w >>> 32 else w &&& 0xFFFFFFFF#64) else w

/-- The whole register that a store writes: a half joins the other half as a read gives it (R343). -/
def wholeOf (old : Word) (ea size : Nat) (w : Word) : Word :=
  if size = 4 then
    (if ea % 8 = 4 then (old &&& 0xFFFFFFFF#64) ||| (w <<< 32)
     else (old &&& 0xFFFFFFFF00000000#64) ||| (w &&& 0xFFFFFFFF#64))
  else w

/-! ## The access in a packet -/

/-- A device access that stands in a packet: the packet, the address, the size and a store's value. -/
def State.deviceAccess (s : State) (pkt : Nat) : Option (Packet × Nat × Nat × Option Word) :=
  match Table.get? s.packets pkt with
  | some k =>
    match k.body with
    | .device _ _ _ ea size w => some (k, ea, size, w)
    | _ => none
  | none => none

/-- The device answers, or refuses, and the packet is gone (R343). -/
def State.deviceAnswer (s : State) (pkt : Nat) (x : Option Word) : State :=
  match Table.get? s.packets pkt with
  | some k =>
    let s := s.dropPacket pkt
    match k.body with
    | .device core slot id _ _ _ =>
      match k.dst with
      | .slice n => s.sendSlice n false k.sp (s.core core).lcn 1 (.deviceReply slot id x) 0
      | _ => s.sendAt k.x k.y k.sp k.srcLcn (.lane (s.core core).lcn) 1 (.deviceReply slot id x) 0
    | _ => s
  | none => s

/-- A store to a register with an event of its own: `f` answers the new state, none to refuse (R343). -/
def State.deviceStore (s : State) (pkt : Nat) (f : Packet → Nat → Word → Option State) : State :=
  match s.deviceAccess pkt with
  | some (k, ea, size, some w) =>
    match f k ea (wholeOf ((s.deviceRead ea).getD 0#64) ea size w) with
    | some s' => s'.deviceAnswer pkt (some 0#64)
    | none => s.deviceAnswer pkt none
  | _ => s.deviceAnswer pkt none

/-! ## Route tables -/

/-- The direction of a port: 1 N, 2 E, 3 S, 4 W; a skip port counts as its direction (R339). -/
def portDir (n : Nat) : Nat := if n = 5 then 2 else if n = 6 then 4 else n

/-- Is the move from arrival port `i` to output `o` forbidden at router (x, y): a reversal, or a turn that the column does
not allow (R339)? The output of an edge router to its slice is an ejection and no turn (R338). -/
def badTurn (x y i o : Nat) : Bool :=
  let a := portDir i
  let d := portDir o
  let edge := (y == 0 && o == 1) || (y == 575 && o == 3)
  i != 0 && (a == d ||
    (!edge && ((a == 4 && x % 2 == 0 && (d == 1 || d == 3)) || (d == 4 && x % 2 == 1 && (a == 1 || a == 3)))))

/-- Is a write of a route-table entry refused (R341)? OUT codes 0 and 7 are reserved (R340). -/
def State.badRoute (s : State) (mnet : Bool) (x y : Nat) (w : Word) : Bool :=
  let i := (w.extractLsb' 1 3).toNat
  let o := (w.extractLsb' 4 3).toNat
  let own := s.unitPart (unitOf x)
  w.getLsbD 0 && (w >>> 47 != 0#64 || o == 0 || o == 7 || (!mnet && (o == 5 || o == 6)) ||
    decide ((w.extractLsb' 17 10).toNat < (w.extractLsb' 7 10).toNat) ||
    decide ((w.extractLsb' 37 10).toNat < (w.extractLsb' 27 10).toNat) ||
    (if i = 7 then (List.range (if mnet then 7 else 5)).any (fun j => j != o && badTurn x y j o) else badTurn x y i o) ||
    (match stepTo x y o with
     | some (x', _) =>
       (match s.unitPart (unitOf x') with
        | some q => own != some q
        | none => false)
     | none => false))

/-- Write entry `i` of a router's table. -/
def State.setRoute (s : State) (mnet : Bool) (x y i : Nat) (w : Word) : State :=
  let t := (s.routeTable mnet x y).set i w
  if mnet then { s with routesM := s.routesM.set (y * 768 + x) t } else { s with routesC := s.routesC.set (y * 768 + x) t }

/-- ROUTE_TABLE_WRITE (R340, R341, R342): a refused write leaves the entry; waiting packets read the table again. -/
def execRouteTableWrite (s : State) : Host.Outcome State Fault Refusal :=
  .next (s.deviceStore s.arg.a (fun _ ea w =>
    let (typ, idx, off) := deviceFields ea
    let x := idx % 768
    let y := idx / 768
    let mnet := typ == 2
    if s.badRoute mnet x y w then none
    else some (s.setRoute mnet x y (off / 8) (w &&& 0x7FFFFFFFFFFF#64)).rescan))

/-! ## BCFG -/

/-- The lane that becomes the reserve: the highest one that is fused live, in service and named by no live entry
(R334). -/
def Block.reserveLane (b : Block) : Option Nat :=
  ((List.range 8).reverse).find? (fun p =>
    b.fuse.getLsbD p && !b.oos.getLsbD p && b.remap.all (fun e => !(e.2.getLsbD 3 && (e.2.extractLsb' 0 3).toNat == p)))

/-- A core is marked out of service: its clock is off, a core with a strand in it is contained (R351, R352), and it is no
member of the block barrier any more (R3, R212). -/
def State.turnOff (s : State) (p : Nat) : State :=
  let had := (s.core p).slots != []
  let s := s.modCore p (fun c => { c with tree := { c.tree with state := .off } })
  let s := s.modBlock (blockOf p) (fun b => { b with oos := b.oos ||| (1#8 <<< (p % 8)) })
  (if had then s.contain p false else s).releaseBlock p

/-- A write of BCFG (R333, R334): OOS, then RSV. -/
def State.writeBcfg (s : State) (blk : Nat) (w : Word) : State :=
  let old := s.block blk
  let oos : BitVec 8 := w.extractLsb' 8 8
  let fresh := (List.range 8).filter (fun p => oos.getLsbD p && !old.oos.getLsbD p)
  let s := s.modBlock blk (fun b => { b with oos := oos })
  let s := fresh.foldl (fun s p => s.turnOff (8 * blk + p)) s
  let s :=
    if w.getLsbD 16 && !old.rsv then
      match (s.block blk).reserveLane with
      | some p => s.modBlock blk (fun b => { b with rsv := true, rlane := p, rav := true, live := b.live - 1 })
      | none => s
    else if !w.getLsbD 16 && old.rsv then s.modBlock blk (fun b => { b with rsv := false, rav := false })
    else s
  s.rescan

/-- The BCFG write in a packet. -/
def State.bcfgStore (s : State) : State :=
  s.deviceStore s.arg.a (fun _ ea w =>
    let (_, idx, _) := deviceFields ea
    some (s.writeBcfg (blockOf (coreAt (idx % 768) (idx / 768))) w))

/-- BCFG_OOS_WRITE (R333). -/
def execBcfgOosWrite (s : State) : Host.Outcome State Fault Refusal := .next s.bcfgStore

/-- RESERVE_TAKE (R334): RSV from 0 to 1. -/
def execReserveTake (s : State) : Host.Outcome State Fault Refusal := .next s.bcfgStore

/-- RESERVE_RELEASE (R334): RSV from 1 to 0. -/
def execReserveRelease (s : State) : Host.Outcome State Fault Refusal := .next s.bcfgStore

/-! ## Remap entries -/

/-- Does R4 hold in a block: lanes 0 to L − 1 are live and the others absent (R335)? -/
def State.laneRule (s : State) (blk : Nat) : Bool :=
  (List.range 8).all (fun k => (s.remapOf (8 * blk + k)).2 == decide (k < (s.block blk).live))

/-- REMAP_WRITE (R225, R326, R335): the entry is written into the block's routers, `lcn` of the core that a live entry
names is set, SHORT clears when R4 holds again, a block barrier whose members have now all arrived is released (R212),
and the acknowledgement leaves. -/
def execRemapWrite (s : State) : Host.Outcome State Fault Refusal :=
  let pkt := s.arg.a
  .next (match Table.get? s.packets pkt with
    | none => s
    | some k =>
      let s := s.dropPacket pkt
      match k.body with
      | .remap core slot blk lane entry =>
        let s := s.modBlock blk (fun b => { b with remap := b.remap.set lane entry })
        let s := match s.physOf (8 * blk + lane) with
          | some p => s.modCore p (fun c => { c with lcn := 8 * blk + lane })
          | none => s
        let s := s.modBlock blk (fun b => { b with short := b.short && !s.laneRule blk })
        ((s.sendAt k.x k.y k.sp k.srcLcn (.lane (s.core core).lcn) 1 (.remapAck slot) 0).releaseBlock (8 * blk)).rescan
      | _ => s)

/-! ## Training registers -/

/-- TCTL_WRITE (R417, R421): when TRAIN returns to 0, the requests that arrived meanwhile go on. -/
def execTctlWrite (s : State) : Host.Outcome State Fault Refusal :=
  .next (s.deviceStore s.arg.a (fun _ ea w =>
    let n := (deviceFields ea).2.1
    if (s.slice n).tstat.getLsbD 0 then none
    else
      let s' := s.modSlice n (fun x => { x with tctl := w &&& 0x1FF#64 })
      some (if (s'.slice n).waits then s' else s'.resumeSlice n)))

/-- TRUN_GO (R418, R421): a test is refused unless TRAIN = 1 and BUSY = 0; a write without GO has no effect. -/
def execTrunGo (s : State) : Host.Outcome State Fault Refusal :=
  .next (s.deviceStore s.arg.a (fun _ ea w =>
    let n := (deviceFields ea).2.1
    let x := s.slice n
    if !w.getLsbD 0 then some s
    else if !x.tctl.getLsbD 0 || x.tstat.getLsbD 0 then none
    else some ((s.modSlice n (fun x => { x with tstat := 1#64, pending := none })).armSlice n)))

/-- PATTERN_TEST_RESULT (R418): PASS0, PASS1 and BUSY = 0 take effect together. -/
def execPatternTestResult (s : State) : Host.Outcome State Fault Refusal :=
  let n := s.arg.a
  .next ((s.modSlice n (fun x =>
    match x.pending with
    | some (p0, p1) => { x with pass0 := p0, pass1 := p1, tstat := 0#64, pending := none }
    | none => x)).unclaim n testClaim)

/-- SEED_WRITE (R416, R421): 0 stores 1. -/
def execSeedWrite (s : State) : Host.Outcome State Fault Refusal :=
  .next (s.deviceStore s.arg.a (fun _ ea w =>
    let n := (deviceFields ea).2.1
    if (s.slice n).tstat.getLsbD 0 then none
    else some (s.modSlice n (fun x => { x with seed := if w = 0#64 then 1#64 else w }))))

/-- REPAIR_WRITE (R421): refused for a lane outside its spare's group. -/
def execRepairWrite (s : State) : Host.Outcome State Fault Refusal :=
  .next (s.deviceStore s.arg.a (fun _ ea w =>
    let n := (deviceFields ea).2.1
    let l0 := (w.extractLsb' 0 6).toNat
    let l1 := (w.extractLsb' 8 6).toNat
    if (s.slice n).tstat.getLsbD 0 || (w.getLsbD 6 && decide (31 < l0)) || (w.getLsbD 14 && decide (l1 < 32)) then none
    else some (s.modSlice n (fun x => { x with repair := w &&& 0x7F7F#64 }))))

/-! ## The other accesses -/

/-- A store to a register without an event of its own: LDLY of a slice is written; the other registers of routers and
slices are read-only; clock managers and pan tables refuse writes (R16, R305, R355, R421). -/
def State.plainStore (s : State) (ea : Nat) (w : Word) : Option State :=
  let (typ, idx, off) := deviceFields ea
  if typ = 3 then none
  else if typ = 4 ∧ 0x10000 ≤ off then none
  else if typ = 4 ∧ 0x100 ≤ off ∧ off < 0x310 then
    if (s.slice idx).tstat.getLsbD 0 then none
    else some (s.modSlice idx (fun x => { x with ldly := x.ldly.set ((off - 0x100) / 8) (w &&& 0x3F3F#64) }))
  else some s

/-- DEVICE_WINDOW_ACCESS (R343): a read, or a store to a register without an event of its own; an offset that the map
does not list is refused. -/
def execDeviceWindowAccess (s : State) : Host.Outcome State Fault Refusal :=
  let pkt := s.arg.a
  .next (match s.deviceAccess pkt with
    | none => s.dropPacket pkt
    | some (_, ea, size, w) =>
      match s.deviceRead ea with
      | none => s.deviceAnswer pkt none
      | some old =>
        match w with
        | none => s.deviceAnswer pkt (some (halfOf old ea size))
        | some w =>
          match s.plainStore ea (wholeOf old ea size w) with
          | some s' => s'.deviceAnswer pkt (some 0#64)
          | none => s.deviceAnswer pkt none)

/-- The row of the opcode table that a device access is. -/
def State.deviceEvent (s : State) (ea size : Nat) (write : Option Word) : Instr :=
  let (typ, idx, off) := deviceFields ea
  match write with
  | none => .deviceWindowAccess
  | some w =>
    if (typ = 1 ∨ typ = 2) ∧ off < 0x80 then .routeTableWrite
    else if typ = 1 ∧ off = 0x140 then
      let b := s.block (blockOf (coreAt (idx % 768) (idx / 768)))
      let v := wholeOf b.bcfg ea size w
      if v.getLsbD 16 && !b.rsv then .reserveTake
      else if !v.getLsbD 16 && b.rsv then .reserveRelease
      else .bcfgOosWrite
    else if typ = 4 ∧ off = 0x000 then .tctlWrite
    else if typ = 4 ∧ off = 0x008 then .trunGo
    else if typ = 4 ∧ off = 0x028 then .seedWrite
    else if typ = 4 ∧ off = 0x400 then .repairWrite
    else .deviceWindowAccess

end Sys2Proof.Machine
end

