-- ==== Sys2Proof/Machine/Preempt.lean ====
section
/-! DEFINITION. Pre-emption, resume, abort and recall save areas: the commands of a running job and the images of its
cores (R271, R374 to R379). -/

namespace Sys2Proof.Machine

/-! ## Images -/

/-- Bytes of a core's image (R376). -/
def imageBytes : Nat := 0x50000

/-- The image number of a member: ((by − oy) × BW + (bx − ox)) × 8 + k (R375). -/
def State.imageIndex (s : State) (sp : Nat) (j : Job) (p : Nat) : Nat :=
  let lcn := (s.core p).lcn
  let bx := coordX (lcn / 8 * 8) / 2 - 16 * (s.part sp).base
  let by_ := coordY (lcn / 8 * 8) / 4
  ((by_ - j.oy) * jobBw j.record + (bx - j.ox)) * 8 + lcn % 8

/-- Where a member's image stands. -/
def State.imageAddr (s : State) (sp : Nat) (j : Job) (p : Nat) : Nat := j.save + imageBytes * s.imageIndex sp j p

/-- The FE bits as bytes, bit g of byte g div 8 (R376). -/
def feBytes (fe : NatSet) : List Byte :=
  (List.range 2048).map (fun i =>
    BitVec.ofNat 8 ((List.range 8).foldl (fun n b => if NatSet.has fe (8 * i + b) then n + 2 ^ b else n) 0))

/-- FE bits from bytes. -/
def feOf (b : List Byte) : NatSet :=
  (List.range 16384).filter (fun g => (b.getD (g / 8) 0#8).getLsbD (g % 8))

/-- The pages that a save writes (R377). -/
def Core.savePages (c : Core) (va : Nat) : List Nat :=
  (List.range 64).filter (fun p => c.cleanref.toNat != va || c.dirty.getLsbD p)

/-- The ends that are not free, as a mask. -/
def Core.endMask (c : Core) : Nat := c.ends.foldl (fun n e => if e.2.state = .free then n else n + 2 ^ e.1) 0

/-- Write the image of core `p` (R376, R377). Free ends are not written; word 14 of the header is the model's mask of those
that are. -/
def State.writeImage (s : State) (sp p va : Nat) : State :=
  let c := s.core p
  let lane := (s.block (blockOf p)).mxeLane (s.laneOf p)
  let head := (c.headerWords (!c.invalid) ++ [c.dirty.toNat, va, c.endMask]).flatMap (natBytes 8)
  let s := s.panWrite sp va (head ++ natBytes 136 0)
  if c.invalid then s
  else
    let s := s.panWrite sp (va + 0x100) (feBytes c.fe)
    let s := c.slots.foldl (fun s e =>
      s.panPutGranules sp (va + 0x1000 + 2048 * e.1) (e.2.toRecord c.ends (c.cseq.getD e.1 0#64))) s
    let s := c.ends.foldl (fun s e => s.panPutGranules sp (va + 0x5000 + 128 * e.1) e.2.toRecord) s
    let s := s.panWrite sp (va + 0x8000) ((List.range 4096).flatMap (fun i => natBytes 4 (lane.acc.getD i 0#32).toNat))
    (c.savePages va).foldl (fun s i => s.panPutGranules sp (va + 0x10000 + 4096 * i) (c.getGranules (4096 * i) 256)) s

/-- Word `i` of an image's header. -/
def State.imageWord (s : State) (sp va i : Nat) : Nat := bytesNat (s.panRead sp (va + 8 * i) 8)

/-- The accumulators of a lane from an image. -/
def accOf (b : List Byte) : Table (BitVec 32) :=
  (List.range 4096).filterMap (fun i =>
    let x := BitVec.ofNat 32 (fieldAt b (4 * i) 4)
    if x = 0#32 then none else some (i, x))

/-- The strand records of an image, by slot. -/
def State.imageSlots (s : State) (sp va : Nat) : List (Nat × List Granule) :=
  ((List.range 8).filter (fun k => (s.imageWord sp va 10).testBit k)).map (fun k =>
    let a := va + 0x1000 + 2048 * k
    (k, s.panGetGranules sp a (if s.imageWord sp a 1 / 4 % 2 = 1 then 128 else 64)))

/-- The end records of an image, by end. -/
def State.imageEnds (s : State) (sp va : Nat) : List (Nat × List Granule) :=
  ((List.range 64).filter (fun h => (s.imageWord sp va 14).testBit h)).map (fun h =>
    (h, s.panGetGranules sp (va + 0x5000 + 128 * h) 8))

/-- Is an image to be read: VALID, and without a reserved value (R19, R376)? -/
def State.imageSound (s : State) (sp va : Nat) : Bool :=
  s.imageWord sp va 11 == 1 && headerSound (s.imageWord sp va) && (s.panRead sp (va + 120) 136).all (· == 0#8) &&
    (s.imageSlots sp va).all (fun e => strandSound e.2) && (s.imageEnds sp va).all (fun e => endSound e.2)

/-- Core `p` reads its image (R378): every section and all 64 pages, or nothing where VALID is 0 or R19 rejects the image, as
in R386. `sent` are the issue cycles of the sends in the job's images (R42). -/
def State.readImage (s : State) (sp p va : Nat) (sent : List (Nat × Nat × Nat)) : State :=
  let w := s.imageWord sp va
  let c := s.core p
  if !s.imageSound sp va then s.setCore p { c with slots := [], ends := [], run := .run }
  else
    let fe := feOf (s.panRead sp (va + 0x100) 2048)
    let sentAt (h : Nat) : Nat := ((sent.find? (fun e => e.1 == c.lcn && e.2.1 == h)).map (·.2.2)).getD 0
    let ends := (s.imageEnds sp va).map (fun e => (e.1, { endOf e.2 with sentAt := sentAt e.1 }))
    let acc := accOf (s.panRead sp (va + 0x8000) 16384)
    let c := (List.range 64).foldl (fun c i =>
      c.putGranules (4096 * i) (s.panGetGranules sp (va + 0x10000 + 4096 * i) 256)) { c.fromHeader w true with barr := c.barr }
    let s := s.setCore p { c with
      slots := [], ends := ends, fe := fe, dirty := 0#64, cleanref := BitVec.ofNat 64 va, run := .run }
    let s := s.modBlock (blockOf p) (fun b => b.setMxeLane (s.laneOf p) { b.mxeLane (s.laneOf p) with acc := acc })
    let recs := s.imageSlots sp va
    let s := recs.foldl (fun s e => s.restoreSlot p p e.1 e.2 (fun cur saved => if cur.toNat < saved.toNat then saved else cur)) s
    (recs.foldl (fun s e => s.rewait p e.1 e.2 0) s).wakeFullEmpty p

/-! ## Commands -/

/-- The fields of a command (R374). -/
def cmdJob (r : BitVec 512) : Nat := recField r 0 32
def cmdOp (r : BitVec 512) : Nat := recField r 32 8
def cmdSave (r : BitVec 512) : Nat := recField r 64 64
def cmdReserved (r : BitVec 512) : Bool := recField r 40 24 != 0 || recField r 128 384 != 0

/-- Does an address start a save-area pan of at least `size` bytes (R374)? -/
def State.saveAreaAt (s : State) (sp va size : Nat) : Bool :=
  match s.sliceOf sp va with
  | none => false
  | some n =>
    match (s.slice n).panAt va with
    | some (_, e) => decide (e.kind = 9 ∧ e.basep * 2 ^ 21 = va ∧ size ≤ e.pages * 2 ^ 21)
    | none => false

/-- The save area that a job's images need. -/
def saveSize (r : BitVec 512) : Nat := jobBw r * jobBh r * 8 * imageBytes

/-- The command in a packet: the partition, the sender's LCN and end, and the record. -/
def State.command (s : State) (pkt : Nat) : Option (Nat × Nat × Nat × BitVec 512) :=
  match Table.get? s.packets pkt with
  | some k =>
    match k.body with
    | .message _ lcn h (.vector r) => some (k.sp, lcn, h, r)
    | _ => none
  | none => none

/-- A command is refused: nothing changes, its sender is acknowledged, and the job's notice says so (R374). -/
def State.refuseCommand (s : State) (sp lcn h : Nat) (r : BitVec 512) : State :=
  let s := match (s.part sp).jobs.get? (cmdJob r) with
    | some j => s.notify sp j.queue j.record 9
    | none => s
  s.headAck sp lcn h

/-- Change a job. -/
def State.modJobRec (s : State) (sp id : Nat) (f : Job → Job) : State :=
  s.modPart sp (fun x => match x.jobs.get? id with
    | some j => { x with jobs := x.jobs.set id (f j) }
    | none => x)

/-- Hops and additions of the CNet route from a router of a partition to the lane whose nominal place another is, with the
crossbar pass of a lane that the remap has moved; where no core serves it, to the router (R271, R332, R346). -/
def State.routeBetween (s : State) (sp : Nat) (a b : Nat × Nat) : Nat × Nat :=
  let l := coreAt b.1 b.2
  s.walk 2048 (newPacket false 0 sp a.1 a.2 (if (s.remapOf l).2 then .lane l else .router b.1 b.2) 1 (.ack 0))

/-- The longer of two routes, by hops, then by additions (R271). -/
def longerRoute (a b : Nat × Nat) : Nat × Nat := if a.1 < b.1 ∨ (a.1 = b.1 ∧ a.2 < b.2) then b else a

/-- The diameter latency D of a partition (R271): its longest CNet route, between two of its cores or a core and the head,
which without entries in the route tables runs between opposite corners. -/
def State.diameter (s : State) (sp : Nat) : Nat :=
  let x := s.part sp
  let x0 := 32 * x.base
  let w := 32 * (x.home + x.lent)
  let corners := [(x0, 0), (x0, 575), (x0 + w - 1, 0), (x0 + w - 1, 575)]
  let ends := if s.routesC.all (fun e => e.2 == []) then corners
    else (List.range 576).flatMap (fun y => (List.range w).map (fun i => (x0 + i, y)))
  let r := ends.foldl (fun m a => ends.foldl (fun m b => longerRoute m (s.routeBetween sp a b)) m) (0, 0)
  6 + 2 * r.1 + r.2

/-- A running job is pre-empted into a save area: a pre-emption message leaves for every member (R375). -/
def State.startPreempt (s : State) (sp : Nat) (j : Job) (save : Nat) (command : Option (Nat × Nat)) (recalled : Bool) :
    State :=
  let s := s.modJobRec sp j.id (fun j =>
    { j with state := .saving, left := j.members, save := save, command := command, recalled := recalled })
  j.members.foldl (fun s p => s.sendHead sp (.lane (s.core p).lcn) (.leg .preemptionMessage (args p j.id)) 0) s

/-- PREEMPT (R374, R375): OP 1. -/
def execPreempt (s : State) : Host.Outcome State Fault Refusal :=
  .next (match s.command s.arg.a with
    | none => s.dropPacket s.arg.a
    | some (sp, lcn, h, r) =>
      let s := s.dropPacket s.arg.a
      match (s.part sp).jobs.get? (cmdJob r) with
      | some j =>
        if j.state = .running ∧ cmdOp r = 1 ∧ !cmdReserved r ∧ s.saveAreaAt sp (cmdSave r) (saveSize j.record) then
          s.startPreempt sp j (cmdSave r) (some (lcn, h)) false
        else s.refuseCommand sp lcn h r
      | none => s.refuseCommand sp lcn h r)

/-! ## Saving -/

/-- Does a job wait for a latch tile, or for the answer to its offer, of a lane in state `x` (R375)? -/
def MxeJob.waitsForTile (j : MxeJob) (x : MxeLane) : Bool :=
  (j.op == 0 && j.bsrc && decide (j.step < j.steps) && x.latch == []) || (j.leaving && x.out.isSome && !x.outSent)

/-- The jobs of a lane that wait for a tile offer, a grant or a latch tile fault with code 0x08 (R211, R375); the tile of one
that waits for its grant is dropped. -/
def State.faultTileWaits (s : State) (p : Nat) : State :=
  let blk := blockOf p
  let l := s.laneOf p
  let x := (s.block blk).mxeLane l
  let js := ((s.block blk).mxe.laneJobs l).filter (fun e => e.2.waitsForTile x)
  let s := if x.out.isSome && !x.outSent then s.modBlock blk (fun b => b.setMxeLane l { b.mxeLane l with out := none }) else s
  js.foldl (fun s e => s.mxeJobFault blk e.2.order 8) s

/-- Has core `p` nothing outstanding: far replies, pan-table operations, engine jobs, pulls (R375)? -/
def State.quiet (s : State) (p : Nat) : Bool :=
  let c := s.core p
  let l := s.laneOf p
  let b := s.block (blockOf p)
  c.tableOps == [] && !b.laneBusy l && b.cpe.work.getD l [] == [] &&
    (match b.cpe.current with | some t => t.lane != l | none => true) &&
    c.slots.all (fun e => e.2.far.all (fun f => f.left == 0 || f.landed.isSome) && e.2.wait != .remap && !e.2.wait.isMig)

/-- The bound on a save in cycles: 40 µs less the wait of 2D, and S ÷ (H × 64 × 76.8 GB/s) (R379). -/
def State.saveBound (s : State) (sp : Nat) (j : Job) : Nat :=
  let size := j.members.foldl (fun n p =>
    n + 43264 + 4096 * ((s.core p).savePages (s.imageAddr sp j p)).length) 0
  40000 + size * 10 / (32768 * max 1 (s.part sp).home) + 1

/-- A member has reported; after the last the head waits a further 2D (R375). How long the images' writing takes is a
free value. -/
def State.memberSaved (s : State) (sp p id : Nat) : State :=
  match (s.part sp).jobs.get? id with
  | none => s
  | some j =>
    let left := j.left.filter (· != p)
    let s := s.modJobRec sp id (fun j => { j with left := left })
    if left = [] then
      let (n, s) := s.free
      s.post (some sp) (Config.delay n % s.saveBound sp j + 2 * s.diameter sp) .preemptSaveComplete (args sp id)
    else s

/-- PREEMPTION_MESSAGE (R375): no slot issues after this cycle; when nothing of the core is outstanding it reports. While
it waits for that, while a `ckpt` is in progress, and while the core is being restored, the message is looked at again in the
next cycle. With the flag the member's lane is absent, and its final router has refused the message (R331). -/
def execPreemptionMessage (s : State) : Host.Outcome State Fault Refusal :=
  let p := s.arg.a
  let id := s.arg.b
  .next (match s.jobOf p id with
    | none => s
    | some (sp, j) =>
      if j.state ≠ .saving ∨ !j.left.contains p then s
      else
        let c := s.core p
        if s.arg.flag then (s.modCore p (fun c => { c with invalid := true })).memberSaved sp p id
        else if c.run = .restoring then s.postCore p 1 .preemptionMessage (args p id)
        else if c.run ≠ .run ∧ c.run ≠ .saving then
          (s.modCore p (fun c => { c with invalid := true })).memberSaved sp p id
        else if c.crystal.writing.isSome then s.postCore p 1 .preemptionMessage (args p id)
        else
          let s := (s.modCore p (fun c => { c with run := .saving })).faultTileWaits p
          if s.quiet p then s.memberSaved sp p id else s.postCore p 1 .preemptionMessage (args p id))

/-- A core whose image is written leaves its job (R375, R377); the slots of one that a double trap stopped stay frozen
(R370). -/
def State.leaveSaved (s : State) (p va : Nat) (wmask : BitVec 16) : State :=
  (s.modCore p (fun c =>
    { c with
      replaces := none, crystal := if c.replaces.isSome then Crystal.none else c.crystal
      slots := if c.run = .doubleTrap then c.slots else [], ends := if c.run = .doubleTrap then c.ends else [], dirty := 0#64, cleanref := BitVec.ofNat 64 va, invalid := false
      run := if c.run = .saving then .run else c.run })).leaveGang p wmask

/-- The issue cycles of the sends that are out from core `p`: LCN, end and cycle (R42). -/
def Core.sentOut (c : Core) : List (Nat × Nat × Nat) :=
  (c.ends.filter (fun e => e.2.state == .sendWait)).map (fun e => (c.lcn, e.1, e.2.sentAt))

/-- The packets for the lanes of the members that were contained in their save: they wait for the resume (R371, R376). -/
def State.packetsKept (s : State) (ms : List Nat) : List Nat :=
  let ls := (ms.filter (fun p => (s.core p).run == .saving && (s.core p).invalid)).map (fun p => (s.core p).lcn)
  (s.packets.filter (fun e => ls.any (fun l => e.2.dst == .lane l) && !e.2.body.forBlock)).map (·.1)

/-- The packets that wait for the restore of core `p` in job `id` go on to its lane's final router (R378, R383). -/
def State.letGo (s : State) (sp id p : Nat) : State :=
  let here (n : Nat) : Bool := match Table.get? s.packets n with
    | some k => k.dst == .lane (s.core p).lcn
    | none => true
  s.modJobRec sp id (fun j => { j with held := j.held.filter (fun n => !here n) })

/-- What a resume needs of a core that took its lane while it was being saved, with a current crystal (R376, R386). -/
def Core.keptLane (c : Core) : Option KeptLane :=
  match c.replaces with
  | some (old, hidden) =>
    if c.invalid && c.run == .saving && c.crystal.current.isSome then
      some { lcn := c.lcn, old := old, hidden := hidden, crystal := c.crystal }
    else none
  | none => none

/-- PREEMPT_SAVE_COMPLETE (R375): the images stand, and the rectangle and the barriers are free. -/
def execPreemptSaveComplete (s : State) : Host.Outcome State Fault Refusal :=
  let sp := s.arg.a
  let id := s.arg.b
  .next (match (s.part sp).jobs.get? id with
    | none => s
    | some j =>
      if j.state ≠ .saving ∨ j.left ≠ [] then s
      else
        let s := j.members.foldl (fun s p => (s.meterStop p).writeImage sp p (s.imageAddr sp j p)) s
        let sent := j.members.flatMap (fun p => (s.core p).sentOut)
        let kept := j.members.filterMap (fun p => (s.core p).keptLane)
        let held := s.packetsKept j.members
        let s := j.members.foldl (fun s p => s.leaveSaved p (s.imageAddr sp j p) (jobWmask j.record)) s
        let s := s.modJobRec sp id (fun j => { j with state := .preempted, command := none, sent := sent, kept := kept, held := held })
        let s := s.notify sp j.queue j.record 7
        let s := match j.command with
          | some (lcn, h) => s.headAck sp lcn h
          | none => s
        let s := if j.recalled then s.post (some sp) 0 .unitRecall { args sp with flag := true } else s
        (s.post (some sp) 24 .jobPlacement (args sp)).kickResumes sp)

/-! ## Resume -/

/-- Can a pre-empted job take its rectangle and barriers (R378)? A pending job goes before it (R286, R295). -/
def Partition.canResume (x : Partition) (j : Job) : Bool :=
  x.pending.isNone && x.barriersFree j.record && x.rectFree j.record (j.ox, j.oy) && x.inside j.record (j.ox, j.oy)

/-- A pre-empted job takes its rectangle again, and its members read their images; how long that takes is a free
value (R378). -/
def State.startResume (s : State) (sp : Nat) (j : Job) : State :=
  let ms := s.memberCores sp j.ox j.oy (jobBw j.record) (jobBh j.record)
  let s := s.modJobRec sp j.id (fun j => { j with state := .restoring, members := ms, left := ms })
  let s := ms.foldl (fun s p =>
    s.modCore p (fun c => if c.run = .run then { c with run := .restoring, job := j.id } else { c with job := j.id })) s
  let (n, s) := s.free
  s.post (some sp) (Config.delay n) .resumeRelease (args sp j.id)

/-- RESUME (R374, R378): OP 2; with the flag, a resume of job `b` of partition `a` that waits looks at its rectangle
again. -/
def execResume (s : State) : Host.Outcome State Fault Refusal :=
  let o := s.arg
  .next (
    if o.flag then
      match (s.part o.a).jobs.get? o.b with
      | some j =>
        if j.state = .preempted ∧ j.command.isSome ∧ (s.part o.a).canResume j then s.startResume o.a j else s
      | none => s
    else
      match s.command o.a with
      | none => s.dropPacket o.a
      | some (sp, lcn, h, r) =>
        let s := s.dropPacket o.a
        match (s.part sp).jobs.get? (cmdJob r) with
        | some j =>
          if j.state = .preempted ∧ j.command = none ∧ cmdOp r = 2 ∧ !cmdReserved r ∧
              s.saveAreaAt sp (cmdSave r) (saveSize j.record) then
            let j := { j with save := cmdSave r, command := some (lcn, h) }
            let s := s.modJobRec sp j.id (fun _ => j)
            if (s.part sp).canResume j then s.startResume sp j else s
          else s.refuseCommand sp lcn h r
        | none => s.refuseCommand sp lcn h r)

/-- A lane whose core was contained during its save is restored at the resume from its crystal, in its buddy's scratchpad (R376,
R383): the core has its memberships back from the image's header, and its reload begins. -/
def State.resumeKept (s : State) (sp p va : Nat) (e : KeptLane) : State :=
  let w := s.imageWord sp va
  let holder := (s.buddyOf p).map s.core
  let desc := holder.bind (fun c => crystalDesc (c.sp.readN (crystalBase (e.crystal.current.getD 0) + 112) 64))
  (s.modCore p (fun c =>
    { (if headerSound w then { c.fromHeader w true with barr := c.barr } else c) with
      slots := [], ends := [], crystal := e.crystal, replaces := some (e.old, e.hidden) })).cpeWork p
    (.reload ((desc.map (·.pairs)).getD []))

/-- The release of a resume reaches core `p`: it takes its image, or the crystal of a lane whose image is not valid, once the
buddy that holds it has its own image (R376, R378). -/
def State.resumeCore (s : State) (sp p : Nat) (j : Job) : State :=
  match j.kept.find? (fun e => e.lcn == (s.core p).lcn) with
  | some e =>
    if (s.buddyOf p).any (fun b => (s.core b).run == .restoring && (s.core b).job == j.id) then
      s.postCore p 1 .resumeRelease { args p j.id with flag := true }
    else ((s.letGo sp j.id p).resumeKept sp p (s.imageAddr sp j p) e).meterStart p
  | none =>
    let s := (s.letGo sp j.id p).readImage sp p (s.imageAddr sp j p) j.sent
    ((s.rescan.meterStart p).finishCheck p).askCrystal p

/-- The memberships and arrivals that core `p` has read in the header of its image (R212, R376). -/
def State.readBarriers (s : State) (sp p va : Nat) : State :=
  let w := s.imageWord sp va
  if headerSound w then s.modCore p (fun c => { c with bmem := (c.fromHeader w true).bmem, barr := (c.fromHeader w true).barr })
  else s

/-- RESUME_RELEASE (R378): every member has read its image, and the head releases the members together; with the flag,
the release reaches core `a`, whose strands are ready in this cycle. The barriers' memberships and arrivals stand from the
head's release on; the rest of an image is entered as the release comes, before which the core does nothing.
A member whose lane is absent is finished (`c` = 1, R331). -/
def execResumeRelease (s : State) : Host.Outcome State Fault Refusal :=
  let o := s.arg
  .next (
    if o.flag then
      match s.jobOf o.a o.b with
      | some (sp, j) =>
        if o.c = 1 then s.memberAbsent o.a o.b
        else if (s.core o.a).run = .restoring then
          s.resumeCore sp o.a j
        else s
      | none => s
    else
      match (s.part o.a).jobs.get? o.b with
      | some j =>
        if j.state = .restoring then
          let s := j.members.foldl (fun s p =>
            if (s.core p).run = .restoring then s.readBarriers o.a p (s.imageAddr o.a j p) else s) s
          let s := j.members.foldl (fun s p =>
            s.sendHead o.a (.lane (s.core p).lcn) (.leg .resumeRelease { args p o.b with flag := true }) 0) s
          let s := s.modJobRec o.a o.b (fun j => { j with state := .running, command := none, recalled := false })
          let s := s.notify o.a j.queue j.record 8
          match j.command with
          | some (lcn, h) => s.headAck o.a lcn h
          | none => s
        else s
      | none => s)

/-! ## Abort and the recall save area -/

/-- Is the core stopped by a double trap of job `id` (R370)? -/
def Core.frozenBy (c : Core) (id : Nat) : Bool := c.run == .doubleTrap && c.slots.any (fun e => e.2.job == id)

/-- Core `p` is free of job `id`: its slots are empty, its engine jobs discarded (R374), and a crystal that was being written
or restored is given up; it runs again after a double trap of that job, of no other (R370). -/
def State.freeMember (s : State) (id p : Nat) : State :=
  if (s.core p).run = .doubleTrap ∧ !(s.core p).frozenBy id then s
  else
    (s.modCore p (fun c =>
      { c with
        slots := [], tableOps := c.tableOps.filter (fun e => e.2.kind == 1), invalid := false, replaces := none
        crystal := { c.crystal with writing := none, slot := none, bytes := 0, due := false, image := [], replay := [], back := [] }
        run := if c.run = .contained then c.run else .run })).discardJobs p 0

/-- Every slot of the gang is emptied, its engine jobs are discarded, and the job completes with status 6 (R374); a core
that a double trap stopped is free again (R370). -/
def State.abortJob (s : State) (sp : Nat) (j : Job) : State :=
  let s := j.members.foldl (fun s p => (s.meterStop p).freeMember j.id p) s
  (s.completeJob sp j 6).rescan

/-- A pre-empted job is aborted (R374): the cores of its rectangle that its double traps stopped are free again (R370), and a
resume that waits for the rectangle ends. -/
def State.abortSaved (s : State) (sp : Nat) (j : Job) : State :=
  let ps := (s.memberCores sp j.ox j.oy (jobBw j.record) (jobBh j.record)).filter (fun p => (s.core p).frozenBy j.id)
  let s := ps.foldl (fun s p => (s.freeEnds p).freeMember j.id p) s
  let s := (s.completeJob sp { j with members := [] } 6).rescan
  match j.command with
  | some (lcn, h) => s.headAck sp lcn h
  | none => s

/-- ABORT (R374): OP 3, of a job that runs or is pre-empted. -/
def execAbort (s : State) : Host.Outcome State Fault Refusal :=
  .next (match s.command s.arg.a with
    | none => s.dropPacket s.arg.a
    | some (sp, lcn, h, r) =>
      let s := s.dropPacket s.arg.a
      match (s.part sp).jobs.get? (cmdJob r) with
      | some j =>
        if (j.state = .running ∨ j.state = .preempted) ∧ cmdOp r = 3 ∧ !cmdReserved r then
          (if j.state = .running then s.abortJob sp j else s.abortSaved sp j).headAck sp lcn h
        else s.refuseCommand sp lcn h r
      | none => s.refuseCommand sp lcn h r)

/-- REGISTER_RECALL_SAVE_AREA (R374): OP 4 registers the area of one job, which may stand in any state: the rule names
none. -/
def execRegisterRecallSaveArea (s : State) : Host.Outcome State Fault Refusal :=
  .next (match s.command s.arg.a with
    | none => s.dropPacket s.arg.a
    | some (sp, lcn, h, r) =>
      let s := s.dropPacket s.arg.a
      match (s.part sp).jobs.get? (cmdJob r) with
      | some j =>
        if cmdOp r = 4 ∧ !cmdReserved r ∧ s.saveAreaAt sp (cmdSave r) (saveSize j.record) then
          (s.modJobRec sp j.id (fun j => { j with recallArea := cmdSave r })).headAck sp lcn h
        else s.refuseCommand sp lcn h r
      | none => s.refuseCommand sp lcn h r)

end Sys2Proof.Machine
end

