-- ==== Sys2Proof/Machine/Fabric.lean ====
section
/-! DEFINITION. How packets move: hops, firewalls, the final router's steering, the end points and the events that
packets become there (R266, R331, R336 to R342, R358, R371, R379, R401, R410). -/

namespace Sys2Proof.Machine

/-! ## Waiting and dropping -/

/-- The packet waits where it is (R342). -/
def State.hold (s : State) (id : Nat) (k : Packet) : State :=
  { s with packets := s.packets.set id { k with stage := .held } }

/-- A firewall drops the packet; the supervisor counts the drop for the packet's partition and keeps the first header
(R358). -/
def State.firewallDrop (s : State) (id : Nat) (k : Packet) : State :=
  (s.dropPacket id).modPart k.sp (fun x =>
    { x with drops := x.drops + 1, firstDrop := if x.firstDrop.isSome then x.firstDrop else some (k.dst, k.srcLcn, k.sp) })

/-- Send a NACK or an answer from the router that a packet stands at, on behalf of a lane. -/
def State.sendRouter (s : State) (k : Packet) (lcn : Nat) (dst : Dest) (b : Body) : State :=
  s.inject (newPacket false lcn k.sp k.x k.y dst 1 b) 0

/-! ## End points -/

/-- A rake packet (R266). -/
def Body.isRake : Body → Bool
  | .probe _ _ _ _ _ => true
  | .echo _ _ _ _ => true
  | .entry _ _ => true
  | .confirm _ _ _ => true
  | .confirmEcho _ _ _ => true
  | .fin _ _ _ => true
  | .seqGrant _ _ => true
  | _ => false

/-- The event that a packet is when it lands at a lane, at core `p`. -/
def State.laneEvent (s : State) (p : Nat) (b : Body) : Instr :=
  match b with
  | .message _ _ _ (.tile _ _) => .tileOffer
  | .message _ _ _ _ => .messageArrival
  | .ack _ => .acknowledgementArrival
  | .release _ => .releaseArrival
  | .nack h _ => if ((s.core p).endAt h).state = .tile then .tileOfferNack else .nackArrival
  | .noticeAnswer _ _ _ _ => .acknowledgementArrival
  | .leg i _ => i
  | .grant _ => .tileGrant
  | .tile _ _ => .tileLands
  | .request _ => .sliceRequestArrival
  | .reply (.cpe _ _ _) _ => .cpeLineReply
  | .reply (.icache _ _) _ => .icacheLineFill
  | .reply _ _ => .farReplyArrival
  | .table _ _ _ => .holderUpdate
  | .tableReply id _ _ =>
    match Table.get? (s.core p).tableOps id with
    | some op => if op.kind = 4 then .holderUpdateReply else .panTableReply
    | none => .panTableReply
  | .device _ _ _ _ _ _ => .deviceWindowAccess
  | .deviceReply _ _ _ => .farReplyArrival
  | .remap _ _ _ _ _ => .remapWrite
  | .remapAck _ => .farReplyArrival
  | .probe _ _ _ _ _ => .rakeProbe
  | .echo _ _ _ _ => .rakeEcho
  | .entry _ _ => .rakeEntry
  | .confirm _ _ _ => .rakeConfirm
  | .confirmEcho _ _ _ => .rakeConfirmEcho
  | .fin _ _ _ => .rakeEnd
  | .seqReq _ => .seqReq
  | .seqGrant _ _ => .seqGrant
  | .token _ => .deliveryTokenReturn
  | .ship _ _ _ _ _ => .migRecordArrival
  | .shipReply _ _ ok => if ok then .migAccept else .migRefusal

/-- The event that a packet is when it lands at a head, and whether it is a command for end 16 (R280, R374). -/
def headEvent (b : Body) : Instr :=
  match b with
  | .message 16 _ _ (.vector r) =>
    if cmdOp r = 2 then .resume else if cmdOp r = 3 then .abort else if cmdOp r = 4 then .registerRecallSaveArea
    else .preempt
  | .message _ _ _ _ => .jobRecordIntake
  | .ack _ => .acknowledgementArrival
  | .nack _ _ => .nackArrival
  | .noticeAnswer _ _ _ ok => if ok then .acknowledgementArrival else .nackArrival
  | .seqReq _ => .seqReq
  | .token _ => .deliveryTokenReturn
  | _ => .jobRecordIntake

/-- The event that a packet is at a slice, and the cycles until the slice acts on it (R311, R314). -/
def State.sliceEvent (s : State) (b : Body) : Instr × Nat :=
  match b with
  | .table _ _ (.holder _ _) => (.holderUpdate, 6)
  | .table _ _ (.freeze _ _) => (.freezeRequest, 6)
  | .table _ _ (.done _) => (.doneMessage, 6)
  | .table _ _ (.mint _ _ _ _ _ _) => (.panMintRequest, 6)
  | .table _ _ (.check _ _) => (.contributorMintCheck, 6)
  | .table _ _ (.master _ _ _ _) => (.masterSealRequest, 0)
  | .device _ _ _ ea size w => (s.deviceEvent ea size w, 0)
  | _ => (.sliceRequestArrival, 0)

/-- The packet leaves its final router for core `p`; its event falls due as its last flit lands. -/
def State.leave (s : State) (id : Nat) (k : Packet) (p : Nat) (i : Instr) (after : Nat) : State :=
  ({ s with packets := s.packets.set id { k with stage := .leaving, phys := p } }).post (some k.sp) (k.landing + after) i
    (args id)

/-! ## The final router of a lane -/

/-- Do the final routers of a unit refuse its borrower's packets, because it is being recalled (R379)? -/
def State.unitClosed (s : State) (k : Packet) : Bool :=
  let x := s.part k.sp
  x.recalling == 2 && unitOf k.x + 1 == x.base + x.home + x.lent

/-- Does the final router hold the packets of the lane that core `p` serves (R326, R351, R371, R378, R383)? A core that took
the lane of one contained in its save is not restored before the resume. -/
def State.laneHeld (s : State) (p : Nat) : Bool :=
  let c := s.core p
  s.outOfService p || s.clockHeld p || c.run == .contained || c.run == .doubleTrap || c.run == .restoring ||
    (c.run == .saving && c.invalid)

/-- Does a packet wait in its final router for the resume of a job one of whose members was contained in its save (R371,
R376)? -/
def State.keptBack (s : State) (id : Nat) (k : Packet) : Bool := (s.part k.sp).jobs.any (fun e => e.2.held.contains id)

/-- Does the final router answer a rake packet for the lane itself, as it does during recovery (R266)? -/
def State.rakeRefused (s : State) (p : Nat) : Bool :=
  let c := s.core p
  c.run == .contained || c.run == .doubleTrap || c.run == .restoring || (s.laneHeld p && !s.clockHeld p)

/-- A packet that no lane takes and nothing refuses waits in the final router (R336); in a unit that a recall has closed it is
refused (R379), and what its refusal would reach discards it. -/
def State.await (s : State) (id : Nat) (k : Packet) : State := if s.unitClosed k then s.dropPacket id else s.hold id k

/-- A part of a transfer, or an order of the head, that comes to an absent lane is refused to its source (R331): the receiver of a
pull, the lane whose crystal was on its way, or the head, for which the member has reported, or is finished where the order was a
resume's release or a wake (log 40). What answers such a part waits, as replies do. -/
def State.refuseLeg (s : State) (id : Nat) (k : Packet) (lcn : Nat) (i : Instr) (o : Operands) : State :=
  match i with
  | .pullCompletion =>
    if o.w = 1#64 then (s.dropPacket id).sendRouter k lcn (.lane (s.core o.d).lcn) (.leg i { o with w := 3#64 })
    else s.await id k
  | .crystalCurrent =>
    if o.flag then (s.dropPacket id).sendRouter k lcn (.lane (s.core o.b).lcn) (.leg i { args o.b with c := 1 }) else s.await id k
  | .preemptionMessage => (s.dropPacket id).post (some k.sp) k.landing i { o with flag := true }
  | .resumeRelease => (s.dropPacket id).post (some k.sp) k.landing i { o with c := 1 }
  | .wake => (s.dropPacket id).post (some k.sp) k.landing i { o with c := 1 }
  | _ => s.await id k

/-- A packet for an absent lane: channel packets and shipments are refused to their sender, and a reply, which nothing
refuses or drops, waits in the final router (R194, R331, R336). -/
def State.absentLane (s : State) (id : Nat) (k : Packet) (lcn : Nat) : State :=
  match k.body with
  | .message h from_ e x =>
    let s := s.dropPacket id
    if from_ = lcn ∧ e = h ∧ s.selfSent (s.remapOf lcn).1 h = false ∧ !x.isTile then
      match s.recordHolder k.sp with
      | some d => s.sendRouter k lcn d (.nack 64 true)
      | none => s
    else
      s.sendRouter k lcn (destOf from_) (if destOf from_ = .head then .noticeAnswer e h (Payload.noticeWord (some x)) false else .nack e true)
  | .ship _ core slot _ _ => (s.dropPacket id).sendRouter k lcn (destOf k.srcLcn) (.shipReply core slot false)
  | .leg i o => s.refuseLeg id k lcn i o
  | _ => s.await id k

/-- Does the final router hold a part of a transfer, or an order of the head, for core `p`? The release of a resume restores its
core, and a pre-emption reaches a core that a double trap stopped (log 40). -/
def State.legHeld (s : State) (p : Nat) (i : Instr) : Bool :=
  match i with
  | .resumeRelease => s.clockHeld p || s.outOfService p
  | .preemptionMessage => s.clockHeld p || s.outOfService p || (s.core p).run == .restoring
  | _ => s.laneHeld p

/-- A part of a transfer, or an order of the head, lands at core `p`, unless the final router holds its lane's packets (R326,
R351, R371). -/
def State.steerLeg (s : State) (id : Nat) (k : Packet) (p : Nat) (i : Instr) (o : Operands) : State :=
  if s.legHeld p i || s.keptBack id k then s.hold id k
  else
    (s.dropPacket id).post (some k.sp) (k.landing + if p = coreAt k.x k.y then 0 else 2) i { o with a := p }

/-- A packet at the final router of a lane (R266, R331). -/
def State.steer (s : State) (id : Nat) (k : Packet) (lcn : Nat) : State :=
  match k.body with
  | .remap _ _ _ _ _ => s.leave id k (coreAt k.x k.y) .remapWrite 0
  | .leg i o =>
    if !(s.remapOf lcn).2 || s.unitClosed k then s.absentLane id k lcn else s.steerLeg id k (s.remapOf lcn).1 i o
  | b =>
    let r := s.remapOf lcn
    let p := r.1
    let absent := !r.2 || s.unitClosed k
    let full := match b with
      | .message _ _ _ _ => s.logFull p
      | _ => false
    if b.forBlock && !s.unitClosed k && !s.clockHeld p && !s.outOfService p then s.leave id k p (s.laneEvent p b) (if p = coreAt k.x k.y then 0 else 2)
    else if b.isRake && (absent || s.rakeRefused p) then (s.dropPacket id).rakeRefuse k
    else if absent && (!b.forBlock || s.unitClosed k) then s.absentLane id k lcn
    else if s.laneHeld p || full || s.keptBack id k then s.hold id k
    else s.leave id k p (s.laneEvent p b) (if p = coreAt k.x k.y then 0 else 2)

/-! ## Host memory -/

/-- The host performs a device's access to its memory: the reply's result, and the memory after it (R410). -/
def hostPerform (m : Memory) (r : Request) : Result × Memory :=
  match r.kind with
  | .read n _ _ => (.ok (m.readN r.va n) false, m)
  | .write b _ => (.ok [] false, m.writeN r.va b)
  | _ => (.nack 0x06#6, m)

/-- A host-memory access is performed at the link and its reply enters the mesh at the tap (R410). -/
def State.hostReply (s : State) (id : Nat) (k : Packet) : State :=
  let s := s.dropPacket id
  match k.body with
  | .request r =>
    let (x, m) := hostPerform s.host r
    ({ s with host := m }).inject (newPacket true k.srcLcn k.sp k.x k.y (.lane r.lcn) 1 (.reply r.who x)) 0
  | _ => s

/-- Is a packet the host access of a strand that has left its tap, to a line that request `r` of the same strand names
too? -/
def Packet.hostRival (k : Packet) (r : Request) : Bool :=
  k.stage == .leaving && (match k.dst, k.body with
    | .host, .request q => q.lcn == r.lcn && q.slot == r.slot && q.lines.any r.lines.contains
    | _, _ => false)

/-- The panel time from which the host may perform a request: not before the same strand's earlier accesses to its lines
(R136, R142, R323). -/
def State.hostFrom (s : State) (r : Request) : Nat :=
  s.agenda.foldl (fun t d =>
    if d.event = .packetHop then
      match Table.get? s.packets d.arg.a with
      | some k => if k.hostRival r then max t d.time else t
      | none => t
    else t) 0

/-! ## Hops -/

/-- A packet at its final router goes to its end point. -/
def State.finish (s : State) (id : Nat) (k : Packet) : State :=
  match k.dst with
  | .lane lcn => s.steer id k lcn
  | .slice _ => let e := s.sliceEvent k.body; s.leave id k 0 e.1 e.2
  | .router _ _ =>
    match k.body with
    | .device _ _ _ ea size w => s.leave id k 0 (s.deviceEvent ea size w) 0
    | _ => s.leave id k 0 .deviceWindowAccess 0
  | .manager _ => s.leave id k 0 .deviceWindowAccess 0
  | .head => s.leave id k 0 (headEvent k.body) 0
  | .port n =>
    let after := spineTime (unitOf k.x) n
    match k.body with
    | .ack _ => s.leave id k 0 .acknowledgementArrival after
    | .nack _ _ => s.leave id k 0 .nackArrival after
    | _ => s.leave id k 0 .messageArrival after
  | .host =>
    match k.body with
    | .request r =>
      let (n, s) := s.free
      let d := some k.sp
      let t := s.timeAt d (s.count d + k.landing + 60 + Config.hostDelay n)
      ({ s with packets := s.packets.set id { k with stage := .leaving, phys := 0 } }).postAt d (max t (s.hostFrom r))
        .packetHop (args id)
    | .ack _ => s.leave id k 0 .acknowledgementArrival 0
    | .nack _ _ => s.leave id k 0 .nackArrival 0
    | _ => s.leave id k 0 .hostPanTake 0

/-- A packet's head at a router: it waits, or goes to its end point, to the next router, or into a firewall (R338, R342,
R358). -/
def State.hop (s : State) (id : Nat) (k : Packet) : State :=
  if !s.routerOpen k.x k.y then s.hold id k
  else if s.atFinal k then s.finish id k
  else
    let o := s.output k
    match stepTo k.x k.y o with
    | none => s.hold id k
    | some (x, y) =>
      if !s.routerOpen x y then s.hold id k
      else if unitOf x ≠ unitOf k.x ∧ s.unitPart (unitOf x) ≠ some k.sp then s.firewallDrop id k
      else
        let k' := { k with x := x, y := y, inPort := farPort o, stage := .moving }
        ({ s with packets := s.packets.set id k' }).post (some k.sp) (2 + s.linkAdd k.x k.y x y) .packetHop (args id)

/-- Is core `p`, a member of job `id`, woken by a flood that has come to column `x` of its row: it stands there, or took its
place in the gang from a core of the same block that the flood had still to reach (R290, R383)? -/
def State.wakesAt (s : State) (x id p : Nat) : Bool :=
  coordX p == x || (decide (coordX p < x) && coordX p / 2 == x / 2 && (s.core p).job != id &&
    !s.agenda.any (fun d => d.event == .wake && d.arg.a == p && d.arg.b == id) &&
    !s.packets.any (fun k => match k.2.body with
      | .leg .wake o => !o.flag && o.a == p && o.b == id
      | _ => false))

/-- The flood of a wake in one core row of a die stands at a router (R290): it wakes the members of that column, each after the
lane fan-out, and goes on east to the next column; like every packet it waits where a router is closed (R342). A block's two
columns are reached together but for the link between them. -/
def State.wakeFlood (s : State) (id : Nat) (k : Packet) (job : Nat) : State :=
  if !s.routerOpen k.x k.y then s.hold id k
  else
    match (s.part k.sp).jobs.get? job with
    | none => s.dropPacket id
    | some j =>
      let row := j.members.filter (fun p => coordY p / 4 * 4 == k.y && dieAt (coordX p) k.y == dieAt k.x k.y)
      let s := if k.inPort = 4 then
          (row.filter (s.wakesAt k.x job)).foldl (fun s p =>
            let fan := if coordY p = k.y then 0 else s.linkAdd (coordX p) k.y (coordX p) (coordY p)
            s.post (some k.sp) (2 + fan) .wake (args p job)) s
        else s
      if row.all (fun p => decide (coordX p ≤ k.x)) then s.dropPacket id
      else if !s.routerOpen (k.x + 1) k.y then s.hold id { k with inPort := 0 }
      else
        ({ s with packets := s.packets.set id { k with x := k.x + 1, inPort := 4, stage := .moving } }).post (some k.sp)
          ((if k.x % 2 = 0 then 0 else 4) + s.linkAdd k.x k.y (k.x + 1) k.y) .packetHop (args id)

/-- A packet's head at a router, or a wake's flood (R290, R342). -/
def State.hopOrFlood (s : State) (id : Nat) (k : Packet) : State :=
  match k.body with
  | .leg .wake o => if o.flag then s.wakeFlood id k o.b else s.hop id k
  | _ => s.hop id k

/-- PACKET_HOP (R342): a packet's head reaches a router; for a host-memory access that has left its tap, the host
performs it. -/
def execPacketHop (s : State) : Host.Outcome State Fault Refusal :=
  .next (match Table.get? s.packets s.arg.a with
    | none => s
    | some k => if k.stage = .leaving then s.hostReply s.arg.a k else s.hopOrFlood s.arg.a k)

/-- HELD_PACKET_RELEASE (R326, R342): a waiting packet looks again at its output or its lane. -/
def execHeldPacketRelease (s : State) : Host.Outcome State Fault Refusal :=
  .next (match Table.get? s.packets s.arg.a with
    | none => s
    | some k => if k.stage = .held then s.hopOrFlood s.arg.a k else s)

end Sys2Proof.Machine
end

