-- ==== Sys2Proof/Machine/Service.lean ====
section
/-! DEFINITION. What waits while a part's new firmware image is switched in (R352, R434, R435). -/

namespace Sys2Proof.Machine

/-- A command that the hypervisor gives through the mailbox, and that is not the supervisor's own going on with one. -/
def isMail (i : Instr) (o : Operands) : Bool :=
  match i with
  | .partitionConfigWrite => true
  | .partitionReset => true
  | .unitLend => !o.flag
  | .unitRecall => !o.flag
  | .pageTableWrite => true
  | .panEntryRemoval => true
  | .qcfgWrite => true
  | .ppwrWrite => true
  | .vfConfigWrite => true
  | .sluiceClose => true
  | .sluiceOpen => true
  | .lowPowerEnter => true
  | .registerWrite => true
  | .quote => true
  | .meterReadout => true
  | .raiseFusedMinimum => true
  | .firmwareImageSwitch => !o.flag
  | .alarmExit => true
  | _ => false

/-- The TARGET of a part. -/
def partTarget (part : Nat) : Nat := part / 2 ^ 16

/-- The die of a part that is a die clock manager. -/
def partDie (part : Nat) : Option Nat := if partTarget part = 2 then some (part % 2 ^ 16) else none

/-- Is a switch under way that satisfies `f`? -/
def State.switchOf (s : State) (f : Nat → Bool) : Bool := s.sup.switching.any (fun w => f w.part)

/-- Does the event wait for a switch to end: a mailbox command for the supervisor's, a re-root for that of its die's clock
manager, a switch for another of the same part or, since dice are served one at a time, of another die's clock manager
(R434)? -/
def State.serviceHeld (s : State) (d : Due) : Bool :=
  (isMail d.event d.arg && s.switchOf (fun p => partTarget p == 1)) ||
    (d.event == .reroot && s.switchOf (fun p => partDie p == some d.arg.a)) ||
    (d.event == .firmwareImageSwitch && !d.arg.flag &&
      s.switchOf (fun p => p == d.arg.b || ((partDie p).isSome && (partDie d.arg.b).isSome)))

/-- An event that may wait for a switch to end. -/
def isServed (d : Due) : Bool := isMail d.event d.arg || d.event == .reroot

/-- The cycles that a re-root takes from its report, or from the switch that it waited for, to its new tree (R352). -/
def rerootDelay (n : Nat) : Nat := 1 + Config.delay n % 8000

/-- The events that waited for a switch go on, commands in their order, one a cycle (R352, R434). -/
def State.endWaits (s : State) : State :=
  let goes (d : Due) : Bool := isServed d && !s.serviceHeld d
  let t : State := { s with parked := s.parked.filter (fun d => !goes d) }
  (s.parked.filter goes).zipIdx.foldl (fun (t : State) e =>
    if e.1.event = .reroot then
      let (n, t) := t.free
      t.postAt none (t.now + rerootDelay n) .reroot e.1.arg
    else t.postAt e.1.dom (t.now + 1 + e.2) e.1.event e.1.arg) t

end Sys2Proof.Machine
end

