-- ==== Sys2Proof/Machine/ClockTree.lean ====
section
/-! DEFINITION. The clock tree: a forwarder's failure, the hold of its subtree, the new tree and the release (R278, R348
to R353, R355, R396). -/

namespace Sys2Proof.Machine

/-! ## Who waits for a clock -/

/-- Is the event the landing of a packet, whose number stands in operand `a`? -/
def isLanding : Instr → Bool
  | .messageArrival => true
  | .acknowledgementArrival => true
  | .releaseArrival => true
  | .nackArrival => true
  | .farReplyArrival => true
  | .icacheLineFill => true
  | .cpeLineReply => true
  | .tileOffer => true
  | .tileGrant => true
  | .tileLands => true
  | .tileOfferNack => true
  | .panTableReply => true
  | .holderUpdateReply => true
  | .rakeProbe => true
  | .rakeEcho => true
  | .rakeEntry => true
  | .rakeConfirm => true
  | .rakeConfirmEcho => true
  | .rakeEnd => true
  | .seqGrant => true
  | .migRecordArrival => true
  | .migAccept => true
  | .migRefusal => true
  | .remapWrite => true
  | .deviceWindowAccess => true
  | .routeTableWrite => true
  | .bcfgOosWrite => true
  | .reserveTake => true
  | .reserveRelease => true
  | _ => false

/-- An event of a block's engines, whose number stands in operand `a`; they run with the clock of its physical lane 0. -/
def isEngineEvent : Instr → Bool
  | .mxeStepBegin => true
  | .accumulatorWrite => true
  | .drainGranuleWrite => true
  | .mxeJobCompletion => true
  | .outBufferFree => true
  | .cpeTurn => true
  | .cpeChunkWrite => true
  | .cpeJobCompletion => true
  | .queueEntryGrant => true
  | _ => false

/-- An event of a core's own count, whose number stands in operand `a`. -/
def isCoreEvent : Instr → Bool
  | .rakeThreshold => true
  | .fenceConditionMet => true
  | .selfCrystal => true
  | .crystalCurrent => true
  | .pullCompletion => true
  | .substitutionRestoreDone => true
  | .wakeChannelBind => true
  | _ => false

/-- An event that reaches a core from outside its clock, or by `ptime`: a hold only puts it off to the release. -/
def isOuterEvent : Instr → Bool
  | .wtuTargetReached => true
  | .altDeadline => true
  | .barrierRelease => true
  | .wake => true
  | .preemptionMessage => true
  | _ => false

/-- The core whose scratchpad, registers or accumulators an event of its block's engines changes. -/
def State.engineTarget (s : State) (d : Due) : Option Nat :=
  let blk := d.arg.a
  let b := s.block blk
  let lane : Option Nat :=
    match d.event with
    | .accumulatorWrite => (Table.get? b.mxe.writes d.arg.b).map (·.lane)
    | .drainGranuleWrite => (Table.get? b.mxe.writes d.arg.b).map (·.lane)
    | .mxeJobCompletion => (b.mxe.findJob d.arg.c).map (fun e => e.2.1.lane)
    | .outBufferFree => some d.arg.b
    | .cpeChunkWrite => b.cpe.current.map (·.lane)
    | .cpeJobCompletion => b.cpe.current.map (·.lane)
    | _ => none
  lane.map (s.lanePhys blk)

/-- The core without whose clock an event cannot take place: of an engine event, lane 0's, or a held core that it would
change (R351, log entry 51). -/
def State.eventCore (s : State) (d : Due) : Option Nat :=
  if isEngineEvent d.event then
    some (match if s.clockHeld (8 * d.arg.a) then none else s.engineTarget d with
      | some p => if s.clockHeld p then p else 8 * d.arg.a
      | none => 8 * d.arg.a)
  else if d.event = .logWrite then s.buddyOf d.arg.a
  else if isCoreEvent d.event || isOuterEvent d.event then some d.arg.a
  else if d.event = .resumeRelease ∧ d.arg.flag then some d.arg.a
  else if d.event = .recordWordResend ∧ d.arg.b ≠ coreCount then some d.arg.b
  else if isLanding d.event then
    match Table.get? s.packets d.arg.a with
    | some k =>
      match k.dst with
      | .lane _ => some k.phys
      | .router x y => some (coreAt x y)
      | _ => none
    | none => none
  else none

/-- Is the event one that a hold puts off, its core in Hold or Adopt (R351), or that waits for the switch of a part's
firmware (R434)? -/
def State.stopped (s : State) (d : Due) : Bool :=
  s.serviceHeld d ||
    (match s.eventCore d with
     | some p => s.clockHeld p
     | none => false)

/-- The event waits for its core's release, or for the switch to end. -/
def State.park (s : State) (d : Due) (rest : List Due) : State :=
  { s with now := max s.now d.time, agenda := rest, parked := s.parked ++ [d] }

/-! ## Landing where no core serves the lane -/

/-- Has the packet of a landing left its final router for a core that has been contained since, or that waits to be
restored in a retired core's place (R371, R383)? -/
def State.strayed (s : State) (d : Due) : Bool :=
  isLanding d.event &&
    (match Table.get? s.packets d.arg.a with
     | some k =>
       (match k.dst with
        | .lane _ =>
          let c := s.core k.phys
          k.stage == .leaving && !k.body.forBlock && (c.run == .contained || c.run == .doubleTrap || c.run == .restoring ||
            (c.run == .saving && c.invalid))
        | _ => false)
     | none => false)

/-- The final router takes such a packet back: it waits there for its lane like the lane's other packets (R371). -/
def State.takeBack (s : State) (d : Due) (rest : List Due) : State :=
  let s := { s with now := max s.now d.time, agenda := rest }
  match Table.get? s.packets d.arg.a with
  | some k => (s.hold d.arg.a k).post (some k.sp) 0 .heldPacketRelease (args d.arg.a)
  | none => s

/-! ## The tree -/

/-- The core at a port of TCFG's codes: 0 N, 1 E, 2 S, 3 W. -/
def treeNeighbour (p port : Nat) : Option Nat := (stepTo (coordX p) (coordY p) (port + 1)).map (fun t => coreAt t.1 t.2)

/-- The cores that take their clock from `p`. -/
def State.treeChildren (s : State) (p : Nat) : List Nat :=
  (List.range 4).filterMap (fun i => if (s.core p).tree.child.getLsbD i then treeNeighbour p i else none)

/-- The cores below those of a level, among `fuel` levels. -/
def State.treeBelow (s : State) : Nat → List Nat → List Nat
  | 0, _ => []
  | fuel + 1, level =>
    let next := level.flatMap s.treeChildren
    if next = [] then [] else next ++ s.treeBelow fuel next

/-- The core from which `p` takes its clock; a root, whose clock manager fails it, stands for its own failure. -/
def State.forwarderOf (s : State) (p : Nat) : Nat :=
  let t := (s.core p).tree
  if t.root then p else (treeNeighbour p t.pport.toNat).getD p

/-- The die of a core (R6). -/
def dieOf (p : Nat) : Nat := p / 6144

/-- PARENT_CLOCK_STOP (R351): the forwarder of core `a` fails; every core below it stops now, at one edge, and the
keep-alive oscillators report it within 480 cycles. -/
def execParentClockStop (s : State) : Host.Outcome State Fault Refusal :=
  let p := s.arg.a
  .next (if (s.core p).tree.state ≠ .run then s
    else
      let f := s.forwarderOf p
      let below := (s.treeBelow 256 [f]).filter (fun q => (s.core q).tree.state != .off)
      let t := below.foldl (fun (t : State) q => t.modCore q (fun c =>
        { c with tree := { c.tree with
          state := .hold, stoppedAt := if c.tree.state = .run then s.now else c.tree.stoppedAt
          heldFor := if c.tree.state = .run then 0 else c.tree.heldFor } })) s
      let t := t.modDcm (dieOf f) (fun d => { d with
        orphans := d.orphans ++ below.filter (fun q => !d.orphans.contains q), failing := d.failing.filter (· != f) ++ [f] })
      let (n, t) := t.free
      t.postAt none (s.now + 1 + Config.delay n % 480) .lostClockReport (args (dieOf f) f s.now))

/-- LOST_CLOCK_REPORT (R351, R352): the clock manager of die `a` learns that forwarder `b` failed in cycle `c`, and
rebuilds the subtree. -/
def execLostClockReport (s : State) : Host.Outcome State Fault Refusal :=
  let o := s.arg
  let s := s.modDcm o.a (fun d => { d with state := 1 })
  let (n, s) := s.free
  .next (s.postAt none (s.now + rerootDelay n) .reroot (args o.a o.b o.c))

/-- The new nodes of one level: each core of `left` with a neighbour that runs or has its new node, its parent the one of
least depth, then by port; a forwarder that has failed gives no clock (R352). That a neighbour on another die may be the parent is
log entry 126. -/
def State.treeLevel (s : State) (failing left : List Nat) (done : Table TreeNode) : Table TreeNode :=
  left.filterMap (fun p =>
    let best := (List.range 4).foldl (fun (best : Option (Nat × Nat)) i =>
      match treeNeighbour p i with
      | none => best
      | some q =>
        let depth := match Table.get? done q with
          | some t => some t.depth
          | none =>
            let t := (s.core q).tree
            if t.state == .run && !failing.contains q then some t.depth else none
        match depth, best with
        | some d, some b => if d < b.2 then some (i, d) else best
        | some d, none => some (i, d)
        | none, _ => best) none
    match best with
    | some (i, d) =>
      if d < 255 then
        some (p, { pport := BitVec.ofNat 2 i, root := false, child := 0#4, depth := d + 1, state := .adopt
                   stoppedAt := (s.core p).tree.stoppedAt, heldFor := (s.core p).tree.heldFor })
      else none
    | none => none)

/-- The new tree over the cores of `left`, level by level (R352). -/
def State.treeGrow (s : State) (failing : List Nat) : Nat → List Nat → Table TreeNode → Table TreeNode
  | 0, _, done => done
  | fuel + 1, left, done =>
    let level := s.treeLevel failing left done
    if level = [] then done
    else s.treeGrow failing fuel (left.filter (fun p => (Table.get? level p).isNone)) (done ++ level)

/-- A core forwards to a neighbour no longer, or from now on. -/
def State.setChild (s : State) (p port : Nat) (b : Bool) : State :=
  s.modCore p (fun c =>
    let m : BitVec 4 := 1#4 <<< port
    { c with tree := { c.tree with child := if b then c.tree.child ||| m else c.tree.child &&& ~~~m } })

/-- The port of a neighbour that faces back. -/
def backPort (port : Nat) : Nat := (port + 2) % 4

/-- The parent of core `p` forwards to it no longer. -/
def State.leaveParent (s : State) (p : Nat) : State :=
  let t := (s.core p).tree
  match treeNeighbour p t.pport.toNat with
  | some q => if t.root then s else s.setChild q (backPort t.pport.toNat) false
  | none => s

/-- The subtree that the clock manager of a die rebuilds when it learns that `f` failed: the held cores below it, but for
those that another failed forwarder, not reported yet, holds (R352). -/
def State.orphansOf (s : State) (die f : Nat) : List Nat :=
  let others := (s.dcm die).failing.filter (· != f)
  let below (q : Nat) : List Nat := s.treeBelow 256 [q]
  let away := others ++ others.flatMap below
  ((s.dcm die).orphans.filter (fun p => p != f && s.clockHeld p && (below f).contains p)).filter (fun p => !away.contains p)

/-- REROOT (R352, R355): forwarder `b` of die `a`, which stopped in cycle `c`, is out of service; its orphans get their
new tree, a core left unreached or too deep is Off, and the release cycle is chosen. -/
def execReroot (s : State) : Host.Outcome State Fault Refusal :=
  let o := s.arg
  let f := o.b
  let orphans := s.orphansOf o.a f
  let s := (s.leaveParent f).turnOff f
  let s := s.modDcm o.a (fun d => { d with failing := d.failing.filter (· != f) })
  let s := orphans.foldl State.leaveParent s
  let nodes := s.treeGrow (s.dcm o.a).failing 256 orphans []
  let s : State := orphans.foldl (fun s p =>
    match Table.get? nodes p with
    | some n => s.modCore p (fun c => { c with tree := n })
    | none => s.turnOff p) s
  let s : State := nodes.foldl (fun s e =>
    match treeNeighbour e.1 e.2.pport.toNat with
    | some q => s.setChild q (backPort e.2.pport.toNat) true
    | none => s) s
  let (n, s) := s.free
  let tr := s.now + 1 + Config.delay n % 9000
  let s : State := { s with agenda := s.agenda.filter (fun d => !(d.event == Instr.rerootRelease && d.arg.a == o.a)) }
  let s := s.modDcm o.a (fun d =>
    { d with
      state := 2, orphans := d.orphans.filter s.clockHeld
      failX := coordX f % 64, failY := coordY f % 96, failT := o.c, release := tr
      count := min 0xFFFF (d.count + 1) })
  .next (s.postAt none tr .rerootRelease (args o.a))

/-! ## Release -/

/-- A core whose count has jumped by `j` over a hold (R353): its rotation and its wait ages go on from where they
stopped. `clat` of a rendezvous in progress will include the hold. -/
def Core.afterHold (j : Nat) (c : Core) : Core :=
  { c with
    slots := c.slots.map (fun e => (e.1, { e.2 with readyAt := e.2.readyAt + j, waitStart := e.2.waitStart + j }))
    meterFrom := c.meterFrom.map (· + j), phase := (c.phase + j) % 8
    engaged := c.engaged.map (fun e => (e.1, { e.2 with wstart := e.2.wstart + j }))
    tree := { c.tree with state := .run, heldFor := 0 } }

/-- A block whose engines' count has jumped by `j` over a hold. -/
def Block.afterHold (j : Nat) (b : Block) : Block :=
  { b with mxe := { b.mxe with
    freeAt := b.mxe.freeAt + j
    entries := b.mxe.entries.map (fun e => (e.1, { e.2 with
      job := e.2.job.map (fun x => { x with granted := x.granted + j, last := x.last + j }) }))
    lanes := b.mxe.lanes.map (fun e => (e.1, { e.2 with
      latch := e.2.latch.map (fun t => { t with readyAt := t.readyAt + j })
      out := e.2.out.map (fun t => { t with readyAt := t.readyAt + j }) })) } }

/-- The first core cycle of a domain whose `ptime` is at least now (R396). -/
def State.releaseCount (s : State) (dom : Option Nat) : Nat :=
  let k := s.count dom
  if s.timeAt dom k < s.now then k + 1 else k

/-- The jump of core `p`'s count over its hold: the core cycles since it stopped, those before a change of the power mode
counted in the mode they passed in (R353, R395). -/
def State.holdJump (s : State) (p : Nat) : Nat :=
  let d := s.partOf p
  let (mode, m) := s.clockOf d
  let t := (s.core p).tree
  t.heldFor + (s.releaseCount d - countOfTime mode m (max m t.stoppedAt))

/-- An event of a released core: one of its own count comes as much later as its count has jumped, any other not before
the release (R353). -/
def State.releaseDue (s : State) (p : Nat) (d : Due) : Due :=
  if (isEngineEvent d.event && p % 8 == 0) || isCoreEvent d.event || d.event == .recordWordResend then
    let (mode, m) := s.clockOf d.dom
    { d with time := timeOfCount mode m (countOfTime mode m (max m d.time) + s.holdJump p) }
  else { d with time := max s.now d.time }

/-- The engines of a block look for work and for entries to grant, a lane's core being released (R235, R237, R249). -/
def State.enginesLook (s : State) (blk : Nat) : State := (((s.queueKick blk 0).queueKick blk 1).mxeKick blk 0).cpeKick blk

/-- REROOT_RELEASE (R351, R352, R353): the adopted cores of die `a` run again. -/
def execRerootRelease (s : State) : Host.Outcome State Fault Refusal :=
  let die := s.arg.a
  let back := (s.dcm die).orphans.filter (fun p => decide ((s.core p).tree.state = .adopt))
  let mine (d : Due) : Option Nat := (s.eventCore d).filter back.contains
  let move (d : Due) : Due :=
    match mine d with
    | some p => s.releaseDue p d
    | none => d
  let freed := s.parked.filter (fun d => (mine d).isSome)
  let agenda := (s.agenda.map move ++ freed.map move).foldl insertDue []
  let t : State := { s with
    agenda := agenda, parked := s.parked.filter (fun d => (mine d).isNone)
    cores := s.cores.map (fun e => if back.contains e.1 then (e.1, e.2.afterHold (s.holdJump e.1)) else e)
    blocks := s.blocks.map (fun e => if back.contains (8 * e.1) then (e.1, e.2.afterHold (s.holdJump (8 * e.1))) else e) }
  let left := (s.dcm die).orphans.filter (fun p => !back.contains p)
  let t := (back.map blockOf).eraseDups.foldl State.enginesLook t
  .next ((t.modDcm die (fun d => { d with state := if left = [] then 0 else 1, orphans := left })).rescan)

end Sys2Proof.Machine
end

