-- ==== Sys2Proof/Machine/Compare.lean ====
section
/-! DEFINITION. The compares and the predicate combinations (R122 to R124). -/

namespace Sys2Proof.Machine

/-- cmp (R122). -/
def execCmp (g p q t c : BitVec 3) (a b : BitVec 5) (s : State) : Host.Outcome State Fault Refusal :=
  s.compare g p q t (compareWords c (s.me.val a) (s.me.val b)) flagNone

/-- cmp with an immediate (R75, R122). -/
def execCmpi (g p q t c : BitVec 3) (a i : BitVec 5) (s : State) : Host.Outcome State Fault Refusal :=
  s.compare g p q t (compareWords c (s.me.val a) (compareImm c i)) flagNone

/-- The FP32 value in val[31:0] of a register (R122). -/
def Strand.fp32Of (x : Strand) (a : BitVec 5) : FVal := fp32.decode ((x.val a).toNat % 2 ^ 32)

/-- fcmp (R122, R123). -/
def execFcmp (g p q t c : BitVec 3) (a b : BitVec 5) (s : State) : Host.Outcome State Fault Refusal :=
  let r := compareFloat c.toNat (s.me.fp32Of a) (s.me.fp32Of b)
  s.compare g p q t r.1 r.2

/-- pcmb (R75, R122). -/
def execPcmb (g p q t c a b : BitVec 3) (s : State) : Host.Outcome State Fault Refusal :=
  s.compare g p q t (combinePreds c (s.me.pred a) (s.me.pred b)) flagNone

end Sys2Proof.Machine
end

