-- ==== Sys2Proof/Machine/Optics.lean ====
section
/-! DEFINITION. Optical ports: virtual functions, frames and the items they carry, and sluices (R401 to R409). -/

namespace Sys2Proof.Machine

/-! ## Sending into the mesh and into ports -/

/-- A packet from port `k` to a lane: over the spine to the tap of the lane's unit, then through the mesh (R401). -/
def State.sendTap (s : State) (k lcn units : Nat) (b : Body) : State :=
  let u := unitOf (coordX lcn)
  s.inject (newPacket false (0x7F100 + k) ((s.unitPart u).getD 31) (tapX u) 0 (.lane lcn) units b) (spineTime u k)

/-- Virtual function `v` of a port. -/
def Port.vf (p : Port) (v : Nat) : Vf := p.vfs.getD v Vf.reset

/-- Change a virtual function. -/
def State.modVf (s : State) (k v : Nat) (f : Vf → Vf) : State :=
  s.modPort k (fun p => { p with vfs := p.vfs.set v (f (p.vf v)) })

/-- The fields of W0 (R403). -/
def Vf.en (x : Vf) : Bool := x.w0.getLsbD 0
def Vf.dirIn (x : Vf) : Bool := x.w0.getLsbD 1
def Vf.psz (x : Vf) : Nat := (x.w0.extractLsb' 2 1).toNat
def Vf.part (x : Vf) : Nat := (x.w0.extractLsb' 3 5).toNat
def Vf.dlcn (x : Vf) : Nat := (x.w0.extractLsb' 8 19).toNat
def Vf.dend (x : Vf) : Nat := (x.w0.extractLsb' 27 6).toNat
def Vf.peer (x : Vf) : BitVec 16 := x.w0.extractLsb' 33 16

/-- The port's next frame slot is put on the agenda if it may send (R402). -/
def State.armPort (s : State) (k : Nat) : State :=
  let p := s.port k
  if p.armed ∨ (p.state ≠ 2 ∧ p.state ≠ 3) then s
  else (s.modPort k (fun p => { p with armed := true })).postAt none ((s.now / 8 + 1) * 8) .frameSlot (args k)

/-- A frame has been queued for the port: it is a wake hint while the port is closed or low (R408). -/
def State.portKick (s : State) (k : Nat) : State :=
  let s := if (s.port k).state = 0 ∨ (s.port k).state = 4 then s.postAt none s.now .wakeHint (args k) else s
  s.armPort k

/-- Queue a control frame (R405). -/
def State.queueControl (s : State) (k : Nat) (i : Item) : State :=
  (s.modPort k (fun p => { p with control := p.control ++ [i] })).portKick k

/-- Queue an item on a virtual function, with the owner of the job whose strand sent it (R404, R406, R432). -/
def State.queueData (s : State) (k v : Nat) (i : Item) (payer : Option Nat) : State :=
  (s.modVf k v (fun x => { x with queue := x.queue ++ [i], payers := x.payers ++ [payer] })).portKick k

/-- Does a refill change the tokens of some virtual function? -/
def Port.thirsty (p : Port) : Bool := p.vfs.any (fun e => min (e.2.tokens + e.2.rate) e.2.burst != e.2.tokens)

/-- The next refill is put on the agenda while it changes something (R405). -/
def State.armRefill (s : State) (k : Nat) : State :=
  let p := s.port k
  if p.refill ∨ !p.thirsty then s
  else (s.modPort k (fun p => { p with refill := true })).postAt none ((s.now / 256 + 1) * 256) .tokenRefill (args k)

/-! ## Frames -/

/-- Frames of an item (R402). -/
def Item.frames : Item → Nat
  | .ship _ _ _ _ b _ => (b.length + 495) / 496
  | _ => 1

/-- May the virtual function send a frame now: a frame waiting, a RATE, a token, and the expected panel at the far end
(R405, R409)? -/
def Port.maySend (p : Port) (v : Nat) : Bool :=
  let x := p.vf v
  x.en && x.queue != [] && x.rate != 0 && x.tokens != 0 && x.peer == p.peerId

/-- The virtual function that sends: the least VFF, then the lowest (R405). -/
def Port.choose (p : Port) : Option Nat :=
  ((List.range 16).filter p.maySend).foldl (fun best v =>
    match best with
    | none => some v
    | some b => if (p.vf v).vff < (p.vf b).vff then some v else some b) none

/-- PTP time of panel cycle `t`, EPOCH + `t` × 2/3 ns, in thirds of a nanosecond; EPOCH counts nanoseconds (R397;
PRESUMED, log entry 89). -/
def Supervisor.ptpTime (u : Supervisor) (t : Nat) : Nat := 3 * u.epoch.toNat + 2 * t

/-- A frame leaves in this slot, for the first time with `new`: it is whole at the far port at f + 8 + PDLY. A Sync that leaves is followed by its
Follow_Up, and a Delay_Req's departure is stamped (R397, R402). -/
def State.sendFrame (s : State) (k : Nat) (i : Item) (new : Bool) : State :=
  let (id, s) := s.fresh
  let s := s.modPort k (fun p =>
    { p with frames := p.frames.set id i, unacked := if new then p.unacked + 1 else p.unacked, markerSent := p.markerSent || i == .marker })
  let s := s.postAt none (s.now + 8 + (s.port k).delay) .frameArrival { args k id with flag := true }
  match i with
  | .ptp m 0 n _ => s.modPort k (fun p => { p with control := p.control ++ [.ptp m 1 n (s.sup.ptpTime s.now)] })
  | .ptp _ 2 _ _ => { s with sup := { s.sup with ptpT3 := some (s.sup.ptpTime s.now) } }
  | _ => s

/-- The virtual function that was chosen sends a frame of its first item, charged to the owner of the job whose strand queued it
(R405, R432). -/
def State.sendData (s : State) (k v : Nat) : State :=
  let p := s.port k
  let x := p.vf v
  match x.queue with
  | [] => s
  | i :: rest =>
    let last := x.sent + 1 == i.frames
    let s := s.modPort k (fun p => { p with vp := x.vff })
    let s := s.modVf k v (fun x => { x with
      tokens := x.tokens - 1, vff := max x.vff p.vp + (2 ^ 16 + x.weight - 1) / x.weight
      queue := if last then rest else x.queue, payers := if last then x.payers.drop 1 else x.payers, sent := if last then 0 else x.sent + 1
      out := match i with
        | .message _ lcn e _ => x.out ++ [(lcn, e)]
        | _ => x.out })
    ((s.chargeOwner (x.payers.headD none) .opt 512).sendFrame k i true).armRefill k

/-- FRAME_SLOT (R402, R405, R408): a frame to be sent again goes first, then control frames; data frames only while the port is open. -/
def execFrameSlot (s : State) : Host.Outcome State Fault Refusal :=
  let k := s.arg.a
  let s := s.modPort k (fun p => { p with armed := false })
  let p := s.port k
  .next (if p.state ≠ 2 ∧ p.state ≠ 3 then s
    else
      match p.resend, p.control with
      | i :: rest, _ => ((s.modPort k (fun p => { p with resend := rest })).sendFrame k i false).armPort k
      | [], i :: rest => ((s.modPort k (fun p => { p with control := rest })).sendFrame k i true).armPort k
      | [], [] =>
        if p.state = 2 then
          match p.choose with
          | some v => (s.sendData k v).armPort k
          | none => s
        else s)

/-- TOKEN_REFILL (R405): TOKENS ← min(TOKENS + RATE, BURST); a port with a frame that may go now sends it in this slot. -/
def execTokenRefill (s : State) : Host.Outcome State Fault Refusal :=
  let k := s.arg.a
  let s := s.modPort k (fun p => { p with
    refill := false, vfs := p.vfs.map (fun e => (e.1, { e.2 with tokens := min (e.2.tokens + e.2.rate) e.2.burst })) })
  let p := s.port k
  let s := if p.state = 2 && p.choose.isSome && !p.armed then
      (s.modPort k (fun p => { p with armed := true })).postAt none s.now .frameSlot (args k)
    else s
  .next (s.armRefill k)

/-- A draining port closes once its frames are acknowledged and both markers have passed (R408). -/
def State.drainCheck (s : State) (k : Nat) : State :=
  let p := s.port k
  if p.state = 3 && p.unacked == 0 && p.markerSent && p.markerSeen then s.postAt none s.now .drainComplete (args k) else s

/-- The sender of a far message takes its acknowledgement or NACK (R404). -/
def State.portAnswer (s : State) (k v : Nat) (nack : Bool) : State :=
  match ((s.port k).vf v).out with
  | (lcn, e) :: rest =>
    (s.modVf k v (fun x => { x with out := rest })).sendTap k lcn 1 (if nack then .nack e false else .ack e)
  | [] => s

/-- An item arrives from the far port (R402, R404, R406). -/
def State.deliver (s : State) (k : Nat) (i : Item) : State :=
  match i with
  | .message v _ _ x =>
    let f := (s.port k).vf v
    if f.en && f.dirIn && x.size == f.psz && s.unitPart (unitOf (coordX f.dlcn)) == some f.part then
      s.sendTap k f.dlcn x.flits (.message f.dend (0x7F100 + k) v x)
    else s.queueControl k (.nack v)
  | .ack v => s.portAnswer k v false
  | .nack v => s.portAnswer k v true
  | .ship v lcn core slot b tags =>
    let f := (s.port k).vf v
    if f.en && decide (lcn < coreCount) && s.unitPart (unitOf (coordX lcn)) == some f.part then
      s.sendTap k lcn (b.length / 32) (.ship lcn core slot b tags)
    else s.queueControl k (.shipReply f.part core slot false)
  | .shipReply _ core slot ok => s.sendTap k (s.core core).lcn 1 (.shipReply core slot ok)
  | .ptp m kind n stamp =>
    let e : Instr := if kind = 0 then .ptpSync else if kind = 1 then .ptpFollowUp else if kind = 2 then .ptpDelayReq else .ptpDelayResp
    s.postAt none s.now e (args k n stamp m)
  | .marker => s.postAt none s.now .closeMarker (args k)

/-- FRAME_ARRIVAL (R402): with the flag, frame `b` of port `a` is whole at the far port, in error if `c` is not 0, and is
sent again at the next slot, unacknowledged until then; without it, item `b`, which the far panel has put on the port, has arrived. -/
def execFrameArrival (s : State) : Host.Outcome State Fault Refusal :=
  let o := s.arg
  let k := o.a
  .next (match Table.get? (s.port k).frames o.b with
    | none => s
    | some i =>
      let s := s.modPort k (fun p => { p with frames := p.frames.erase o.b })
      if o.flag then
        if o.c = 0 then (s.modPort k (fun p => { p with unacked := p.unacked - 1 })).drainCheck k
        else
          (s.modPort k (fun p => { p with resend := p.resend ++ [i], retry := min 0xFFFF (p.retry + 1) })).armPort k
      else if o.c = 0 ∧ ((s.port k).state = 2 ∨ (s.port k).state = 3) then s.deliver k i
      else s)

/-! ## Virtual functions -/

/-- VF_CONFIG_WRITE (R403): word `c` of virtual function `b` of port `a`; RATE above 32 stores 32, BURST and WEIGHT of 0
store 1, and FLUSH takes effect now. -/
def execVfConfigWrite (s : State) : Host.Outcome State Fault Refusal :=
  let o := s.arg
  let k := o.a
  let v := o.b % 16
  let w := o.w
  .next (
    if o.c = 0 then (s.modVf k v (fun x => { x with w0 := w &&& 0x1FFFFFFFFFFFF#64 })).armPort k
    else
      let one (n : Nat) : Nat := if n = 0 then 1 else n
      let s := (s.modVf k v (fun x => { x with
        rate := min 32 (w.extractLsb' 0 6).toNat, burst := one (w.extractLsb' 6 8).toNat
        weight := one (w.extractLsb' 14 8).toNat })).armRefill k |>.armPort k
      if w.getLsbD 30 then s.postAt none s.now .vfFlush (args k v) else s)

/-- The two configuration words as they are read (R403). -/
def Vf.word (x : Vf) (i : Nat) : Word :=
  if i = 0 then x.w0
  else BitVec.ofNat 64 (x.rate + x.burst * 2 ^ 6 + x.weight * 2 ^ 14 + x.tokens % 256 * 2 ^ 22)

/-- An item that was queued is refused to its sender. -/
def State.refuseItem (s : State) (k : Nat) (i : Item) : State :=
  match i with
  | .message _ lcn e _ => s.sendTap k lcn 1 (.nack e false)
  | .ship _ _ core slot _ _ => s.sendTap k (s.core core).lcn 1 (.shipReply core slot false)
  | _ => s

/-- VF_FLUSH (R403, R404): every message queued on virtual function `b` of port `a` is NACKed. -/
def execVfFlush (s : State) : Host.Outcome State Fault Refusal :=
  let k := s.arg.a
  let v := s.arg.b
  let q := ((s.port k).vf v).queue
  .next (q.foldl (fun s i => s.refuseItem k i) (s.modVf k v (fun x => { x with queue := [], payers := [], sent := 0 })))

/-! ## Sluices -/

/-- PCTL as it is read (R407). -/
def Port.word (p : Port) : Word :=
  BitVec.ofNat 64 (p.state + p.peerId.toNat * 2 ^ 6 + p.delay % 2 ^ 16 * 2 ^ 22 + p.fails % 256 * 2 ^ 38 +
    p.retry % 2 ^ 16 * 2 ^ 46)

/-- An open port drains: it sends its CLOSE marker, and a panel that takes its time from it holds over (R398, R408). -/
def State.startDrain (s : State) (k : Nat) : State :=
  let s := s.modPort k (fun p => { p with state := 3, control := p.control ++ [.marker], markerSent := false })
  let u := s.sup
  let s := if u.ptState = 2 && !u.gm && u.sport == k then { s with sup := { u with ptState := 3, good := 0 } } else s
  s.armPort k

/-- SLUICE_CLOSE (R408, R409). -/
def execSluiceClose (s : State) : Host.Outcome State Fault Refusal :=
  let k := s.arg.a
  .next (if (s.port k).state = 2 then s.startDrain k else s)

/-- CLOSE_MARKER (R408): the peer's marker; an open port drains too. -/
def execCloseMarker (s : State) : Host.Outcome State Fault Refusal :=
  let k := s.arg.a
  let s := if (s.port k).state = 2 then s.startDrain k else s
  .next (if (s.port k).state = 3 then (s.modPort k (fun p => { p with markerSeen := true })).drainCheck k else s)

/-- DRAIN_COMPLETE (R408): the port is closed. -/
def execDrainComplete (s : State) : Host.Outcome State Fault Refusal :=
  let k := s.arg.a
  let p := s.port k
  .next (if p.state = 3 && p.unacked == 0 && p.markerSent && p.markerSeen then
      s.modPort k (fun p => { p with state := 0, markerSent := false, markerSeen := false })
    else s)

/-- A closed or low port begins to train; 1 ms later it has failed (R408). After a failed image the ports do not answer
(R424). -/
def State.startTraining (s : State) (k : Nat) : State :=
  let p := s.port k
  if (p.state = 0 ∨ p.state = 4) ∧ !s.dead then
    (s.modPort k (fun p => { p with state := 1, training := p.training + 1 })).postAt none (s.now + 1500000)
      .trainingTimeout (args k (p.training + 1))
  else s

/-- SLUICE_OPEN (R408). -/
def execSluiceOpen (s : State) : Host.Outcome State Fault Refusal := .next (s.startTraining s.arg.a)

/-- WAKE_HINT (R408). -/
def execWakeHint (s : State) : Host.Outcome State Fault Refusal := .next (s.startTraining s.arg.a)

/-- LOW_POWER_ENTER (R408, R409): a wake hint of the same cycle has come first. -/
def execLowPowerEnter (s : State) : Host.Outcome State Fault Refusal :=
  let k := s.arg.a
  .next (if (s.port k).state = 0 then s.modPort k (fun p => { p with state := 4 }) else s)

/-- TRAINING_SUCCESS (R407, R408): PDLY `b` has been measured and the far panel's id `w` received. -/
def execTrainingSuccess (s : State) : Host.Outcome State Fault Refusal :=
  let k := s.arg.a
  .next (if (s.port k).state = 1 then
      (s.modPort k (fun p => { p with
        state := 2, delay := s.arg.b % 2 ^ 16, peerId := s.arg.w.setWidth 16, markerSent := false
        markerSeen := false, unacked := 0, resend := [], frames := [] })).armPort k
    else s)

/-- TRAINING_TIMEOUT (R408): training number `b` of the port has failed for 1 ms. -/
def execTrainingTimeout (s : State) : Host.Outcome State Fault Refusal :=
  let k := s.arg.a
  let p := s.port k
  .next (if p.state = 1 ∧ p.training = s.arg.b then
      s.modPort k (fun p => { p with state := 0, fails := min 255 (p.fails + 1) })
    else s)

end Sys2Proof.Machine
end

