-- ==== Sys2Proof/Machine/Delivery.lean ====
section
/-! DEFINITION. What a message, an acknowledgement, a release or a NACK does where it lands: at an end of a lane, at a
head, at an optical port or at the host function (R194 to R199, R273, R280, R284, R404, R406, R413). -/

namespace Sys2Proof.Machine

/-- The packet of an arrival event, taken out of the network. -/
def State.takePacket (s : State) : Option (Packet × State) :=
  (Table.get? s.packets s.arg.a).map (fun k => (k, s.dropPacket s.arg.a))

/-- The lowest enabled virtual function of a partition on port `n` that sends (R406). -/
def State.shipVf (s : State) (n sp : Nat) : Option Nat :=
  (List.range 16).find? (fun v => let f := (s.port n).vf v; f.en && f.part == sp && !f.dirIn)

/-- A message or shipment reaches a port: it is queued on its virtual function, or refused (R404, R406). -/
def State.portMessage (s : State) (k : Packet) (n : Nat) : State :=
  match k.body with
  | .message v lcn h x =>
    let f := (s.port n).vf v
    if v < 16 && f.en && f.part == k.sp && !f.dirIn && f.psz == x.size then s.queueData n v (.message v lcn h x) k.payer
    else s.sendTap n lcn 1 (.nack h false)
  | .ship lcn core slot b tags =>
    match s.shipVf n k.sp with
    | some v => s.queueData n v (.ship v lcn core slot b tags) k.payer
    | none => s.sendTap n k.srcLcn 1 (.shipReply core slot false)
  | .shipReply core slot ok => s.queueControl n (.shipReply k.sp core slot ok)
  | _ => s

/-- MESSAGE_ARRIVAL (R194, R195, R199, R272, R404): a message or offer reaches an end of a lane or an optical port. -/
def execMessageArrival (s : State) : Host.Outcome State Fault Refusal :=
  .next (match s.takePacket with
    | none => s
    | some (k, s) =>
      match k.dst, k.body with
      | .lane _, .message h lcn e x => s.laneMessage k.phys h lcn e x
      | .port n, _ => s.portMessage k n
      | _, _ => s)

/-- The host function has had its message taken or refused: the pan is returned, or the host keeps it (R411, R413). -/
def State.hostAnswer (s : State) (sp : Nat) (taken : Bool) : State :=
  s.modPart sp (fun x =>
    if x.hostFn.pst = 1 then
      { x with hostFn := { x.hostFn with pst := if taken then 2 else 3, held := if taken then x.hostFn.held.drop 1 else x.hostFn.held } }
    else x)

/-- ACKNOWLEDGEMENT_ARRIVAL (R195, R273, R284, R404, R413): at a lane, end 64 is the record that the core delivers; at a
head, end 64 is its record and any other a notice's queue; at a port it goes on over the circuit. -/
def execAcknowledgementArrival (s : State) : Host.Outcome State Fault Refusal :=
  .next (match s.takePacket with
    | none => s
    | some (k, s) =>
      match k.body, k.dst with
      | .ack h, .lane _ => if h = 64 then s.recordAck k.phys else s.laneAck k.phys h
      | .ack _, .head => s.headRecordAck k.sp
      | .noticeAnswer q h w _, .head => s.noticeAck k.sp q k.srcLcn h w
      | .ack v, .port n => s.queueControl n (.ack v)
      | .ack _, .host => s.hostAnswer k.sp true
      | _, _ => s)

/-- RELEASE_ARRIVAL (R199, R201): the pull of a bulk offer is complete, and its sender goes on. -/
def execReleaseArrival (s : State) : Host.Outcome State Fault Refusal :=
  .next (match s.takePacket with
    | none => s
    | some (k, s) =>
      match k.body, k.dst with
      | .release h, .lane _ => s.laneAck k.phys h
      | _, _ => s)

/-- NACK_ARRIVAL (R195, R273, R284, R367, R404, R413). -/
def execNackArrival (s : State) : Host.Outcome State Fault Refusal :=
  .next (match s.takePacket with
    | none => s
    | some (k, s) =>
      match k.body, k.dst with
      | .nack h absent, .lane _ => if h = 64 then s.recordNack k.phys else s.laneNack k.phys h absent
      | .nack _ _, .head => s.headRecordNack k.sp
      | .noticeAnswer q h w _, .head => s.noticeNack k.sp q k.srcLcn h w
      | .nack v _, .port n => s.queueControl n (.nack v)
      | .nack _ _, .host => s.hostAnswer k.sp false
      | _, _ => s)

end Sys2Proof.Machine
end

