-- ==== Sys2Proof/Machine/Migrate.lean ====
section
/-! DEFINITION. Moving a strand to another panel: `mig`, the record's arrival, and its accept or refusal (R220, R406). -/

namespace Sys2Proof.Machine

/-- The lowest general register that may not leave the panel: a tagged one of KIND 0xA, or of a kind other than 0x1 and
0x7 without G (R220). -/
def Strand.stayingReg (x : Strand) : Option (BitVec 5) :=
  ((List.range 32).map (BitVec.ofNat 5)).find? (fun i =>
    let r := x.reg i
    r.tag && (r.kind == 0xA || (r.kind != 1 && r.kind != 7 && !r.has 11)))

/-- The record of the executing strand as it ships: it stands past the `mig` (R220, R372). -/
def State.shipRecord (s : State) : List Granule :=
  ({ s.me.past s.cur.len with wait := .ready } : Strand).toRecord s.myCore.ends (s.myCore.cseq.getD s.cur.slot 0#64)

/-- The granules of a record that are tagged. -/
def granuleTags (g : List Granule) : NatSet := (g.zipIdx.filter (fun e => e.1.2)).map (·.2)

/-- The granules of a shipped record. -/
def shippedGranules (b : List Byte) (tags : NatSet) : List Granule :=
  (List.range (b.length / 16)).map (fun i => ((b.drop (16 * i)).take 16, NatSet.has tags i))

/-- mig (R220, R406): the record leaves for the port, and the strand waits for its accept or refusal. Of several bound streams
the trap names the lowest register, the model's choice (R183, log entry 118). -/
def execMig (g : BitVec 3) (a : BitVec 5) (s : State) : Host.Outcome State Fault Refusal :=
  s.act g (fun s => do
    let w := s.me.val a
    match s.myCore.ends.find? (fun e => e.2.boundTo s.cur.slot) with
    | some e => .error (trapChannel e.1 7)
    | none =>
      need (s.me.streams == []) (trapStream (((s.me.streams.head?).map (·.1)).getD 0) 6)
      need (w.extractLsb' 26 38 == 0#38) (trapPermission w)
      match s.me.stayingReg, s.me.linearReg with
      | some i, _ => .error (trapPermission (regNo i))
      | none, some i => .error (trapLinearity (regNo i))
      | none, none =>
        s.fenceFirst (fun s =>
          let r := s.shipRecord
          let b := granuleBytes r
          let lcn := (w.extractLsb' 0 19).toNat
          .ok ((s.sendFrom s.cur.core false (.port (w.extractLsb' 19 7).toNat) (b.length / 32)
            (.ship lcn s.cur.core s.cur.slot b (granuleTags r)) 0).waitNext (.mig w))))

/-- MIG_RECORD_ARRIVAL (R220, R406): the strand resumes in the lowest empty slot, or is refused where none is empty. Its
core's job goes on with it (R292). -/
def execMigRecordArrival (s : State) : Host.Outcome State Fault Refusal :=
  let pkt := s.arg.a
  .next (match Table.get? s.packets pkt with
    | none => s
    | some q =>
      let s := s.dropPacket pkt
      match q.body with
      | .ship _ core slot b tags =>
        let p := q.phys
        let port := Dest.port (q.srcLcn - 0x7F100)
        match (List.range 8).find? (fun k => !s.occupied p k) with
        | none => s.sendFrom p false port 1 (.shipReply core slot false) 0
        | some k =>
          let job := (s.core p).job
          let range := match s.jobOf p job with
            | some (_, j) => jobRange j.record
            | none => (0, 2 ^ 64)
          let x := (strandOf (shippedGranules b tags) job range.1 range.2 0).1
          ((s.startStrand p k x 1).rejoin p).sendFrom p false port 1 (.shipReply core slot true) 0
      | _ => s)

/-- The strand that a reply to a shipment is for still waits for it. -/
def State.migWaits (s : State) (pkt : Nat) : Option (Nat × Nat × Word) :=
  match Table.get? s.packets pkt with
  | some q =>
    match q.body with
    | .shipReply _ k _ =>
      match (s.core q.phys).slots.get? k with
      | some x =>
        match x.wait with
        | .mig w => some (q.phys, k, w)
        | _ => none
      | none => none
    | _ => none
  | none => none

/-- MIG_ACCEPT (R406): the slot empties. -/
def execMigAccept (s : State) : Host.Outcome State Fault Refusal :=
  let t := s.dropPacket s.arg.a
  .next (match s.migWaits s.arg.a with
    | some (p, k, _) => (t.shippedSlot p k).finishCheck p
    | none => t)

/-- MIG_REFUSAL (R220, R367): the strand takes the channel-NACK trap at its `mig`, with the word that named its
target. -/
def execMigRefusal (s : State) : Host.Outcome State Fault Refusal :=
  let t := s.dropPacket s.arg.a
  .next (match s.migWaits s.arg.a with
    | some (p, k, w) => t.trapWait p k (trapNack w)
    | none => t)

end Sys2Proof.Machine
end

