-- ==== Sys2Proof/Machine/PanOps.lean ====
section
/-! DEFINITION. The pan-table operations: `cfrz`, `pmint`, `seal` and the holder update at the core, what the slices do
with their requests, and the replies (R117, R153, R154, R197, R227, R228, R262, R305, R314). -/

namespace Sys2Proof.Machine

/-! ## At the core -/

/-- One request to each slice of the set, one per cycle from now; the strand waits for the last reply (R314). -/
def State.startTable (s : State) (op : TableOp) (set : List Nat) (req : TableReq) : State :=
  let (id, s) := s.fresh
  let s := s.modMyCore (fun c => { c with tableOps := c.tableOps.set id { op with left := set.length } })
  (set.zipIdx.foldl (fun s e => s.sendFrom s.cur.core false (.slice e.1) 1 (.table s.cur.core id req) e.2) s).waitNext
    (.table id)

/-- A pan-table operation of the executing strand. -/
def State.tableOp (s : State) (kind : Nat) (d a : BitVec 5) (result : CReg) : TableOp :=
  { slot := s.cur.slot, left := 0, refused := none, kind := kind, d := d, a := a, result := result, h := 0, entered := [] }

/-- What a completed operation writes: 0 `cfrz`, 1 `pmint`, 2 and 3 `seal` of a contributor and of a master. -/
def Strand.tableDone (x : Strand) (op : TableOp) : Strand :=
  match op.kind with
  | 0 => (if op.a = op.d then x else x.setReg op.a CReg.zero).setReg op.d op.result
  | 1 => x.setReg op.d op.result
  | 2 => x.setReg op.a CReg.zero
  | _ => x.setReg op.a op.result

/-- The frozen capability of an exclusive one: L, X, LC and G stay (R117). -/
def freezeReg (r : CReg) : CReg := { r with mt := setPerm (setKind r.mt 3) (r.perm &&& 0x80D#12) }

/-- cfrz (R117); during replay no request is sent (R384). -/
def execCfrz (g : BitVec 3) (d a : BitVec 5) (s : State) : Host.Outcome State Fault Refusal :=
  s.act g (fun s => do
    let r := s.me.reg a
    need (r.tag && r.kind == 2) (trapTag (regNo a))
    need (r.has 5) (trapPermission (regNo a))
    need (d != 0#5) (trapLinearity (regNo a))
    if d ≠ a then s.writable d
    let base := r.bounds.1.toNat
    need (s.sliceOf s.mySp base).isSome (trapTranslation (BitVec.ofNat 64 base))
    s.fenceFirst (fun s =>
      let op := s.tableOp 0 d a (freezeReg r)
      .ok (if s.replaying then (s.modMe (fun x => x.tableDone op)).advance
        else s.startTable op (s.sliceSet s.mySp base) (.freeze base r.bounds.2.toNat))))

/-- A mint record (R227). -/
structure MintRecord where
  va : Nat
  size : Nat
  kind : Nat
  fmt : Nat
  home : Nat
  ncon : Nat
  perm : BitVec 12
  rest : Nat
  deriving DecidableEq, Repr

/-- The fields of the 32 bytes. -/
def mintRecord (b : List Byte) : MintRecord :=
  let f (o n : Nat) : Nat := bytesNat ((b.drop o).take n)
  { va := f 0 8, size := f 8 8, kind := f 16 1, fmt := f 17 1, home := f 18 2, ncon := f 20 4
    perm := BitVec.ofNat 12 (f 24 2), rest := f 26 6 }

/-- The permissions a kind may carry; none for a kind that `pmint` does not take (R228). -/
def mintMask (kind : Nat) : Option (BitVec 12) :=
  match kind with
  | 0x2 => some 0x83B#12
  | 0x4 => some 0x840#12
  | 0x5 => some 0x860#12
  | 0x9 => some 0x01B#12
  | 0xB => some 0x803#12
  | _ => none

/-- Does the record keep to R227, HOME naming the placement of VA (R302)? -/
def MintRecord.sound (m : MintRecord) : Bool :=
  (mintMask m.kind).isSome && decide (m.va % 2 ^ 21 = 0) && decide (m.size % 2 ^ 21 = 0) && decide (2 ^ 21 ≤ m.size) &&
    decide (m.va + m.size ≤ 2 ^ 48) && m.rest == 0 && (if m.kind = 5 then decide (m.fmt ≤ 3) else m.fmt == 0) &&
    (if m.kind = 5 then decide (1 ≤ m.ncon) && decide (m.ncon ≤ 0xFFFFFF) else m.ncon == 0) &&
    (m.kind == 4 || m.kind == 0xB ||
      (if isHomed m.va then m.home == homeSlice m.va && decide (m.home < 1536) else m.home == 0x8000))

/-- Does a slice belong to a partition's home units (R303, R357)? -/
def Partition.homeSliceOf (x : Partition) (n : Nat) : Bool :=
  decide (x.base ≤ unitOf (sliceX n)) && decide (unitOf (sliceX n) < x.base + x.home)

/-- pmint (R227, R228): a homed VA that names a slice outside the partition's units or of a lent unit is refused at
issue, whatever the kind; that a lent unit's is, before the bounds trap, and the tval of a missing L are log entries 121 and
120. -/
def execPmint (g : BitVec 3) (d a : BitVec 5) (s : State) : Host.Outcome State Fault Refusal :=
  s.act g (fun s => do
    s.checkMode 1
    let r := s.me.reg a
    let ea : Int := r.val.toNat
    need (r.tag && r.kind == 1) (trapTag (regNo a))
    need (r.has 0) (trapPermission r.val)
    checkBounds r ea 32
    s.writable d
    checkAlign ea 16
    let m := mintRecord (s.spBytes ea 32)
    let va : Word := BitVec.ofNat 64 m.va
    need m.sound (trapPermission r.val)
    need ((m.kind == 0xB && !isHomed m.va) || (s.sliceOf s.mySp m.va).isSome) (trapTranslation va)
    need (!isHomed m.va || (s.part s.mySp).homeSliceOf (homeSlice m.va)) (trapPermission va)
    let perm := m.perm &&& (mintMask m.kind).getD 0#12
    match narrowMeta (setPerm (setKind 0#64 m.kind) perm) m.va m.size with
    | none => .error (trapBounds va)
    | some w =>
      let op := s.tableOp 1 d a { tag := true, val := va, mt := w }
      if s.replaying || m.kind == 0xB then return (s.modMe (fun x => x.tableDone op)).advance
      else if m.kind = 4 then
        return s.startTable op ((s.sliceOf s.mySp m.va).toList) (.check m.va m.size)
      else
        return s.startTable op (s.sliceSet s.mySp m.va) (.mint m.va m.size m.kind m.fmt m.ncon s.myCore.lcn))

/-- The capability that a master's `seal` leaves (R154): exclusive, or frozen with `k` = 1. -/
def sealedReg (r : CReg) (k : BitVec 1) : CReg :=
  let g := r.perm &&& 0x800#12
  { r with mt := setPerm (setKind r.mt (if k = 0#1 then 2 else 3)) ((if k = 0#1 then 0x03B#12 else 0x009#12) ||| g) }

/-- seal (R153, R154). -/
def execSeal (g : BitVec 3) (a : BitVec 5) (k : BitVec 1) (f : BitVec 2) (s : State) :
    Host.Outcome State Fault Refusal :=
  s.act g (fun s => do
    let r := s.me.reg a
    need (r.tag && (r.kind == 4 || r.kind == 5)) (trapTag (regNo a))
    need (if r.kind = 4 then r.has 6 else r.has 5) (trapPermission (regNo a))
    let base := r.bounds.1.toNat
    need (s.sliceOf s.mySp base).isSome (trapTranslation (BitVec.ofNat 64 base))
    s.fenceFirst (fun s =>
      let op := if r.kind = 4 then s.tableOp 2 a a CReg.zero else s.tableOp 3 a a (sealedReg r k)
      let rm := (s.me.fmode.extractLsb' 0 3).toNat
      .ok (if s.replaying then (s.modMe (fun x => x.tableDone op)).advance
        else s.startTable op (s.sliceSet s.mySp base)
          (if r.kind = 4 then .done base else .master base f.toNat (k == 1#1) (if rm = 4 then 0 else rm)))))

/-! ## At the slices -/

/-- A slice answers the pan-table request that stands in packet `id`, `after` cycles from now, and the packet is gone. -/
def State.tableAnswer (s : State) (id : Nat) (refused : Option Trap) (after : Nat) : State :=
  match Table.get? s.packets id with
  | some k =>
    match k.dst, k.body with
    | .slice n, .table _ op _ => (s.dropPacket id).sendSlice n false k.sp k.srcLcn 1 (.tableReply op n refused) after
    | _, _ => s.dropPacket id
  | none => s

/-- A pan-table request at its slice: the packet, the slice and what is asked. -/
def State.tableRequest (s : State) (id : Nat) : Option (Packet × Nat × TableReq) :=
  match Table.get? s.packets id with
  | some k =>
    match k.dst, k.body with
    | .slice n, .table _ _ q => some (k, n, q)
    | _, _ => none
  | none => none

/-- A pan-table request acts at its slice; the slice of a channel that failed training refuses every request but a holder
update, which is never refused, with the translation trap (R262, R314, R424). `after` is how far away its reply is. -/
def State.atSlice (s : State) (id after : Nat) (f : Packet → Nat → TableReq → State) : State :=
  match s.tableRequest id with
  | some (k, n, q) =>
    if (s.slice n).failed then s.tableAnswer id (some (trapTranslation (BitVec.ofNat 64 q.va))) after else f k n q
  | none => s.dropPacket id

/-- HOLDER_UPDATE (R197, R262): the table slice names the new holder; without an entry it changes nothing. It is never
refused. -/
def execHolderUpdate (s : State) : Host.Outcome State Fault Refusal :=
  let id := s.arg.a
  .next (match s.tableRequest id with
    | some (_, n, .holder va lcn) =>
      let s := match (s.slice n).panAt va with
        | some (i, _) => s.modPan n i (fun e => { e with holder := lcn })
        | none => s
      s.tableAnswer id none 0
    | _ => s.dropPacket id)

/-- FREEZE_REQUEST (R117): the capability's range must be the pan's extent. An entry of a pan that is no longer exclusive
is refused as a missing one is, with the permission trap (log 94); the writes of reservations already performed are part of the
frozen contents (R323). -/
def execFreezeRequest (s : State) : Host.Outcome State Fault Refusal :=
  let id := s.arg.a
  .next (s.atSlice id 0 (fun _ n q =>
    match q with
    | .freeze base top =>
      match (s.slice n).panAt base with
      | none => s.tableAnswer id (some (trapPermission (BitVec.ofNat 64 base))) 0
      | some (i, e) =>
        if e.basep * 2 ^ 21 ≠ base ∨ (e.basep + e.pages) * 2 ^ 21 ≠ top then
          s.tableAnswer id (some (trapBounds (BitVec.ofNat 64 base))) 0
        else if e.kind ≠ 2 then s.tableAnswer id (some (trapPermission (BitVec.ofNat 64 base))) 0
        else ((s.flushHeld n e.basep).modPan n i (fun e => { e with kind := 3 })).tableAnswer id none 0
    | _ => s.dropPacket id))

/-- A master seal that has been asked for begins when DONE reaches NCON (R149, R154). -/
def State.sealCheck (s : State) (n i : Nat) : State :=
  match Table.get? (s.slice n).pans i with
  | some e =>
    match e.sealing with
    | some pkt => if e.done = e.ncon then s.post (s.sliceDom n) 0 .sealBegin (args n (e.basep * 2 ^ 21) pkt) else s
    | none => s
  | none => s

/-- DONE_MESSAGE (R153): one contributor more is done; beyond the count it is refused. -/
def execDoneMessage (s : State) : Host.Outcome State Fault Refusal :=
  let id := s.arg.a
  .next (s.atSlice id 0 (fun _ n q =>
    match q with
    | .done va =>
      match (s.slice n).panAt va with
      | some (i, e) =>
        if e.kind ≠ 5 ∨ e.ncon ≤ e.done then s.tableAnswer id (some (trapPermission (BitVec.ofNat 64 va))) 0
        else ((s.modPan n i (fun e => { e with done := e.done + 1 })).tableAnswer id none 0).sealCheck n i
      | none => s.tableAnswer id (some (trapPermission (BitVec.ofNat 64 va))) 0
    | _ => s.dropPacket id))

/-- Does a homed pan meet a homed pan of another slice of its partition, one of them crossing a multiple of 64 GiB (R300, log
entry 116)? -/
def State.meetsHomed (s : State) (n sp va pages : Nat) : Bool :=
  isHomed va && (s.part sp).slices.any (fun m => m != n &&
    ((s.slice m).pans.any (fun e => e.2.overlaps (va / 2 ^ 21) pages) ||
      (s.slice m).mints.any (fun e => e.pan.overlaps (va / 2 ^ 21) pages)))

/-- The refusal of a mint at a slice: a lent unit's slice, an unmapped page, an overlap, no free entry (R228, R305,
R357). -/
def State.mintRefusal (s : State) (n sp va size : Nat) : Option Trap :=
  let x := s.slice n
  let pages := size / 2 ^ 21
  let w : Word := BitVec.ofNat 64 va
  if !(s.part sp).homeSliceOf n then some (trapPermission w)
  else
    match (List.range pages).find? (fun i => (s.walkPage n sp (va + i * 2 ^ 21)).2.isNone) with
    | some i => some (trapTranslation (BitVec.ofNat 64 (va + i * 2 ^ 21)))
    | none =>
      if x.pans.any (fun e => e.2.overlaps (va / 2 ^ 21) pages) ||
          x.mints.any (fun m => m.pan.overlaps (va / 2 ^ 21) pages) || s.meetsHomed n sp va pages then some (trapPermission w)
      else if x.freePan.isNone then some (trapPermission w)
      else none

/-- Charge the HBM meter B_k at slice `n` for zeroing or converting a pan (R314, R432). -/
def State.chargeTable (s : State) (k : Packet) (n : Nat) (e : PanEntry) : State :=
  s.chargeOwner k.payer .hbm (s.bytesOn n k.sp e)

/-- The operation that a pan-table request is part of. -/
def Packet.tableId (k : Packet) : Nat :=
  match k.body with
  | .table _ op _ => op
  | _ => 0

/-- PAN_MINT_REQUEST (R228, R305): the slice takes an entry for the pan, which it enters when every slice of the set has
accepted; the rounds that zero an accumulate pan are claimed before the reply (R314). -/
def execPanMintRequest (s : State) : Host.Outcome State Fault Refusal :=
  let id := s.arg.a
  .next (s.atSlice id 0 (fun k n q =>
    match q with
    | .mint va size kind fmt ncon holder =>
      match s.mintRefusal n k.sp va size with
      | some t => s.tableAnswer id (some t) 0
      | none =>
        let e : PanEntry :=
          { basep := va / 2 ^ 21, pages := size / 2 ^ 21, kind := kind, fmt := fmt, tbl := s.sliceOf k.sp va == some n
            isSealed := false, holder := holder, ncon := ncon, done := 0, sealing := none }
        let m : Mint := { op := k.tableId, entry := (s.slice n).freePan.getD 0, pan := e }
        let s := s.modSlice n (fun x => { x with mints := x.mints ++ [m] })
        if kind = 5 then (s.chargeTable k n e).claim n va (s.bytesOn n k.sp e) 0 .panZeroingDone (args n va id)
        else s.tableAnswer id none 0
    | _ => s.dropPacket id))

/-- PAN_ZEROING_DONE (R228, R314): the rounds that zero the pan are over and the slice accepts. -/
def execPanZeroingDone (s : State) : Host.Outcome State Fault Refusal :=
  .next ((s.unclaim s.arg.a s.arg.b).tableAnswer s.arg.c none 0)

/-- CONTRIBUTOR_MINT_CHECK (R228): VA must start an accumulate pan of exactly SIZE that is not sealed. -/
def execContributorMintCheck (s : State) : Host.Outcome State Fault Refusal :=
  let id := s.arg.a
  .next (s.atSlice id 0 (fun _ n q =>
    match q with
    | .check va size =>
      let ok := match (s.slice n).panAt va with
        | some (_, e) => e.basep * 2 ^ 21 == va && e.pages * 2 ^ 21 == size && e.kind == 5 && !e.isSealed
        | none => false
      s.tableAnswer id (if ok then none else some (trapPermission (BitVec.ofNat 64 va))) 0
    | _ => s.dropPacket id))

/-- MASTER_SEAL_REQUEST (R154, R305): refused with a format that the pan does not accept; else the seal begins when
DONE equals NCON. -/
def execMasterSealRequest (s : State) : Host.Outcome State Fault Refusal :=
  let id := s.arg.a
  .next (s.atSlice id 6 (fun _ n q =>
    match q with
    | .master va f _ _ =>
      match (s.slice n).panAt va with
      | some (i, e) =>
        if e.kind ≠ 5 ∨ e.isSealed ∨ (e.fmt = 3 ∧ f ≠ 2) ∨ (e.fmt = 2 ∧ f = 2 ∧ !isHomed va) then
          s.tableAnswer id (some (trapPermission (BitVec.ofNat 64 va))) 6
        else (s.modPan n i (fun e => { e with sealing := some id })).sealCheck n i
      | none => s.tableAnswer id (some (trapPermission (BitVec.ofNat 64 va))) 6
    | _ => s.dropPacket id))

/-- SEAL_BEGIN (R149, R314, R321): from now on contributions are refused; the conversion rounds are claimed now, or once
the contributions that the slice has let in are placed. A slice that holds no byte of the pan replies 6 cycles later. -/
def execSealBegin (s : State) : Host.Outcome State Fault Refusal :=
  let n := s.arg.a
  let va := s.arg.b
  let id := s.arg.c
  .next (match s.tableRequest id, (s.slice n).panAt va with
    | some (k, _, _), some (i, e) =>
      let s' := s.modPan n i (fun e => { e with isSealed := true })
      if (s.slice n).contributing e.basep then s'
      else (s'.chargeTable k n e).claim n va (s.bytesOn n k.sp e) 6 .panConversionDone (args n va id)
    | _, _ => s)

/-- PAN_CONVERSION_DONE (R154, R306, R321): the contributions performed are written and the elements stand converted, the kind changes, the marks are freed and the reply
leaves. -/
def execPanConversionDone (s : State) : Host.Outcome State Fault Refusal :=
  let n := s.arg.a
  let va := s.arg.b
  let id := s.arg.c
  .next (match s.tableRequest id, (s.slice n).panAt va with
    | some (k, _, .master _ f frozen mode), some (i, e) =>
      let s := (s.flushHeld n e.basep).convert n k.sp e f mode
      let s := s.modPan n i (fun e => { e with kind := if frozen then 3 else 2, fmt := 0, sealing := none })
      let s := s.modSlice n (fun x => { x with marks := x.marks.filter (fun m => m.1 != e.basep) })
      (s.unclaim n va).tableAnswer id none 0
    | _, _ => (s.unclaim n va).tableAnswer id none 0)

/-! ## The replies -/

/-- A `pmint` that every slice has accepted enters its pan at each of them; a refused one makes no entry at any slice
(R228, R305). -/
def State.settleMint (s : State) (p id : Nat) (op : TableOp) : State :=
  op.entered.foldl (fun s n =>
    if op.refused.isNone then s.enterMint n ((s.partOf p).getD 31) id else s.modSlice n (fun x => x.dropMint id)) s

/-- The last reply completes the operation: the strand goes on, or takes the refusal's trap (R314). -/
def State.finishTable (s : State) (p id : Nat) (op : TableOp) : State :=
  let s := (s.modCore p (fun c => { c with tableOps := c.tableOps.erase id })).settleMint p id op
  let x := s.strand p op.slot
  if s.occupied p op.slot && x.wait == .table id then
    match op.refused with
    | none => (s.modStrand p op.slot (fun x => x.tableDone op)).wake p op.slot
    | some t => s.trapAt p op.slot t x.waitPc x.waitRep (s.countCore p + 1)
  else s

/-- PAN_TABLE_REPLY (R314). Of several refusals the first to arrive names the trap, the model's choice (R228, log entry 119). -/
def execPanTableReply (s : State) : Host.Outcome State Fault Refusal :=
  let pkt := s.arg.a
  .next (match Table.get? s.packets pkt with
    | some k =>
      let s := s.dropPacket pkt
      match k.body with
      | .tableReply id n refused =>
        match Table.get? (s.core k.phys).tableOps id with
        | none => s.modSlice n (fun x => x.dropMint id)
        | some op =>
          let op := { op with
            left := op.left - 1, refused := if op.refused.isSome then op.refused else refused
            entered := if refused.isNone then n :: op.entered else op.entered }
          if op.left = 0 then s.finishTable k.phys id op
          else s.modCore k.phys (fun c => { c with tableOps := c.tableOps.set id op })
      | _ => s
    | none => s)

/-- HOLDER_UPDATE_REPLY (R197): C[D] is written and the acknowledgement leaves in this cycle. -/
def execHolderUpdateReply (s : State) : Host.Outcome State Fault Refusal :=
  let pkt := s.arg.a
  .next (match Table.get? s.packets pkt with
    | some k =>
      let s := s.dropPacket pkt
      let p := k.phys
      match k.body with
      | .tableReply id _ _ =>
        match Table.get? (s.core p).tableOps id with
        | none => s
        | some op =>
          let s := s.modCore p (fun c => { c with tableOps := c.tableOps.erase id })
          if s.occupied p op.slot && (s.strand p op.slot).wait == .holder op.h then
            ((s.modStrand p op.slot (fun x => x.setReg op.d op.result)).takeMessage p op.h).wake p op.slot
          else s
      | _ => s
    | none => s)

end Sys2Proof.Machine
end

