-- ==== Sys2Proof/Machine/Fence.lean ====
section
/-! DEFINITION. What happens when the condition of a fence holds: a fence's strand goes on, and an instruction that performs
the fence.far condition first, or a `ckpt` that waited for another, acts (R143, R145, R187, R217, R219). -/

namespace Sys2Proof.Machine

/-- An instruction that performs the fence.far condition first acts, its strand's far accesses having replied; or a `ckpt`, the
crystal before it being over. -/
def State.actFenced (s : State) : Instr → Host.Outcome State Fault Refusal
  | .snd g a h => execSnd g a h s
  | .snd16 d a => execSnd16 d a s
  | .sndv g a h => execSndv g a h s
  | .bsnd g a h => execBsnd g a h s
  | .cfrz g d a => execCfrz g d a s
  | .seal g a f k => execSeal g a f k s
  | .mxq g d a b e => execMxq g d a b e s
  | .cpq g d a b m => execCpq g d a b m s
  | .mig g a => execMig g a s
  | .ckpt g a => execCkpt g a s
  | .hlt g =>
    match s.refusedRelaxed with
    | some t => .next t
    | none => execHlt g s
  | _ => .next s

/-- The enqueues that wait for an MXE entry look again. -/
def State.queueLooks (s : State) (blk : Nat) : State := if (s.block blk).mxe.waiting = [] then s else s.queueKick blk 0

/-- After a fenced instruction has acted: a strand that does not wait on is ready in the next cycle (R187), the round trip of
a send counts from the cycle in which the send issued (R42, R261), and so does the place of an enqueue, or of a crystal,
among those of its lane (R235, R249). What waited behind an `mxq` for an entry looks again. -/
def State.afterFenced (s : State) (p k since : Nat) : State :=
  let s := s.afterIssue.queueLooks (blockOf p)
  if s.occupied p k then
    match (s.strand p k).wait with
    | .ready => s.modStrand p k (fun x => { x with readyAt := s.countCore p + 1 })
    | .send h => s.setEnd p h { (s.core p).endAt h with sentAt := since }
    | .queue _ => s.modBlock (blockOf p) (fun b => b.enqueuedAt (s.laneOf p) k since)
    | .ckpt => s.modBlock (blockOf p) (fun b => { b with cpe := b.cpe.crystalAt (s.laneOf p) since })
    | _ => s
  else s

/-- FENCE_CONDITION_MET (R145): the strand at a fence becomes ready in the cycle after its condition holds; an instruction
that performs the condition first acts now, and the next instruction issues after it (R187). A refused relaxed access
traps at that next instruction, but at a `hlt` (R143, R217). A core that is being saved acts no more (R375). With the
flag, granules have become empty for a far load's push (R184). -/
def execFenceConditionMet (s : State) : Host.Outcome State Fault Refusal :=
  let p := s.arg.a
  let k := s.arg.b
  let x := s.strand p k
  if s.arg.flag then .next (s.pushLanded p k)
  else if s.occupied p k && s.fenceHolds p k then
    match x.wait.heldInstr with
    | some (len, bits) =>
      if (s.core p).run ≠ .run then .next (s.queueLooks (blockOf p))
      else
        match decodeFetched len bits with
        | none => .next (s.wake p k)
        | some i =>
          let t := { s with cur := { core := p, slot := k, pc := x.pc, len := len, bits := bits, relaxed := false } }
          match (t.modMe (fun y => { y with wait := .ready })).actFenced i with
          | .next u => .next { u.afterFenced p k x.waitStart with cur := s.cur }
          | o => o
    | none => .next (s.wake p k)
  else .next s

end Sys2Proof.Machine
end

