-- ==== Sys2Proof/Machine/Host.lean ====
section
/-! DEFINITION. The host: job records, the pans that it takes, accesses and gives back (R410 to R413). -/

namespace Sys2Proof.Machine

/-- Change a partition's host function. -/
def State.modHost (s : State) (sp : Nat) (f : HostFunction → HostFunction) : State :=
  s.modPart sp (fun x => { x with hostFn := f x.hostFn })

/-- The host function's registers as they are read, by byte offset; PRET and QREC are write-only (R16, R411). -/
def HostFunction.read (f : HostFunction) (off : Nat) : Word :=
  if off = 0x000 then BitVec.ofNat 64 (f.qst % 256 + f.qnum % 16 * 2 ^ 8)
  else if off = 0x008 then BitVec.ofNat 64 (f.pdlcn % 2 ^ 19 + f.pdend % 64 * 2 ^ 19)
  else if off = 0x018 then BitVec.ofNat 64 f.pst
  else 0#64

/-- HOST_RECORD_WRITE (R411, R412): record `x` for queue `b` of partition `a`. A queue with EN = 0 discards it; a full
queue leaves it at the link. After a failed image the host function does not answer (R424). -/
def execHostRecordWrite (s : State) : Host.Outcome State Fault Refusal :=
  let o := s.arg
  let sp := o.a
  .next (if s.dead || !s.partActive sp then s else s.offerHost sp (o.b % 16) o.x)

/-- HOST_PAN_TAKE (R262, R413): the host function takes an exclusive-pan capability sent to its end 0, and the pan's
table slice names it as the holder; any other message is refused. -/
def execHostPanTake (s : State) : Host.Outcome State Fault Refusal :=
  .next (match Table.get? s.packets s.arg.a with
    | none => s
    | some k =>
      let s := s.dropPacket s.arg.a
      match k.body with
      | .message 0 lcn h (.word r) =>
        if r.tag && r.kind == 2 then
          let va := r.bounds.1.toNat
          let s := match s.tableSlice k.sp va with
            | some n =>
              match (s.slice n).panAt va with
              | some (i, _) => s.modPan n i (fun e => { e with holder := hostLcn })
              | none => s
            | none => s
          let s := s.modHost k.sp (fun f => { f with held := f.held ++ [r] })
          s.sendAt k.x k.y k.sp hostLcn (.lane lcn) 1 (.ack h) 0
        else s.sendAt k.x k.y k.sp hostLcn (.lane lcn) 1 (.nack h false) 0
      | .message _ lcn h _ => s.sendAt k.x k.y k.sp hostLcn (.lane lcn) 1 (.nack h false) 0
      | _ => s)

/-- HOST_PAN_ACCESS (R311, R413): the host reads `c` bytes at address `b` of partition `a`, or with the flag writes them
from `x`, over the host spine; only while the pan's table slice records the host function as its holder. A write waits
until the writes to its pan that the link received before it are performed. -/
def execHostPanAccess (s : State) : Host.Outcome State Fault Refusal :=
  let o := s.arg
  .next (match s.sliceOf o.a o.b, s.tableEntry o.a o.b with
    | some n, some (_, _, e) =>
      if e.holder ≠ hostLcn then s
      else
        if s.hostBehind o e then s.postDelayed (s.sliceDom n) .hostPanAccess o
        else
          s.atLink n true (s.edgeAtLink n) .hostPanAccess (fun s => s.enterSlice n
            { id := 0, who := .host, lcn := hostLcn, slot := 0, part := o.a, va := o.b
              kind := if o.flag then .write ((vecBytes o.x).take o.c) false else .read o.c false false
              arrived := 0, walking := false, frame := 0, host := true, unchecked := false })
    | _, _ => s)

/-- The extent of the pan that a capability names a part of (R113, R305); the capability's own bounds where no entry covers
it. -/
def State.panOf (s : State) (sp : Nat) (r : CReg) : Nat × Nat :=
  match s.tableEntry sp r.bounds.1.toNat with
  | some (_, _, e) => (e.basep * 2 ^ 21, (e.basep + e.pages) * 2 ^ 21)
  | none => (r.bounds.1.toNat, r.bounds.2.toNat)

/-- Has the host an access to the pan of a capability still under way: at a slice, in this cycle, or put off? Its writes
all precede the pan's return (R413). -/
def State.hostBusy (s : State) (sp : Nat) (r : CReg) : Bool :=
  let (lo, hi) := s.panOf sp r
  s.hostAtSlice sp lo hi false ||
    s.agenda.any (fun e => e.event == .hostPanAccess && e.arg.a == sp && (e.time == s.now || e.phase == delayedPhase) &&
      decide (lo ≤ e.arg.b) && decide (e.arg.b < hi))

/-- PRET (R411, R413): the pan that starts at address `w`, or the part of one that does, goes back, unchanged, to (PDLCN, PDEND) of partition `a`. An
address that no pan held by the host starts at, or a pan on its way, changes nothing. -/
def execPret (s : State) : Host.Outcome State Fault Refusal :=
  let sp := s.arg.a
  let va := s.arg.w.toNat % 2 ^ 48
  let f := (s.part sp).hostFn
  .next (match f.held.find? (fun r => r.bounds.1.toNat == va || (s.panOf sp r).1 == va) with
    | none => s
    | some r =>
      if f.pst = 1 then s
      else if s.hostBusy sp r then s.post (some sp) 1 .pret s.arg
      else
        let u := unitOf (coordX f.pdlcn)
        let s := s.modHost sp (fun h => { h with pst := 1, held := r :: h.held.filter (· != r) })
        if decide (f.pdlcn < coreCount) && s.unitPart u == some sp then
          s.sendAt (tapX u) 0 sp hostLcn (.lane f.pdlcn) 1 (.message f.pdend hostLcn 0 (.word r)) 0
        else s.modHost sp (fun h => { h with pst := 3 }))

end Sys2Proof.Machine
end

