-- ==== Sys2Proof/Machine/Partition.lean ====
section
/-! DEFINITION. Partitions: scrubbing, reset, configuration, lending and recall of units, page tables and the removal of
pans (R301, R307, R308, R356 to R361, R379). -/

namespace Sys2Proof.Machine

/-! ## Scrubbing -/

/-- The cycles within which a scrub completes (R361). -/
def scrubTime : Nat := 2112

/-- A scrubbed core (R361): `lcn`, `pcid`, the read-only registers of R40 and the sequence numbers of its slots stay; a
contained core stays contained. -/
def Core.scrub (c : Core) (fresh : Core) : Core :=
  { fresh with
    lcn := c.lcn, pcid := c.pcid, grank := c.grank, gsize := c.gsize, gorg := c.gorg, clat := c.clat
    clatOf := c.clatOf, cseq := c.cseq, phase := c.phase, tree := c.tree
    run := if c.run = .contained then .contained else .run }

/-- A scrubbed block: its engines are empty, its accumulators +0 and its instruction cache empty (R361, R437). -/
def Block.scrub (b : Block) : Block :=
  let b := (List.range 8).foldl (fun b l => b.discardLane l) b
  { b with
    icache := [], fetches := []
    mxe := { b.mxe with lanes := [], writes := [], waiting := [], markers := [] }
    cpe := { b.cpe with waiting := [], work := [], current := none } }

/-- No slice enters the pan of a `pmint` whose core is scrubbed (R305, R361). -/
def dropMints (t : Table Slice) (ops : Table TableOp) : Table Slice :=
  ops.foldl (fun t o => t.map (fun e => (e.1, e.2.dropMint o.1))) t

/-- Scrub every core of the units `us` (R361). -/
def State.scrub (s : State) (us : List Nat) : State :=
  let here (p : Nat) : Bool := us.contains (unitOf (coordX p))
  { s with
    cores := s.cores.map (fun e => if here e.1 then (e.1, e.2.scrub (Core.reset e.1)) else e)
    blocks := s.blocks.map (fun e => if here (8 * e.1) then (e.1, e.2.scrub) else e)
    slices := s.cores.foldl (fun t e => if here e.1 then dropMints t e.2.tableOps else t) s.slices
    agenda := s.agenda.filter (fun d => !(d.event == .logWrite && here d.arg.a))
    parked := s.parked.filter (fun d => !(d.event == .logWrite && here d.arg.a)) }

/-- The units of a partition, home and lent (R357). -/
def Partition.units (x : Partition) : List Nat := (List.range (x.home + x.lent)).map (· + x.base)

/-! ## Reset -/

/-- The events that a partition's reset leaves on the agenda: those of the supervisor, the hypervisor and the clock, and
pattern tests. -/
def keptAtReset : Instr → Bool
  | .patternTestResult => true
  | .modeChange => true
  | .unitRecall => true
  | .unitLend => true
  | .partitionReset => true
  | .partitionConfigWrite => true
  | .pageTableWrite => true
  | .panEntryRemoval => true
  | .qcfgWrite => true
  | .hostRecordWrite => true
  | .ppwrWrite => true
  | .uncorrectableSoftError => true
  | .softErrorCorrected => true
  | .coreRetirement => true
  | .debugHalt => true
  | .debugRegisterWrite => true
  | .parentClockStop => true
  | .lostClockReport => true
  | .reroot => true
  | .rerootRelease => true
  | _ => false

/-- A slice of a partition that is reset: no pan, nothing queued, no round claimed but by a pattern test (R301, R360). -/
def Slice.clear (x : Slice) : Slice :=
  { x with
    pans := [], mints := [], marks := [], walks := [], queue := [], placed := [], reserved := [], lines := [], outs := [], held := []
    claims := x.claims.filter (fun c => c.base == testClaim), armed := false }

/-- A port when a partition is reset: nothing of its virtual functions is queued (R360, R405). -/
def Port.clear (p : Port) (sp : Nat) : Port :=
  let mine (v : Nat) : Bool := (p.vf v).part == sp
  let data (i : Item) : Bool :=
    match i with
    | .message v _ _ _ => mine v
    | .ship v _ _ _ _ _ => mine v
    | _ => false
  { p with
    vfs := p.vfs.map (fun e => if e.2.part = sp then (e.1, { e.2 with queue := [], payers := [], sent := 0, out := [] }) else e)
    resend := p.resend.filter (fun i => !data i), unacked := p.unacked - (p.resend.filter data).length
    control := p.control.filter (fun i => !data i &&
      match i with
      | .ack v => !mine v
      | .nack v => !mine v
      | .shipReply sp' _ _ _ => sp' != sp
      | _ => true) }

/-- A partition's head, rake head and queues at their reset state; what the host held of its pans is gone (R360). -/
def Partition.clear (x : Partition) (busy : Nat) : Partition :=
  { x with
    queues := [], vf := [], vtime := 0, jobs := [], busy := busy, passed := 0, late := 0, notices := [], rake := RakeHead.reset
    hostFn := { x.hostFn with pst := 0, held := [] } }

/-- Reset partition `sp` (R360): its slots, ends, packets, pans, barriers, heads, queues and frames, and the scrub of
its cores. A recall that waited for the partition's jobs goes on (R359), and a port whose last unacknowledged frame is gone may
close (R408). -/
def State.resetPart (s : State) (sp : Nat) : State :=
  let x := s.part sp
  let us := x.units
  let busy := s.count (some sp) + scrubTime
  let s : State := s.cores.foldl (fun s e => if us.contains (unitOf (coordX e.1)) then s.meterStop e.1 else s) s
  let keep (d : Due) : Bool := d.dom != some sp || keptAtReset d.event
  let home (n : Nat) : Bool := decide (x.base ≤ unitOf (sliceX n)) && decide (unitOf (sliceX n) < x.base + x.home)
  let s : State := { s with
    packets := s.packets.filter (fun k => k.2.sp != sp), agenda := s.agenda.filter keep, parked := s.parked.filter keep
    slices := s.slices.map (fun e => if home e.1 then (e.1, e.2.clear) else e)
    ports := s.ports.map (fun e => (e.1, e.2.clear sp)) }
  let s := (s.modPart sp (fun x => x.clear busy)).scrub us
  let s := s.slices.foldl (fun (s : State) e => if home e.1 && e.2.testDue then s.armSlice e.1 else s) s
  let s := s.ports.foldl (fun (s : State) e => s.drainCheck e.1) s
  if (s.part sp).recalling ≠ 0 ∧ !s.agenda.any (fun d => d.event == .unitRecall && d.arg.a == sp) then s.post (some sp) 1 .unitRecall { args sp with flag := true } else s

/-! ## Configuration -/

/-- The ranges of units of two partitions meet (R356). -/
def Partition.meets (x y : Partition) : Bool :=
  decide (x.base < y.base + y.home + y.lent) && decide (y.base < x.base + x.home + x.lent)

/-- A configuration word's fields in a partition; LENT is read-only (R356). -/
def Partition.configured (x : Partition) (w : Word) : Partition :=
  let f (i n : Nat) : Nat := (w.extractLsb' i n).toNat
  { x with en := w.getLsbD 0, base := f 1 5, home := f 6 5, evLcn := f 17 19, evEnd := f 36 6, evv := w.getLsbD 42 }

/-- The configuration word as it is read (R356); the boot partition's words read with EN = 0 (R425). -/
def Partition.config (x : Partition) (boot : Bool) : Word :=
  BitVec.ofNat 64 ((if x.en && !boot then 1 else 0) + x.base % 32 * 2 + x.home % 32 * 2 ^ 6 + x.lent % 32 * 2 ^ 11 +
    x.evLcn % 2 ^ 19 * 2 ^ 17 + x.evEnd % 64 * 2 ^ 36 + if x.evv then 2 ^ 42 else 0)

/-- Is a configuration word refused (R356, R431)? -/
def State.configRefused (s : State) (sp : Nat) (w : Word) : Bool :=
  let x := s.part sp
  let y := x.configured w
  let y := if x.en then y else { y with lent := 0 }
  (x.en && (x.base != y.base || x.home != y.home)) ||
    (y.en && (y.home == 0 || decide (24 < y.base + y.home) || (s.sup.alarm && !x.en) ||
      (List.range 20).any (fun i => i != sp && (s.part i).en && (s.part i).meets y)))

/-- A configuration word takes effect (R356, R361): the cores of a partition that comes or goes are scrubbed, and one
that goes loses its lent units. -/
def State.configure (s : State) (sp : Nat) (w : Word) : State :=
  if s.configRefused sp w then s
  else
    let x := s.part sp
    let on := w.getLsbD 0
    let s := if x.en && !on then s.resetPart sp else s
    let s := s.modPart sp (fun y =>
      let y := y.configured w
      if x.en then (if on then y else { y with lent := 0, recalling := 0 }) else { y with lent := 0, recalling := 0 })
    let s := if on && !x.en then
        (s.scrub (s.part sp).units).modPart sp (fun y => { y with busy := s.count (some sp) + scrubTime })
      else s
    if on && w.getLsbD 16 then s.resetPart sp else s

/-- PARTITION_CONFIG_WRITE (R356): word `w` of partition `a`; held until step 7 of the bring-up (R425). -/
def execPartitionConfigWrite (s : State) : Host.Outcome State Fault Refusal :=
  let o := s.arg
  .next (if 20 ≤ o.a then s
    else if s.sup.boot then { s with sup := { s.sup with heldWords := s.sup.heldWords ++ [(o.a, o.w)] } }
    else s.configure o.a o.w)

/-- Step 7 of the bring-up (R424, R425): the boot partition is reset, its page table is discarded, and the held
configuration words take effect. -/
def State.endBoot (s : State) : State :=
  let s := s.resetPart 0
  let words := s.sup.heldWords
  let s := { s with
    sup := { s.sup with boot := false, stepDone := 7, heldWords := [] }
    slices := s.slices.map (fun e => (e.1, { e.2 with tlb := [] })) }
  words.foldl (fun s e => s.configure e.1 e.2) s

/-- PARTITION_RESET (R360, R425): partition `a`; while the boot partition runs, its reset begins step 7. -/
def execPartitionReset (s : State) : Host.Outcome State Fault Refusal :=
  let sp := s.arg.a
  .next (if s.sup.boot then (if sp = 0 ∧ s.sup.stepDone = 6 then s.endBoot else s)
    else if (s.part sp).en then s.resetPart sp else s)

/-! ## Lending and recall -/

/-- The unit directly above a partition's range, if it belongs to none (R359). -/
def State.lendable (s : State) (sp : Nat) : Option Nat :=
  let x := s.part sp
  let u := x.base + x.home + x.lent
  if x.en && x.recalling == 0 && decide (u < 24) && (s.unitPart u).isNone then some u else none

/-- The route tables of a unit's routers become empty (R359). -/
def State.clearRoutes (s : State) (u : Nat) : State :=
  let away (t : Table (Table Word)) : Table (Table Word) := t.filter (fun e => unitOf (e.1 % 768) != u)
  { s with routesC := away s.routesC, routesM := away s.routesM }

/-- UNIT_LEND (R359, R361): the unit above partition `a` is scrubbed; with the flag, the scrub has completed, and the
unit is the partition's. -/
def execUnitLend (s : State) : Host.Outcome State Fault Refusal :=
  let o := s.arg
  .next (if s.sup.boot then s
    else
      match s.lendable o.a with
      | none => s
      | some u =>
        if o.flag then
          ((s.clearRoutes u).modPart o.a (fun x => { x with lent := x.lent + 1 })).post (some o.a) 0 .jobPlacement (args o.a)
        else
          let (n, s) := s.free
          (s.scrub [u]).post (some o.a) (1 + Config.delay n % scrubTime) .unitLend { args o.a with flag := true })

/-- Does a job's rectangle reach into the unit that is being recalled (R379)? -/
def Partition.touches (x : Partition) (j : Job) : Bool :=
  j.holds && decide (16 * (x.home + x.lent - 1) < j.ox + jobBw j.record)

/-- A running job in the recalled unit is pre-empted into the area registered for it with OP 4, or aborted where none stands
(R379). -/
def State.recallJob (s : State) (sp : Nat) (j : Job) : State :=
  if j.recallArea ≠ 0 ∧ s.saveAreaAt sp j.recallArea (saveSize j.record) then
    s.startPreempt sp j j.recallArea .none true
  else s.abortJob sp j

/-- The running jobs of the recalled unit leave it (R379). -/
def State.recallJobs (s : State) (sp : Nat) : State :=
  let x := s.part sp
  (x.jobs.filter (fun j => x.touches j.2 && decide (j.2.state = .running))).foldl (fun s j => s.recallJob sp j.2) s

/-- A recall goes on (R359, R379): a job that is being restored, or saved by a command, is looked at again; when no job is in the unit, its final routers refuse packets; when no packet of the
partition is in its routers, its cores are scrubbed and LENT falls. -/
def State.recall (s : State) (sp : Nat) : State :=
  let s := if (s.part sp).recalling = 1 then s.recallJobs sp else s
  let x := s.part sp
  let u := x.base + x.home + x.lent - 1
  let again (s : State) : State := s.post (some sp) 1 .unitRecall { args sp with flag := true }
  if x.jobs.any (fun j => x.touches j.2) then
    (if x.jobs.any (fun j => x.touches j.2 && !(j.2.recalled && decide (j.2.state = .saving))) then again s else s)
  else
    let s := if x.recalling = 1 then (s.modPart sp (fun x => { x with recalling := 2 })).rescan else s
    if s.packets.any (fun k => k.2.sp == sp && unitOf k.2.x == u) then again s
    else (s.scrub [u]).modPart sp (fun x =>
      { x with lent := x.lent - 1, recalling := 0 })

/-- UNIT_RECALL (R359, R379): the highest lent unit of partition `a`; with the flag, a recall goes on. -/
def execUnitRecall (s : State) : Host.Outcome State Fault Refusal :=
  let o := s.arg
  let x := s.part o.a
  .next (
    if o.flag then (if x.recalling = 0 then s else s.recall o.a)
    else if s.sup.boot || !x.en || x.lent == 0 || x.recalling != 0 then s
    else (s.modPart o.a (fun x => { x with recalling := 1 })).recall o.a)

/-! ## Page tables and pans -/

/-- PAGE_TABLE_WRITE (R307, R308): word `w` at index `c` of level `b` of partition `a`'s table, in every copy; the TLBs of
the partition's slices are emptied. The copies are one table of the partition, which holds at once at a slice that it gets, the
model's choice (log entry 125). -/
def execPageTableWrite (s : State) : Host.Outcome State Fault Refusal :=
  let o := s.arg
  let s := s.modPart o.a (fun x =>
    if o.b = 1 then { x with pt1 := x.pt1.set (o.c % 2 ^ 18) o.w } else { x with pt2 := x.pt2.set o.c o.w })
  let ns := (s.part o.a).slices
  .next { s with slices := s.slices.map (fun e => if ns.contains e.1 then (e.1, { e.2 with tlb := [] }) else e) }

/-- PAN_ENTRY_REMOVAL (R301): the entries of the pan of partition `a` that starts at `b` are removed; a master seal that
waits there is refused. -/
def execPanEntryRemoval (s : State) : Host.Outcome State Fault Refusal :=
  let o := s.arg
  let gone (e : PanEntry) : Bool := e.basep == o.b % 2 ^ 48 / 2 ^ 21
  .next ((s.sliceSet o.a o.b).foldl (fun s n =>
    let x := s.slice n
    let waits := (x.pans.filter (fun e => gone e.2)).filterMap (fun e => e.2.sealing)
    let s := s.modSlice n (fun x => { x with
      pans := x.pans.filter (fun e => !gone e.2), marks := x.marks.filter (fun m => m.1 != o.b % 2 ^ 48 / 2 ^ 21) })
    waits.foldl (fun s k => s.tableAnswer k (some (trapPermission (BitVec.ofNat 64 o.b))) 0) s) s)

end Sys2Proof.Machine
end

