-- ==== Sys2Proof/Machine/Ptp.lean ====
section
/-! DEFINITION. The boundary clock of the panel supervisor: PTP messages, the offset, the slew and the discipline state
(R397, R398). -/

namespace Sys2Proof.Machine

/-- Change the supervisor. -/
def State.modSup (s : State) (f : Supervisor → Supervisor) : State := { s with sup := f s.sup }

/-- Does the panel take its time from port `k` (R398)? -/
def Supervisor.source (u : Supervisor) (k : Nat) : Bool := !u.gm && u.sport == k

/-- Does the panel take a message from port `k` of PTP domain `m`: from the port that supplies its time and of its own
domain (R397, R398)? -/
def Supervisor.takes (u : Supervisor) (k m : Nat) : Bool := u.source k && m == u.domain.toNat

/-- Is no partition enabled, and the bring-up over (R397)? -/
def State.noPartition (s : State) : Bool := !s.sup.boot && (List.range 20).all (fun sp => !(s.part sp).en)

/-- PTP_TIMER_DUE (R397): a Sync (`b` 0) or Delay_Req (`b` 2) is queued on port `a` as a control frame. -/
def execPtpTimerDue (s : State) : Host.Outcome State Fault Refusal :=
  let k := s.arg.a
  let kind := if s.arg.b = 0 then 0 else 2
  let s := if kind = 0 && s.sup.gm then s.modSup (fun u => { u with ptpSeq := (u.ptpSeq + 1) % 2 ^ 16 }) else s
  .next (s.queueControl k (.ptp s.sup.domain.toNat kind s.sup.ptpSeq 0))

/-- SYNC (R397, R398): its arrival at the port that supplies time is stamped; `d` is its domain. -/
def execPtpSync (s : State) : Host.Outcome State Fault Refusal :=
  let o := s.arg
  .next (if s.sup.takes o.a o.d then
      (s.modSup (fun u => { u with ptpSeq := o.b, ptpT2 := some (u.ptpTime s.now), lastSync := s.now })).postAt none (s.now + 2 ^ 24)
        .syncTimeout Operands.none
    else s)

/-- `x` kept within [lo, hi]. -/
def clampInt (lo hi x : Int) : Int := max lo (min hi x)

/-- The offset from the source, in 1/16 cycles of 2/3 ns: t2 − t1 less the mean path delay last measured, or the port's
PDLY before one is. -/
def State.offsetOf (s : State) (t1 t2 : Nat) : Int :=
  8 * ((t2 : Int) - t1) - s.sup.ptpMean.getD (16 * (s.port s.sup.sport).delay)

/-- The panel time of an event after `ptime` has stepped forward by `n`: what is to come after so many cycles stays as
far away; a frame slot, a refill and a change of mode stay at the multiples of `ptime` they are due at, the next ones if
theirs were stepped over (R395, R402, R405). -/
def Due.stepped (d : Due) (now n : Nat) : Due :=
  let next (m : Nat) : Due := if d.time < now + n then { d with time := (now + n + m - 1) / m * m } else d
  match d.event with
  | .frameSlot => next 8
  | .tokenRefill => next 256
  | .modeChange => next 320
  | _ => { d with time := d.time + n }

/-- `ptime` steps forward by `n` cycles; an exchange in progress, stamped before the step, is void (R397). -/
def State.stepForward (s : State) (n : Nat) : State :=
  { s with
    now := s.now + n
    agenda := (s.agenda.map (fun d => d.stepped s.now n)).foldl insertDue []
    sup := { s.sup with ptpT1 := none, ptpT2 := none, ptpT3 := none, lastSync := s.sup.lastSync + n } }

/-- The discipline takes an offset (R397 to R399): OFFS is set, and RATE too unless the clock is in HOLDOVER, where it
stays; 16 successive offsets within ±2 cycles lock the clock; a clock that leaves FREE behind its source steps forward
while no partition is enabled. -/
def State.discipline (s : State) (off : Int) : State :=
  let offs := BitVec.ofInt 16 (clampInt (-32768) 32767 off)
  let good := if -32 ≤ off ∧ off ≤ 32 then min 16 (s.sup.good + 1) else 0
  let rate := BitVec.ofInt 16 (clampInt (-25000) 25000 (Config.slew offs s.sup.rate).toInt)
  let free := s.sup.ptState = 0
  let s' := s.modSup (fun u => { u with
    offs := offs, rate := if u.ptState = 3 ∧ good ≠ 16 then u.rate else rate, good := good
    ptState := if good = 16 then 2 else if free then 1 else u.ptState })
  if free ∧ off < 0 ∧ s.noPartition then s'.stepForward ((-off) / 16).toNat else s'

/-- FOLLOW_UP (R397, R398): the Sync's departure `c` is known, and the offset is measured. -/
def execPtpFollowUp (s : State) : Host.Outcome State Fault Refusal :=
  let o := s.arg
  .next (match s.sup.ptpT2 with
    | some t2 =>
      if s.sup.takes o.a o.d ∧ s.sup.ptpSeq = o.b then
        (s.modSup (fun u => { u with ptpT1 := some o.c })).discipline (s.offsetOf o.c t2)
      else s
    | none => s)

/-- DELAY_REQ (R397): the answer carries the PTP time of its arrival. -/
def execPtpDelayReq (s : State) : Host.Outcome State Fault Refusal :=
  let o := s.arg
  .next (if o.d = s.sup.domain.toNat then s.queueControl o.a (.ptp o.d 3 o.b (s.sup.ptpTime s.now)) else s)

/-- DELAY_RESP (R397): the mean path delay ((t2 − t1) + (t4 − t3)) ÷ 2, kept in 1/16 cycles. -/
def execPtpDelayResp (s : State) : Host.Outcome State Fault Refusal :=
  let o := s.arg
  .next (match s.sup.ptpT1, s.sup.ptpT2, s.sup.ptpT3 with
    | some t1, some t2, some t3 =>
      if s.sup.takes o.a o.d ∧ s.sup.ptpSeq = o.b then
        s.modSup (fun u => { u with ptpMean := some (4 * (((t2 : Int) - t1) + ((o.c : Int) - t3))) })
      else s
    | _, _, _ => s)

/-- SYNC_TIMEOUT (R398): no Sync for 2^24 cycles. -/
def execSyncTimeout (s : State) : Host.Outcome State Fault Refusal :=
  .next (if s.sup.ptState = 2 ∧ s.sup.lastSync + 2 ^ 24 ≤ s.now then
      s.modSup (fun u => { u with ptState := 3, good := 0 })
    else s)

/-- PTSTAT as it is read (R398). -/
def Supervisor.ptstat (u : Supervisor) : Word :=
  BitVec.ofNat 64 (u.ptState % 4 + (if u.gm then 4 else 0) + u.sport % 128 * 2 ^ 3 + u.offs.toNat * 2 ^ 10 +
    u.rate.toNat * 2 ^ 26 + u.domain.toNat * 2 ^ 42)

end Sys2Proof.Machine
end

