-- ==== Sys2Proof/Machine/Signing.lean ====
section
/-! DEFINITION. What the rules on signatures name: SHA-512 and RSASSA-PKCS1-v1_5 of RFC 8017 with it, for 4,096-bit moduli and
the public exponent 65,537 (R428). Both are written from their standards, which the spec names and does not repeat. -/

namespace Sys2Proof.Machine

/-! ## SHA-512 -/

/-- The number that bytes are, the first the most significant. -/
def bigNat (b : List Byte) : Nat := bytesNat b.reverse

/-- The `n` bytes of a number, the most significant first. -/
def bigBytes (n x : Nat) : List Byte := (natBytes n x).reverse

/-- The words added in rounds 0 to 19, 20 to 39, 40 to 59 and 60 to 79. -/
def shaWords0 : List Word :=
  [0x428A2F98D728AE22#64, 0x7137449123EF65CD#64, 0xB5C0FBCFEC4D3B2F#64, 0xE9B5DBA58189DBBC#64,
   0x3956C25BF348B538#64, 0x59F111F1B605D019#64, 0x923F82A4AF194F9B#64, 0xAB1C5ED5DA6D8118#64,
   0xD807AA98A3030242#64, 0x12835B0145706FBE#64, 0x243185BE4EE4B28C#64, 0x550C7DC3D5FFB4E2#64,
   0x72BE5D74F27B896F#64, 0x80DEB1FE3B1696B1#64, 0x9BDC06A725C71235#64, 0xC19BF174CF692694#64,
   0xE49B69C19EF14AD2#64, 0xEFBE4786384F25E3#64, 0x0FC19DC68B8CD5B5#64, 0x240CA1CC77AC9C65#64]
def shaWords1 : List Word :=
  [0x2DE92C6F592B0275#64, 0x4A7484AA6EA6E483#64, 0x5CB0A9DCBD41FBD4#64, 0x76F988DA831153B5#64,
   0x983E5152EE66DFAB#64, 0xA831C66D2DB43210#64, 0xB00327C898FB213F#64, 0xBF597FC7BEEF0EE4#64,
   0xC6E00BF33DA88FC2#64, 0xD5A79147930AA725#64, 0x06CA6351E003826F#64, 0x142929670A0E6E70#64,
   0x27B70A8546D22FFC#64, 0x2E1B21385C26C926#64, 0x4D2C6DFC5AC42AED#64, 0x53380D139D95B3DF#64,
   0x650A73548BAF63DE#64, 0x766A0ABB3C77B2A8#64, 0x81C2C92E47EDAEE6#64, 0x92722C851482353B#64]
def shaWords2 : List Word :=
  [0xA2BFE8A14CF10364#64, 0xA81A664BBC423001#64, 0xC24B8B70D0F89791#64, 0xC76C51A30654BE30#64,
   0xD192E819D6EF5218#64, 0xD69906245565A910#64, 0xF40E35855771202A#64, 0x106AA07032BBD1B8#64,
   0x19A4C116B8D2D0C8#64, 0x1E376C085141AB53#64, 0x2748774CDF8EEB99#64, 0x34B0BCB5E19B48A8#64,
   0x391C0CB3C5C95A63#64, 0x4ED8AA4AE3418ACB#64, 0x5B9CCA4F7763E373#64, 0x682E6FF3D6B2B8A3#64,
   0x748F82EE5DEFB2FC#64, 0x78A5636F43172F60#64, 0x84C87814A1F0AB72#64, 0x8CC702081A6439EC#64]
def shaWords3 : List Word :=
  [0x90BEFFFA23631E28#64, 0xA4506CEBDE82BDE9#64, 0xBEF9A3F7B2C67915#64, 0xC67178F2E372532B#64,
   0xCA273ECEEA26619C#64, 0xD186B8C721C0C207#64, 0xEADA7DD6CDE0EB1E#64, 0xF57D4F7FEE6ED178#64,
   0x06F067AA72176FBA#64, 0x0A637DC5A2C898A6#64, 0x113F9804BEF90DAE#64, 0x1B710B35131C471B#64,
   0x28DB77F523047D84#64, 0x32CAAB7B40C72493#64, 0x3C9EBE0A15C9BEBC#64, 0x431D67C49C100D4C#64,
   0x4CC5D4BECB3E42B6#64, 0x597F299CFC657E2A#64, 0x5FCB6FAB3AD6FAEC#64, 0x6C44198C4A475817#64]

/-- The eight words of the state. -/
structure ShaState where
  a : Word
  b : Word
  c : Word
  d : Word
  e : Word
  f : Word
  g : Word
  h : Word
  deriving DecidableEq, Repr

/-- The state before the first block. -/
def ShaState.first : ShaState :=
  { a := 0x6A09E667F3BCC908#64, b := 0xBB67AE8584CAA73B#64, c := 0x3C6EF372FE94F82B#64
    d := 0xA54FF53A5F1D36F1#64, e := 0x510E527FADE682D1#64, f := 0x9B05688C2B3E6C1F#64
    g := 0x1F83D9ABFB41BD6B#64, h := 0x5BE0CD19137E2179#64 }

/-- Turn right by `n`. -/
def turn (x : Word) (n : Nat) : Word := (x >>> n) ||| (x <<< (64 - n))

/-- One round, with the sum of its constant and its message word. -/
def ShaState.round (s : ShaState) (w : Word) : ShaState :=
  let t := s.h + (turn s.e 14 ^^^ turn s.e 18 ^^^ turn s.e 41) + ((s.e &&& s.f) ^^^ (~~~s.e &&& s.g)) + w
  let u := (turn s.a 28 ^^^ turn s.a 34 ^^^ turn s.a 39) + ((s.a &&& s.b) ^^^ (s.a &&& s.c) ^^^ (s.b &&& s.c))
  { a := t + u, b := s.a, c := s.b, d := s.c, e := s.d + t, f := s.e, g := s.f, h := s.g }

/-- The sixteen message words of the next round on. -/
def nextShaWords (w : List Word) : List Word :=
  let x := w.getD 1 0#64
  let y := w.getD 14 0#64
  w.drop 1 ++ [(turn y 19 ^^^ turn y 61 ^^^ (y >>> 6)) + w.getD 9 0#64 + (turn x 1 ^^^ turn x 8 ^^^ (x >>> 7)) + w.getD 0 0#64]

/-- The rounds that add the words of a list. -/
def shaRounds : List Word → List Word → ShaState → ShaState
  | [], _, s => s
  | k :: rest, w, s => shaRounds rest (nextShaWords w) (s.round (k + w.getD 0 0#64))

/-- A block of 128 bytes. -/
def ShaState.block (s : ShaState) (b : List Byte) : ShaState :=
  let w := (List.range 16).map (fun i => BitVec.ofNat 64 (bigNat ((b.drop (8 * i)).take 8)))
  let t := shaRounds (shaWords0 ++ shaWords1 ++ shaWords2 ++ shaWords3) w s
  { a := s.a + t.a, b := s.b + t.b, c := s.c + t.c, d := s.d + t.d, e := s.e + t.e, f := s.f + t.f, g := s.g + t.g, h := s.h + t.h }

/-- The first `n` blocks of a string. -/
def shaBlocks : Nat → List Byte → ShaState → ShaState
  | 0, _, s => s
  | n + 1, b, s => shaBlocks n (b.drop 128) (s.block (b.take 128))

/-- A message filled up to whole blocks: a bit 1, zeros, and the length in bits. -/
def shaPadded (m : List Byte) : List Byte :=
  m ++ [0x80#8] ++ List.replicate ((239 - m.length % 128) % 128) 0#8 ++ bigBytes 16 (8 * m.length)

/-- SHA-512 of a byte string (R428). -/
def sha512 (m : List Byte) : List Byte :=
  let p := shaPadded m
  let s := shaBlocks (p.length / 128) p ShaState.first
  [s.a, s.b, s.c, s.d, s.e, s.f, s.g, s.h].flatMap (fun w => bigBytes 8 w.toNat)

/-! ## RSASSA-PKCS1-v1_5 -/

/-- `b` to the power `e` modulo `m`, of an exponent of at most `fuel` bits. -/
def powMod (m : Nat) : Nat → Nat → Nat → Nat
  | 0, _, _ => 1 % m
  | fuel + 1, b, e =>
    if e = 0 then 1 % m
    else
      let r := powMod m fuel (b * b % m) (e / 2)
      if e % 2 = 1 then b * r % m else r

/-- The encoded message of 512 bytes: EMSA-PKCS1-v1_5 with SHA-512 (R428). -/
def encodedMessage (m : List Byte) : List Byte :=
  [0x00#8, 0x01#8] ++ List.replicate 426 0xFF#8 ++ [0x00#8] ++
    [0x30#8, 0x51#8, 0x30#8, 0x0D#8, 0x06#8, 0x09#8, 0x60#8, 0x86#8, 0x48#8, 0x01#8, 0x65#8, 0x03#8, 0x04#8, 0x02#8, 0x03#8,
      0x05#8, 0x00#8, 0x04#8, 0x40#8] ++ sha512 m

/-- The public exponent (R428). -/
def publicExponent : Nat := 65537

/-- The signature of a byte string by a key pair (R428). -/
def KeyPair.sign (k : KeyPair) (m : List Byte) : List Byte :=
  bigBytes 512 (powMod k.modulus.toNat 4096 (bigNat (encodedMessage m)) k.exponent.toNat)

/-- Does a signature verify under a public key of a 4,096-bit modulus (R428)? -/
def verifies (modulus : BitVec 4096) (m sig : List Byte) : Bool :=
  modulus.getLsbD 4095 && sig.length == 512 && decide (bigNat sig < modulus.toNat) &&
    bigBytes 512 (powMod modulus.toNat 17 (bigNat sig) publicExponent) == encodedMessage m

/-! ## Firmware images -/

/-- Fields of the header (R429), the lowest byte of a number first (R15). -/
def Image.target (i : Image) : Nat := bytesNat (i.bytes.take 4)
def Image.version (i : Image) : Nat := bytesNat ((i.bytes.drop 4).take 4)
def Image.length (i : Image) : Nat := bytesNat ((i.bytes.drop 8).take 8)
def Image.digest (i : Image) : List Byte := (i.bytes.drop 16).take 64
def Image.sig (i : Image) : List Byte := (i.bytes.drop 80).take 512

/-- The body that follows the header (R429). -/
def Image.body (i : Image) : List Byte := (i.bytes.drop 592).take i.length

/-- The bytes whose SHA-512 the fuses hold: the vendor root key's modulus, most significant byte first. -/
def rootKeyBytes (modulus : BitVec 4096) : List Byte := bigBytes 512 modulus.toNat

/-- An image as it is brought to the supervisor: the modulus it is signed under, most significant byte first, before its
bytes. -/
def imageOf (b : List Byte) : Image := { key := BitVec.ofNat 4096 (bigNat (b.take 512)), bytes := b.drop 512 }

/-- Is an image rejected (R19, R429)? -/
def Supervisor.rejects (u : Supervisor) (i : Image) : Bool :=
  sha512 (rootKeyBytes i.key) != natBytes 64 u.rootDigest.toNat || !verifies i.key (i.bytes.take 80) i.sig ||
    i.body.length != i.length || sha512 i.body != i.digest || i.target == 0 || decide (4 < i.target) ||
    decide (i.version < u.minimum.getD i.target 0)

end Sys2Proof.Machine
end

