-- ==== Sys2Proof/Machine/Platform.lean ====
section
/-! DEFINITION. The panel supervisor: bring-up, firmware images, identity, quotes, meters' readouts, live service, tamper alarms and
the registers without a row of their own (R13, R16, R354, R398, R411, R424, R425, R428 to R435). -/

namespace Sys2Proof.Machine

/-! ## Images -/

/-- Image `n`, if the supervisor knows it and accepts it. -/
def Supervisor.verified (u : Supervisor) (n : Nat) : Option Image :=
  match Table.get? u.images n with
  | some i => if u.rejects i then none else some i
  | none => none

/-- The image that a command names, accepted: the bytes it brings under number `a`, else image `a`, which stays as it is. -/
def Supervisor.offered (u : Supervisor) (o : Operands) : Option Image :=
  let i := if o.bytes = [] then Table.get? u.images o.a
    else if (Table.get? u.images o.a).isSome then none else some (imageOf o.bytes)
  i.filter (fun i => !u.rejects i)

/-- The first image that fails its check (R424). -/
def Supervisor.badImage (u : Supervisor) : Option Nat := (u.images.find? (fun e => u.rejects e.2)).map (·.1)

/-! ## Bring-up -/

/-- The supervisor as module reset leaves it: fuses, images, keys and the alarm state are kept, BOOTID is drawn anew, and no
image is half switched in (R430, R435). -/
def Supervisor.restart (u : Supervisor) (bootId : Word) : Supervisor :=
  { Supervisor.reset with
    alarm := u.alarm, alarms := u.alarms, key := u.key, bootId := bootId, images := u.images, running := u.running
    rootDigest := u.rootDigest, minimum := u.minimum }

/-- The parts of a TARGET that run firmware: the supervisor, 72 die clock managers, 1,536 slice controllers and 72 port
serialisers (R6, R300, R401, R429). -/
def targetParts (t : Nat) : Nat := if t = 1 then 1 else if t = 3 then 1536 else 72

/-- Step 1 finds the image that each part loads: the one chosen for it, else the first verified one of its TARGET
(R424, R429, R434). -/
def Supervisor.loadImages (u : Supervisor) : Table Nat :=
  [1, 2, 3, 4].flatMap (fun t =>
    match u.images.find? (fun e => e.2.target == t) with
    | some e => (List.range (targetParts t)).map (fun i => (t * 2 ^ 16 + i, u.running.getD (t * 2 ^ 16 + i) e.1))
    | none => [])

/-- The live cores that the fuses of the blocks leave (R3). -/
def liveCoresOf (fuses : Table (BitVec 8)) : Nat := fuses.foldl (fun n e => n - (8 - popCount8 e.2)) coreCount

/-- The bring-up's next step ends some time from now. -/
def State.postBringUp (s : State) : State :=
  let (n, s) := s.free
  s.postAt none (s.now + 1 + Config.delay n) .moduleReset { args 0 with flag := true }

/-- Module reset (R16, R354, R424, R425): everything takes its reset value, `ptime` starts at the zero pulse, and steps 1 to 3
of the bring-up are done, or it stops with the image that failed. HBM and host bytes stay. -/
def State.reboot (s : State) : State :=
  let (n, s) := s.free
  let u := s.sup.restart (Config.random n)
  let t : State :=
    { State.reset with
      hbm := s.hbm, hbmTags := s.hbmTags, host := s.host, fuses := s.fuses, nextId := s.nextId, freeCtr := s.freeCtr, sup := u }
  match u.badImage with
  | some i => { t with sup := { u with failedImage := some i } }
  | none => { t with sup := { u with stepDone := 3, running := u.loadImages, liveCores := liveCoresOf s.fuses } }.postBringUp

/-- Does a strand that the supervisor started run still (R425)? -/
def State.bootBusy (s : State) : Bool := s.cores.any (fun e => e.2.run == .run && e.2.slots != [])

/-- Step 4 ends (R424): a channel that failed training is marked unusable, and what waits at its slice is refused. -/
def State.markChannels (s : State) : State :=
  ((List.range 1536).filter (fun n => (s.slice n).unusable n)).foldl (fun s n =>
    (s.modSlice n (fun x => { x with failed := true, tlb := [] })).resumeSlice n) s

/-- The `n`th key pair that the module generates: a free value (R430). -/
def generatedKey (n : Nat) : Config.RsaKey := @Config.keyPair ⟨someRsaKey⟩ n

/-- The modulus and the private exponent of a key pair, as the key store holds them. -/
def storedKey (k : Config.RsaKey) : KeyPair :=
  { modulus := BitVec.ofNat 4096 k.primes.prod, exponent := BitVec.ofNat 4096 k.exponent }

/-- The module generates a key pair (R430, R431). -/
def State.newKey (s : State) : State :=
  let (n, s) := s.free
  let k := generatedKey n
  s.modSup (fun u => { u with key := some (storedKey k) })

/-- The next step of the bring-up ends (R424): steps 4 and 5 once no strand of theirs runs, and step 6, with an identity key
generated where none is kept. -/
def State.bringUp (s : State) : State :=
  let u := s.sup
  let done (s : State) : State := { s with sup := { s.sup with stepDone := u.stepDone + 1 } }
  if !u.boot || u.stepDone < 3 || 6 ≤ u.stepDone then s
  else if u.stepDone = 5 then done (if u.key.isNone && !u.alarm then s.newKey else s)
  else if s.bootBusy then s.postBringUp
  else (done (if u.stepDone = 3 then s.markChannels else s)).postBringUp

/-- MODULE_RESET (R424): module reset; with the flag, the bring-up goes on. -/
def execModuleReset (s : State) : Host.Outcome State Fault Refusal :=
  .next (if s.arg.flag then s.bringUp else s.reboot)

/-- BOOT_STRAND_START (R424, R425): in the boot partition, from step 4 of the bring-up on, a Machine-mode strand in the woken state of R279, at entry `w`, its bit 0 taken as 0 (R60), of a
range of `d` pages at `c`, in empty slot `b` of core `a`, with c2 as the supervisor gives it. -/
def execBootStrandStart (s : State) : Host.Outcome State Fault Refusal :=
  let o := s.arg
  let c2 : CReg := { tag := o.flag, val := o.w1, mt := if o.flag then o.x.setWidth 64 else 0#64 }
  .next (if s.sup.boot && s.sup.failedImage.isNone && decide (3 ≤ s.sup.stepDone) && decide (o.a < coreCount) && decide (o.b < 8) && !s.occupied o.a o.b then
      s.startStrand o.a o.b
        { Strand.fresh with
          pc := o.w &&& ~~~1#64, c := if c2 = CReg.zero then [] else [(2, c2)], sst := 3#13
          codeLo := o.c, codeHi := o.c + o.d * 2 ^ 21 } 1
    else s)

/-! ## The mailbox -/

/-- The supervisor refuses a command. -/
def State.refuseMail (s : State) : State := s.modSup (fun u => { u with refused := true, answer := none })

/-- The supervisor answers a command. -/
def State.answerMail (s : State) (b : List Byte) : State := s.modSup (fun u => { u with refused := false, answer := some b })

/-- Bytes with their signature by the identity key (R428, R430). -/
def signed (key : KeyPair) (b : List Byte) : List Byte := b ++ key.sign b

/-- The identity key with which the supervisor signs: once step 6 of the bring-up has it, and not in the alarm state (R424,
R430, R431). -/
def Supervisor.signer (u : Supervisor) : Option KeyPair := if u.alarm || decide (u.stepDone < 6) then none else u.key

/-- The DIGESTs of every loaded image, each once, in TARGET order (R430). -/
def Supervisor.digests (u : Supervisor) : List Byte :=
  (u.running.map (·.2)).eraseDups.flatMap (fun n =>
    match Table.get? u.images n with
    | some i => i.digest
    | none => [])

/-- Bytes 0 to 143 of a quote (R430). -/
def Supervisor.quoteBytes (u : Supervisor) (nonce : BitVec 512) : List Byte :=
  natBytes 64 nonce.toNat ++ sha512 u.digests ++ natBytes 8 u.bootId.toNat ++
    natBytes 2 u.alarms ++ natBytes 6 0

/-- QUOTE (R430, R431). -/
def execQuote (s : State) : Host.Outcome State Fault Refusal :=
  .next (match s.sup.signer with
    | some k => s.answerMail (signed k (s.sup.quoteBytes s.arg.x))
    | none => s.refuseMail)

/-- The CORE charges of an owner that still stand at the cores (R432). -/
def State.pendingCore (s : State) (owner : Nat) : Nat :=
  s.cores.foldl (fun n e =>
    match e.2.meterFrom, s.jobOf e.1 e.2.job with
    | some k, some (_, j) => if j.owner = owner then n + (s.countCore e.1 - k - s.heldCycles e.1) else n
    | _, _ => n) 0

/-- Bytes 0 to 63 of a readout (R433). -/
def State.readoutBytes (s : State) (owner : Nat) : List Byte :=
  let m := s.sup.meters.getD owner Meters.zero
  natBytes 8 s.sup.bootId.toNat ++ natBytes 8 s.now ++ natBytes 8 s.sup.readouts ++ natBytes 1 owner ++ natBytes 7 0 ++
    natBytes 8 (satAdd m.core (s.pendingCore owner)) ++ natBytes 8 m.mxe ++ natBytes 8 m.hbm ++ natBytes 8 m.opt

/-- METER_READOUT (R431, R433): it comes before every charge of its cycle. -/
def execMeterReadout (s : State) : Host.Outcome State Fault Refusal :=
  .next (match s.sup.signer with
    | some k =>
      let s := s.modSup (fun u => { u with readouts := u.readouts + 1 })
      s.answerMail (signed k (s.readoutBytes s.arg.a))
    | none => s.refuseMail)

/-- RAISE_FUSED_MINIMUM (R429): to the VERSION of verified image `b`, for TARGET `a`; a minimum never falls. -/
def execRaiseFusedMinimum (s : State) : Host.Outcome State Fault Refusal :=
  let o := s.arg
  .next (match s.sup.verified o.b with
    | some i =>
      if i.target = o.a then
        (s.modSup (fun u => { u with minimum := u.minimum.set o.a (max (u.minimum.getD o.a 0) i.version) })).answerMail []
      else s.refuseMail
    | none => s.refuseMail)

/-! ## Live service -/

/-- How long a switch takes (R434): at most 1 ms for the supervisor's image, 2 ms for a die clock manager's. -/
def switchTime (target n : Nat) : Nat :=
  if target = 1 then 1 + Config.delay n % 1500000 else if target = 2 then 1 + Config.delay n % 3000000 else 1 + Config.delay n

/-- May image `i` be switched into part `part`: one of its TARGET, and a slice controller only while its TRAIN is 1 (R434)? -/
def State.switchable (s : State) (i : Image) (part : Nat) : Bool :=
  i.target == partTarget part && decide (part % 2 ^ 16 < targetParts i.target) &&
    (i.target != 3 || (s.slice (part % 2 ^ 16)).tctl.getLsbD 0)

/-- The slice of a part that is a slice controller is in service, or no longer. -/
def State.setServing (s : State) (part : Nat) (b : Bool) : State :=
  if partTarget part = 3 then s.modSlice (part % 2 ^ 16) (fun x => { x with serving := b }) else s

/-- A switch begins: the image is loaded, and runs when the switch ends. -/
def State.beginSwitch (s : State) (i : Image) (image part : Nat) : State :=
  let (id, s) := s.fresh
  let (n, s) := s.free
  let s := s.modSup (fun u => { u with
    images := u.images.set image i, switching := u.switching ++ [{ id := id, part := part, image := image }] })
  ((s.setServing part true).answerMail []).postAt none (s.now + switchTime i.target n) .firmwareImageSwitch
    { args id with flag := true }

/-- A switch has ended, or been given up: its part serves again, and what waited for it goes on (R434). -/
def State.leaveSwitch (s : State) (w : Switch) : State :=
  let s := (s.modSup (fun u => { u with switching := u.switching.filter (fun x => x.id != w.id) })).setServing w.part false
  let n := w.part % 2 ^ 16
  (if partTarget w.part = 3 ∧ !(s.slice n).waits then s.resumeSlice n else s).endWaits

/-- FIRMWARE_IMAGE_SWITCH (R429, R434): image `a`, or the bytes that come as image `a`, if verified, is loaded for part `b`,
whose number is TARGET × 2^16 + its index; with the flag, switch `a` ends, and the part runs its image. -/
def execFirmwareImageSwitch (s : State) : Host.Outcome State Fault Refusal :=
  let o := s.arg
  .next (
    if o.flag then
      match s.sup.switching.find? (fun w => w.id == o.a) with
      | some w => (s.modSup (fun u => { u with running := u.running.set w.part w.image })).leaveSwitch w
      | none => s
    else
      match s.sup.offered o with
      | some i => if s.switchable i o.b then s.beginSwitch i o.a o.b else s.refuseMail
      | none => s.refuseMail)

/-- A training or a pattern test of a slice ends, and requests to it go on (R417, R435). -/
def State.endTraining (s : State) (n : Nat) : State :=
  ((s.modSlice n (fun x => { x with tctl := 0#64, tstat := 0#64, pending := none })).unclaim n testClaim).resumeSlice n

/-- Every service in progress ends (R435): switches, whose parts keep the image they ran, trainings of channels and of
ports. -/
def State.endServices (s : State) : State :=
  let s := s.sup.switching.foldl State.leaveSwitch s
  let s : State := { s with agenda := s.agenda.filter (fun d => d.event != Instr.patternTestResult) }
  let s := s.slices.foldl (fun (s : State) e =>
    if e.2.tctl.getLsbD 0 || e.2.tstat.getLsbD 0 then s.endTraining e.1 else s) s
  (List.range 72).foldl (fun s k => if (s.port k).state = 1 then s.modPort k (fun p => { p with state := 0 }) else s) s

/-- TAMPER_ALARM (R431, R435): the key store is zeroised, every partition reset, every sluice closed, every service ended and
the alarm state entered; in it, only the key store is zeroised. -/
def execTamperAlarm (s : State) : Host.Outcome State Fault Refusal :=
  let z := s.modSup (fun u => { u with key := none })
  .next (if s.sup.alarm then z
    else
      let t := (List.range 20).foldl (fun s sp => if s.partActive sp then s.resetPart sp else s) z
      let t := (List.range 72).foldl (fun s k => if (s.port k).state = 2 then s.startDrain k else s) t
      t.endServices.modSup (fun u => { u with alarm := true }))

/-- ALARM_EXIT (R431): a command signed like an image with TARGET 1 leaves the alarm state, with a new key pair and
ALARMS one higher. It is image `a`, or the bytes that come with it. -/
def execAlarmExit (s : State) : Host.Outcome State Fault Refusal :=
  .next (match s.sup.offered s.arg with
    | some i =>
      if i.target = 1 ∧ s.sup.alarm then
        (s.newKey.modSup (fun u => { u with alarm := false, alarms := (u.alarms + 1) % 2 ^ 16 })).answerMail []
      else s.refuseMail
    | none => s.refuseMail)

/-! ## Registers without a row of their own -/

/-- REGISTER_WRITE (R13, R16, R397, R398, R411): register `a` 0 PTSTAT, 1 PDLCN and PDEND of partition `b`, 2 the crystal
mode of partition `b`, 3 and 4 EPOCH's low 64 and high 32 bits. After a failed image none is written (R424). -/
def execRegisterWrite (s : State) : Host.Outcome State Fault Refusal :=
  let o := s.arg
  let w := o.w
  .next (
    if s.dead then s
    else if o.a = 0 then
      s.modSup (fun u => { u with gm := w.getLsbD 2, sport := (w.extractLsb' 3 7).toNat, domain := w.extractLsb' 42 8 })
    else if o.a = 1 then
      s.modHost o.b (fun h => { h with pdlcn := (w.extractLsb' 0 19).toNat, pdend := (w.extractLsb' 19 6).toNat })
    else if o.a = 2 then s.modPart o.b (fun x => { x with crystalMode := w.getLsbD 0 })
    else if o.a = 3 then s.modSup (fun u => { u with epoch := (u.epoch.extractLsb' 64 32 ++ w) })
    else if o.a = 4 then s.modSup (fun u => { u with epoch := (w.extractLsb' 0 32 ++ u.epoch.extractLsb' 0 64) })
    else s)

end Sys2Proof.Machine
end

