-- ==== Sys2Proof/Machine/Power.lean ====
section
/-! DEFINITION. Power modes: PPWR, the change of a partition's clock, and the thermal limit (R12, R395, R396, R426,
R427). -/

namespace Sys2Proof.Machine

/-- The next multiple of 320 of `ptime` after now (R426). -/
def State.nextModePoint (s : State) : Nat := (s.now / 320 + 1) * 320

/-- PPWR as it is read (R426). -/
def Partition.ppwr (x : Partition) : Word :=
  BitVec.ofNat 64 (x.wanted % 4 + (if x.pend then 4 else 0) + if x.cap then 8 else 0)

/-- PPWR_WRITE (R426): MODE is stored, except a 3, and takes effect at the next multiple of 320; while CAP holds, at the
first after it clears. -/
def execPpwrWrite (s : State) : Host.Outcome State Fault Refusal :=
  let sp := s.arg.a
  let mode := (s.arg.w.extractLsb' 0 2).toNat
  .next (if mode = 3 then s
    else
      let s' := s.modPart sp (fun x => { x with wanted := mode, pend := true })
      if (s.part sp).cap then s' else s'.postAt none s.nextModePoint .modeChange (args sp))

/-! ## The core-cycle count jumps -/

/-- A strand whose core-cycle counts have risen by `j`. -/
def Strand.jump (j : Nat) (x : Strand) : Strand :=
  { x with readyAt := x.readyAt + j, waitStart := x.waitStart + j }

/-- A core whose count has risen by `j` (R395). -/
def Core.jump (j : Nat) (c : Core) : Core :=
  { c with
    slots := c.slots.map (fun e => (e.1, e.2.jump j))
    ends := c.ends.map (fun e => (e.1, { e.2 with sentAt := e.2.sentAt + j }))
    crystal := { c.crystal with rows := c.crystal.rows.map (fun r => { r with cyc := r.cyc + j }) }
    clatOf := (c.clatOf.1 + j, c.clatOf.2), engineOld := (c.engineOld.1 + j, c.engineOld.2), meterFrom := c.meterFrom.map (· + j)
    engaged := c.engaged.map (fun e => (e.1, { e.2 with
      wstart := e.2.wstart + j, entries := e.2.entries.map (fun y => (y.1 + j, y.2)) })) }

/-- A core in a clock hold when the mode changes: the cycles of the old mode that the hold has lasted (R353, R395). -/
def Core.heldUntil (c : Core) (mode m now : Nat) : Core :=
  if c.tree.state == .hold || c.tree.state == .adopt then
    { c with tree := { c.tree with
      heldFor := c.tree.heldFor + (countOfTime mode m now - countOfTime mode m (max m c.tree.stoppedAt)) } }
  else c

/-- A tile whose block's count has risen by `j`. -/
def Tile.jump (j : Nat) (t : Tile) : Tile := { t with readyAt := t.readyAt + j }

/-- A block whose count has risen by `j`. -/
def Block.jump (j : Nat) (b : Block) : Block :=
  { b with mxe := { b.mxe with
    freeAt := b.mxe.freeAt + j
    entries := b.mxe.entries.map (fun e => (e.1, { e.2 with
      job := e.2.job.map (fun x => { x with granted := x.granted + j, last := x.last + j }) }))
    lanes := b.mxe.lanes.map (fun e => (e.1, { e.2 with
      latch := e.2.latch.map (Tile.jump j), out := e.2.out.map (Tile.jump j) })) } }

/-- A slice whose count has risen by `j`, a multiple of 64: rounds reserved and claimed stay as far ahead (R395). -/
def Slice.jump (j : Nat) (x : Slice) : Slice :=
  { x with
    reserved := x.reserved.map (fun r => (r.1 + j / 64, r.2))
    claims := x.claims.map (fun c => { c with rounds := c.rounds.map (· + j / 64) })
    placed := x.placed.map (fun e => (e.1, { e.2 with perform := e.2.perform + j })), armed := false }

/-- A round of a slice's schedule. -/
def isRound : Instr → Bool
  | .activeRoundStart => true
  | .fallowRound => true
  | .refreshRound => true
  | _ => false

/-- Partition `sp` changes to a mode in this cycle (R395, R396): K ← m, and everything its cores and slices were to do
stays as many core cycles ahead. A partition that is not in being holds no core and no slice. -/
def State.changeMode (s : State) (sp mode : Nat) : State :=
  let x := s.part sp
  let j := s.now - s.count (some sp)
  let move (d : Due) : Due :=
    if d.dom = some sp then
      { d with time := timeOfCount mode s.now (countOfTime x.mode x.m (max d.time s.now) + j) }
    else d
  let drop (d : Due) : Bool := d.dom == some sp && isRound d.event
  let us := if s.partActive sp then x.units else []
  let here (p : Nat) : Bool := us.contains (unitOf (coordX p))
  let t : State := { s with
    cores := s.cores.map (fun e => if here e.1 then (e.1, (e.2.heldUntil x.mode x.m s.now).jump j) else e)
    blocks := s.blocks.map (fun e => if here (8 * e.1) then (e.1, e.2.jump j) else e)
    slices := s.slices.map (fun e => if us.contains (unitOf (sliceX e.1)) then (e.1, e.2.jump j) else e)
    agenda := ((s.agenda.filter (fun d => !drop d)).map move).foldl insertDue []
    parked := (s.parked.filter (fun d => !drop d)).map move }
  let t := t.modPart sp (fun y => { y with
    mode := mode, m := s.now, wasMode := x.mode, wasM := x.m, busy := y.busy + j
    jobs := y.jobs.map (fun e => (e.1, { e.2 with placeFrom := e.2.placeFrom + j, sent := e.2.sent.map (fun x => (x.1, x.2.1, x.2.2 + j)) })) })
  s.slices.foldl (fun (t : State) e =>
    if e.2.armed && us.contains (unitOf (sliceX e.1)) then
      (t.modSlice e.1 (fun y => { y with armed := true })).postAt (some sp) s.now (t.roundEvent (some sp) (s.now / 64))
        (args e.1)
    else t) t

/-- MODE_CHANGE (R395, R426, R427): the mode stored takes effect, or Low while CAP holds. -/
def execModeChange (s : State) : Host.Outcome State Fault Refusal :=
  let sp := s.arg.a
  let x := s.part sp
  let mode := if x.cap then 2 else x.wanted
  let s := if mode = x.mode then s else s.changeMode sp mode
  .next (if x.cap then s else s.modPart sp (fun x => { x with pend := false }))

/-- Every partition changes to its mode at the next multiple of 320. -/
def State.scheduleModes (s : State) : State :=
  (List.range 20).foldl (fun s sp => s.postAt none s.nextModePoint .modeChange (args sp)) s

/-- THERMAL_LIMIT (R427): CAP is set everywhere, and every partition's event end gets a record of TYPE 0x06 with the
previous mode. -/
def execThermalLimit (s : State) : Host.Outcome State Fault Refusal :=
  .next (if s.sup.thermal then s
    else
      let s := { s with sup := { s.sup with thermal := true } }
      let s := (List.range 20).foldl (fun s sp =>
        let s := s.modPart sp (fun x => { x with cap := true })
        if s.partActive sp then s.postRecord sp 6 (recordEntry 0 0 (s.part sp).mode 0) else s) s
      s.scheduleModes)

/-- THERMAL_CLEAR (R426, R427): CAP clears, and the stored modes take effect. -/
def execThermalClear (s : State) : Host.Outcome State Fault Refusal :=
  .next (if s.sup.thermal then
      let s := { s with sup := { s.sup with thermal := false } }
      ((List.range 20).foldl (fun s sp => s.modPart sp (fun x => { x with cap := false })) s).scheduleModes
    else s)

end Sys2Proof.Machine
end

