-- ==== Sys2Proof/Machine/Scalar.lean ====
section
/-! DEFINITION. Integer register operations, immediates, bit fields and the operand-extension moves (R106 to R112),
with their 16-bit forms (R67). -/

namespace Sys2Proof.Machine

/-- An integer operation of two sources: cD receives `f a b` (R101, R102, R106). -/
def State.binary (s : State) (g : BitVec 3) (d a b : BitVec 5) (f : Word → Word → Word) :
    Host.Outcome State Fault Refusal :=
  s.act g (fun s => s.putInt d (f (s.me.val a) (s.me.val b)))

/-- A division: the next issue is four slot periods away (R105, R107). -/
def State.divide (s : State) (g : BitVec 3) (d a b : BitVec 5) (f : Word → Word → Word) :
    Host.Outcome State Fault Refusal :=
  s.act g (fun s => s.putIntBy d (f (s.me.val a) (s.me.val b)) 32)

/-- An integer operation of one source (R106, R108). -/
def State.unary (s : State) (g : BitVec 3) (d a : BitVec 5) (f : Word → Word) : Host.Outcome State Fault Refusal :=
  s.act g (fun s => s.putInt d (f (s.me.val a)))

/-- add (R106): a + b modulo 2^64. -/
def execAdd (g : BitVec 3) (d a b : BitVec 5) (s : State) : Host.Outcome State Fault Refusal :=
  s.binary g d a b (· + ·)

/-- sub (R106): a − b modulo 2^64. -/
def execSub (g : BitVec 3) (d a b : BitVec 5) (s : State) : Host.Outcome State Fault Refusal :=
  s.binary g d a b (· - ·)

/-- and (R106): a AND b. -/
def execAnd (g : BitVec 3) (d a b : BitVec 5) (s : State) : Host.Outcome State Fault Refusal :=
  s.binary g d a b (· &&& ·)

/-- or (R106): a OR b. -/
def execOr (g : BitVec 3) (d a b : BitVec 5) (s : State) : Host.Outcome State Fault Refusal :=
  s.binary g d a b (· ||| ·)

/-- xor (R106): a XOR b. -/
def execXor (g : BitVec 3) (d a b : BitVec 5) (s : State) : Host.Outcome State Fault Refusal :=
  s.binary g d a b (· ^^^ ·)

/-- shl (R106): a shifted left by b[5:0]. -/
def execShl (g : BitVec 3) (d a b : BitVec 5) (s : State) : Host.Outcome State Fault Refusal :=
  s.binary g d a b (fun a b => a <<< (b.toNat % 64))

/-- shr (R106): a shifted right logically by b[5:0]. -/
def execShr (g : BitVec 3) (d a b : BitVec 5) (s : State) : Host.Outcome State Fault Refusal :=
  s.binary g d a b (fun a b => a >>> (b.toNat % 64))

/-- sar (R106): a shifted right arithmetically by b[5:0]. -/
def execSar (g : BitVec 3) (d a b : BitVec 5) (s : State) : Host.Outcome State Fault Refusal :=
  s.binary g d a b (fun a b => a.sshiftRight (b.toNat % 64))

/-- mul (R106): the low half of a × b. -/
def execMul (g : BitVec 3) (d a b : BitVec 5) (s : State) : Host.Outcome State Fault Refusal :=
  s.binary g d a b (· * ·)

/-- mulh (R106): the high half of the signed product. -/
def execMulh (g : BitVec 3) (d a b : BitVec 5) (s : State) : Host.Outcome State Fault Refusal :=
  s.binary g d a b mulHighSigned

/-- mulhz (R106): the high half of the unsigned product. -/
def execMulhz (g : BitVec 3) (d a b : BitVec 5) (s : State) : Host.Outcome State Fault Refusal :=
  s.binary g d a b mulHighUnsigned

/-- min (R106): the smaller as s64. -/
def execMin (g : BitVec 3) (d a b : BitVec 5) (s : State) : Host.Outcome State Fault Refusal :=
  s.binary g d a b minSigned

/-- max (R106): the larger as s64. -/
def execMax (g : BitVec 3) (d a b : BitVec 5) (s : State) : Host.Outcome State Fault Refusal :=
  s.binary g d a b maxSigned

/-- minz (R106): the smaller as z64. -/
def execMinz (g : BitVec 3) (d a b : BitVec 5) (s : State) : Host.Outcome State Fault Refusal :=
  s.binary g d a b minUnsigned

/-- maxz (R106): the larger as z64. -/
def execMaxz (g : BitVec 3) (d a b : BitVec 5) (s : State) : Host.Outcome State Fault Refusal :=
  s.binary g d a b maxUnsigned

/-- clm (R106): the low half of the carry-less product. -/
def execClm (g : BitVec 3) (d a b : BitVec 5) (s : State) : Host.Outcome State Fault Refusal :=
  s.binary g d a b (fun a b => BitVec.ofNat 64 (carryLess 64 a.toNat b.toNat))

/-- clmh (R106): the high half of the carry-less product. -/
def execClmh (g : BitVec 3) (d a b : BitVec 5) (s : State) : Host.Outcome State Fault Refusal :=
  s.binary g d a b (fun a b => BitVec.ofNat 64 (carryLess 64 a.toNat b.toNat / 2 ^ 64))

/-- div (R107): signed quotient, four slot periods. -/
def execDiv (g : BitVec 3) (d a b : BitVec 5) (s : State) : Host.Outcome State Fault Refusal :=
  s.divide g d a b divSigned

/-- divz (R107): unsigned quotient, four slot periods. -/
def execDivz (g : BitVec 3) (d a b : BitVec 5) (s : State) : Host.Outcome State Fault Refusal :=
  s.divide g d a b divUnsigned

/-- rem (R107): signed remainder, four slot periods. -/
def execRem (g : BitVec 3) (d a b : BitVec 5) (s : State) : Host.Outcome State Fault Refusal :=
  s.divide g d a b remSigned

/-- remz (R107): unsigned remainder, four slot periods. -/
def execRemz (g : BitVec 3) (d a b : BitVec 5) (s : State) : Host.Outcome State Fault Refusal :=
  s.divide g d a b remUnsigned

/-- clz (R106): leading zero bits. -/
def execClz (g : BitVec 3) (d a : BitVec 5) (s : State) : Host.Outcome State Fault Refusal :=
  s.unary g d a (fun a => BitVec.ofNat 64 (leadingZeros a 64))

/-- ctz (R106): trailing zero bits. -/
def execCtz (g : BitVec 3) (d a : BitVec 5) (s : State) : Host.Outcome State Fault Refusal :=
  s.unary g d a (fun a => BitVec.ofNat 64 (trailingZeros a 64))

/-- pcnt (R106): one bits. -/
def execPcnt (g : BitVec 3) (d a : BitVec 5) (s : State) : Host.Outcome State Fault Refusal :=
  s.unary g d a (fun a => BitVec.ofNat 64 (popCount a))

/-- bswp (R106): byte reversal. -/
def execBswp (g : BitVec 3) (d a : BitVec 5) (s : State) : Host.Outcome State Fault Refusal :=
  s.unary g d a byteSwap

/-- mov (R106): the integer value; a tag never moves. -/
def execMov (g : BitVec 3) (d a : BitVec 5) (s : State) : Host.Outcome State Fault Refusal :=
  s.unary g d a id

/-- sext.8 (R106): sign extension of 8 bits. -/
def execSext8 (g : BitVec 3) (d a : BitVec 5) (s : State) : Host.Outcome State Fault Refusal :=
  s.unary g d a (signLow 8)

/-- sext.16 (R106): sign extension of 16 bits. -/
def execSext16 (g : BitVec 3) (d a : BitVec 5) (s : State) : Host.Outcome State Fault Refusal :=
  s.unary g d a (signLow 16)

/-- sext.32 (R106): sign extension of 32 bits. -/
def execSext32 (g : BitVec 3) (d a : BitVec 5) (s : State) : Host.Outcome State Fault Refusal :=
  s.unary g d a (signLow 32)

/-- zext.8 (R106): zero extension of 8 bits. -/
def execZext8 (g : BitVec 3) (d a : BitVec 5) (s : State) : Host.Outcome State Fault Refusal :=
  s.unary g d a (zeroLow 8)

/-- zext.16 (R106): zero extension of 16 bits. -/
def execZext16 (g : BitVec 3) (d a : BitVec 5) (s : State) : Host.Outcome State Fault Refusal :=
  s.unary g d a (zeroLow 16)

/-- zext.32 (R106): zero extension of 32 bits. -/
def execZext32 (g : BitVec 3) (d a : BitVec 5) (s : State) : Host.Outcome State Fault Refusal :=
  s.unary g d a (zeroLow 32)

/-- sel (R106): a if the predicate is 1, else b. -/
def execSel (g : BitVec 3) (d : BitVec 5) (p : BitVec 3) (a b : BitVec 5) (s : State) : Host.Outcome State Fault Refusal :=
  s.act g (fun s => s.putInt d (if s.me.pred p then s.me.val a else s.me.val b))

/-- shli (R106): the shift by an immediate. So c7 ends as the listing of R298's chapter leaves it (log entry 124). -/
def execShli (g : BitVec 3) (d a : BitVec 5) (n : BitVec 6) (s : State) : Host.Outcome State Fault Refusal :=
  s.unary g d a (fun a => a <<< n.toNat)

/-- shri (R106): the shift by an immediate. -/
def execShri (g : BitVec 3) (d a : BitVec 5) (n : BitVec 6) (s : State) : Host.Outcome State Fault Refusal :=
  s.unary g d a (fun a => a >>> n.toNat)

/-- sari (R106): the shift by an immediate. -/
def execSari (g : BitVec 3) (d a : BitVec 5) (n : BitVec 6) (s : State) : Host.Outcome State Fault Refusal :=
  s.unary g d a (fun a => a.sshiftRight n.toNat)

/-- addi (R108). -/
def execAddi (g : BitVec 3) (d a : BitVec 5) (i : BitVec 12) (s : State) : Host.Outcome State Fault Refusal :=
  s.unary g d a (fun a => a + imm i)

/-- andi (R108). -/
def execAndi (g : BitVec 3) (d a : BitVec 5) (i : BitVec 12) (s : State) : Host.Outcome State Fault Refusal :=
  s.unary g d a (fun a => a &&& imm i)

/-- ori (R108). -/
def execOri (g : BitVec 3) (d a : BitVec 5) (i : BitVec 12) (s : State) : Host.Outcome State Fault Refusal :=
  s.unary g d a (fun a => a ||| imm i)

/-- xori (R108). -/
def execXori (g : BitVec 3) (d a : BitVec 5) (i : BitVec 12) (s : State) : Host.Outcome State Fault Refusal :=
  s.unary g d a (fun a => a ^^^ imm i)

/-- lhi (R109): n × 4,096, sign-extended. -/
def execLhi (g : BitVec 3) (d : BitVec 5) (i : BitVec 17) (s : State) : Host.Outcome State Fault Refusal :=
  s.act g (fun s => s.putInt d (imm i * 4096#64))

/-- bfx (R110). -/
def execBfx (g : BitVec 3) (d a : BitVec 5) (o l : BitVec 6) (s : State) : Host.Outcome State Fault Refusal :=
  s.unary g d a (fun a => extractField a o l)

/-- bfi (R110): the other bits of cD stay. -/
def execBfi (g : BitVec 3) (d a : BitVec 5) (o l : BitVec 6) (s : State) : Host.Outcome State Fault Refusal :=
  s.act g (fun s => s.putInt d (insertField (s.me.val d) (s.me.val a) o l))

/-- Write an extension register and advance. -/
def State.putExt (s : State) (k : BitVec 3) (w : Word) : State :=
  (s.modMe (fun x => { x with e := x.e.set k.toNat w })).advance

/-- lxi (R111): one halfword of eE. -/
def execLxi (g e : BitVec 3) (k : BitVec 2) (i : BitVec 16) (s : State) : Host.Outcome State Fault Refusal :=
  s.act g (fun s =>
    let sh := 16 * k.toNat
    .ok (s.putExt e ((s.me.ext e.toNat &&& ~~~((0xFFFF#64) <<< sh)) ||| (i.setWidth 64 <<< sh))))

/-- lxi.z (R111): one halfword of eE, the rest 0. -/
def execLxiZ (g e : BitVec 3) (k : BitVec 2) (i : BitVec 16) (s : State) : Host.Outcome State Fault Refusal :=
  s.act g (fun s => .ok (s.putExt e (i.setWidth 64 <<< (16 * k.toNat))))

/-- mvx eD, cA (R112). -/
def execMvxToE (g d : BitVec 3) (a : BitVec 5) (s : State) : Host.Outcome State Fault Refusal :=
  s.act g (fun s => .ok (s.putExt d (s.me.val a)))

/-- mvx cD, eA (R112). -/
def execMvxFromE (g : BitVec 3) (d : BitVec 5) (a : BitVec 3) (s : State) : Host.Outcome State Fault Refusal :=
  s.act g (fun s => s.putInt d (s.me.ext a.toNat))

/-- nop (R125): no effect. -/
def execNop (s : State) : Host.Outcome State Fault Refusal :=
  .next s.advance

/-- The 16-bit nop (R67). -/
def execNop16 (s : State) : Host.Outcome State Fault Refusal :=
  .next s.advance

/-- A 16-bit form's register number, c0 to c15 (R67). -/
def shortReg (d : BitVec 4) : BitVec 5 := d.setWidth 5

/-- The 16-bit mov (R67): as `mov` with guard p0. -/
def execMov16 (d a : BitVec 4) (s : State) : Host.Outcome State Fault Refusal :=
  s.unary 0#3 (shortReg d) (shortReg a) id

/-- The 16-bit addi (R67): the immediate is −4 to 3. -/
def execAddi16 (d : BitVec 4) (i : BitVec 3) (a : BitVec 4) (s : State) : Host.Outcome State Fault Refusal :=
  s.unary 0#3 (shortReg d) (shortReg a) (fun a => a + imm i)

/-- The 16-bit add (R67): cD + cS. -/
def execAdd16 (d a : BitVec 4) (s : State) : Host.Outcome State Fault Refusal :=
  s.binary 0#3 (shortReg d) (shortReg d) (shortReg a) (· + ·)

end Sys2Proof.Machine
end

