-- ==== Sys2Proof/Machine/Dispatch.lean ====
section
/-! DEFINITION. One arm per row of the opcode table: each calls its meaning. -/

namespace Sys2Proof.Machine

def exec (i : Instr) (s : State) : Host.Outcome State Fault Refusal :=
  match i with
  | .add g d a b => Sys2Proof.Machine.execAdd g d a b s
  | .sub g d a b => Sys2Proof.Machine.execSub g d a b s
  | .and g d a b => Sys2Proof.Machine.execAnd g d a b s
  | .or g d a b => Sys2Proof.Machine.execOr g d a b s
  | .xor g d a b => Sys2Proof.Machine.execXor g d a b s
  | .shl g d a b => Sys2Proof.Machine.execShl g d a b s
  | .shr g d a b => Sys2Proof.Machine.execShr g d a b s
  | .sar g d a b => Sys2Proof.Machine.execSar g d a b s
  | .mul g d a b => Sys2Proof.Machine.execMul g d a b s
  | .mulh g d a b => Sys2Proof.Machine.execMulh g d a b s
  | .mulhz g d a b => Sys2Proof.Machine.execMulhz g d a b s
  | .div g d a b => Sys2Proof.Machine.execDiv g d a b s
  | .divz g d a b => Sys2Proof.Machine.execDivz g d a b s
  | .rem g d a b => Sys2Proof.Machine.execRem g d a b s
  | .remz g d a b => Sys2Proof.Machine.execRemz g d a b s
  | .min g d a b => Sys2Proof.Machine.execMin g d a b s
  | .max g d a b => Sys2Proof.Machine.execMax g d a b s
  | .minz g d a b => Sys2Proof.Machine.execMinz g d a b s
  | .maxz g d a b => Sys2Proof.Machine.execMaxz g d a b s
  | .clm g d a b => Sys2Proof.Machine.execClm g d a b s
  | .clmh g d a b => Sys2Proof.Machine.execClmh g d a b s
  | .clz g d a => Sys2Proof.Machine.execClz g d a s
  | .ctz g d a => Sys2Proof.Machine.execCtz g d a s
  | .pcnt g d a => Sys2Proof.Machine.execPcnt g d a s
  | .bswp g d a => Sys2Proof.Machine.execBswp g d a s
  | .mov g d a => Sys2Proof.Machine.execMov g d a s
  | .sext8 g d a => Sys2Proof.Machine.execSext8 g d a s
  | .sext16 g d a => Sys2Proof.Machine.execSext16 g d a s
  | .sext32 g d a => Sys2Proof.Machine.execSext32 g d a s
  | .zext8 g d a => Sys2Proof.Machine.execZext8 g d a s
  | .zext16 g d a => Sys2Proof.Machine.execZext16 g d a s
  | .zext32 g d a => Sys2Proof.Machine.execZext32 g d a s
  | .sel g d p a b => Sys2Proof.Machine.execSel g d p a b s
  | .shli g d a n => Sys2Proof.Machine.execShli g d a n s
  | .shri g d a n => Sys2Proof.Machine.execShri g d a n s
  | .sari g d a n => Sys2Proof.Machine.execSari g d a n s
  | .nop => Sys2Proof.Machine.execNop s
  | .addi g d a imm => Sys2Proof.Machine.execAddi g d a imm s
  | .andi g d a imm => Sys2Proof.Machine.execAndi g d a imm s
  | .ori g d a imm => Sys2Proof.Machine.execOri g d a imm s
  | .xori g d a imm => Sys2Proof.Machine.execXori g d a imm s
  | .lhi g d imm => Sys2Proof.Machine.execLhi g d imm s
  | .bfx g d a o l => Sys2Proof.Machine.execBfx g d a o l s
  | .bfi g d a o l => Sys2Proof.Machine.execBfi g d a o l s
  | .cbnd g d a b => Sys2Proof.Machine.execCbnd g d a b s
  | .cprm g d a b => Sys2Proof.Machine.execCprm g d a b s
  | .cget g d a sel => Sys2Proof.Machine.execCget g d a sel s
  | .cfrz g d a => Sys2Proof.Machine.execCfrz g d a s
  | .cmv g d a => Sys2Proof.Machine.execCmv g d a s
  | .ctst g d a => Sys2Proof.Machine.execCtst g d a s
  | .cadd g d a b => Sys2Proof.Machine.execCadd g d a b s
  | .cmint g d a b => Sys2Proof.Machine.execCmint g d a b s
  | .caddImm g d a imm => Sys2Proof.Machine.execCaddImm g d a imm s
  | .cmp g p q t c a b => Sys2Proof.Machine.execCmp g p q t c a b s
  | .cmpi g p q t c a imm => Sys2Proof.Machine.execCmpi g p q t c a imm s
  | .fcmp g p q t c a b => Sys2Proof.Machine.execFcmp g p q t c a b s
  | .pcmb g p q t c a b => Sys2Proof.Machine.execPcmb g p q t c a b s
  | .br g o => Sys2Proof.Machine.execBr g o s
  | .j o => Sys2Proof.Machine.execJ o s
  | .jal g o => Sys2Proof.Machine.execJal g o s
  | .jr g d a => Sys2Proof.Machine.execJr g d a s
  | .ret g a => Sys2Proof.Machine.execRet g a s
  | .rep g t c l sel r => Sys2Proof.Machine.execRep g t c l sel r s
  | .lxi g e k imm => Sys2Proof.Machine.execLxi g e k imm s
  | .lxiZ g e k imm => Sys2Proof.Machine.execLxiZ g e k imm s
  | .mvxToE g d a => Sys2Proof.Machine.execMvxToE g d a s
  | .mvxFromE g d a => Sys2Proof.Machine.execMvxFromE g d a s
  | .ld g d a o sel => Sys2Proof.Machine.execLd g d a o sel s
  | .st g d a o sel => Sys2Proof.Machine.execSt g d a o sel s
  | .ldF g d a o sel => Sys2Proof.Machine.execLdF g d a o sel s
  | .ldFc g d a o sel => Sys2Proof.Machine.execLdFc g d a o sel s
  | .stE g d a o sel => Sys2Proof.Machine.execStE g d a o sel s
  | .ldc g d a o => Sys2Proof.Machine.execLdc g d a o s
  | .stc g d a o => Sys2Proof.Machine.execStc g d a o s
  | .vld g d a o => Sys2Proof.Machine.execVld g d a o s
  | .vst g d a o => Sys2Proof.Machine.execVst g d a o s
  | .vlds g d a b w => Sys2Proof.Machine.execVlds g d a b w s
  | .vsts g d a b w => Sys2Proof.Machine.execVsts g d a b w s
  | .vldg g d a b w => Sys2Proof.Machine.execVldg g d a b w s
  | .vstx g d a b w => Sys2Proof.Machine.execVstx g d a b w s
  | .pushm g d a => Sys2Proof.Machine.execPushm g d a s
  | .popm g d a => Sys2Proof.Machine.execPopm g d a s
  | .fenceFar g => Sys2Proof.Machine.execFenceFar g s
  | .fenceEng g => Sys2Proof.Machine.execFenceEng g s
  | .fenceCore g => Sys2Proof.Machine.execFenceCore g s
  | .amoAdd g d a b w => Sys2Proof.Machine.execAmoAdd g d a b w s
  | .amoAnd g d a b w => Sys2Proof.Machine.execAmoAnd g d a b w s
  | .amoOr g d a b w => Sys2Proof.Machine.execAmoOr g d a b w s
  | .amoXor g d a b w => Sys2Proof.Machine.execAmoXor g d a b w s
  | .amoMin g d a b w => Sys2Proof.Machine.execAmoMin g d a b w s
  | .amoMax g d a b w => Sys2Proof.Machine.execAmoMax g d a b w s
  | .amoMinz g d a b w => Sys2Proof.Machine.execAmoMinz g d a b w s
  | .amoMaxz g d a b w => Sys2Proof.Machine.execAmoMaxz g d a b w s
  | .amoSwp g d a b w => Sys2Proof.Machine.execAmoSwp g d a b w s
  | .amoCas g d a b w => Sys2Proof.Machine.execAmoCas g d a b w s
  | .vamoAdd g d a b w => Sys2Proof.Machine.execVamoAdd g d a b w s
  | .vamoAnd g d a b w => Sys2Proof.Machine.execVamoAnd g d a b w s
  | .vamoOr g d a b w => Sys2Proof.Machine.execVamoOr g d a b w s
  | .vamoXor g d a b w => Sys2Proof.Machine.execVamoXor g d a b w s
  | .vamoMin g d a b w => Sys2Proof.Machine.execVamoMin g d a b w s
  | .vamoMax g d a b w => Sys2Proof.Machine.execVamoMax g d a b w s
  | .vamoMinz g d a b w => Sys2Proof.Machine.execVamoMinz g d a b w s
  | .vamoMaxz g d a b w => Sys2Proof.Machine.execVamoMaxz g d a b w s
  | .vamoSwp g d a b w => Sys2Proof.Machine.execVamoSwp g d a b w s
  | .acc g a b l f => Sys2Proof.Machine.execAcc g a b l f s
  | .maccMx8 g d a b => Sys2Proof.Machine.execMaccMx8 g d a b s
  | .maccMx4 g d a b => Sys2Proof.Machine.execMaccMx4 g d a b s
  | .seal g a k f => Sys2Proof.Machine.execSeal g a k f s
  | .feSet g a b => Sys2Proof.Machine.execFeSet g a b s
  | .feClr g a b => Sys2Proof.Machine.execFeClr g a b s
  | .vadd g d t a b r => Sys2Proof.Machine.execVadd g d t a b r s
  | .vsub g d t a b r => Sys2Proof.Machine.execVsub g d t a b r s
  | .vmul g d t a b r => Sys2Proof.Machine.execVmul g d t a b r s
  | .vmin g d t a b u => Sys2Proof.Machine.execVmin g d t a b u s
  | .vmax g d t a b u => Sys2Proof.Machine.execVmax g d t a b u s
  | .vabs g d t a => Sys2Proof.Machine.execVabs g d t a s
  | .vneg g d t a => Sys2Proof.Machine.execVneg g d t a s
  | .vdiv g d t a b r => Sys2Proof.Machine.execVdiv g d t a b r s
  | .vsqrt g d t a r => Sys2Proof.Machine.execVsqrt g d t a r s
  | .vfma g d t a b r => Sys2Proof.Machine.execVfma g d t a b r s
  | .vfms g d t a b r => Sys2Proof.Machine.execVfms g d t a b r s
  | .vfnma g d t a b r => Sys2Proof.Machine.execVfnma g d t a b r s
  | .vfnms g d t a b r => Sys2Proof.Machine.execVfnms g d t a b r s
  | .vrcp g d t a => Sys2Proof.Machine.execVrcp g d t a s
  | .vrsq g d t a => Sys2Proof.Machine.execVrsq g d t a s
  | .vex2 g d t a => Sys2Proof.Machine.execVex2 g d t a s
  | .vlg2 g d t a => Sys2Proof.Machine.execVlg2 g d t a s
  | .vtanh g d t a => Sys2Proof.Machine.execVtanh g d t a s
  | .vsin g d t a => Sys2Proof.Machine.execVsin g d t a s
  | .vcvt g d a e sel r => Sys2Proof.Machine.execVcvt g d a e sel r s
  | .vdot g d t a b r => Sys2Proof.Machine.execVdot g d t a b r s
  | .vredsum g d t a r => Sys2Proof.Machine.execVredsum g d t a r s
  | .vredmax g d t a => Sys2Proof.Machine.execVredmax g d t a s
  | .vredmin g d t a => Sys2Proof.Machine.execVredmin g d t a s
  | .vredx g t a b => Sys2Proof.Machine.execVredx g t a b s
  | .vcmp g d t c a b u => Sys2Proof.Machine.execVcmp g d t c a b u s
  | .vand g d a b => Sys2Proof.Machine.execVand g d a b s
  | .vor g d a b => Sys2Proof.Machine.execVor g d a b s
  | .vxor g d a b => Sys2Proof.Machine.execVxor g d a b s
  | .vsel g d t a b => Sys2Proof.Machine.execVsel g d t a b s
  | .viadd g d t a b => Sys2Proof.Machine.execViadd g d t a b s
  | .visub g d t a b => Sys2Proof.Machine.execVisub g d t a b s
  | .vimul g d t a b => Sys2Proof.Machine.execVimul g d t a b s
  | .vshl g d t a b => Sys2Proof.Machine.execVshl g d t a b s
  | .vshr g d t a b => Sys2Proof.Machine.execVshr g d t a b s
  | .vsar g d t a b => Sys2Proof.Machine.execVsar g d t a b s
  | .vpcnt g d t a => Sys2Proof.Machine.execVpcnt g d t a s
  | .vclm g d t a b => Sys2Proof.Machine.execVclm g d t a b s
  | .vperm g d t a b => Sys2Proof.Machine.execVperm g d t a b s
  | .vshuf g d t a idx => Sys2Proof.Machine.execVshuf g d t a idx s
  | .vslideUp g d t a idx => Sys2Proof.Machine.execVslideUp g d t a idx s
  | .vslideDn g d t a idx => Sys2Proof.Machine.execVslideDn g d t a idx s
  | .vsplat g d t a => Sys2Proof.Machine.execVsplat g d t a s
  | .vins g d t a idx => Sys2Proof.Machine.execVins g d t a idx s
  | .vext g d t a idx => Sys2Proof.Machine.execVext g d t a idx s
  | .vmov g d t a => Sys2Proof.Machine.execVmov g d t a s
  | .sbindIn g d a b => Sys2Proof.Machine.execSbindIn g d a b s
  | .sbindOut g d a b => Sys2Proof.Machine.execSbindOut g d a b s
  | .sfree g d => Sys2Proof.Machine.execSfree g d s
  | .sskip g d a => Sys2Proof.Machine.execSskip g d a s
  | .chset g a h => Sys2Proof.Machine.execChset g a h s
  | .chclr g h => Sys2Proof.Machine.execChclr g h s
  | .chst g d h => Sys2Proof.Machine.execChst g d h s
  | .snd g a h => Sys2Proof.Machine.execSnd g a h s
  | .sndv g a h => Sys2Proof.Machine.execSndv g a h s
  | .bsnd g a h => Sys2Proof.Machine.execBsnd g a h s
  | .rcv g d h => Sys2Proof.Machine.execRcv g d h s
  | .rcvv g d h => Sys2Proof.Machine.execRcvv g d h s
  | .brcv g a h => Sys2Proof.Machine.execBrcv g a h s
  | .alt g d a => Sys2Proof.Machine.execAlt g d a s
  | .altP g d a => Sys2Proof.Machine.execAltP g d a s
  | .altD g d a b => Sys2Proof.Machine.execAltD g d a b s
  | .altPD g d a b => Sys2Proof.Machine.execAltPD g d a b s
  | .mxq g d a b sel => Sys2Proof.Machine.execMxq g d a b sel s
  | .cpq g d a b m => Sys2Proof.Machine.execCpq g d a b m s
  | .jwait g a => Sys2Proof.Machine.execJwait g a s
  | .jst g d a => Sys2Proof.Machine.execJst g d a s
  | .mxf g => Sys2Proof.Machine.execMxf g s
  | .barr g b => Sys2Proof.Machine.execBarr g b s
  | .barw g b => Sys2Proof.Machine.execBarw g b s
  | .bar g b => Sys2Proof.Machine.execBar g b s
  | .wtu g a => Sys2Proof.Machine.execWtu g a s
  | .rdt g d => Sys2Proof.Machine.execRdt g d s
  | .spwn g a b k => Sys2Proof.Machine.execSpwn g a b k s
  | .hlt g => Sys2Proof.Machine.execHlt g s
  | .ckpt g a => Sys2Proof.Machine.execCkpt g a s
  | .mig g a => Sys2Proof.Machine.execMig g a s
  | .sstat g d k => Sys2Proof.Machine.execSstat g d k s
  | .csrr g d c => Sys2Proof.Machine.execCsrr g d c s
  | .csrw g c a => Sys2Proof.Machine.execCsrw g c a s
  | .csrx g d c a => Sys2Proof.Machine.execCsrx g d c a s
  | .trap g a => Sys2Proof.Machine.execTrap g a s
  | .eret g => Sys2Proof.Machine.execEret g s
  | .dbg g a => Sys2Proof.Machine.execDbg g a s
  | .rmap g d a => Sys2Proof.Machine.execRmap g d a s
  | .chmint g d a => Sys2Proof.Machine.execChmint g d a s
  | .pmint g d a => Sys2Proof.Machine.execPmint g d a s
  | .mov16 d sel => Sys2Proof.Machine.execMov16 d sel s
  | .addi16 d imm sel => Sys2Proof.Machine.execAddi16 d imm sel s
  | .add16 d sel => Sys2Proof.Machine.execAdd16 d sel s
  | .ld16 d imm sel => Sys2Proof.Machine.execLd16 d imm sel s
  | .st16 d imm sel => Sys2Proof.Machine.execSt16 d imm sel s
  | .br16 n o => Sys2Proof.Machine.execBr16 n o s
  | .j16 o => Sys2Proof.Machine.execJ16 o s
  | .snd16 d sel => Sys2Proof.Machine.execSnd16 d sel s
  | .rcv16 d sel => Sys2Proof.Machine.execRcv16 d sel s
  | .nop16 => Sys2Proof.Machine.execNop16 s
  | .rlx => Sys2Proof.Machine.execRlx s
  | .farReplyArrival => Sys2Proof.Machine.execFarReplyArrival s
  | .fenceConditionMet => Sys2Proof.Machine.execFenceConditionMet s
  | .icacheLineFill => Sys2Proof.Machine.execIcacheLineFill s
  | .wtuTargetReached => Sys2Proof.Machine.execWtuTargetReached s
  | .altDeadline => Sys2Proof.Machine.execAltDeadline s
  | .messageArrival => Sys2Proof.Machine.execMessageArrival s
  | .acknowledgementArrival => Sys2Proof.Machine.execAcknowledgementArrival s
  | .releaseArrival => Sys2Proof.Machine.execReleaseArrival s
  | .nackArrival => Sys2Proof.Machine.execNackArrival s
  | .pullCompletion => Sys2Proof.Machine.execPullCompletion s
  | .holderUpdate => Sys2Proof.Machine.execHolderUpdate s
  | .holderUpdateReply => Sys2Proof.Machine.execHolderUpdateReply s
  | .barrierRelease => Sys2Proof.Machine.execBarrierRelease s
  | .queueEntryGrant => Sys2Proof.Machine.execQueueEntryGrant s
  | .mxeStepBegin => Sys2Proof.Machine.execMxeStepBegin s
  | .accumulatorWrite => Sys2Proof.Machine.execAccumulatorWrite s
  | .drainGranuleWrite => Sys2Proof.Machine.execDrainGranuleWrite s
  | .mxeJobCompletion => Sys2Proof.Machine.execMxeJobCompletion s
  | .tileOffer => Sys2Proof.Machine.execTileOffer s
  | .tileGrant => Sys2Proof.Machine.execTileGrant s
  | .tileLands => Sys2Proof.Machine.execTileLands s
  | .outBufferFree => Sys2Proof.Machine.execOutBufferFree s
  | .tileOfferNack => Sys2Proof.Machine.execTileOfferNack s
  | .cpeTurn => Sys2Proof.Machine.execCpeTurn s
  | .cpeLineReply => Sys2Proof.Machine.execCpeLineReply s
  | .cpeChunkWrite => Sys2Proof.Machine.execCpeChunkWrite s
  | .cpeJobCompletion => Sys2Proof.Machine.execCpeJobCompletion s
  | .sliceRequestArrival => Sys2Proof.Machine.execSliceRequestArrival s
  | .tlbWalkEnd => Sys2Proof.Machine.execTlbWalkEnd s
  | .activeRoundStart => Sys2Proof.Machine.execActiveRoundStart s
  | .fallowRound => Sys2Proof.Machine.execFallowRound s
  | .refreshRound => Sys2Proof.Machine.execRefreshRound s
  | .slotPerform => Sys2Proof.Machine.execSlotPerform s
  | .reservedWrite => Sys2Proof.Machine.execReservedWrite s
  | .sliceReply => Sys2Proof.Machine.execSliceReply s
  | .freezeRequest => Sys2Proof.Machine.execFreezeRequest s
  | .doneMessage => Sys2Proof.Machine.execDoneMessage s
  | .panMintRequest => Sys2Proof.Machine.execPanMintRequest s
  | .contributorMintCheck => Sys2Proof.Machine.execContributorMintCheck s
  | .masterSealRequest => Sys2Proof.Machine.execMasterSealRequest s
  | .sealBegin => Sys2Proof.Machine.execSealBegin s
  | .panConversionDone => Sys2Proof.Machine.execPanConversionDone s
  | .panZeroingDone => Sys2Proof.Machine.execPanZeroingDone s
  | .panTableReply => Sys2Proof.Machine.execPanTableReply s
  | .rakeThreshold => Sys2Proof.Machine.execRakeThreshold s
  | .rakeProbe => Sys2Proof.Machine.execRakeProbe s
  | .rakeEcho => Sys2Proof.Machine.execRakeEcho s
  | .rakeEntry => Sys2Proof.Machine.execRakeEntry s
  | .rakeConfirm => Sys2Proof.Machine.execRakeConfirm s
  | .rakeConfirmEcho => Sys2Proof.Machine.execRakeConfirmEcho s
  | .rakeEnd => Sys2Proof.Machine.execRakeEnd s
  | .seqReq => Sys2Proof.Machine.execSeqReq s
  | .seqGrant => Sys2Proof.Machine.execSeqGrant s
  | .recordWordResend => Sys2Proof.Machine.execRecordWordResend s
  | .supervisorRecord => Sys2Proof.Machine.execSupervisorRecord s
  | .jobRecordIntake => Sys2Proof.Machine.execJobRecordIntake s
  | .hostRecordWrite => Sys2Proof.Machine.execHostRecordWrite s
  | .jobSelection => Sys2Proof.Machine.execJobSelection s
  | .jobPlacement => Sys2Proof.Machine.execJobPlacement s
  | .wake => Sys2Proof.Machine.execWake s
  | .wakeChannelBind => Sys2Proof.Machine.execWakeChannelBind s
  | .jobCompletion => Sys2Proof.Machine.execJobCompletion s
  | .noticeResend => Sys2Proof.Machine.execNoticeResend s
  | .qcfgWrite => Sys2Proof.Machine.execQcfgWrite s
  | .preempt => Sys2Proof.Machine.execPreempt s
  | .preemptionMessage => Sys2Proof.Machine.execPreemptionMessage s
  | .preemptSaveComplete => Sys2Proof.Machine.execPreemptSaveComplete s
  | .resume => Sys2Proof.Machine.execResume s
  | .resumeRelease => Sys2Proof.Machine.execResumeRelease s
  | .abort => Sys2Proof.Machine.execAbort s
  | .registerRecallSaveArea => Sys2Proof.Machine.execRegisterRecallSaveArea s
  | .crystalCurrent => Sys2Proof.Machine.execCrystalCurrent s
  | .selfCrystal => Sys2Proof.Machine.execSelfCrystal s
  | .logWrite => Sys2Proof.Machine.execLogWrite s
  | .uncorrectableSoftError => Sys2Proof.Machine.execUncorrectableSoftError s
  | .softErrorCorrected => Sys2Proof.Machine.execSoftErrorCorrected s
  | .coreRetirement => Sys2Proof.Machine.execCoreRetirement s
  | .substitutionRestoreDone => Sys2Proof.Machine.execSubstitutionRestoreDone s
  | .debugHalt => Sys2Proof.Machine.execDebugHalt s
  | .debugRegisterWrite => Sys2Proof.Machine.execDebugRegisterWrite s
  | .packetHop => Sys2Proof.Machine.execPacketHop s
  | .heldPacketRelease => Sys2Proof.Machine.execHeldPacketRelease s
  | .remapWrite => Sys2Proof.Machine.execRemapWrite s
  | .routeTableWrite => Sys2Proof.Machine.execRouteTableWrite s
  | .bcfgOosWrite => Sys2Proof.Machine.execBcfgOosWrite s
  | .reserveTake => Sys2Proof.Machine.execReserveTake s
  | .reserveRelease => Sys2Proof.Machine.execReserveRelease s
  | .deviceWindowAccess => Sys2Proof.Machine.execDeviceWindowAccess s
  | .parentClockStop => Sys2Proof.Machine.execParentClockStop s
  | .lostClockReport => Sys2Proof.Machine.execLostClockReport s
  | .reroot => Sys2Proof.Machine.execReroot s
  | .rerootRelease => Sys2Proof.Machine.execRerootRelease s
  | .moduleReset => Sys2Proof.Machine.execModuleReset s
  | .bootStrandStart => Sys2Proof.Machine.execBootStrandStart s
  | .partitionConfigWrite => Sys2Proof.Machine.execPartitionConfigWrite s
  | .partitionReset => Sys2Proof.Machine.execPartitionReset s
  | .unitLend => Sys2Proof.Machine.execUnitLend s
  | .unitRecall => Sys2Proof.Machine.execUnitRecall s
  | .pageTableWrite => Sys2Proof.Machine.execPageTableWrite s
  | .panEntryRemoval => Sys2Proof.Machine.execPanEntryRemoval s
  | .ppwrWrite => Sys2Proof.Machine.execPpwrWrite s
  | .modeChange => Sys2Proof.Machine.execModeChange s
  | .thermalLimit => Sys2Proof.Machine.execThermalLimit s
  | .thermalClear => Sys2Proof.Machine.execThermalClear s
  | .ptpSync => Sys2Proof.Machine.execPtpSync s
  | .ptpFollowUp => Sys2Proof.Machine.execPtpFollowUp s
  | .ptpDelayReq => Sys2Proof.Machine.execPtpDelayReq s
  | .ptpDelayResp => Sys2Proof.Machine.execPtpDelayResp s
  | .syncTimeout => Sys2Proof.Machine.execSyncTimeout s
  | .frameSlot => Sys2Proof.Machine.execFrameSlot s
  | .frameArrival => Sys2Proof.Machine.execFrameArrival s
  | .tokenRefill => Sys2Proof.Machine.execTokenRefill s
  | .vfConfigWrite => Sys2Proof.Machine.execVfConfigWrite s
  | .vfFlush => Sys2Proof.Machine.execVfFlush s
  | .sluiceClose => Sys2Proof.Machine.execSluiceClose s
  | .sluiceOpen => Sys2Proof.Machine.execSluiceOpen s
  | .lowPowerEnter => Sys2Proof.Machine.execLowPowerEnter s
  | .closeMarker => Sys2Proof.Machine.execCloseMarker s
  | .drainComplete => Sys2Proof.Machine.execDrainComplete s
  | .wakeHint => Sys2Proof.Machine.execWakeHint s
  | .trainingSuccess => Sys2Proof.Machine.execTrainingSuccess s
  | .trainingTimeout => Sys2Proof.Machine.execTrainingTimeout s
  | .migRecordArrival => Sys2Proof.Machine.execMigRecordArrival s
  | .migAccept => Sys2Proof.Machine.execMigAccept s
  | .migRefusal => Sys2Proof.Machine.execMigRefusal s
  | .hostPanTake => Sys2Proof.Machine.execHostPanTake s
  | .hostPanAccess => Sys2Proof.Machine.execHostPanAccess s
  | .pret => Sys2Proof.Machine.execPret s
  | .tctlWrite => Sys2Proof.Machine.execTctlWrite s
  | .trunGo => Sys2Proof.Machine.execTrunGo s
  | .patternTestResult => Sys2Proof.Machine.execPatternTestResult s
  | .repairWrite => Sys2Proof.Machine.execRepairWrite s
  | .seedWrite => Sys2Proof.Machine.execSeedWrite s
  | .quote => Sys2Proof.Machine.execQuote s
  | .meterReadout => Sys2Proof.Machine.execMeterReadout s
  | .raiseFusedMinimum => Sys2Proof.Machine.execRaiseFusedMinimum s
  | .firmwareImageSwitch => Sys2Proof.Machine.execFirmwareImageSwitch s
  | .tamperAlarm => Sys2Proof.Machine.execTamperAlarm s
  | .alarmExit => Sys2Proof.Machine.execAlarmExit s
  | .registerWrite => Sys2Proof.Machine.execRegisterWrite s
  | .deliveryTokenReturn => Sys2Proof.Machine.execDeliveryTokenReturn s
  | .ptpTimerDue => Sys2Proof.Machine.execPtpTimerDue s

end Sys2Proof.Machine
end

