-- ==== Sys2Proof/Machine/Step.lean ====
section
/-! DEFINITION. One step of the panel: the event or the instruction issue that comes next. -/

namespace Sys2Proof.Machine

/-- Run the instruction that an issue presents; the second half of a legal relaxed pair runs in the same slot (R69). -/
def runIssued (s : State) (i : Instr) : Host.Outcome State Fault Refusal :=
  match exec i s with
  | .next s' =>
    match isPair s.cur.bits && s'.cur.relaxed, secondHalf s.cur.bits with
    | true, some j =>
      match exec j s' with
      | .next s'' => .next s''.afterIssue
      | o => o
    | _, _ => .next s'.afterIssue
  | o => o

/-- One step. -/
def step (s : State) : Host.Outcome State Fault Refusal :=
  match s.nextAct with
  | .idle => .next { s with now := s.now + 1 }
  | .event d rest =>
    if s.stopped d then .next (s.park d rest)
    else if s.strayed d then .next (s.takeBack d rest)
    else exec d.event (s.atEvent d rest)
  | .issue t p k =>
    match s.issue t p k with
    | (s', none) => .next s'.afterIssue
    | (s', some i) => runIssued s' i

/-- `s` with an instruction placed where the next step fetches: slot 0 of core 0 holds a Machine-mode strand as the
supervisor starts one in the boot partition (R425), at address 0 of a code range of one page, the block's cache holds
line 0 with the instruction's bytes, and nothing else is to come before its issue. -/
def State.withFetchWord (s : State) (nbits w : Nat) : State :=
  let line : CacheLine := { line := 0, bytes := natBytes 64 (w % 2 ^ nbits) }
  let x : Strand := { Strand.fresh with sst := 3#13, codeLo := 0, codeHi := 2097152 }
  let blk := s.block 0
  let k := s.count (s.partOf 0) / 8 * 8 + 8
  { s with
    now := s.timeAt (s.partOf 0) k
    cores := [(0, { Core.reset 0 with slots := [(0, x)] })]
    blocks := s.blocks.set 0 { blk with icache := blk.icache.set 0 line, fetches := [] }
    agenda := [] }

end Sys2Proof.Machine
end

