-- ==== Sys2Proof/Safety.lean ====
section
/-! DEFINITION. The terms in which the statements speak: what a register instruction leaves, what "nothing but the
executing strand" means, the guard of an instruction, the canonical form of every memory, and where a store goes. -/

namespace Sys2Proof.Machine

/-! ## Registers -/

/-- May c register `d` be overwritten: it discards writes, or holds no linear capability (R23, R102)? -/
def State.mayWrite (s : State) (d : BitVec 5) : Prop := d = 0#5 ∨ (s.me.reg d).linear = false

/-- The state after an instruction that writes integer `w` to c`d` and lets the strand issue again `n` core cycles
later (R23, R29, R105). -/
def State.wrote (s : State) (d : BitVec 5) (w : Word) (n : Nat) : State :=
  (s.modMe (fun x => x.setReg d (CReg.int w))).advanceBy n

/-- `t` is `s` with nothing changed but the executing strand. -/
def State.OnlyStrand (s t : State) : Prop := t = s.setMe t.me

/-- `y` is strand `x` with nothing changed but its c registers with their `dmask` bits, its place in the program and
its next issue. -/
def Strand.OnlyRegisters (x y : Strand) : Prop :=
  y = { x with c := y.c, dmask := y.dmask, pc := y.pc, rep := y.rep, readyAt := y.readyAt }

/-- `y` is strand `x` with nothing changed but its place in the program and its next issue. -/
def Strand.OnlyMoved (x y : Strand) : Prop := y = { x with pc := y.pc, rep := y.rep, readyAt := y.readyAt }

/-- The c registers that an instruction may write, for the instructions that touch nothing but c registers: integer
and bit-field operations, the reads of other registers into a c register, and the capability moves, which also clear
a linear source (R28). -/
def writesOnly : Instr → Option (List (BitVec 5))
  | .add _ d _ _ | .sub _ d _ _ | .and _ d _ _ | .or _ d _ _ | .xor _ d _ _ | .shl _ d _ _ | .shr _ d _ _
  | .sar _ d _ _ | .mul _ d _ _ | .mulh _ d _ _ | .mulhz _ d _ _ | .div _ d _ _ | .divz _ d _ _ | .rem _ d _ _
  | .remz _ d _ _ | .min _ d _ _ | .max _ d _ _ | .minz _ d _ _ | .maxz _ d _ _ | .clm _ d _ _ | .clmh _ d _ _ =>
    some [d]
  | .clz _ d _ | .ctz _ d _ | .pcnt _ d _ | .bswp _ d _ | .mov _ d _ | .sext8 _ d _ | .sext16 _ d _ | .sext32 _ d _
  | .zext8 _ d _ | .zext16 _ d _ | .zext32 _ d _ => some [d]
  | .sel _ d _ _ _ | .shli _ d _ _ | .shri _ d _ _ | .sari _ d _ _ | .addi _ d _ _ | .andi _ d _ _ | .ori _ d _ _
  | .xori _ d _ _ | .lhi _ d _ | .bfx _ d _ _ _ | .bfi _ d _ _ _ => some [d]
  | .mov16 d _ | .addi16 d _ _ | .add16 d _ => some [d.setWidth 5]
  | .nop | .nop16 => some []
  | .mvxFromE _ d _ | .cget _ d _ _ | .ctst _ d _ | .sstat _ d _ | .csrr _ d _ | .chst _ d _ => some [d]
  | .cbnd _ d a _ | .cprm _ d a _ | .cmv _ d a | .cadd _ d a _ | .caddImm _ d a _ => some [d, a]
  | .cmint _ d _ _ | .chmint _ d _ => some [d]
  | _ => none

/-- May capability `r`, made from c`a`, be written to c`d`: `d` may be overwritten or is `a` itself, and a linear source
has somewhere to go (R28, R102)? -/
def State.mayMove (s : State) (d a : BitVec 5) : Prop :=
  (d = a ∨ s.mayWrite d) ∧ ((s.me.reg a).linear = true → d ≠ 0#5)

/-- The state after a capability made from c`a` is written to c`d`: a linear source other than `d` becomes an untagged
zero (R28). -/
def State.moved (s : State) (d a : BitVec 5) (r : CReg) : State :=
  (s.modMe (fun x => (if (s.me.reg a).linear && a != d then x.setReg a CReg.zero else x).setReg d r)).advance

/-! ## Guards -/

/-- The guard of an instruction that acts only when it holds 1 (R62), with whether it names a v register (R31); the
compares write their predicates under R124 and are not among them. -/
def actsUnder : Instr → Option (BitVec 3 × Bool)
  | .add g _ _ _ | .sub g _ _ _ | .and g _ _ _ | .or g _ _ _ | .xor g _ _ _ | .shl g _ _ _ | .shr g _ _ _
  | .sar g _ _ _ | .mul g _ _ _ | .mulh g _ _ _ | .mulhz g _ _ _ | .div g _ _ _ | .divz g _ _ _ | .rem g _ _ _
  | .remz g _ _ _ | .min g _ _ _ | .max g _ _ _ | .minz g _ _ _ | .maxz g _ _ _ | .clm g _ _ _ | .clmh g _ _ _
  | .clz g _ _ | .ctz g _ _ | .pcnt g _ _ | .bswp g _ _ | .mov g _ _ | .sext8 g _ _ | .sext16 g _ _ | .sext32 g _ _
  | .zext8 g _ _ | .zext16 g _ _ | .zext32 g _ _ | .sel g _ _ _ _ | .shli g _ _ _ | .shri g _ _ _ | .sari g _ _ _
  | .addi g _ _ _ | .andi g _ _ _ | .ori g _ _ _ | .xori g _ _ _ | .lhi g _ _ | .bfx g _ _ _ _ | .bfi g _ _ _ _
  | .cbnd g _ _ _ | .cprm g _ _ _ | .cget g _ _ _ | .cfrz g _ _ | .cmv g _ _ | .ctst g _ _ | .cadd g _ _ _
  | .cmint g _ _ _ | .caddImm g _ _ _ | .br g _ | .br16 g _ | .jal g _ | .jr g _ _ | .ret g _ | .rep g _ _ _ _ _
  | .lxi g _ _ _ | .lxiZ g _ _ _ | .mvxToE g _ _ | .mvxFromE g _ _ | .ld g _ _ _ _ | .st g _ _ _ _ | .ldF g _ _ _ _
  | .ldFc g _ _ _ _ | .stE g _ _ _ _ | .ldc g _ _ _ | .stc g _ _ _ | .pushm g _ _ | .popm g _ _ | .fenceFar g
  | .fenceEng g | .fenceCore g | .amoAdd g _ _ _ _ | .amoAnd g _ _ _ _ | .amoOr g _ _ _ _ | .amoXor g _ _ _ _
  | .amoMin g _ _ _ _ | .amoMax g _ _ _ _ | .amoMinz g _ _ _ _ | .amoMaxz g _ _ _ _ | .amoSwp g _ _ _ _
  | .amoCas g _ _ _ _ | .seal g _ _ _ | .feSet g _ _ | .feClr g _ _ | .chset g _ _ | .chclr g _ | .chst g _ _
  | .snd g _ _ | .bsnd g _ _ | .rcv g _ _ | .brcv g _ _ | .alt g _ _ | .altP g _ _ | .altD g _ _ _ | .altPD g _ _ _
  | .mxq g _ _ _ _ | .cpq g _ _ _ _ | .jwait g _ | .jst g _ _ | .mxf g | .barr g _ | .barw g _ | .bar g _ | .wtu g _
  | .rdt g _ | .spwn g _ _ _ | .hlt g | .ckpt g _ | .mig g _ | .sstat g _ _ | .csrr g _ _ | .csrw g _ _
  | .csrx g _ _ _ | .trap g _ | .eret g | .dbg g _ | .rmap g _ _ | .chmint g _ _ | .pmint g _ _ => some (g, false)
  | .vld g _ _ _ | .vst g _ _ _ | .vlds g _ _ _ _ | .vsts g _ _ _ _ | .vldg g _ _ _ _ | .vstx g _ _ _ _
  | .vamoAdd g _ _ _ _ | .vamoAnd g _ _ _ _ | .vamoOr g _ _ _ _ | .vamoXor g _ _ _ _ | .vamoMin g _ _ _ _
  | .vamoMax g _ _ _ _ | .vamoMinz g _ _ _ _ | .vamoMaxz g _ _ _ _ | .vamoSwp g _ _ _ _ | .acc g _ _ _ _
  | .maccMx8 g _ _ _ | .maccMx4 g _ _ _ | .vadd g _ _ _ _ _ | .vsub g _ _ _ _ _ | .vmul g _ _ _ _ _
  | .vmin g _ _ _ _ _ | .vmax g _ _ _ _ _ | .vabs g _ _ _ | .vneg g _ _ _ | .vdiv g _ _ _ _ _ | .vsqrt g _ _ _ _
  | .vfma g _ _ _ _ _ | .vfms g _ _ _ _ _ | .vfnma g _ _ _ _ _ | .vfnms g _ _ _ _ _ | .vrcp g _ _ _ | .vrsq g _ _ _
  | .vex2 g _ _ _ | .vlg2 g _ _ _ | .vtanh g _ _ _ | .vsin g _ _ _ | .vcvt g _ _ _ _ _ | .vdot g _ _ _ _ _
  | .vredsum g _ _ _ _ | .vredmax g _ _ _ | .vredmin g _ _ _ | .vredx g _ _ _ | .vcmp g _ _ _ _ _ _ | .vand g _ _ _
  | .vor g _ _ _ | .vxor g _ _ _ | .vsel g _ _ _ _ | .viadd g _ _ _ _ | .visub g _ _ _ _ | .vimul g _ _ _ _
  | .vshl g _ _ _ _ | .vshr g _ _ _ _ | .vsar g _ _ _ _ | .vpcnt g _ _ _ | .vclm g _ _ _ _ | .vperm g _ _ _ _
  | .vshuf g _ _ _ _ | .vslideUp g _ _ _ _ | .vslideDn g _ _ _ _ | .vsplat g _ _ _ | .vins g _ _ _ _
  | .vext g _ _ _ _ | .vmov g _ _ _ | .sbindIn g _ _ _ | .sbindOut g _ _ _ | .sfree g _ | .sskip g _ _
  | .sndv g _ _ | .rcvv g _ _ => some (g, true)
  | _ => none

/-! ## Memory -/

/-- Every memory of the panel stands in its canonical form: the scratchpads, HBM and host memory. -/
def State.MemoriesCanonical (s : State) : Prop :=
  (∀ e ∈ s.cores, e.2.sp.wf = true) ∧ s.hbm.wf = true ∧ s.host.wf = true

/-- The scratchpad of core `p` reads in `t`, at every address outside the `n` bytes from `a`, what it reads in `s`. -/
def State.SameOutside (s t : State) (p a n : Nat) : Prop :=
  ∀ b, (b < a ∨ a + n ≤ b) → (t.core p).sp.read b = (s.core p).sp.read b

/-- Bytes `b` stand in the scratchpad of core `p` from address `a`. -/
def State.Holds (s : State) (p a : Nat) (b : List Byte) : Prop := (s.core p).sp.readN a b.length = b

/-- The `n` bytes that a store through this base puts into the scratchpad: none where the base is no scratchpad window. -/
def windowBytes (r : CReg) (n : Nat) : Nat := if r.place = .window then n else 0

/-- The c registers that a scalar memory instruction may write, and the scratchpad bytes it may store to: the address
and the number of bytes, none of them where its base is not a scratchpad window. -/
def memoryEffect (s : State) : Instr → Option (List (BitVec 5) × Nat × Nat)
  | .ld _ d _ _ _ | .ldF _ d _ _ _ | .ldc _ d _ _ => some ([d], 0, 0)
  | .ld16 d _ _ => some ([d.setWidth 5], 0, 0)
  | .st _ _ a o z =>
    some ([], (effective (s.me.reg a) o (sizeOf z)).toNat % 2 ^ 18, windowBytes (s.me.reg a) (sizeOf z))
  | .st16 _ i a =>
    some ([], ((s.me.val (a.setWidth 5)).toNat + 8 * i.toNat) % 2 ^ 18, windowBytes (s.me.reg (a.setWidth 5)) 8)
  | .stc _ d a o => some ([d], (effective (s.me.reg a) o 16).toNat % 2 ^ 18, windowBytes (s.me.reg a) 16)
  | .amoAdd _ d a _ w | .amoAnd _ d a _ w | .amoOr _ d a _ w | .amoXor _ d a _ w | .amoMin _ d a _ w
  | .amoMax _ d a _ w | .amoMinz _ d a _ w | .amoMaxz _ d a _ w | .amoSwp _ d a _ w | .amoCas _ d a _ w =>
    some ([d], (s.me.val a).toNat % 2 ^ 18, windowBytes (s.me.reg a) (if w = 0#1 then 4 else 8))
  | .pushm _ d a =>
    some (regRange d a, s.me.hsp.toNat - 16 * (a.toNat + 1 - d.toNat), 16 * (a.toNat + 1 - d.toNat))
  | .popm _ d a => some (regRange d a, 0, 0)
  | _ => none

/-- The granules whose tags a load may clear because it takes a linear capability out of them (R134, R138, R144). -/
def takenGranules (s : State) : Instr → List Nat
  | .ldc _ _ a o =>
    if (s.me.reg a).place = .window then [(effective (s.me.reg a) o 16).toNat % 2 ^ 18 / 16] else []
  | .popm _ d a => (List.range (a.toNat + 1 - d.toNat)).map (fun i => s.me.hsp.toNat / 16 + i)
  | _ => []

/-- The granules outside these have in `t` the capability tags of `s` on core `p`. -/
def State.SameTags (s t : State) (p : Nat) (gs : List Nat) : Prop :=
  ∀ g, g ∉ gs → NatSet.has (t.core p).spTags g = NatSet.has (s.core p).spTags g

/-- The granules of core `p` are full in `t` where they are in `s`. -/
def State.SameFull (s t : State) (p : Nat) : Prop := ∀ g, (t.core p).full g = (s.core p).full g

/-! ## Vectors -/

/-- Lane `i` of `w` is `f i`, for every lane of the width. -/
def LanesAre (width : Nat) (w : BitVec 512) (f : Nat → Nat) : Prop := ∀ i < 512 / width, lane width w i = f i % 2 ^ width

/-- The flags of `n` lanes together. -/
def orFlags (n : Nat) (f : Nat → BitVec 5) : BitVec 5 := (List.range n).foldl (fun fl i => fl ||| f i) 0#5

/-- The strand with `sst.VE` set, as a vector instruction that acts finds it (R31). -/
def State.enabled (s : State) : State := s.modMe Strand.setVe

/-- The state after a vector instruction: its in-streams popped, its flags raised, its result pushed or written, its
next issue `n` cycles away (R105, R159, R182). -/
def State.vectorDone (s : State) (reads : List (BitVec 4)) (d : BitVec 4) (w : BitVec 512) (fl : BitVec 5) (n : Nat) :
    State :=
  (((s.popAll reads).modMe (fun x => x.raise fl)).writeVec d w).advanceBy n

/-- The magnitude p/d × 2^e, in steps of 2^q, is made the whole number `n` of steps by one rounding (R53); `rnd` is the random
number of SR. -/
def roundsTo (mode : Rnd) (neg : Bool) (p d : Nat) (e q : Int) (rnd n : Nat) : Prop :=
  let den := d * 2 ^ (q - e).toNat
  let lo := p * 2 ^ (e - q).toNat / den
  let rem := p * 2 ^ (e - q).toNat % den
  match mode with
  | .rne => (2 * rem < den → n = lo) ∧ (den < 2 * rem → n = lo + 1) ∧ (2 * rem = den → (n = lo ∨ n = lo + 1) ∧ n % 2 = 0)
  | .rtz => n = lo
  | .rup => n = if neg = false ∧ rem ≠ 0 then lo + 1 else lo
  | .rdn => n = if neg = true ∧ rem ≠ 0 then lo + 1 else lo
  | .sr => n = if rnd < rem * 2 ^ 32 / den then lo + 1 else lo

/-- `r` is the bits and the flags of (−1)^neg × p/d × 2^e, p > 0, rounded once to format `f` (R49, R50, R53): the steps are those
of the binade of the value, the subnormal ones below the least normal, and a rounded magnitude above the largest finite one is
an overflow. -/
def Fmt.OneRounding (f : Fmt) (mode : Rnd) (neg : Bool) (p d : Nat) (e : Int) (rnd : Nat) (r : Nat × BitVec 5) : Prop :=
  ∃ (q : Int) (n : Nat),
    let den := d * 2 ^ (q - e).toNat
    let num := p * 2 ^ (e - q).toNat
    let least : Int := 1 - f.bias - f.mb
    num < 2 ^ (f.mb + 1) * den ∧ (q = least ∨ (least < q ∧ 2 ^ f.mb * den ≤ num)) ∧
    roundsTo mode neg p d e q rnd n ∧
    ∃ a b, f.decode f.largest = .fin false a b ∧
      let c := min q b
      if a * 2 ^ (b - c).toNat < n * 2 ^ (q - c).toNat then r = (f.overflow neg mode, flagOF ||| flagNX)
      else r.2 &&& flagOF = 0#5 ∧ (r.2 &&& flagNX ≠ 0#5 ↔ num % den ≠ 0) ∧
        ∃ m y, f.decode r.1 = .fin neg m y ∧ q ≤ y ∧ m * 2 ^ (y - q).toNat = n

/-- `r` is the bits and the flags of the square root of m × 2^e, m > 0, rounded once to format `f` (R53, R161): `q` is the step
of the root's binade and `n` the rounded root in these steps; squares are compared in units of a quarter of the squared step. No
root of a finite value overflows or is subnormal, and none lies halfway between two steps. -/
def Fmt.RootRounding (f : Fmt) (mode : Rnd) (m : Nat) (e : Int) (r : Nat × BitVec 5) : Prop :=
  ∃ (q : Int) (n : Nat),
    let low := min (2 * q - 2) e
    let x : Int := m * 2 ^ (e - low).toNat
    let sq (k : Int) : Int := k * k * 2 ^ (2 * q - 2 - low).toNat
    sq (2 ^ (f.mb + 1)) ≤ x ∧ x < sq (2 ^ (f.mb + 2)) ∧
    (match mode with
     | .rtz | .rdn => sq (2 * n) ≤ x ∧ x < sq (2 * n + 2)
     | .rup => sq (2 * n - 2) < x ∧ x ≤ sq (2 * n)
     | .rne | .sr => sq (2 * n - 1) < x ∧ x < sq (2 * n + 1)) ∧
    r.2 = (if x = sq (2 * n) then flagNone else flagNX) ∧
    ∃ m' e', f.decode r.1 = .fin false m' e' ∧ scaled false m' e' (min e' q) = scaled false n q (min e' q)

/-- The order of the bit patterns of a floating format of width `w` that are not NaN: that of their values, −0 below +0 (R161). -/
def signOrder (w x : Nat) : Int := if x < 2 ^ (w - 1) then x else 2 ^ (w - 1) - 1 - x

/-- The first of two values is below the second as a number; a NaN is below and above nothing (R123). -/
def FVal.Below : FVal → FVal → Prop
  | .nan, _ => False
  | _, .nan => False
  | .inf n, .inf n' => n = true ∧ n' = false
  | .inf n, .fin _ _ _ => n = true
  | .fin _ _ _, .inf n => n = false
  | .fin n m e, .fin n' m' e' => scaled n m e (min e e') < scaled n' m' e' (min e e')

/-- The destination of the vector instructions that compute a v register from v registers (R159 to R176). -/
def vectorDest : Instr → Option (BitVec 4)
  | .vadd _ d _ _ _ _ | .vsub _ d _ _ _ _ | .vmul _ d _ _ _ _ | .vdiv _ d _ _ _ _ | .vmin _ d _ _ _ _
  | .vmax _ d _ _ _ _ | .vabs _ d _ _ | .vneg _ d _ _ | .vsqrt _ d _ _ _ | .vfma _ d _ _ _ _ | .vfms _ d _ _ _ _
  | .vfnma _ d _ _ _ _ | .vfnms _ d _ _ _ _ | .vrcp _ d _ _ | .vrsq _ d _ _ | .vex2 _ d _ _ | .vlg2 _ d _ _
  | .vtanh _ d _ _ | .vsin _ d _ _ | .vdot _ d _ _ _ _ | .vredsum _ d _ _ _ | .vredmax _ d _ _ | .vredmin _ d _ _
  | .vcmp _ d _ _ _ _ _ | .vand _ d _ _ | .vor _ d _ _ | .vxor _ d _ _ | .vsel _ d _ _ _ | .viadd _ d _ _ _
  | .visub _ d _ _ _ | .vimul _ d _ _ _ | .vshl _ d _ _ _ | .vshr _ d _ _ _ | .vsar _ d _ _ _ | .vpcnt _ d _ _
  | .vclm _ d _ _ _ | .vperm _ d _ _ _ | .vshuf _ d _ _ _ | .vslideUp _ d _ _ _ | .vslideDn _ d _ _ _ | .vsplat _ d _ _
  | .vins _ d _ _ _ | .vmov _ d _ _ => some d
  | _ => none

end Sys2Proof.Machine
end

