-- ==== Sys2Proof/Certificates/Slice0/Obligations.lean ====
section
/-! DEFINITION. The statements. -/



open Sys2Proof Sys2Proof.Machine

/-! ## Integer operations and the frame of a register instruction -/

/-- R106, R101, R102, R105: the integer operations of two c registers write their value and let the strand issue again
one slot period later. -/
def Obligations.IntegerResults : Prop :=
  ∀ (s : State) (g : BitVec 3) (d a b : BitVec 5), s.me.pred g = true → s.mayWrite d →
    let x := s.me.val a
    let y := s.me.val b
    exec (.add g d a b) s = .next (s.wrote d (x + y) 8) ∧
    exec (.sub g d a b) s = .next (s.wrote d (x - y) 8) ∧
    exec (.and g d a b) s = .next (s.wrote d (x &&& y) 8) ∧
    exec (.or g d a b) s = .next (s.wrote d (x ||| y) 8) ∧
    exec (.xor g d a b) s = .next (s.wrote d (x ^^^ y) 8) ∧
    exec (.shl g d a b) s = .next (s.wrote d (x <<< (y.extractLsb' 0 6)) 8) ∧
    exec (.shr g d a b) s = .next (s.wrote d (x >>> (y.extractLsb' 0 6)) 8) ∧
    exec (.sar g d a b) s = .next (s.wrote d (x.sshiftRight (y.extractLsb' 0 6).toNat) 8) ∧
    exec (.mul g d a b) s = .next (s.wrote d (BitVec.ofNat 64 (x.toNat * y.toNat)) 8) ∧
    exec (.mulh g d a b) s = .next (s.wrote d (BitVec.ofInt 64 (x.toInt * y.toInt / 2 ^ 64)) 8) ∧
    exec (.mulhz g d a b) s = .next (s.wrote d (BitVec.ofNat 64 (x.toNat * y.toNat / 2 ^ 64)) 8) ∧
    exec (.min g d a b) s = .next (s.wrote d (if y.toInt < x.toInt then y else x) 8) ∧
    exec (.max g d a b) s = .next (s.wrote d (if x.toInt < y.toInt then y else x) 8) ∧
    exec (.minz g d a b) s = .next (s.wrote d (if y.toNat < x.toNat then y else x) 8) ∧
    exec (.maxz g d a b) s = .next (s.wrote d (if x.toNat < y.toNat then y else x) 8) ∧
    exec (.clm g d a b) s = .next (s.wrote d (BitVec.ofNat 64 (carryLess 64 x.toNat y.toNat)) 8) ∧
    exec (.clmh g d a b) s = .next (s.wrote d (BitVec.ofNat 64 (carryLess 64 x.toNat y.toNat / 2 ^ 64)) 8) ∧
    ∀ p, exec (.sel g d p a b) s = .next (s.wrote d (if s.me.pred p then x else y) 8)

/-- R106, R108, R109, R110, R112, R67: the integer operations of one c register, the immediates, the bit fields, the move
from an extension register, and the 16-bit forms. R67, R125: the 16-bit integer forms act as their 32-bit forms with
guard p0, and `nop` only advances. -/
def Obligations.UnaryAndImmediateResults : Prop :=
  (∀ (s : State) (g : BitVec 3) (d a : BitVec 5), s.me.pred g = true → s.mayWrite d →
    let x := s.me.val a
    exec (.clz g d a) s = .next (s.wrote d (BitVec.ofNat 64 (leadingZeros x 64)) 8) ∧
    exec (.ctz g d a) s = .next (s.wrote d (BitVec.ofNat 64 (trailingZeros x 64)) 8) ∧
    exec (.pcnt g d a) s = .next (s.wrote d (BitVec.ofNat 64 (popCount x)) 8) ∧
    exec (.bswp g d a) s = .next (s.wrote d (byteSwap x) 8) ∧
    exec (.mov g d a) s = .next (s.wrote d x 8) ∧
    exec (.sext8 g d a) s = .next (s.wrote d ((x.setWidth 8).signExtend 64) 8) ∧
    exec (.sext16 g d a) s = .next (s.wrote d ((x.setWidth 16).signExtend 64) 8) ∧
    exec (.sext32 g d a) s = .next (s.wrote d ((x.setWidth 32).signExtend 64) 8) ∧
    exec (.zext8 g d a) s = .next (s.wrote d (x &&& 0xFF#64) 8) ∧
    exec (.zext16 g d a) s = .next (s.wrote d (x &&& 0xFFFF#64) 8) ∧
    exec (.zext32 g d a) s = .next (s.wrote d (x &&& 0xFFFFFFFF#64) 8) ∧
    (∀ n : BitVec 6, exec (.shli g d a n) s = .next (s.wrote d (x <<< n) 8) ∧
      exec (.shri g d a n) s = .next (s.wrote d (x >>> n) 8) ∧
      exec (.sari g d a n) s = .next (s.wrote d (x.sshiftRight n.toNat) 8)) ∧
    (∀ i : BitVec 12, exec (.addi g d a i) s = .next (s.wrote d (x + i.signExtend 64) 8) ∧
      exec (.andi g d a i) s = .next (s.wrote d (x &&& i.signExtend 64) 8) ∧
      exec (.ori g d a i) s = .next (s.wrote d (x ||| i.signExtend 64) 8) ∧
      exec (.xori g d a i) s = .next (s.wrote d (x ^^^ i.signExtend 64) 8)) ∧
    (∀ i : BitVec 17, exec (.lhi g d i) s = .next (s.wrote d (i.signExtend 64 <<< 12) 8)) ∧
    (∀ e : BitVec 3, exec (.mvxFromE g d e) s = .next (s.wrote d (s.me.ext e.toNat) 8)) ∧
    (∀ o l : BitVec 6, o.toNat + l.toNat < 64 →
      ∃ w v, exec (.bfx g d a o l) s = .next (s.wrote d w 8) ∧ exec (.bfi g d a o l) s = .next (s.wrote d v 8) ∧
        ∀ i < 64, w.getLsbD i = (decide (i ≤ l.toNat) && x.getLsbD (o.toNat + i)) ∧
          v.getLsbD i = if o.toNat ≤ i ∧ i ≤ o.toNat + l.toNat then x.getLsbD (i - o.toNat) else (s.me.val d).getLsbD i)) ∧
  (∀ (s : State) (d a : BitVec 4) (i : BitVec 3),
    exec (.mov16 d a) s = exec (.mov 0#3 (d.setWidth 5) (a.setWidth 5)) s ∧
    exec (.addi16 d i a) s = exec (.addi 0#3 (d.setWidth 5) (a.setWidth 5) (i.signExtend 12)) s ∧
    exec (.add16 d a) s = exec (.add 0#3 (d.setWidth 5) (d.setWidth 5) (a.setWidth 5)) s ∧
    (s.mayWrite (d.setWidth 5) →
      exec (.mov16 d a) s = .next (s.wrote (d.setWidth 5) (s.me.val (a.setWidth 5)) 8) ∧
      exec (.addi16 d i a) s = .next (s.wrote (d.setWidth 5) (s.me.val (a.setWidth 5) + i.signExtend 64) 8) ∧
      exec (.add16 d a) s =
        .next (s.wrote (d.setWidth 5) (s.me.val (d.setWidth 5) + s.me.val (a.setWidth 5)) 8)) ∧
    exec .nop s = .next s.advance ∧ exec .nop16 s = .next s.advance)

/-- R107, R105: the divisions take four slot periods; a zero divisor gives all ones or the dividend, and otherwise the
quotient is truncated toward zero and the remainder keeps the dividend's sign. -/
def Obligations.DivisionResults : Prop :=
  ∀ (s : State) (g : BitVec 3) (d a b : BitVec 5), s.me.pred g = true → s.mayWrite d →
    let x := s.me.val a
    let y := s.me.val b
    ∃ q r u v, exec (.div g d a b) s = .next (s.wrote d q 32) ∧ exec (.rem g d a b) s = .next (s.wrote d r 32) ∧
      exec (.divz g d a b) s = .next (s.wrote d u 32) ∧ exec (.remz g d a b) s = .next (s.wrote d v 32) ∧
      (y = 0#64 → q = BitVec.allOnes 64 ∧ r = x ∧ u = BitVec.allOnes 64 ∧ v = x) ∧
      (y ≠ 0#64 → x = q * y + r ∧ x = u * y + v ∧ v.toNat < y.toNat ∧ u.toNat * y.toNat + v.toNat = x.toNat ∧
        r.toInt.natAbs < y.toInt.natAbs ∧ (r.toInt = 0 ∨ r.toInt.sign = x.toInt.sign) ∧
        (¬(x = BitVec.intMin 64 ∧ y = BitVec.allOnes 64) → q.toInt * y.toInt + r.toInt = x.toInt)) ∧
      (x = BitVec.intMin 64 → y = BitVec.allOnes 64 → q = x ∧ r = 0#64)

/-- R106: bit i of a carry-less product is the parity of the pairs of one bits whose places add up to i. R106: what `clz`,
`ctz` and `pcnt` count. -/
def Obligations.CarryLessProductAndBitCounts : Prop :=
  (∀ n a b i : Nat, (carryLess n a b).testBit i =
    ((List.range n).countP (fun j => b.testBit j && decide (j ≤ i) && a.testBit (i - j)) % 2 == 1)) ∧
  (∀ w : Word,
    (leadingZeros w 64 ≤ 64 ∧ (∀ i, i < leadingZeros w 64 → w.getLsbD (63 - i) = false) ∧
      (leadingZeros w 64 < 64 → w.getLsbD (63 - leadingZeros w 64) = true)) ∧
    (trailingZeros w 64 ≤ 64 ∧ (∀ i, i < trailingZeros w 64 → w.getLsbD i = false) ∧
      (trailingZeros w 64 < 64 → w.getLsbD (trailingZeros w 64) = true)) ∧
    popCount w = (List.range 64).countP (fun i => w.getLsbD i))

/-- R23, R39, R60, R105: what an integer write leaves: the register, except c0, the place in the program, the next issue,
and nothing else. R28, R102: what a capability move leaves: the destination, a linear source cleared, every other
register, and nothing but the strand. -/
def Obligations.ResultWritesAndMoves : Prop :=
  (∀ (s : State) (d : BitVec 5) (w : Word) (n : Nat),
    let t := s.wrote d w n
    s.OnlyStrand t ∧ s.me.OnlyRegisters t.me ∧
    (∀ r, t.me.reg r = if r = d ∧ d ≠ 0#5 then CReg.int w else s.me.reg r) ∧
    t.me.pc = (s.me.past s.cur.len).pc ∧ t.me.rep = (s.me.past s.cur.len).rep ∧ t.me.readyAt = s.k + n) ∧
  (∀ (s : State) (d a : BitVec 5) (r : CReg),
    let t := s.moved d a r
    s.OnlyStrand t ∧ s.me.OnlyRegisters t.me ∧ t.me.readyAt = s.k + 8 ∧
    ∀ q, t.me.reg q = if q = d ∧ d ≠ 0#5 then r
      else if q = a ∧ a ≠ d ∧ (s.me.reg a).linear = true then CReg.zero else s.me.reg q)

/-- R20, R28, R101, R102, R368: an instruction that writes c registers only either takes a precise trap or leaves every
other register, every memory and everything else of the panel as it was. -/
def Obligations.RegisterFrame : Prop :=
  ∀ (i : Instr) (ds : List (BitVec 5)) (s t : State), writesOnly i = some ds → exec i s = .next t →
    (∃ e, t = s.takeTrap e) ∨
    (s.OnlyStrand t ∧ s.me.OnlyRegisters t.me ∧ ∀ r, r ∉ ds → t.me.reg r = s.me.reg r)

/-- R102: an integer result is not written over a linear capability: the linearity trap is taken with the register's
number. R62, R31: with the guard 0 an instruction only advances; one that names a v register also sets `sst.VE`. -/
def Obligations.LinearDestinationsAndGuards : Prop :=
  (∀ (s : State) (g p e : BitVec 3) (d a b f : BitVec 5) (m l : BitVec 6) (i : BitVec 12) (k : BitVec 17),
    s.me.pred g = true → d ≠ 0#5 → (s.me.reg d).linear = true →
    let t := s.takeTrap (trapLinearity (d.setWidth 64))
    (∀ x ∈ [Instr.add g d a b, .sub g d a b, .and g d a b, .or g d a b, .xor g d a b, .shl g d a b, .shr g d a b,
        .sar g d a b, .mul g d a b, .mulh g d a b, .mulhz g d a b, .min g d a b, .max g d a b, .minz g d a b, .maxz g d a b,
        .clm g d a b, .clmh g d a b, .sel g d p a b, .div g d a b, .rem g d a b, .divz g d a b, .remz g d a b],
      exec x s = .next t) ∧
    (∀ x ∈ [Instr.clz g d a, .ctz g d a, .pcnt g d a, .bswp g d a, .mov g d a, .sext8 g d a, .sext16 g d a, .sext32 g d a,
        .zext8 g d a, .zext16 g d a, .zext32 g d a, .shli g d a m, .shri g d a m, .sari g d a m, .addi g d a i, .andi g d a i,
        .ori g d a i, .xori g d a i, .lhi g d k, .mvxFromE g d e, .cget g d a f, .ctst g d a],
      exec x s = .next t) ∧
    (m.toNat + l.toNat < 64 → ∀ x ∈ [Instr.bfx g d a m l, .bfi g d a m l], exec x s = .next t)) ∧
  (∀ (i : Instr) (g : BitVec 3) (v : Bool) (s : State), actsUnder i = some (g, v) → s.me.pred g = false →
    exec i s = .next (if v then (s.modMe Strand.setVe).advance else s.advance))

/-- R122, R124, R62: a compare whose guard is 1 writes its two predicates by its type, and p0 stays 1. R124: a compare
whose guard is 0 clears both predicates where its type is clr, and else writes nothing. -/
def Obligations.CompareResults : Prop :=
  (∀ (s : State) (g p q ty c a b : BitVec 3) (ra rb : BitVec 5) (i : Instr) (cond : Bool) (flags : BitVec 5),
    s.me.pred g = true →
    ((i = .cmp g p q ty c ra rb ∧ cond = compareWords c (s.me.val ra) (s.me.val rb) ∧ flags = flagNone) ∨
     (i = .cmpi g p q ty c ra rb ∧ cond = compareWords c (s.me.val ra) (compareImm c rb) ∧ flags = flagNone) ∨
     (i = .fcmp g p q ty c ra rb ∧ (cond, flags) = compareFloat c.toNat (s.me.fp32Of ra) (s.me.fp32Of rb)) ∨
     (i = .pcmb g p q ty c a b ∧ cond = combinePreds c (s.me.pred a) (s.me.pred b) ∧ flags = flagNone)) →
    let x := s.me.pred p
    let y := s.me.pred q
    let r : Bool × Bool := if ty = 2#3 then (x && cond, y && !cond) else if ty = 3#3 then (x || cond, y || !cond)
      else if ty = 4#3 then (x ^^ cond, y ^^ cond) else if ty = 5#3 then (cond, y && cond)
      else if ty = 6#3 then (cond, y || cond) else if ty = 7#3 then (cond, x) else (cond, !cond)
    ∃ t, exec i s = .next t ∧ s.OnlyStrand t ∧
      t.me = { s.me.past s.cur.len with p := t.me.p, fmode := s.me.fmode ||| (flags.setWidth 8 <<< 3), readyAt := s.k + 8 } ∧
      ∀ n, t.me.pred n = if n = 0#3 then true else if n = p then r.1 else if n = q then r.2 else s.me.pred n) ∧
  (∀ (s : State) (g p q ty c : BitVec 3) (ra rb : BitVec 5), s.me.pred g = false →
    ∃ t, exec (.cmp g p q ty c ra rb) s = .next t ∧ exec (.cmpi g p q ty c ra rb) s = .next t ∧
      exec (.fcmp g p q ty c ra rb) s = .next t ∧ (∀ a b, exec (.pcmb g p q ty c a b) s = .next t) ∧
      (ty ≠ 1#3 → t = s.advance) ∧
      ∀ n, n ≠ 0#3 → t.me.pred n = if ty = 1#3 ∧ (n = p ∨ n = q) then false else s.me.pred n)

/-! ## Extension registers, branches, repetition -/

/-- R111, R112: `lxi` writes one halfword of an extension register, `lxi.z` clears the others, `mvx` writes it whole or
reads it. R127, R128: `rep` makes the next LEN instructions a body, and passing the body's end starts the next pass
until the count is used up. -/
def Obligations.ExtensionRegistersAndRepetition : Prop :=
  (∀ (s : State) (g e : BitVec 3) (k : BitVec 2) (i : BitVec 16) (a : BitVec 5), s.me.pred g = true →
    (∃ t, exec (.lxi g e k i) s = .next t ∧ s.OnlyStrand t ∧ t.me = { (s.me.past s.cur.len) with e := t.me.e, readyAt := s.k + 8 } ∧
      (∀ n, n ≠ e.toNat → t.me.ext n = s.me.ext n) ∧
      ∀ j < 64, (t.me.ext e.toNat).getLsbD j =
        if j / 16 = k.toNat then i.getLsbD (j % 16) else (s.me.ext e.toNat).getLsbD j) ∧
    (∃ t, exec (.lxiZ g e k i) s = .next t ∧ s.OnlyStrand t ∧ t.me = { (s.me.past s.cur.len) with e := t.me.e, readyAt := s.k + 8 } ∧
      (∀ n, n ≠ e.toNat → t.me.ext n = s.me.ext n) ∧
      ∀ j < 64, (t.me.ext e.toNat).getLsbD j = (decide (j / 16 = k.toNat) && i.getLsbD (j % 16))) ∧
    (∃ t, exec (.mvxToE g e a) s = .next t ∧ s.OnlyStrand t ∧ t.me = { (s.me.past s.cur.len) with e := t.me.e, readyAt := s.k + 8 } ∧
      (∀ n, n ≠ e.toNat → t.me.ext n = s.me.ext n) ∧ t.me.ext e.toNat = s.me.val a) ∧
    (∀ d, s.mayWrite d → exec (.mvxFromE g d e) s = .next (s.wrote d (s.me.ext e.toNat) 8))) ∧
  ((∀ (s : State) (g t : BitVec 3) (c : BitVec 10) (l i : BitVec 4) (r : BitVec 1), s.me.pred g = true →
    let n := if r = 0#1 then c.toNat + 1 else (s.me.val (c.extractLsb' 0 5)).toNat
    ∃ u, exec (.rep g t c l i r) s = .next u ∧ s.OnlyStrand u ∧
      u.me = { s.me.past s.cur.len with
        readyAt := s.k + 8
        rep := some { body := s.cur.pc + 4#64, len := l.toNat + 1, stg := t, stride := i, k := 0
                      left := if n = 0 then 1 else n, captured := [], pos := 0, empty := n == 0 } }) ∧
  (∀ (x : Strand) (r : Rep) (len : Nat), x.rep = some r →
    (r.pos + 1 < r.len → x.past len = { x with pc := x.pc + BitVec.ofNat 64 len, rep := some { r with pos := r.pos + 1 } }) ∧
    (r.len ≤ r.pos + 1 → 1 < r.left →
      x.past len = { x with pc := r.body, rep := some { r with pos := 0, k := r.k + 1, left := r.left - 1 } }) ∧
    (r.len ≤ r.pos + 1 → r.left ≤ 1 → x.past len = { x with pc := x.pc + BitVec.ofNat 64 len, rep := none })))

/-- R66, R125, R105: the branches and jumps pass control to an even target, one slot period later, and an odd register
target raises the alignment trap. R125, R126: a call writes its link, a return writes none; both make c10 to c17 dead,
so that they read as an untagged zero, and pass control to an even target. R126: a call or return that would make a
linear capability dead, or overwrite one with its link, raises the linearity trap with the number of the lowest such
register, before anything is written; else an odd target raises the alignment trap (R125). -/
def Obligations.BranchesAndCalls : Prop :=
  (∀ (s : State) (g : BitVec 3) (a : BitVec 5), s.me.pred g = true →
    let goes (i : Instr) (w : Word) : Prop :=
      exec i s = if w.getLsbD 0 then .next (s.takeTrap (trapAlignment w))
        else .next (s.modMe (fun x => { x with pc := w, readyAt := s.k + 8 }))
    (∀ o, goes (.br g o) (s.cur.pc + o.signExtend 64 * 2#64)) ∧
    (∀ o, goes (.j o) (s.cur.pc + o.signExtend 64 * 2#64)) ∧
    (∀ o, goes (.br16 g o) (s.cur.pc + o.signExtend 64 * 2#64)) ∧
    (∀ o, goes (.j16 o) (s.cur.pc + o.signExtend 64 * 2#64)) ∧
    goes (.jr g 0#5 a) (s.me.val a)) ∧
  (∀ (s : State) (g : BitVec 3) (a d : BitVec 5) (o : BitVec 22), s.me.pred g = true →
    (∀ r, r ∈ deadSet → (s.me.reg r).linear = false) →
    let made (i : Instr) (w : Word) (link : Option (BitVec 5)) : Prop :=
      w.getLsbD 0 = false → ∃ t, exec i s = .next t ∧ s.OnlyStrand t ∧ s.me.OnlyRegisters t.me ∧ t.me.pc = w ∧
        t.me.readyAt = s.k + 8 ∧
        ∀ r, t.me.reg r = if some r = link then CReg.int (s.cur.pc + 4#64)
          else if r ∈ deadSet then CReg.zero else s.me.reg r
    ((s.me.reg 1#5).linear = false → made (.jal g o) (s.cur.pc + o.signExtend 64 * 2#64) (some 1#5)) ∧
    (d ≠ 0#5 → (s.me.reg d).linear = false → made (.jr g d a) (s.me.val a) (some d)) ∧
    made (.ret g a) (s.me.val a) none) ∧
  (∀ (s : State) (g : BitVec 3) (a d link : BitVec 5) (o : BitVec 22) (i : Instr) (w : Word), s.me.pred g = true →
    (i = .jal g o ∧ link = 1#5 ∧ w = s.cur.pc + o.signExtend 64 * 2#64 ∨
      i = .jr g d a ∧ d ≠ 0#5 ∧ link = d ∧ w = s.me.val a ∨ i = .ret g a ∧ link = 0#5 ∧ w = s.me.val a) →
    (∀ r, r = link ∨ r ∈ deadSet → (s.me.reg r).linear = true →
      (∀ q, q < r → q = link ∨ q ∈ deadSet → (s.me.reg q).linear = false) →
      exec i s = .next (s.takeTrap (trapLinearity (r.setWidth 64)))) ∧
    ((∀ r, r = link ∨ r ∈ deadSet → (s.me.reg r).linear = false) → w.getLsbD 0 = true →
      exec i s = .next (s.takeTrap (trapAlignment w))))

/-! ## Exceptions -/

/-- R368, R20: taking a trap saves the address, the cause, the value and the status, sets INH and the handler's mode,
passes control to `tvec`, and changes nothing else. R370: a trap while INH is 1 is a double trap: the core is
contained and issues nothing, and the strand's registers stay. -/
def Obligations.TrapEntry : Prop :=
  (∀ (s : State) (e : Trap), s.me.inh = false →
    let t := s.takeTrap e
    s.OnlyStrand t ∧ t.me.epc = s.cur.pc ∧ t.me.tcause = e.cause ∧ t.me.tval = e.value ∧ t.me.esst = s.me.sst ∧
    t.me.pc = s.myCore.tvec ∧ t.me.inh = true ∧ t.me.mode = (if s.me.mode = 3 then 3 else 1) ∧
    (∀ i, 2 ≤ i → i < 12 → t.me.sst.getLsbD i = s.me.sst.getLsbD i) ∧ t.me.repShadow = s.me.rep ∧ t.me.rep = none ∧
    t.me.readyAt = s.k + 8 ∧ (∀ r, t.me.reg r = s.me.reg r) ∧ t.me.v = s.me.v ∧ t.me.p = s.me.p ∧ t.me.e = s.me.e ∧
    t.me.dmask = s.me.dmask ∧ t.me.fmode = s.me.fmode ∧ t.me.hsp = s.me.hsp ∧ t.me.hsl = s.me.hsl ∧
    t.me.srng = s.me.srng ∧ t.me.streams = s.me.streams) ∧
  (∀ (s : State) (e : Trap), s.me.inh = true →
    let t := s.takeTrap e
    (t.core s.cur.core).run = .doubleTrap ∧ t.strand s.cur.core s.cur.slot = s.me ∧
    (t.core s.cur.core).sp = s.myCore.sp ∧ (t.core s.cur.core).ends = s.myCore.ends)

/-- R221, R367: `trap` takes the software trap with its register's value, at its own address. R222, R130: `eret` goes back to
`epc` with the mode, VE, ALTP and INH of `esst`; the stream bits stay; the repetition comes back unless `epc` was written. R222,
R37: `eret` in User mode, to the mode 2 that does not exist, or to a higher mode is a privilege trap. That an `eret` in User
mode traps with `esst` as tval is the model's choice (log entry 23). -/
def Obligations.TrapAndReturn : Prop :=
  (∀ (s : State) (g : BitVec 3) (a : BitVec 5), s.me.pred g = true →
    let t := s.takeTrap { cause := 0x10#6, value := s.me.val a }
    exec (.trap g a) s = .next t ∧ (s.me.inh = false → t.me.tval = s.me.val a ∧ t.me.epc = s.cur.pc)) ∧
  (∀ (s : State) (g : BitVec 3), s.me.pred g = true → s.me.mode ≠ 0 → (s.me.esst.extractLsb' 0 2).toNat ≠ 2 →
    (s.me.esst.extractLsb' 0 2).toNat ≤ s.me.mode →
    ∃ t, exec (.eret g) s = .next t ∧ s.OnlyStrand t ∧ t.me.pc = s.me.epc ∧ t.me.readyAt = s.k + 8 ∧
      t.me.mode = (s.me.esst.extractLsb' 0 2).toNat ∧ t.me.inh = s.me.esst.getLsbD 12 ∧
      t.me.sst.extractLsb' 9 3 = s.me.esst.extractLsb' 9 3 ∧ t.me.sst.extractLsb' 3 6 = s.me.sst.extractLsb' 3 6 ∧
      (s.me.sst.extractLsb' 3 3 = 0#3 → t.me.ve = s.me.esst.getLsbD 2) ∧
      t.me.rep = (if s.me.epcWritten then none else s.me.repShadow) ∧ (∀ r, t.me.reg r = s.me.reg r)) ∧
  (∀ (s : State) (g : BitVec 3), s.me.pred g = true →
    (s.me.mode = 0 ∨ (s.me.esst.extractLsb' 0 2).toNat = 2 ∨ s.me.mode < (s.me.esst.extractLsb' 0 2).toNat) →
    exec (.eret g) s = .next (s.takeTrap { cause := 0x03#6, value := s.me.esst.setWidth 64 }))

/-! ## Capabilities -/

/-- R27: bounds decode alike at every address of a capability's representable region. R114: a narrowed capability has
exactly the bounds asked for, within those of its source, and keeps its kind and permissions. -/
def Obligations.BoundsAndNarrowing : Prop :=
  (∀ (r : CReg) (a : Word), r.representable a = true → ({ r with val := a } : CReg).bounds = r.bounds) ∧
  (∀ (r m : CReg) (n : Nat), narrowReg r n = .ok m →
    m.tag = true ∧ m.val = r.val ∧ m.bounds = ((r.val.toNat : Int), (r.val.toNat : Int) + n) ∧
    r.bounds.1 ≤ m.bounds.1 ∧ m.bounds.2 ≤ r.bounds.2 ∧ m.perm = r.perm ∧ m.kind = r.kind)

/-- R113 to R115, R118, R120: `cbnd` narrows, `cprm` drops permissions, `cmv` moves, and `cadd` moves the address of a
capability within its representable region. R120: `cadd` on an untagged register is an integer addition; past the
representable region a capability that is not linear leaves the integer address, and a linear one traps with it. -/
def Obligations.CapabilityMoveResults : Prop :=
  (∀ (s : State) (g : BitVec 3) (d a b : BitVec 5), s.me.pred g = true → s.mayMove d a →
    let r := s.me.reg a
    (r.tag = true → narrowableKind r.kind = true → ∀ m, narrowReg r (s.me.val b).toNat = .ok m →
      exec (.cbnd g d a b) s = .next (s.moved d a m)) ∧
    (r.tag = true → reservedKind r.kind = false →
      ∃ m : CReg, exec (.cprm g d a b) s = .next (s.moved d a m) ∧ m.tag = true ∧ m.val = r.val ∧ m.kind = r.kind ∧
        m.bounds = r.bounds ∧
        ∀ i < 12, m.has i = (r.has i && (s.me.val b).getLsbD i && !(i == 11 && r.kind == 1))) ∧
    exec (.cmv g d a) s = .next (if d = a then s.advance else s.moved d a r) ∧
    (r.tag = true → narrowableKind r.kind = true →
      (r.representable (r.val + s.me.val b) = true →
        exec (.cadd g d a b) s = .next (s.moved d a { r with val := r.val + s.me.val b })) ∧
      ∀ i : BitVec 12, r.representable (r.val + i.signExtend 64) = true →
        exec (.caddImm g d a i) s = .next (s.moved d a { r with val := r.val + i.signExtend 64 }))) ∧
  (∀ (s : State) (g : BitVec 3) (d a b : BitVec 5) (k : BitVec 12) (i : Instr) (off : Word), s.me.pred g = true →
    (i = .cadd g d a b ∧ off = s.me.val b ∨ i = .caddImm g d a k ∧ off = k.signExtend 64) →
    let r := s.me.reg a
    let na := r.val + off
    (r.tag = false → s.mayWrite d → exec i s = .next (s.wrote d na 8)) ∧
    (r.tag = true → narrowableKind r.kind = true → r.representable na = false →
      (r.linear = false → s.mayWrite d → exec i s = .next (s.wrote d na 8)) ∧
      (r.linear = true → exec i s = .next (s.takeTrap (trapBounds na)))))

/-- R116, R119: what `cget` and `ctst` read of a capability; an untagged register reads 0. R121, R28: `cmint` writes the
capability that its operands describe, of a kind its mode may mint; in User mode it is privileged. -/
def Obligations.CapabilityReadsAndMint : Prop :=
  (∀ (s : State) (g : BitVec 3) (d a f : BitVec 5), s.me.pred g = true → s.mayWrite d →
    let r := s.me.reg a
    ∃ w v : Word, exec (.cget g d a f) s = .next (s.wrote d w 8) ∧ exec (.ctst g d a) s = .next (s.wrote d v 8) ∧
      (r.tag = false → w = 0#64 ∧ v = 0#64) ∧
      (r.tag = true →
        (f = 3#5 → w = r.perm.setWidth 64) ∧ (f = 4#5 → w = BitVec.ofNat 64 r.kind) ∧ (f = 5#5 → w = 1#64) ∧
        (r.kind ≠ 6 →
          (f = 0#5 → w = BitVec.ofInt 64 r.bounds.1) ∧
          (f = 1#5 → 2 ^ 64 ≤ r.bounds.2 → w = BitVec.allOnes 64) ∧
          (f = 1#5 → r.bounds.2 < 2 ^ 64 → w = BitVec.ofInt 64 r.bounds.2) ∧
          (f = 2#5 → w = BitVec.ofInt 64 (r.bounds.2 - r.bounds.1))) ∧
        (r.kind = 6 → (f = 0#5 ∨ f = 1#5 ∨ f = 2#5) → w = 0#64) ∧
        v = if r.kind ≠ 6 ∧ r.inBounds r.val.toNat 1 = true then 3#64 else 1#64)) ∧
  (∀ (s : State) (g : BitVec 3) (d a b : BitVec 5), s.me.pred g = true →
    (s.me.mode = 0 → exec (.cmint g d a b) s = .next (s.takeTrap (trapPrivileged s.instrBits))) ∧
    (s.me.mode ≠ 0 → s.mayWrite d → ∀ r, mintReg (s.me.mode == 3) (s.me.val a) (s.me.val b) b = .ok r →
      exec (.cmint g d a b) s = .next ((s.modMe (fun x => x.setReg d r)).advance) ∧
      r.tag = true ∧ r.val = s.me.val a ∧ (r.kind = 1 ∨ r.kind = 7 ∨ r.kind = 8 ∨ (r.kind = 0xA ∧ s.me.mode = 3)) ∧
      (r.kind = 1 → r.bounds.2 ≤ 0x40000)))

/-! ## Memory access -/

/-- R104, R131 to R134, R302: an access is allowed exactly when its tag, kind, permissions, bounds, destination, alignment and
placement are. R104, R367: the checks of an access come in the order tag, permission, bounds, linearity, alignment, placement,
and the first that fails names the trap. That the placement check comes last is the model's choice (log entry 12). -/
def Obligations.AccessChecks : Prop :=
  (∀ (s : State) (u : BaseUse) (a : BitVec 5) (bits : BitVec 12) (ea : Int) (n align : Nat) (store : Bool)
    (d : Option (BitVec 5)),
    let r := s.me.reg a
    s.checkAccess u a bits ea n align store d = .ok () ↔
      r.tag = true ∧ baseKind u r.kind = .yes ∧ r.perm &&& bits = bits ∧
      (r.place = .device → r.has 10 = true ∧ deviceListed (BitVec.ofInt 64 ea).toNat = true) ∧
      r.inBounds ea n = true ∧ (∀ x, d = some x → s.mayWrite x) ∧
      (store = true → r.place = .window → ∀ h ∈ granules (ea.toNat % 2 ^ 18) n, s.myCore.linearGranule h = false) ∧
      (r.place = .device → n = 4 ∨ n = 8) ∧ ea % (align : Int) = 0 ∧
      (r.place = .pan → (s.sliceOf s.mySp ea.toNat).isSome = true)) ∧
  (∀ (s : State) (u : BaseUse) (a : BitVec 5) (bits : BitVec 12) (ea : Int) (n align : Nat) (store : Bool)
    (d : Option (BitVec 5)),
    let r := s.me.reg a
    let check := s.checkAccess u a bits ea n align store d
    (r.tag = false → check = .error (trapTag (a.setWidth 64))) ∧
    (r.tag = true → baseKind u r.kind = .tagTrap → check = .error (trapTag (a.setWidth 64))) ∧
    (r.tag = true → baseKind u r.kind = .perm → check = .error (trapPermission (BitVec.ofInt 64 ea))) ∧
    (r.tag = true → baseKind u r.kind = .yes → r.perm &&& bits ≠ bits →
      check = .error (trapPermission (BitVec.ofInt 64 ea))) ∧
    (checkPlace u a r bits ea = .ok () → r.inBounds ea n = false → check = .error (trapBounds (BitVec.ofInt 64 ea))) ∧
    (checkPlace u a r bits ea = .ok () → r.inBounds ea n = true → ∀ x, d = some x → x ≠ 0#5 →
      (s.me.reg x).linear = true → check = .error (trapLinearity (x.setWidth 64))) ∧
    (checkPlace u a r bits ea = .ok () → r.inBounds ea n = true → s.checkLinearity r ea n store d = .ok () →
      r.place ≠ .device → ea % (align : Int) ≠ 0 → check = .error (trapAlignment (BitVec.ofInt 64 ea))) ∧
    (checkPlace u a r bits ea = .ok () → r.inBounds ea n = true → (∀ x, d = some x → s.mayWrite x) → store = true →
      r.place = .window → ∀ h ∈ granules (ea.toNat % 2 ^ 18) n, s.myCore.linearGranule h = true →
      check = .error (trapLinearity (BitVec.ofInt 64 ea))) ∧
    (checkPlace u a r bits ea = .ok () → r.inBounds ea n = true → s.checkLinearity r ea n store d = .ok () →
      r.place = .device → (n ≠ 4 ∧ n ≠ 8) ∨ ea % (align : Int) ≠ 0 → check = .error (trapAlignment (BitVec.ofInt 64 ea))) ∧
    (checkPlace u a r bits ea = .ok () → r.inBounds ea n = true → s.checkLinearity r ea n store d = .ok () →
      r.place = .pan → ea % (align : Int) = 0 → s.sliceOf s.mySp ea.toNat = none →
      check = .error (trapTranslation (BitVec.ofInt 64 ea))))

/-- R135, R65, R67, R78: scalar loads from a scratchpad window write the bytes at the effective address, sign- or zero-
extended, and change nothing else. R135, R67, R134, R43: scalar stores to a scratchpad window put the register's low bytes,
lowest first, at the effective address, clear the capability tags of the granules they touch, and leave every other byte and
every other granule's tag of that scratchpad, its full/empty bits and every register as they were. -/
def Obligations.WindowLoadsAndStores : Prop :=
  (∀ (s : State) (g z : BitVec 3) (d a : BitVec 5) (o : BitVec 9), s.me.pred g = true → (s.me.reg a).kind = 1 →
    let n : Nat := 2 ^ (z.toNat % 4)
    let ea : Int := ((s.me.val a).toNat : Int) + o.toInt * n
    (s.checkAccess .ld a permL ea n n false (some d) = .ok () →
      exec (.ld g d a o z) s = .next (s.wrote d (loadValue n (decide (z.toNat < 4)) (s.spBytes ea n)) 8)) ∧
    ∀ (e b : BitVec 4) (i : BitVec 3), (s.me.reg (b.setWidth 5)).kind = 1 →
      let ea : Int := ((s.me.val (b.setWidth 5)).toNat : Int) + 8 * i.toNat
      s.checkAccess .ld (b.setWidth 5) permL ea 8 8 false (some (e.setWidth 5)) = .ok () →
      exec (.ld16 e i b) s = .next (s.wrote (e.setWidth 5) (loadValue 8 true (s.spBytes ea 8)) 8)) ∧
  (∀ (s : State) (g z : BitVec 3) (d a : BitVec 5) (o : BitVec 9), s.MemoriesCanonical → s.me.pred g = true →
    (s.me.reg a).kind = 1 →
    let n : Nat := 2 ^ (z.toNat % 4)
    let ea : Int := ((s.me.val a).toNat : Int) + o.toInt * n
    (s.checkAccess .st a permS ea n n true none = .ok () →
      ∃ t, exec (.st g d a o z) s = .next t ∧ t.Holds s.cur.core (ea.toNat % 2 ^ 18) (natBytes n (s.me.val d).toNat) ∧
        s.SameOutside t s.cur.core (ea.toNat % 2 ^ 18) n ∧ s.me.OnlyMoved t.me ∧ t.me.readyAt = s.k + 8 ∧
        (∀ h ∈ granules (ea.toNat % 2 ^ 18) n, NatSet.has (t.core s.cur.core).spTags h = false) ∧
        s.SameTags t s.cur.core (granules (ea.toNat % 2 ^ 18) n) ∧ s.SameFull t s.cur.core) ∧
    ∀ (e b : BitVec 4) (i : BitVec 3), (s.me.reg (b.setWidth 5)).kind = 1 →
      let ea : Int := ((s.me.val (b.setWidth 5)).toNat : Int) + 8 * i.toNat
      s.checkAccess .st (b.setWidth 5) permS ea 8 8 true none = .ok () →
      ∃ t, exec (.st16 e i b) s = .next t ∧
        t.Holds s.cur.core (ea.toNat % 2 ^ 18) (natBytes 8 (s.me.val (e.setWidth 5)).toNat) ∧
        s.SameOutside t s.cur.core (ea.toNat % 2 ^ 18) 8 ∧ s.me.OnlyMoved t.me ∧
        (∀ h ∈ granules (ea.toNat % 2 ^ 18) 8, NatSet.has (t.core s.cur.core).spTags h = false) ∧
        s.SameTags t s.cur.core (granules (ea.toNat % 2 ^ 18) 8) ∧ s.SameFull t s.cur.core)

/-- R131 to R135, R138, R139, R144, R146: a scalar memory instruction either takes a precise trap or stores to no
scratchpad byte but those at its address, and to none where its base is no scratchpad window, writes no c register but its own,
and touches no other scratchpad, no byte of HBM or of the host, no predicate and no extension register. R43, R134: it leaves
the tags of the granules outside the stored bytes, but for those a load takes a linear capability from, and every full/empty
bit as they were. -/
def Obligations.MemoryFrame : Prop :=
  ∀ (i : Instr) (ds : List (BitVec 5)) (a n : Nat) (s t : State), s.MemoriesCanonical →
    memoryEffect s i = some (ds, a, n) → exec i s = .next t →
    (∃ e, t = s.takeTrap e) ∨
    (s.SameOutside t s.cur.core a n ∧ s.SameTags t s.cur.core (granules a n ++ takenGranules s i) ∧ s.SameFull t s.cur.core ∧
      (∀ p, p ≠ s.cur.core → (t.core p).sp = (s.core p).sp ∧ (t.core p).spTags = (s.core p).spTags ∧
        (t.core p).fe = (s.core p).fe) ∧ t.hbm = s.hbm ∧
      t.host = s.host ∧ (∀ r, r ∉ ds → t.me.reg r = s.me.reg r) ∧ t.me.p = s.me.p ∧ t.me.e = s.me.e ∧
      t.me.v = s.me.v ∧ t.me.fmode = s.me.fmode)

/-- R137, R43: a load of a full granule reads it, and `ld.fc` leaves it empty; a store to an empty granule leaves it full;
each waits for the other value. R155, R43, R44: `fe.set` and `fe.clr` mark the granules of a range of a window. -/
def Obligations.FullEmpty : Prop :=
  (∀ (s : State) (g z : BitVec 3) (d a : BitVec 5) (o : BitVec 8) (o' : BitVec 9), s.me.pred g = true →
    let r := s.me.reg a
    let n : Nat := 2 ^ (z.toNat % 4)
    let ea : Int := (r.val.toNat : Int) + o.toInt * n
    let ea' : Int := (r.val.toNat : Int) + o'.toInt * n
    let h := ea.toNat % 2 ^ 18 / 16
    let h' := ea'.toNat % 2 ^ 18 / 16
    (r.tag = true → r.kind = 1 → r.inBounds ea n = true → s.mayWrite d → ea % (n : Int) = 0 →
      let x := loadValue n (decide (z.toNat < 4)) (s.spBytes ea n)
      (r.has 0 = true → s.myCore.full h = true → exec (.ldF g d a o z) s = .next (s.wrote d x 8)) ∧
      (r.has 0 = true → s.myCore.full h = false →
        exec (.ldF g d a o z) s = .next (s.waitAgain (.fullEmpty [h] []))) ∧
      (r.has 0 = true → r.has 1 = true → s.myCore.full h = true →
        exec (.ldFc g d a o z) s = .next ((((s.modMe (fun y => y.setReg d (CReg.int x))).modMyCore
          (fun c => c.setFe [h] false)).wakeFullEmpty s.cur.core).advance)) ∧
      (r.has 0 = true → r.has 1 = true → s.myCore.full h = false →
        exec (.ldFc g d a o z) s = .next (s.waitAgain (.fullEmpty [h] [])))) ∧
    (r.tag = true → r.kind = 1 → r.has 1 = true → r.inBounds ea' n = true → ea' % (n : Int) = 0 →
      (∀ q ∈ granules (ea'.toNat % 2 ^ 18) n, s.myCore.linearGranule q = false) →
      (s.myCore.full h' = false →
        exec (.stE g d a o' z) s = .next ((((s.spStore ea' (natBytes n (s.me.val d).toNat)).modMyCore
          (fun c => c.setFe [h'] true)).wakeFullEmpty s.cur.core).advance)) ∧
      (s.myCore.full h' = true → exec (.stE g d a o' z) s = .next (s.waitAgain (.fullEmpty [] [h']))))) ∧
  (∀ (s : State) (g : BitVec 3) (a b : BitVec 5), s.me.pred g = true →
    let r := s.me.reg a
    let n := (s.me.val b).toNat
    r.tag = true → r.kind = 1 → r.has 1 = true → r.inBounds r.val.toNat n = true → r.val.toNat % 16 = 0 →
    n % 16 = 0 →
    exec (.feSet g a b) s = .next (((s.modMyCore (fun c => c.setFe (granules (r.val.toNat % 2 ^ 18) n) true)).wakeFullEmpty
      s.cur.core).advance) ∧
    exec (.feClr g a b) s = .next (((s.modMyCore (fun c => c.setFe (granules (r.val.toNat % 2 ^ 18) n) false)).wakeFullEmpty
      s.cur.core).advance))

/-- R138, R139, R134: `stc` to a window stores a register's 16 bytes and its tag, clearing a linear register, and `ldc`
reads a granule with its tag where the base has LC, clearing the tag of a linear capability. R144, R45: `pushm` stores
the registers with their tags below `hsp`, clears the linear ones and lowers `hsp`, unless that passes `hsl`; `popm` loads
them with their tags, clearing the tags of linear ones in memory, and raises `hsp`. -/
def Obligations.CapabilityMemoryAndStack : Prop :=
  (∀ (s : State) (g : BitVec 3) (d a : BitVec 5) (o : BitVec 9), s.me.pred g = true → (s.me.reg a).kind = 1 →
    let r := s.me.reg a
    let ea : Int := (r.val.toNat : Int) + o.toInt * 16
    let at_ := ea.toNat % 2 ^ 18
    (s.checkAccess .ldc a permL ea 16 16 false (some d) = .ok () →
      let v := granuleReg (s.spBytes ea 16) (s.spTag ea && r.has 3)
      loadable v = true → (v.linear = true → d ≠ 0#5) →
      exec (.ldc g d a o) s = .next ((if v.linear then
          (s.modMe (fun x => x.setReg d v)).modMyCore (fun c => { c with spTags := NatSet.remove c.spTags (at_ / 16) })
        else s.modMe (fun x => x.setReg d v)).advance)) ∧
    (s.checkAccess .stc a permS ea 16 16 true none = .ok () → ((s.me.reg d).tag = true → r.has 4 = true) →
      exec (.stc g d a o) s = .next ((if (s.me.reg d).linear then
          (s.modMyCore (fun c => c.spPutReg at_ (s.me.reg d))).modMe (fun x => x.setReg d CReg.zero)
        else s.modMyCore (fun c => c.spPutReg at_ (s.me.reg d))).advance))) ∧
  (∀ (s : State) (g : BitVec 3) (d a : BitVec 5), s.me.pred g = true → 1 ≤ d.toNat → d.toNat ≤ a.toNat →
    let k := a.toNat + 1 - d.toNat
    (s.me.hsp.toNat < s.me.hsl.toNat + 16 * k →
      exec (.pushm g d a) s = .next (s.takeTrap (trapBounds (s.me.hsp - BitVec.ofNat 64 (16 * k))))) ∧
    (s.me.hsl.toNat + 16 * k ≤ s.me.hsp.toNat →
      (∀ q ∈ granules (s.me.hsp.toNat - 16 * k) (16 * k), s.myCore.linearGranule q = false) →
      ∃ t, exec (.pushm g d a) s = .next t ∧ t.me.hsp = BitVec.ofNat 64 (s.me.hsp.toNat - 16 * k) ∧
        t.me.readyAt = s.k + 8 * ((k + 1) / 2) ∧
        (∀ r, t.me.reg r = if r ∈ regRange d a ∧ (s.me.reg r).linear = true then CReg.zero else s.me.reg r) ∧
        (s.myCore.sp.wf = true → ∀ i < k, let x := s.me.reg (BitVec.ofNat 5 (d.toNat + i))
          t.Holds s.cur.core (s.me.hsp.toNat - 16 * k + 16 * i) (regBytes x) ∧
          NatSet.has t.myCore.spTags ((s.me.hsp.toNat - 16 * k) / 16 + i) = x.tag)) ∧
    (s.me.hsp.toNat + 16 * k ≤ 0x40000 → (∀ r ∈ regRange d a, (s.me.reg r).linear = false) →
      (∀ i < k, loadable (granuleReg (s.myCore.sp.readN (s.me.hsp.toNat + 16 * i) 16)
        (NatSet.has s.myCore.spTags (s.me.hsp.toNat / 16 + i))) = true) →
      ∃ t, exec (.popm g d a) s = .next t ∧ t.me.hsp = BitVec.ofNat 64 (s.me.hsp.toNat + 16 * k) ∧
        t.me.readyAt = s.k + 8 * ((k + 1) / 2) ∧
        t.myCore.sp = s.myCore.sp ∧
        ∀ i < k,
          let tag := NatSet.has s.myCore.spTags (s.me.hsp.toNat / 16 + i)
          let x := granuleReg (s.myCore.sp.readN (s.me.hsp.toNat + 16 * i) 16) tag
          t.me.reg (BitVec.ofNat 5 (d.toNat + i)) = x ∧
          NatSet.has t.myCore.spTags (s.me.hsp.toNat / 16 + i) = (tag && !x.linear)))

/-- R146: a scalar atomic on a scratchpad window gives the old value, and stores what its operation makes of it. -/
def Obligations.ScalarAtomics : Prop :=
  ∀ (s : State) (g : BitVec 3) (d a b : BitVec 5) (w : BitVec 1), s.me.pred g = true → (s.me.reg a).kind = 1 →
    let n : Nat := if w = 0#1 then 4 else 8
    let ea : Int := (s.me.val a).toNat
    s.checkAccess .amo a permLS ea n n true (some d) = .ok () →
    let old := bytesNat (s.spBytes ea n)
    let y := (s.me.val b).toNat % 2 ^ (8 * n)
    let does (i : Instr) (x : Nat) : Prop :=
      exec i s = .next ((s.spStore ea (natBytes n x)).wrote d (BitVec.ofNat 64 old) 8)
    does (.amoAdd g d a b w) ((old + y) % 2 ^ (8 * n)) ∧ does (.amoAnd g d a b w) (old &&& y) ∧
    does (.amoOr g d a b w) (old ||| y) ∧ does (.amoXor g d a b w) (old ^^^ y) ∧
    does (.amoMin g d a b w) (if toSigned (8 * n) y < toSigned (8 * n) old then y else old) ∧
    does (.amoMax g d a b w) (if toSigned (8 * n) old < toSigned (8 * n) y then y else old) ∧
    does (.amoMinz g d a b w) (if y < old then y else old) ∧ does (.amoMaxz g d a b w) (if old < y then y else old) ∧
    does (.amoSwp g d a b w) y ∧
    (old = (s.me.val d).toNat % 2 ^ (8 * n) → does (.amoCas g d a b w) y) ∧
    (old ≠ (s.me.val d).toNat % 2 ^ (8 * n) →
      exec (.amoCas g d a b w) s = .next (s.wrote d (BitVec.ofNat 64 old) 8))

/-- R136, R141 to R143, R343: an access to a pan or to host memory is sent to its slice or to the host, with the
instruction's data; one to a device-register window is sent to its device; what it loads is written when the reply comes.
R384: a store is not performed during replay. -/
def Obligations.FarAccesses : Prop :=
  ∀ (s : State) (g z : BitVec 3) (d a b : BitVec 5) (o : BitVec 9), s.me.pred g = true →
    let r := s.me.reg a
    let v := s.me.reg d
    let host := r.place == .host
    let n : Nat := 2 ^ (z.toNat % 4)
    let ea : Int := (r.val.toNat : Int) + o.toInt * n
    let ec : Int := (r.val.toNat : Int) + o.toInt * 16
    (r.place = .device →
      (s.checkAccess .ld a permL ea n n false (some d) = .ok () →
        exec (.ld g d a o z) s = .next (s.sendDevice (.scalar d (8 * n) false) ea.toNat n none)) ∧
      (s.checkAccess .st a permS ea n n true none = .ok () →
        exec (.st g d a o z) s = .next (s.sendDevice .none ea.toNat n (some (s.me.val d))))) ∧
    ((r.place = .pan ∨ r.place = .host) → s.checkAccess .ld a permL ea n n false (some d) = .ok () →
      exec (.ld g d a o z) s =
        .next (s.sendFar (.scalar d (8 * n) (decide (z.toNat < 4))) [(ea.toNat, .read n false false)] host id)) ∧
    ((r.place = .pan ∨ r.place = .host) → s.checkAccess .st a permS ea n n true none = .ok () →
      exec (.st g d a o z) s = .next (if s.replaying then s.advance
        else s.sendFar .none [(ea.toNat, .write (natBytes n (s.me.val d).toNat) false)] host id)) ∧
    (s.checkAccess .ldc a permL ec 16 16 false (some d) = .ok () →
      (r.place = .pan → exec (.ldc g d a o) s =
        .next (s.sendFar (.cap d (r.has 3)) [(ec.toNat, .read 16 (r.has 3) (d == 0#5))] false id)) ∧
      (r.place = .host → exec (.ldc g d a o) s =
        .next (s.sendFar (.cap d false) [(ec.toNat, .read 16 false false)] true id))) ∧
    ((r.place = .pan ∨ r.place = .host) → s.checkAccess .stc a permS ec 16 16 true none = .ok () → v.linear = false →
      (v.tag = true → r.has 4 = true ∧ v.has 11 = true ∧ r.place = .pan) →
      exec (.stc g d a o) s = .next (if s.replaying then s.advance
        else s.sendFar .none [(ec.toNat, .write (regBytes v) v.tag)] host id)) ∧
    (r.place = .pan → ∀ w : BitVec 1,
      let m : Nat := if w = 0#1 then 4 else 8
      s.checkAccess .amo a permLS (r.val.toNat : Int) m m true (some d) = .ok () →
      let far (i : Instr) (op : Nat) : Prop :=
        exec i s = .next (s.sendFar (.amo d (8 * m)) [(r.val.toNat, .amo op (8 * m)
          (BitVec.ofNat 64 ((s.me.val b).toNat % 2 ^ (8 * m))) (BitVec.ofNat 64 ((s.me.val d).toNat % 2 ^ (8 * m))))]
          false id)
      far (.amoAdd g d a b w) 0 ∧ far (.amoAnd g d a b w) 1 ∧ far (.amoOr g d a b w) 2 ∧ far (.amoXor g d a b w) 3 ∧
      far (.amoMin g d a b w) 4 ∧ far (.amoMax g d a b w) 5 ∧ far (.amoMinz g d a b w) 6 ∧
      far (.amoMaxz g d a b w) 7 ∧ far (.amoSwp g d a b w) 8 ∧ far (.amoCas g d a b w) 9)

/-- R142, R143: an access that finds the way free is held by its strand; an unrelaxed one waits for its reply, a relaxed one
goes on; one that does not find it free waits and issues again. R145: a fence goes on where nothing it orders is outstanding,
and waits where something is; an instruction that performs the fence.far condition first waits at itself while an access of its
strand is outstanding, its own checks done. What a full way waits for, and that the instruction then issues again, is the
model's choice (log entry 24), as is the instruction that waits at itself after its checks (log entry 25). -/
def Obligations.FarGateAndFences : Prop :=
  (∀ (s : State) (dest : FarDest) (parts : List (Nat × ReqKind)) (host : Bool),
    (s.cur.relaxed = false → s.me.relaxedOut ≠ [] →
      s.sendFar dest parts host id = s.waitAgain (.relaxed s.me.relaxedOut)) ∧
    (s.cur.relaxed = true → 4 ≤ s.me.relaxedOut.length →
      s.sendFar dest parts host id = s.waitAgain (.relaxed (s.me.relaxedOut.take 1))) ∧
    ((s.cur.relaxed = false ∧ s.me.relaxedOut = [] ∨ s.cur.relaxed = true ∧ s.me.relaxedOut.length < 4) →
      let t := s.sendFar dest parts host id
      t.nextId ≠ s.nextId ∧
      (∃ f : Far, t.me.far = s.me.far ++ [f] ∧ f.id = s.nextId ∧ f.dest = dest ∧ f.left = parts.length ∧
        f.relaxed = s.cur.relaxed) ∧
      t.me.wait = (if s.cur.relaxed then s.me.wait else .far s.nextId) ∧ t.me.pc = (s.me.past s.cur.len).pc ∧
      t.hbm = s.hbm ∧ t.host = s.host)) ∧
  (∀ (s : State) (g : BitVec 3), s.me.pred g = true →
    let core := s.myCore.slots.flatMap (fun e => e.2.farOut)
    let jobs := (s.block (blockOf s.cur.core)).jobsOf s.me.serial
    exec (.fenceFar g) s =
      .next (if s.me.farOut = [] then s.advance else s.waitNext (.fence .far s.me.farOut)) ∧
    exec (.fenceEng g) s = .next (if jobs then s.waitNext (.fence .eng []) else s.advance) ∧
    exec (.fenceCore g) s = .next (if core = [] then s.advance else s.waitNext (.fence .core core))) ∧
  (∀ (s : State) (g : BitVec 3) (a : BitVec 5) (h : BitVec 6), s.me.pred g = true → s.me.farOut ≠ [] →
    s.checkEnd h.toNat true 0 = .ok () → checkPayload a (s.me.reg a) = .ok () →
    exec (.snd g a h) s = .next (s.waitAgain (.fenceFirst s.me.farOut s.cur.len s.cur.bits)))

/-! ## Vectors -/

/-- R31, R159, R182: a vector computation either takes a precise trap with VE set, or sets VE, raises flags and never clears
one, and writes its destination: no c register, no predicate, no extension register and no other v register changes, and a
scratchpad changes only where a bound out-stream pushes. R30, R182: where no operand is bound to a stream the operands are the
registers, and the result is written to the register. That a vector instruction that traps leaves VE set is the model's choice
(log entry 14). -/
def Obligations.VectorFrameAndOperands : Prop :=
  (∀ (i : Instr) (d : BitVec 4) (s t : State), s.MemoriesCanonical → vectorDest i = some d → exec i s = .next t →
    (∃ e, t = s.enabled.takeTrap e) ∨
    (t.me.ve = true ∧ (∀ r, t.me.reg r = s.me.reg r) ∧ t.me.p = s.me.p ∧ t.me.e = s.me.e ∧ t.me.srng = s.me.srng ∧
      (∀ j, s.me.fmode.getLsbD j = true → t.me.fmode.getLsbD j = true) ∧
      (∀ q, q ≠ d → t.me.vec q = s.enabled.me.vec q) ∧
      (∀ p, p ≠ s.cur.core → (t.core p).sp = (s.core p).sp) ∧ t.hbm = s.hbm ∧ t.host = s.host ∧
      match s.me.stream d with
      | none => (t.core s.cur.core).sp = s.myCore.sp
      | some x => s.SameOutside t s.cur.core (x.addr x.done) 64)) ∧
  (∀ (s : State) (reads : List (BitVec 4)) (d : BitVec 4) (w : BitVec 512) (fl : BitVec 5) (n : Nat),
    (∀ r ∈ d :: reads, s.me.stream r = none) →
    s.streamGate reads [d] = .ok none ∧ (∀ r ∈ reads, s.readVec r = s.me.vec r) ∧
    s.vectorDone reads d w fl n = (s.modMe (fun x => (x.raise fl).setVec d w)).advanceBy n)

/-- R161 to R164, R177: the floating lane operations round each lane once in the lane's format, collect every lane's flags, and
take their slot periods. A special function whose result R164 does not list gives the free value of log entry 7; the statement
holds for every such value. R161, R162: the results and the flags of sums, products, quotients and fused sums with infinities,
NaNs and zeros; the root rounded once; the smaller and the larger lane, −0 below +0; absolute values and negations. The finite
sums, products and quotients are those of RoundedResults. -/
def Obligations.VectorFloatResults : Prop :=
  (∀ f ∈ [fp32, bf16, fp16], ∀ (mode : Rnd) (a b c : FVal) (n n' o np na : Bool) (m m' : Nat) (e e' : Int),
    let infinity (x : Bool) : Nat × BitVec 5 := (f.sign x + f.infinity, flagNone)
    let quiet : Nat × BitVec 5 := (f.nan, flagNone)
    let invalid : Nat × BitVec 5 := (f.nan, flagNV)
    let x : FVal := .fin n m e
    let y : FVal := .fin n' m' e'
    (a = .nan ∨ b = .nan → f.add mode a b = quiet ∧ f.mul mode a b = quiet ∧ f.div mode a b = quiet ∧
      f.fma mode np na a b c = quiet) ∧
    f.add mode (.inf n) (.inf n') = (if n = n' then infinity n else invalid) ∧
    f.add mode (.inf n) y = infinity n ∧ f.add mode x (.inf n') = infinity n' ∧
    FVal.neg .nan = .nan ∧ FVal.neg (.inf n) = .inf (!n) ∧ x.neg = .fin (!n) m e ∧
    f.mul mode (.inf n) (.inf n') = infinity (n != n') ∧
    f.mul mode (.inf n) y = (if m' = 0 then invalid else infinity (n != n')) ∧
    f.mul mode x (.inf n') = (if m = 0 then invalid else infinity (n != n')) ∧
    f.div mode (.inf n) (.inf n') = invalid ∧ f.div mode (.inf n) y = infinity (n != n') ∧
    f.div mode x (.inf n') = (f.sign (n != n'), flagNone) ∧
    (m' = 0 → f.fma mode np na (.inf n) y c = invalid ∧ f.fma mode np na y (.inf n) c = invalid) ∧
    (let z := (n != n') ^^ np
     ((a = .inf n ∧ b = .inf n') ∨ (a = .inf n ∧ b = y ∧ m' ≠ 0) ∨ (a = x ∧ b = .inf n' ∧ m ≠ 0)) →
      f.fma mode np na a b (.inf o) = (if z = (o ^^ na) then infinity z else invalid) ∧
      f.fma mode np na a b .nan = quiet ∧ ∀ k l, f.fma mode np na a b (.fin o k l) = infinity z) ∧
    f.fma mode np na x y .nan = quiet ∧ f.fma mode np na x y (.inf o) = infinity (o ^^ na) ∧
    f.sqrt mode .nan = quiet ∧ f.sqrt mode (.inf n) = (if n then invalid else infinity false) ∧
    (m = 0 → f.sqrt mode x = (f.sign n, flagNone)) ∧ (m ≠ 0 → n = true → f.sqrt mode x = invalid) ∧
    ∀ k, f.decode k = x → m ≠ 0 → n = false → mode ≠ .sr → f.RootRounding mode m e (f.sqrt mode x)) ∧
  (∀ (t : BitVec 3) (u : BitVec 1) (x y : Nat),
    let w := laneWidth t
    let least : Int := -2 ^ (w - 1)
    x < 2 ^ w → y < 2 ^ w →
    (isInteger t = true →
      (∀ l, minMaxLane t u l x y ∈ [x, y]) ∧
      laneInt t u (minMaxLane t u false x y) = min (laneInt t u x) (laneInt t u y) ∧
      laneInt t u (minMaxLane t u true x y) = max (laneInt t u x) (laneInt t u y) ∧
      absLane t x < 2 ^ w ∧ toSigned w (absLane t x) = (if toSigned w x = least then least else (toSigned w x).natAbs) ∧
      negLane t x < 2 ^ w ∧ toSigned w (negLane t x) = (if toSigned w x = least then least else -toSigned w x)) ∧
    (isFloating t = true →
      ((vfmt t).decode x = .nan ∨ (vfmt t).decode y = .nan → ∀ l, minMaxLane t u l x y = (vfmt t).nan) ∧
      ((vfmt t).decode x ≠ .nan → (vfmt t).decode y ≠ .nan →
        minMaxLane t u false x y = (if signOrder w x ≤ signOrder w y then x else y) ∧
        minMaxLane t u true x y = (if signOrder w x ≤ signOrder w y then y else x)) ∧
      ∀ j, (absLane t x).testBit j = (x.testBit j && decide (j ≠ w - 1)) ∧
        (negLane t x).testBit j = (x.testBit j ^^ decide (j = w - 1)))) ∧
  ∀ (s : State) (g t r : BitVec 3) (d a b : BitVec 4) (u : BitVec 1), s.me.pred g = true →
    let v := s.enabled
    let w := laneWidth t
    let m := vfmt t
    let mode := (v.me.rounding r).plain
    let x (i : Nat) := lane w (v.readVec a) i
    let y (i : Nat) := lane w (v.readVec b) i
    let z (i : Nat) := lane w (v.readVec d) i
    let does (i : Instr) (reads : List (BitVec 4)) (n : Nat) (f : Nat → Nat × BitVec 5) : Prop :=
      v.streamGate reads [d] = .ok none →
      ∃ q, exec i s = .next (v.vectorDone reads d q (orFlags (512 / w) (fun i => (f i).2)) n) ∧
        LanesAre w q (fun i => (f i).1)
    does (.vadd g d t a b r) [a, b] 8 (fun i => m.add mode (m.decode (x i)) (m.decode (y i))) ∧
    does (.vsub g d t a b r) [a, b] 8 (fun i => m.add mode (m.decode (x i)) (m.decode (y i)).neg) ∧
    does (.vmul g d t a b r) [a, b] 8 (fun i => m.mul mode (m.decode (x i)) (m.decode (y i))) ∧
    does (.vdiv g d t a b r) [a, b] 24 (fun i => m.div mode (m.decode (x i)) (m.decode (y i))) ∧
    does (.vsqrt g d t a r) [a] 24 (fun i => m.sqrt mode (m.decode (x i))) ∧
    does (.vfma g d t a b r) [a, b, d] 8
      (fun i => m.fma mode false false (m.decode (x i)) (m.decode (y i)) (m.decode (z i))) ∧
    does (.vfms g d t a b r) [a, b, d] 8
      (fun i => m.fma mode false true (m.decode (x i)) (m.decode (y i)) (m.decode (z i))) ∧
    does (.vfnma g d t a b r) [a, b, d] 8
      (fun i => m.fma mode true false (m.decode (x i)) (m.decode (y i)) (m.decode (z i))) ∧
    does (.vfnms g d t a b r) [a, b, d] 8
      (fun i => m.fma mode true true (m.decode (x i)) (m.decode (y i)) (m.decode (z i))) ∧
    does (.vmin g d t a b u) [a, b] 8 (fun i => (minMaxLane t u false (x i) (y i), 0#5)) ∧
    does (.vmax g d t a b u) [a, b] 8 (fun i => (minMaxLane t u true (x i) (y i), 0#5)) ∧
    does (.vabs g d t a) [a] 8 (fun i => (absLane t (x i), 0#5)) ∧
    does (.vneg g d t a) [a] 8 (fun i => (negLane t (x i), 0#5)) ∧
    does (.vrcp g d t a) [a] 16 (fun i => specialLane t 0 (x i)) ∧
    does (.vrsq g d t a) [a] 16 (fun i => specialLane t 1 (x i)) ∧
    does (.vex2 g d t a) [a] 16 (fun i => specialLane t 2 (x i)) ∧
    does (.vlg2 g d t a) [a] 16 (fun i => specialLane t 3 (x i)) ∧
    does (.vtanh g d t a) [a] 16 (fun i => specialLane t 4 (x i)) ∧
    does (.vsin g d t a) [a] 16 (fun i => specialLane t 5 (x i))

/-- R53, R58, R161, R162, R166: what one rounding of an exact result is. A finite sum, product, quotient and fused sum, a sum
of products, and a conversion between floating formats are the exact result rounded once; an exact zero keeps the sign that
R160 gives; and the sum of a vector is the tree of R58. R163, R164: the listed results of the special functions of FP32
lanes; elsewhere a finite result is within its bound of the exact value, which the model computes in fixed point (log entry 7).
-/
def Obligations.RoundedResults : Prop :=
  (∀ f ∈ [fp32, bf16, fp16, e4m3, e5m2, e2m1], ∀ (mode : Rnd) (neg : Bool) (m : Nat) (e : Int) (rnd : Nat),
    m ≠ 0 → m < 2 ^ 1200 → f.OneRounding mode neg m 1 e rnd (f.round mode neg m e false rnd)) ∧
  (∀ f ∈ [fp32, bf16, fp16], ∀ (mode : Rnd) (x y z : Nat) (n1 n2 n3 : Bool) (m1 m2 m3 : Nat) (e1 e2 e3 : Int) (np na : Bool),
    mode ≠ .sr → f.decode x = .fin n1 m1 e1 → f.decode y = .fin n2 m2 e2 → f.decode z = .fin n3 m3 e3 →
    let a := f.decode x
    let b := f.decode y
    let c := f.decode z
    (let e := min e1 e2
     let v := scaled n1 m1 e1 e + scaled n2 m2 e2 e
     (v ≠ 0 → f.OneRounding mode (decide (v < 0)) v.natAbs 1 e 0 (f.add mode a b)) ∧
     (v = 0 → f.add mode a b =
       (f.sign (if m1 = 0 ∧ m2 = 0 ∧ n1 = n2 then n1 else decide (mode = .rdn)), flagNone))) ∧
    (m1 * m2 ≠ 0 → f.OneRounding mode (n1 != n2) (m1 * m2) 1 (e1 + e2) 0 (f.mul mode a b)) ∧
    (m1 * m2 = 0 → f.mul mode a b = (f.sign (n1 != n2), flagNone)) ∧
    (m1 ≠ 0 → m2 ≠ 0 → f.OneRounding mode (n1 != n2) m1 m2 (e1 - e2) 0 (f.div mode a b)) ∧
    (m1 ≠ 0 → m2 = 0 → f.div mode a b = (f.sign (n1 != n2) + f.infinity, flagDZ)) ∧
    (m1 = 0 → m2 = 0 → f.div mode a b = (f.nan, flagNV)) ∧
    (let e := min (e1 + e2) e3
     let v := scaled ((n1 != n2) ^^ np) (m1 * m2) (e1 + e2) e + scaled (n3 ^^ na) m3 e3 e
     (v ≠ 0 → f.OneRounding mode (decide (v < 0)) v.natAbs 1 e 0 (f.fma mode np na a b c)) ∧
     (v = 0 → f.fma mode np na a b c =
       (f.sign (if m1 * m2 = 0 ∧ m3 = 0 ∧ ((n1 != n2) ^^ np) = (n3 ^^ na) then n3 ^^ na else decide (mode = .rdn)),
         flagNone)))) ∧
  (∀ (f : Fmt) (mode : Rnd) (ps : List ((Bool × Nat × Int) × (Bool × Nat × Int))) (n : Bool) (m : Nat) (e low : Int),
    f = fp32 →
    let fin (x : Bool × Nat × Int) : FVal := .fin x.1 x.2.1 x.2.2
    let v := (ps.map (fun p => scaled (p.1.1 != p.2.1) (p.1.2.1 * p.2.2.1) (p.1.2.2 + p.2.2.2) low)).sum + scaled n m e low
    low ≤ 0 → low ≤ e → (∀ p ∈ ps, low ≤ p.1.2.2 + p.2.2.2) → v ≠ 0 → v.natAbs < 2 ^ 1200 →
    f.OneRounding mode (decide (v < 0)) v.natAbs 1 low 0 (exactSum f mode (ps.map (fun p => (fin p.1, fin p.2))) (.fin n m e))) ∧
  (∀ (f : Fmt) (mode : Rnd) (n a b : Nat) (xs ys : List Nat), xs.length = 2 ^ n → ys.length = 2 ^ n →
    (sumTree f mode n xs).1 = [a] → (sumTree f mode n ys).1 = [b] →
    (sumTree f mode (n + 1) (xs ++ ys)).1 = [(f.add mode (f.decode a) (f.decode b)).1]) ∧
  (∀ (dt st : Nat) (f h : Fmt) (mode : Rnd) (x rnd : Nat) (n : Bool) (m : Nat) (e : Int), cvtFmt dt = some f →
    cvtFmt st = some h → h.decode x = .fin n m e →
    (m = 0 → convert dt st mode x rnd = (f.sign n, flagNone)) ∧
    (m ≠ 0 → narrows f h = true → f.OneRounding mode n m 1 e rnd (convert dt st mode x rnd)) ∧
    (m ≠ 0 → narrows f h = false → ∃ m' e', f.decode (convert dt st mode x rnd).1 = .fin n m' e' ∧
      (convert dt st mode x rnd).2 = 0#5 ∧ scaled false m' e' (min e e') = scaled false m e (min e e'))) ∧
  ∀ x : Nat,
    let d := fp32.decode x
    let r (code : Nat) := specialLane 0#3 code x
    (d = .nan → ∀ code < 6, r code = (fp32.nan, flagNone)) ∧
    (∀ n, d = .inf n →
      r 0 = (fp32.sign n, flagNone) ∧ r 1 = (if n then (fp32.nan, flagNV ||| flagNX) else (0, flagNone)) ∧
      r 2 = (if n then 0 else fp32.infinity, flagNone) ∧
      r 3 = (if n then (fp32.nan, flagNV ||| flagNX) else (fp32.infinity, flagNone)) ∧
      r 4 = (fp32.sign n + 0x3F800000, flagNone) ∧ r 5 = (fp32.nan, flagNV ||| flagNX)) ∧
    ∀ n m e, d = .fin n m e →
      (m = 0 → r 0 = (fp32.sign n + fp32.infinity, flagDZ ||| flagNX) ∧
        r 1 = (fp32.sign n + fp32.infinity, flagDZ ||| flagNX) ∧ r 2 = (0x3F800000, flagNX) ∧
        r 3 = (0xFF800000, flagDZ ||| flagNX) ∧ r 4 = (fp32.sign n, flagNone) ∧ r 5 = (0, flagNone)) ∧
      (m ≠ 0 → n = true → r 1 = (fp32.nan, flagNV ||| flagNX) ∧ r 3 = (fp32.nan, flagNV ||| flagNX)) ∧
      (n = false → ∀ k : Nat, m = 2 ^ k → ∃ n' m' e', fp32.decode (r 3).1 = .fin n' m' e' ∧ (r 3).2 = 0#5 ∧
        scaled n' m' e' (min 0 e') = scaled false 1 0 (min 0 e') * (k + e)) ∧
      (∀ h : Nat, m ≠ 0 → 0 ≤ e ∨ m = h * 2 ^ (-e).toNat → r 5 = (fp32.sign n, flagNone)) ∧
      (∀ h : Nat, e < 0 → 2 * m = h * 2 ^ (-e).toNat → h % 2 = 1 →
        r 5 = (if ((if n then -(h : Int) else h) - 1) / 2 % 2 = 0 then 0x3F800000 else 0xBF800000, flagNone)) ∧
      ∀ code < 6, specialListed code x = none →
        let v := specialValue code n m e
        (fp32.roundVal .rne (.fin (decide (v < 0)) v.natAbs (-320)) 0).2 &&& flagOF = 0#5 →
        (r code).2 &&& flagNX ≠ 0#5 ∧ ∃ n' m' e', fp32.decode (r code).1 = .fin n' m' e' ∧
          specialBound code v (scaled n' m' e' (-320)) = true

/-- R173 to R176: the bitwise, integer and permuting lane operations, lane by lane. R159: a slide by 0 has VD among its
sources. -/
def Obligations.VectorIntegerResults : Prop :=
  ∀ (s : State) (g t : BitVec 3) (d a b : BitVec 4) (k : BitVec 6), s.me.pred g = true →
    let v := s.enabled
    let w := laneWidth t
    let n := 512 / w
    let x (i : Nat) := lane w (v.readVec a) i
    let y (i : Nat) := lane w (v.readVec b) i
    let z (i : Nat) := lane w (v.readVec d) i
    let bits (i : Instr) (q : BitVec 512) : Prop :=
      v.streamGate [a, b] [d] = .ok none → exec i s = .next (v.vectorDone [a, b] d q 0#5 8)
    let does (i : Instr) (reads : List (BitVec 4)) (f : Nat → Nat) : Prop :=
      v.streamGate reads [d] = .ok none →
      ∃ q, exec i s = .next (v.vectorDone reads d q 0#5 8) ∧ LanesAre w q f
    bits (.vand g d a b) (v.readVec a &&& v.readVec b) ∧ bits (.vor g d a b) (v.readVec a ||| v.readVec b) ∧
    bits (.vxor g d a b) (v.readVec a ^^^ v.readVec b) ∧
    does (.vsel g d t a b) [a, b, d] (fun i => if z i = 0 then y i else x i) ∧
    does (.viadd g d t a b) [a, b] (fun i => x i + y i) ∧
    does (.visub g d t a b) [a, b] (fun i => 2 ^ w + x i - y i) ∧
    does (.vimul g d t a b) [a, b] (fun i => x i * y i) ∧
    does (.vshl g d t a b) [a, b] (fun i => x i * 2 ^ (y i % w)) ∧
    does (.vshr g d t a b) [a, b] (fun i => x i / 2 ^ (y i % w)) ∧
    does (.vsar g d t a b) [a, b] (fun i => (toSigned w (x i) / 2 ^ (y i % w) % 2 ^ w).toNat) ∧
    does (.vpcnt g d t a) [a] (fun i => popCount (BitVec.ofNat 32 (x i))) ∧
    does (.vclm g d t a b) [a, b] (fun i => carryLess w (x i) (y i)) ∧
    does (.vperm g d t a b) [a, b] (fun i => x (y i % n)) ∧
    does (.vshuf g d t a k) [a] (fun i => x (shuffleSource n k i)) ∧
    does (.vslideUp g d t a k) (slideSources d a k) (fun i => if i < k.toNat then 0 else x (i - k.toNat)) ∧
    does (.vslideDn g d t a k) (slideSources d a k) (fun i => if i + k.toNat < n then x (i + k.toNat) else 0) ∧
    does (.vsplat g d t a) [] (fun _ => (s.me.val (a.setWidth 5)).toNat) ∧
    does (.vins g d t a k) [d] (fun i => if i = k.toNat then (s.me.val (a.setWidth 5)).toNat else z i) ∧
    does (.vmov g d t a) [a] x ∧
    (v.streamGate [a] [] = .ok none → (v.popAll [a]).mayWrite (d.setWidth 5) →
      exec (.vext g d t a k) s = .next ((v.popAll [a]).wrote (d.setWidth 5)
        (if isInteger t then BitVec.ofInt 64 (toSigned w (x k.toNat)) else BitVec.ofNat 64 (x k.toNat)) 8))

/-- R165 to R172: conversions, dot products, reductions and compares of lanes. R168, R170, R123: the integer dot product modulo
2^32 and the infinities and NaNs of the floating one; the largest and the smallest lane; a floating compare by the values of
its operands, and its results and flag with a NaN. -/
def Obligations.VectorReductionResults : Prop :=
  (∀ (t : BitVec 3) (mode : Rnd) (xs ys : List Nat) (c : Nat),
    let w := laneWidth t
    let r := dotLane t mode xs ys c
    (isInteger t = true → (r.1 : Int) =
      (toSigned 32 c + ((xs.zip ys).map (fun p => toSigned w p.1 * toSigned w p.2)).sum) % 2 ^ 32 ∧ r.2 = flagNone) ∧
    (isInteger t = false → r =
      exactSum fp32 mode ((xs.zip ys).map (fun p => ((vfmt t).decode p.1, (vfmt t).decode p.2))) (fp32.decode c))) ∧
  (∀ (mode : Rnd) (ps : List (FVal × FVal)) (c : FVal),
    let zeroTimes : Prop := ∃ p ∈ ps, ∃ x y e, p = (.inf x, .fin y 0 e) ∨ p = (.fin y 0 e, .inf x)
    let has (n : Bool) : Prop := c = .inf n ∨ ∃ p ∈ ps, ∃ x y, n = (x != y) ∧
      (p = (.inf x, .inf y) ∨ ∃ m e, m ≠ 0 ∧ (p = (.inf x, .fin y m e) ∨ p = (.fin x m e, .inf y)))
    let someNan : Prop := c = .nan ∨ ∃ p ∈ ps, p.1 = .nan ∨ p.2 = .nan
    (zeroTimes ∨ (has true ∧ has false) → exactSum fp32 mode ps c = (fp32.nan, flagNV)) ∧
    (¬ zeroTimes → ¬ (has true ∧ has false) → someNan → exactSum fp32 mode ps c = (fp32.nan, flagNone)) ∧
    ∀ n, ¬ zeroTimes → ¬ someNan → has n → ¬ has (!n) → exactSum fp32 mode ps c = (fp32.sign n + fp32.infinity, flagNone)) ∧
  (∀ (t : BitVec 3) (l : Bool) (v : BitVec 512),
    let w := laneWidth t
    let n := 512 / w
    let r := (reduceLanes t l v).toNat
    let least (f : Nat → Int) (z : Int) : Prop :=
      (∃ i < n, z = f (lane w v i)) ∧ ∀ i < n, if l then f (lane w v i) ≤ z else z ≤ f (lane w v i)
    (isInteger t = true → r < 2 ^ 32 ∧ least (toSigned w) (toSigned 32 r)) ∧
    (isFloating t = true →
      ((∃ i < n, (vfmt t).decode (lane w v i) = .nan) → r = (vfmt t).nan) ∧
      ((∀ i < n, (vfmt t).decode (lane w v i) ≠ .nan) → (∃ i < n, r = lane w v i) ∧ least (signOrder w) (signOrder w r)))) ∧
  (∀ (c : Nat) (a b : FVal), c < 8 →
    (a = .nan ∨ b = .nan → compareFloat c a b =
      (decide (c = 1 ∨ c = 6), if c ∈ [2, 3, 4, 5] then flagNV else flagNone)) ∧
    (a ≠ .nan → b ≠ .nan → (compareFloat c a b).2 = flagNone ∧
      ((compareFloat c a b).1 = true ↔
        (c = 0 ∧ ¬ a.Below b ∧ ¬ b.Below a) ∨ (c = 1 ∧ (a.Below b ∨ b.Below a)) ∨ (c = 2 ∧ a.Below b) ∨
        (c = 3 ∧ ¬ a.Below b) ∨ (c = 4 ∧ ¬ b.Below a) ∨ (c = 5 ∧ b.Below a) ∨ c = 7))) ∧
  ∀ (s : State) (g t c r : BitVec 3) (d a b e f : BitVec 4) (u : BitVec 1), s.me.pred g = true →
    let v := s.enabled
    let w := laneWidth t
    let mode := (v.me.rounding r).plain
    let xs := lanesOf w (v.readVec a)
    (v.streamGate [a, b, d] [d] = .ok none →
      ∃ q, exec (.vdot g d t a b r) s = .next (v.vectorDone [a, b, d] d q (orFlags 16 (fun i =>
          (dotLane t mode ((List.range (32 / w)).map (fun j => lane w (v.readVec a) (32 / w * i + j)))
            ((List.range (32 / w)).map (fun j => lane w (v.readVec b) (32 / w * i + j))) (lane 32 (v.readVec d) i)).2)) 8) ∧
        LanesAre 32 q (fun i =>
          (dotLane t mode ((List.range (32 / w)).map (fun j => lane w (v.readVec a) (32 / w * i + j)))
            ((List.range (32 / w)).map (fun j => lane w (v.readVec b) (32 / w * i + j))) (lane 32 (v.readVec d) i)).1)) ∧
    (v.streamGate [a] [d] = .ok none →
      (isFloating t = false → exec (.vredsum g d t a r) s = .next (v.vectorDone [a] d
        (BitVec.ofNat 512 ((xs.map (toSigned w)).sum % 2 ^ 32).toNat) 0#5 8)) ∧
      (isFloating t = true →
        let q := sumTree (vfmt t) mode (if w = 32 then 4 else 5) xs
        exec (.vredsum g d t a r) s = .next (v.vectorDone [a] d (BitVec.ofNat 512 (q.1.headD 0)) q.2 8)) ∧
      exec (.vredmax g d t a) s = .next (v.vectorDone [a] d (reduceLanes t true (v.readVec a)) 0#5 8) ∧
      exec (.vredmin g d t a) s = .next (v.vectorDone [a] d (reduceLanes t false (v.readVec a)) 0#5 8) ∧
      (let m := v.me.rounding r
       let n := 512 / max (cvtWidth f.toNat) (cvtWidth e.toNat)
       let q := convertAll e.toNat f.toNat m (stochasticCvt e.toNat f.toNat m)
         ((List.range n).map (lane (cvtWidth f.toNat) (v.readVec a))) v.me.srng
       exec (.vcvt g d a e f r) s =
         .next ((((v.popAll [a]).modMe (fun x => { x.raise q.2.1 with srng := q.2.2 })).writeVec d
           (ofLanes (cvtWidth e.toNat) q.1)).advance))) ∧
    (v.streamGate [a, b] [d] = .ok none → isFloating t = false → c.toNat ≤ 5 →
      ∃ q, exec (.vcmp g d t c a b u) s = .next (v.vectorDone [a, b] d q 0#5 8) ∧
        LanesAre w q (fun i =>
          let x := laneInt t u (lane w (v.readVec a) i)
          let y := laneInt t u (lane w (v.readVec b) i)
          if (c = 0#3 ∧ x = y) ∨ (c = 1#3 ∧ x ≠ y) ∨ (c = 2#3 ∧ x < y) ∨ (c = 3#3 ∧ y ≤ x) ∨ (c = 4#3 ∧ x ≤ y) ∨
            (c = 5#3 ∧ y < x) then 2 ^ w - 1 else 0)) ∧
    (v.streamGate [a, b] [d] = .ok none → isFloating t = true →
      let f (i : Nat) := compareFloat c.toNat ((vfmt t).decode (lane w (v.readVec a) i)) ((vfmt t).decode (lane w (v.readVec b) i))
      ∃ q, exec (.vcmp g d t c a b u) s =
          .next (v.vectorDone [a, b] d q (orFlags (512 / w) (fun i => (f i).2)) 8) ∧
        LanesAre w q (fun i => if (f i).1 then 2 ^ w - 1 else 0)) ∧
    (let o := s.me.reg (b.setWidth 5)
     v.streamGate [a] [] = .ok none → o.tag = true → o.kind = 1 → o.has 0 = true → o.has 1 = true →
      o.inBounds o.val.toNat 48 = true → (∀ q ∈ granules o.val.toNat 48, s.myCore.linearGranule q = false) →
      o.val.toNat % 16 = 0 → xsReservedOk (v.myCore.sp.readN o.val.toNat 48) = true →
      exec (.vredx g t a b) s = .next (((v.popAll [a]).modMyCore (fun x => x.spWrite o.val.toNat
        (xs.foldl (fun y z => y.add ((vfmt t).decode z)) (Xs.ofBytes (v.myCore.sp.readN o.val.toNat 48))).bytes)).advanceBy
        (8 * (512 / w / 16))))

/-- R140, R141, R148: the vector forms of loads, stores and atomics on a scratchpad window, on a pan and, for `vld` and
`vst`, on host memory: the elements in lane order, the operands' streams popped as the access is sent. That the elements of a
`vamo` are written together is the model's choice (log entry 117). -/
def Obligations.VectorMemory : Prop :=
  ∀ (s : State) (g : BitVec 3) (d b : BitVec 4) (a c : BitVec 5) (o : BitVec 9) (z : BitVec 2) (w : BitVec 1),
    s.me.pred g = true →
    let v := s.enabled
    let r := s.me.reg a
    let ea : Int := (r.val.toNat : Int) + o.toInt * 64
    let n := elementBits z
    let by1 := (List.range (512 / n)).map (fun (i : Nat) => (r.val.toNat : Int) + (i : Int) * (s.me.val c).toInt)
    let by2 := (lanesOf n (v.readVec b)).map (fun (i : Nat) => (r.val.toNat : Int) + ((i * (n / 8) : Nat) : Int))
    (v.checkAccess .vld a permL ea 64 64 false none = .ok () → v.streamGate [] [d] = .ok none →
      (r.place = .window → exec (.vld g d a o) s = .next ((v.writeVec d (bytesVec (v.spBytes ea 64))).advance)) ∧
      ((r.place = .pan ∨ r.place = .host) → exec (.vld g d a o) s =
        .next (v.sendFar (.vec d) [(ea.toNat, .read 64 false false)] (r.place == .host) id))) ∧
    (v.checkAccess .vst a permS ea 64 64 true none = .ok () → v.streamGate [d] [] = .ok none →
      (r.place = .window →
        exec (.vst g d a o) s = .next (((v.popAll [d]).spStore ea (vecBytes (v.readVec d))).advance)) ∧
      ((r.place = .pan ∨ r.place = .host) → exec (.vst g d a o) s = .next (if v.replaying then (v.popAll [d]).advance
        else v.sendFar .none [(ea.toNat, .write (vecBytes (v.readVec d)) false)] (r.place == .host)
          (fun s => s.popAll [d])))) ∧
    (let reads (at_ : List Int) : List (Nat × ReqKind) := at_.map (fun e => (e.toNat, .read (n / 8) false false))
     let slots := 8 * (512 / n / 16)
     (v.checkElements .gather a permL by1 (n / 8) false = .ok () → v.streamGate [] [d] = .ok none →
      (r.place = .window → exec (.vlds g d a c z) s = .next ((v.writeVec d
        (ofLanes n (by1.map (fun e => bytesNat (v.spBytes e (n / 8)))))).advanceBy slots)) ∧
      (r.place = .pan → exec (.vlds g d a c z) s =
        .next (v.sendFar (.lanes d n) (reads by1) false (fun s => s.popAll [])))) ∧
     (v.checkElements .gather a permL by2 (n / 8) false = .ok () → v.streamGate [b] [d] = .ok none →
      (r.place = .window → exec (.vldg g d a b z) s = .next (((v.popAll [b]).writeVec d
        (ofLanes n (by2.map (fun e => bytesNat (v.spBytes e (n / 8)))))).advanceBy slots)) ∧
      (r.place = .pan → exec (.vldg g d a b z) s =
        .next (v.sendFar (.lanes d n) (reads by2) false (fun s => s.popAll [b]))))) ∧
    (let stores (at_ : List Int) : List (Int × List Byte) :=
      at_.zip ((lanesOf n (v.readVec d)).map (fun x => natBytes (n / 8) x))
     let does (i : Instr) (pops : List (BitVec 4)) (at_ : List Int) : Prop :=
      v.checkElements .scatter a permS at_ (n / 8) true = .ok () → v.streamGate pops [] = .ok none →
      (r.place = .window → exec i s = .next (((stores at_).foldl (fun s p => s.spStore p.1 p.2)
        (v.popAll pops)).advanceBy (8 * (512 / n / 16)))) ∧
      (r.place = .pan → exec i s = .next (if v.replaying then (v.popAll pops).advance
        else v.sendFar .none ((stores at_).map (fun p => (p.1.toNat, .write p.2 false))) false
          (fun s => s.popAll pops)))
     does (.vsts g d a c z) [d] by1 ∧ does (.vstx g d a b z) [d, b] by2) ∧
    (v.checkAccess .amo a permLS r.val.toNat 32 32 true none = .ok () → v.streamGate [b] [d] = .ok none →
      let bits : Nat := if w = 0#1 then 32 else 64
      let old := v.spBytes r.val.toNat 32
      let does (i : Instr) (op : Nat) : Prop :=
        (r.place = .window → exec i s = .next ((((v.popAll [b]).spStore r.val.toNat
          (vectorAtomic op bits old ((vecBytes (v.readVec b)).take 32))).writeVec d (bytesVec old)).advance)) ∧
        (r.place = .pan → exec i s = .next (v.sendFar (.vamo d) [(r.val.toNat, .vamo op bits (v.readVec b))] false
          (fun s => s.popAll [b])))
      does (.vamoAdd g d a b w) 0 ∧ does (.vamoAnd g d a b w) 1 ∧ does (.vamoOr g d a b w) 2 ∧
      does (.vamoXor g d a b w) 3 ∧ does (.vamoMin g d a b w) 4 ∧ does (.vamoMax g d a b w) 5 ∧
      does (.vamoMinz g d a b w) 6 ∧ does (.vamoMaxz g d a b w) 7 ∧ does (.vamoSwp g d a b w) 8)

/-- R149, R150, R152, R180, R181, R185: a contribution is sent to its pan with the slot's next sequence number; a stream
is bound with its descriptor and its status bits, freed, and skipped no further than its end. -/
def Obligations.ContributionsAndStreams : Prop :=
  ∀ (s : State) (g : BitVec 3) (d a : BitVec 5) (b : BitVec 4) (l f : BitVec 2) (e : BitVec 3), s.me.pred g = true →
    let v := s.enabled
    let r := s.me.reg a
    let ea : Int := r.val.toNat
    let q := s.myCore.cseqOf s.cur.slot + 1#64
    let sends (i : Instr) (x : Contribution) : Prop :=
      exec i s = .next (v.sendFar .none [(r.val.toNat, .contribute x q)] false
        (fun s => (s.popAll [b]).modMyCore (fun c => { c with cseq := c.cseq.set s.cur.slot q })))
    let size : Nat := if f = 0#2 then 4 else if f = 1#2 then 2 else 48
    let n := (if l = 0#2 then 16 else 32) * size
    (checkPlace .acc a r permA ea = .ok () → v.streamGate [b] [] = .ok none → v.checkHome r ea = .ok () →
      (r.inBounds ea n = true → r.val.toNat % (if f = 2#2 then 16 else size) = 0 → r.val.toNat % 2048 + n ≤ 2048 →
        sends (.acc g a b l f) (.acc f l (v.readVec b))) ∧
      (r.inBounds ea 64 = true → r.val.toNat % 64 = 0 →
        sends (.maccMx8 g d a b)
          (.mx (if (s.me.val d).getLsbD 8 then 2 else 1) ((s.me.val d).extractLsb' 0 8) (v.readVec b)) ∧
        sends (.maccMx4 g d a b) (.mx 3 ((s.me.val d).extractLsb' 0 8) (v.readVec b)))) ∧
    (∀ out : Bool,
      let w0 := s.me.ext e.toNat
      let w1 := s.me.ext (e.toNat + 1)
      let w2 := s.me.ext (e.toNat + 2)
      let st := streamOf w0 w1 w2 out
      streamFieldsOk w0 w1 w2 = true → r.tag = true → r.kind = 1 → r.has (if out then 1 else 0) = true →
      validBounds r.bounds = true → r.bounds.1 ≤ st.extent.1 → st.extent.2 ≤ r.bounds.2 →
      ((s.me.streams.get? d.toNat).isSome = true ∨ v.myCore.generators < 4) → 13 ≤ d.toNat → d.toNat ≤ 15 →
      ∃ t, exec (if out then .sbindOut g d e a else .sbindIn g d e a) s = .next t ∧
        t.me.stream (d.setWidth 4) = some st ∧ t.me.sst.getLsbD (d.toNat - 10) = true ∧
        t.me.sst.getLsbD (d.toNat - 7) = out ∧ (∀ x, x ≠ d.setWidth 4 → t.me.stream x = s.me.stream x) ∧
        s.OnlyStrand t) ∧
    (13 ≤ d.toNat → d.toNat ≤ 15 →
      ∃ t, exec (.sfree g d) s = .next t ∧ t.me.stream (d.setWidth 4) = none ∧ t.me.vec (d.setWidth 4) = 0#512 ∧
        t.me.sst.getLsbD (d.toNat - 10) = false ∧ t.me.sst.getLsbD (d.toNat - 7) = false ∧ s.OnlyStrand t) ∧
    (∃ t, exec (.sskip g d a) s = .next t ∧ s.OnlyStrand t ∧
      ∀ st, s.me.streams.get? d.toNat = some st →
        t.me.streams.get? d.toNat = some { st with done := st.done + min r.val.toNat (st.total - st.done) })

/-! ## Channels -/

/-- R189 to R200, R67, R26: binding, clearing and reading ends; a send puts its message on the network, marks its end and
waits; a receive takes the message that is there, or waits for one. R191, R259: a parked message that matches is in the
end at once; one that does not is refused, and the end is idle. R195, R197: what a send leaves: the end waits, the strand
has passed its instruction and waits for that end, and one packet more is on its way with the message. That an out-end
needs SD and an in-end RV is tested at `chset`, before anything is bound (log entry 83). -/
def Obligations.ChannelResults : Prop :=
  (∀ (s : State) (g : BitVec 3) (d a : BitVec 5) (h : BitVec 6) (x : BitVec 4), s.me.pred g = true →
    let r := s.me.reg a
    let e := s.myCore.endAt h.toNat
    (r.tag = true → r.kind = 6 → (r.val.extractLsb' 25 3 = 7#3 → s.myCore.hasTileIn = false) →
      let tile := (r.val.extractLsb' 26 2).toNat = 3
      let b := bindingOf r.val s.cur.slot .idle
      let bound (f : End → Prop) : Prop := ∃ t, exec (.chset g a h) s = .next t ∧ f (t.myCore.endAt h.toNat) ∧
        t.me.reg a = CReg.zero ∧ (∀ j, j ≠ h.toNat → t.myCore.endAt j = s.myCore.endAt j)
      (e.state = .free ∨ e.state = .parked → r.has (if r.val.getLsbD 25 then 8 else 7) = false →
        exec (.chset g a h) s = .next (s.takeTrap (trapPermission (a.setWidth 64)))) ∧
      (r.has (if r.val.getLsbD 25 then 8 else 7) = true →
        (e.state = .free → s.myCore.crystal.back = [] → bound (· = if tile then { b with state := .tile } else b)) ∧
        (e.state = .parked → s.myCore.crystal.back = [] → e.matchesParked b = false → bound (· = b)) ∧
        (e.state = .parked → e.matchesParked b = true → (∀ y, e.inbox = some y → y.size = e.psz) →
          bound (· = if tile then { b with state := .tile } else { b with state := .full, inbox := e.inbox })))) ∧
    (e.state ≠ .free → e.state ≠ .parked →
      exec (.chset g a h) s = .next (s.takeTrap (trapChannel h.toNat 1))) ∧
    (e.boundTo s.cur.slot = true → e.state = .idle ∨ (e.state = .tile ∧ s.tileKept s.cur.core h.toNat = false) →
      exec (.chclr g h) s = .next (((s.setEnd s.cur.core h.toNat End.free).rearrive s.cur.core h.toNat).advance) ∧
      (s.myCore.crystal.back = [] →
        exec (.chclr g h) s = .next ((s.setEnd s.cur.core h.toNat End.free).advance))) ∧
    (s.mayWrite d → exec (.chst g d h) s = .next (s.wrote d e.word 8)) ∧
    (s.checkEnd h.toNat true 0 = .ok () → checkPayload a r = .ok () → s.me.farOut = [] → s.replayOf logSend h.toNat = none →
      exec (.snd g a h) s = .next (s.sendMessage h.toNat (.word r) (if r.linear then some a else none))) ∧
    (exec (.snd16 (h.setWidth 4) x) s = exec (.snd 0#3 (x.setWidth 5) ((h.setWidth 4).setWidth 6)) s) ∧
    (s.checkEnd h.toNat false 0 = .ok () → e.taken = false → s.replayTaken h.toNat = none →
      (∀ y, e.state = .full → e.inbox = some (.word y) → s.mayWrite d → (y.linear = true → d ≠ 0#5) →
        ((y.tag && (y.kind == 2 || y.kind == 5)) = false →
          exec (.rcv g d h) s = .next (((s.modMe (fun z => z.setReg d y)).takeMessage s.cur.core h.toNat).advance)) ∧
        ((y.tag && (y.kind == 2 || y.kind == 5)) = true →
          exec (.rcv g d h) s = .next (s.holderUpdate d h.toNat y))) ∧
      (e.state ≠ .full → exec (.rcv g d h) s = .next (s.receiveWait h.toNat))) ∧
    (exec (.rcv16 x (h.setWidth 4)) s = exec (.rcv 0#3 (x.setWidth 5) ((h.setWidth 4).setWidth 6)) s) ∧
    (let v := s.enabled
     (v.checkEnd h.toNat true 1 = .ok () → v.streamGate [x] [] = .ok none → v.me.farOut = [] →
      v.replayOf logSend h.toNat = none →
      exec (.sndv g x h) s = .next ((v.popAll [x]).sendMessage h.toNat (.vector (v.readVec x)) none)) ∧
     (v.checkEnd h.toNat false 1 = .ok () → e.taken = false → v.replayTaken h.toNat = none →
      (e.state = .full → ∀ y, e.inbox = some (.vector y) → v.streamGate [] [x] = .ok none →
        exec (.rcvv g x h) s = .next (((v.writeVec x y).takeMessage s.cur.core h.toNat).advance)) ∧
      (e.state ≠ .full → exec (.rcvv g x h) s = .next (v.receiveWait h.toNat)))) ∧
    (r.tag = true → r.kind = 1 →
      (s.checkEnd h.toNat true 2 = .ok () → r.has 0 = true → validBounds r.bounds = true → r.bounds.1 % 16 = 0 →
        r.bounds.2 % 16 = 0 → 16 ≤ r.bounds.2 - r.bounds.1 → s.me.farOut = [] → s.replayOf logSend h.toNat = none →
        exec (.bsnd g a h) s = .next (s.sendMessage h.toNat
          (.offer (r.bounds.1.toNat % 2 ^ 18) (r.bounds.2 - r.bounds.1).toNat) none)) ∧
      (s.checkEnd h.toNat false 2 = .ok () → r.has 1 = true → e.taken = false → s.replayTaken h.toNat = none →
        (e.state = .full → ∀ p n, e.inbox = some (.offer p n) → validBounds r.bounds = true →
          r.bounds.1 ≤ r.val.toNat → (r.val.toNat : Int) + n ≤ r.bounds.2 → r.val.toNat % 16 = 0 →
          exec (.brcv g a h) s = .next (((s.setEnd s.cur.core h.toNat { e with state := .pull }).waitNext
            (.pull h.toNat)).cpeWork s.cur.core (.pull h.toNat e.plcn p n (r.val.toNat % 2 ^ 18) s.cur.slot))) ∧
        (e.state ≠ .full → exec (.brcv g a h) s = .next (s.receiveWait h.toNat))))) ∧
  (∀ (s : State) (h : Nat) (x : Payload) (c : Option (BitVec 5)),
    let t := s.sendMessage h x c
    (t.myCore.endAt h).state = .sendWait ∧ (t.myCore.endAt h).clear = c ∧ (t.myCore.endAt h).sentAt = s.k ∧
    t.me.wait = .send h ∧ t.me.pc = (s.me.past s.cur.len).pc ∧
    ∃ k, Table.get? t.packets s.nextId = some k ∧
      k.body = .message (s.myCore.endAt h).pend s.myCore.lcn h x ∧ k.dst = destOf (s.myCore.endAt h).plcn)

/-- R201, R202: `alt` gives the entry that fires and its end, by rotating or by fixed priority; with a deadline that has
passed it gives 8; else it waits. With no live entry and no deadline it traps. -/
def Obligations.SelectionResults : Prop :=
  ∀ (s : State) (g a b : BitVec 3) (d : BitVec 5), s.me.pred g = true →
    let m := s.me.ext a.toNat
    let live := liveEntries s.me m
    let full := live.filter (fun j => (s.myCore.endAt (altEntry m j).1).state == .full)
    let dl := (s.me.ext b.toNat).toNat
    let entered (v : Nat) := s.logAppend s.cur.core logAlt 1 s.cur.slot 0 (CReg.int (BitVec.ofNat 64 v)) 0#512
    let ends := live.map (fun j => (altEntry m j).1)
    let waits (i : Instr) := exec i s = .next ((s.waitAgain (.alt ends (some dl))).postAt none dl .altDeadline
        (args s.cur.core s.cur.slot))
    s.checkAlt m = .ok () →
    (live = [] → ∀ i ∈ [Instr.alt g d a, .altP g d a], exec i s = .next (s.takeTrap (trapChannel 0 6))) ∧
    (s.mayWrite d → s.replayOf logAlt 0 = none →
      (∀ j, altFires live full m (some s.me.altp) = some j →
        let v := j + 256 * (altEntry m j).1
        let t := .next (((entered v).modMe (fun x => x.setAltp (v % 8 + 1))).wrote d (BitVec.ofNat 64 v) 8)
        exec (.alt g d a) s = t ∧ exec (.altD g d a b) s = t) ∧
      (∀ j, altFires live full m none = some j →
        let v := j + 256 * (altEntry m j).1
        let t := .next ((entered v).wrote d (BitVec.ofNat 64 v) 8)
        exec (.altP g d a) s = t ∧ exec (.altPD g d a b) s = t) ∧
      (altFires live full m (some s.me.altp) = none →
        (live ≠ [] → exec (.alt g d a) s = .next (s.waitAgain (.alt ends none))) ∧
        (dl ≤ s.now → exec (.altD g d a b) s = .next ((entered 8).wrote d 8#64 8)) ∧
        (s.now < dl → waits (.altD g d a b))) ∧
      (altFires live full m none = none →
        (live ≠ [] → exec (.altP g d a) s = .next (s.waitAgain (.alt ends none))) ∧
        (dl ≤ s.now → exec (.altPD g d a b) s = .next ((entered 8).wrote d 8#64 8)) ∧
        (s.now < dl → waits (.altPD g d a b))))

/-! ## Engines, barriers, strands, control registers -/

/-- R204 to R210, R235: `mxq` and `cpq` queue the job that their operands describe, of every operation, and wait for an entry; a
descriptor that breaks its rules raises the engine trap. `jst` reads a job's state, and a fault once read lets its entry be
taken again; `jwait` goes on when the job is over, waits while it is not, and of a faulted one frees the entry and raises the
engine trap; `mxf` sets a marker. The order of a descriptor fault before the operand traps is the model's choice (log entry 28).
-/
def Obligations.EngineResults : Prop :=
  ∀ (s : State) (g e : BitVec 3) (d a b : BitVec 5), s.me.pred g = true →
    let ra := s.me.reg a
    let rb := s.me.reg b
    let w := s.me.ext e.toNat
    let n := blockOf s.cur.core
    let blk := s.block n
    let lane := s.laneOf s.cur.core
    let id := s.me.val a
    let st := blk.jobState lane id
    let queue : Nat := if id.getLsbD 15 then 1 else 0
    (let j := mxeJobOf w (ra.val.toNat % 2 ^ 18) (rb.val.toNat % 2 ^ 18) lane s.cur.slot s.me.serial blk.mxe.order
        (blk.mxe.markers.getD lane 0)
     let bytes : Nat := if j.op = 0 then operandBytes j.fmt ((j.kt + 1) * (j.nt + 1))
        else (j.mt + 1) * (j.nt + 1) * drainBytes j.op
     s.checkEngine d 0 = .ok () →
      (mxeFault w j ≠ 0 → exec (.mxq g d a b e) s = .next (s.takeTrap (trapEngine 0xFFFF (mxeFault w j)))) ∧
      (mxeFault w j = 0 →
        (j.op = 0 → ra.tag = true ∧ ra.kind = 1 ∧ ra.has 0 = true ∧ ra.val.toNat % 64 = 0 ∧
          ra.inBounds ra.val.toNat (operandBytes j.fmt ((j.mt + 1) * (j.kt + 1))) = true) →
        (j.op ≠ 0 ∨ j.bsrc = false → rb.tag = true ∧ rb.kind = 1 ∧ rb.has (if j.op = 0 then 0 else 1) = true ∧
          rb.val.toNat % 64 = 0 ∧ rb.inBounds rb.val.toNat bytes = true) →
        (j.bsrc = true → s.myCore.tileEnd j.rin true = true) → (j.fwd = true → s.myCore.tileEnd j.rout false = true) →
        s.me.farOut = [] →
        exec (.mxq g d a b e) s = .next ((s.modBlock n (fun x => { x with mxe := { x.mxe with
          waiting := x.mxe.waiting ++ [{ lane := lane, slot := s.cur.slot, at_ := s.k, d := d, job := j }]
          order := x.mxe.order + 1 } })).awaitEntry 0))) ∧
    (let j := cpeJobOf w { kind := ra.kind, addr := ra.val.toNat } { kind := rb.kind, addr := rb.val.toNat } lane
        s.cur.slot s.me.serial
     s.checkEngine d 1 = .ok () →
      (cpeFault w j ≠ 0 → exec (.cpq g d a b e) s = .next (s.takeTrap (trapEngine 0xFFFF (cpeFault w j)))) ∧
      (cpeFault w j = 0 → ra.tag = true →
        (ra.kind = 1 ∨ ra.kind = 2 ∨ ra.kind = 3 ∨ ra.kind = 0xB) → rb.tag = true → (rb.kind = 1 ∨ rb.kind = 2) →
        (ra.kind = 1 ∨ rb.kind = 1) → ra.has 0 = true → rb.has 1 = true → ra.inBounds ra.val.toNat j.srcBytes = true →
        rb.inBounds rb.val.toNat j.dstBytes = true → s.checkHome ra ra.val.toNat = .ok () →
        s.checkHome rb rb.val.toNat = .ok () → s.me.farOut = [] → (rb.kind = 2 → s.replaying = false) →
        exec (.cpq g d a b e) s = .next ((s.modBlock n (fun x => { x with cpe := { x.cpe with
          waiting := x.cpe.waiting ++ [{ lane := lane, slot := s.cur.slot, at_ := s.k, d := d, job := j }] } })).awaitEntry
          1))) ∧
    (s.mayWrite d →
      let u := if st.1 = 4 then (s.modBlock n (fun b => b.modEntry id (fun e => { e with seen := true }))).queueKick n queue
        else s
      exec (.jst g d a) s =
        .next (u.wrote d (BitVec.ofNat 64 (st.1 + st.2 * 2 ^ 8 + id.toNat % 2 ^ 16 * 2 ^ 16)) 8)) ∧
    ((st.1 = 0 ∨ st.1 = 3) → exec (.jwait g a) s = .next s.advance) ∧
    ((st.1 = 1 ∨ st.1 = 2) → exec (.jwait g a) s = .next (s.waitNext (.job id.toNat))) ∧
    (st.1 = 4 → exec (.jwait g a) s =
      .next (((s.modBlock n (fun b => b.modEntry id (fun e => { e with state := .free, seen := true }))).queueKick n
        queue).takeTrap (trapEngine (id.toNat % 2 ^ 16) st.2))) ∧
    exec (.mxf g) s = .next ((s.modBlock n (fun b => { b with mxe := { b.mxe with
      markers := b.mxe.markers.set lane (b.mxe.markers.getD lane 0 + 1) } })).advance)

/-- R212 to R218: barriers, `wtu`, `rdt`, `spwn`, `hlt` and `sstat`. -/
def Obligations.BarrierTimeAndStrands : Prop :=
  ∀ (s : State) (g k : BitVec 3) (d a b : BitVec 5), s.me.pred g = true →
    let set := s.myCore.barr.getLsbD b.toNat
    let n := (s.me.val a).toNat
    let t : Word := BitVec.ofNat 64 s.now
    (s.isMember s.cur.core b.toNat = false → ∀ i ∈ [Instr.barr g b, .barw g b, .bar g b],
      exec i s = .next (s.takeTrap (trapPermission (b.setWidth 64)))) ∧
    (s.isMember s.cur.core b.toNat = true →
      exec (.barw g b) s = .next (if set then s.waitNext (.barrier b.toNat false false) else s.advance) ∧
      (s.replayBar b.toNat = none →
        exec (.barr g b) s = .next (if set then s.waitNext (.barrier b.toNat true false)
          else (s.arrive s.cur.core s.cur.slot b.toNat).advance) ∧
        exec (.bar g b) s = .next (if set then s.waitNext (.barrier b.toNat true true)
          else (s.arrive s.cur.core s.cur.slot b.toNat).waitNext (.barrier b.toNat false false)))) ∧
    exec (.wtu g a) s = .next (if n ≤ s.now then s.advance
      else (s.waitNext (.time n)).postAt none n .wtuTargetReached (args s.cur.core s.cur.slot)) ∧
    (s.mayWrite d → s.replayOf logRdt 0 = none → exec (.rdt g d) s =
      .next ((s.logAppend s.cur.core logRdt 1 s.cur.slot 0 (CReg.int t) 0#512).wrote d t 8)) ∧
    (k.toNat ≠ s.cur.slot → s.occupied s.cur.core k.toNat = false → (s.me.val a).getLsbD 0 = false →
      ∃ u, exec (.spwn g a b k) s = .next u ∧ u.occupied s.cur.core k.toNat = true ∧
        (u.strand s.cur.core k.toNat).pc = s.me.val a ∧ (u.strand s.cur.core k.toNat).reg 2#5 = s.me.reg b ∧
        (u.strand s.cur.core k.toNat).mode = s.me.mode ∧ (u.strand s.cur.core k.toNat).readyAt = s.k + 1 ∧
        u.me.readyAt = s.k + 8 ∧
        ∀ r, u.me.reg r = if r = b ∧ (s.me.reg b).linear = true then CReg.zero else s.me.reg r) ∧
    ((k.toNat = s.cur.slot ∨ s.occupied s.cur.core k.toNat = true) →
      exec (.spwn g a b k) s = .next (s.takeTrap (trapSlot k.toNat))) ∧
    (s.me.farOut = [] → (∀ r, (s.me.reg r).linear = false) →
      exec (.hlt g) s = .next ((s.emptySlot s.cur.core s.cur.slot).finishCheck s.cur.core)) ∧
    (s.mayWrite d → ∃ w, exec (.sstat g d k) s = .next (s.wrote d w 8) ∧
      (s.occupied s.cur.core k.toNat = false → w = 0#64) ∧
      ∀ x, s.myCore.slots.get? k.toNat = some x →
        w = x.word (if k.toNat = s.cur.slot then 1 else x.wait.code))

/-- R35, R36 to R41, R223: a control register is read and written where its mode column allows, with the value that its register
holds; where it does not, the access is privileged, and a number that names no register is illegal. R37, R38, R39, R40, R45:
what a write to each writable control register leaves in it. That a `csrx` of dmask writes the control register before it looks
at its destination (log entry 84), and what `csrr` of pc reads (log entry 20), are the model's choices. -/
def Obligations.ControlRegisters : Prop :=
  (∀ (s : State) (g : BitVec 3) (d a : BitVec 5) (c : BitVec 12), s.me.pred g = true →
    let n := c.toNat
    let w := s.me.val a
    (csrAccess n = none → ∀ i ∈ [Instr.csrr g d c, .csrw g c a, .csrx g d c a],
      exec i s = .next (s.takeTrap (trapIllegal s.instrBits))) ∧
    ∀ x, csrAccess n = some x →
      (x.reads s.me.mode = false → exec (.csrr g d c) s = .next (s.takeTrap (trapPrivileged s.instrBits))) ∧
      (x.writes s.me.mode = false → exec (.csrw g c a) s = .next (s.takeTrap (trapPrivileged s.instrBits))) ∧
      (x.reads s.me.mode = true → s.mayWrite d → exec (.csrr g d c) s = .next (s.wrote d (s.csrValue n) 8)) ∧
      (x.writes s.me.mode = true → s.checkDmask n w = .ok () →
        exec (.csrw g c a) s = .next ((s.writeCsr n w).advance) ∧
        (x.reads s.me.mode = true → s.mayWrite d →
          exec (.csrx g d c a) s = .next ((s.writeCsr n w).wrote d (s.csrValue n) 8)))) ∧
  (∀ s : State,
    s.csrValue 0x000 = s.cur.pc ∧ s.csrValue 0x001 = s.me.sst.setWidth 64 ∧ s.csrValue 0x005 = s.me.fmode.setWidth 64 ∧
    s.csrValue 0x040 = BitVec.ofNat 64 s.myCore.lcn ∧ s.csrValue 0x044 = BitVec.ofNat 64 s.now ∧
    s.csrValue 0x045 = (((BitVec.ofNat 64 s.now - s.myCore.toff).setWidth 128) *
      s.myCore.tscale.setWidth 128).extractLsb' 32 64 ∧
    s.csrValue 0x047 = s.myCore.clat.setWidth 64 ∧ s.csrValue 0x04A = s.myCore.pcid.setWidth 64) ∧
  (∀ (s : State) (w : Word),
    (s.writeCsr 0x002 w).me.hsp = w &&& 0x3FFF0#64 ∧ (s.writeCsr 0x003 w).me.hsl = w &&& 0x3FFF0#64 ∧
    (s.writeCsr 0x004 w).me.dmask = w.setWidth 32 &&& 0xFFFFFFFE#32 ∧
    (∀ r : BitVec 5, w.getLsbD r.toNat = true → (s.writeCsr 0x004 w).me.reg r = CReg.zero) ∧
    (s.writeCsr 0x006 w).me.srng = (if w = 0#64 then 0x9E3779B97F4A7C15#64 else w) ∧
    (s.writeCsr 0x008 w).me.epc = w &&& ~~~1#64 ∧ (s.writeCsr 0x009 w).me.tcause = w.setWidth 6 ∧
    (s.writeCsr 0x00A w).me.tval = w ∧ (s.writeCsr 0x00B w).me.esst = w.setWidth 13 ∧
    (s.writeCsr 0x048 w).myCore.tvec = w &&& ~~~1#64 ∧
    (s.writeCsr 0x049 w).myCore.rakeT = (if (w.setWidth 32).toNat < 0x400 then 0x400#32 else w.setWidth 32) ∧
    (s.writeCsr 0x04A w).myCore.pcid = w.setWidth 20 ∧ (s.writeCsr 0x04B w).myCore.toff = w ∧
    (s.writeCsr 0x04C w).myCore.tscale = w ∧
    (w.getLsbD 2 = true → (s.writeCsr 0x001 w).me.ve = true) ∧
    (w.getLsbD 2 = false → s.me.sst.extractLsb' 3 3 = 0#3 →
      (s.writeCsr 0x001 w).me.ve = false ∧ ∀ q, (s.writeCsr 0x001 w).me.vec q = 0#512) ∧
    (∀ i, i ≠ 2 → (s.writeCsr 0x001 w).me.sst.getLsbD i = s.me.sst.getLsbD i) ∧
    (∀ i < 5, (s.writeCsr 0x005 w).me.fmode.getLsbD (3 + i) = (s.me.fmode.getLsbD (3 + i) && !w.getLsbD (3 + i))))

/-- R88, R117, R153, R154, R219, R220, R224 to R228: the system operations, the pan-table operations, `ckpt` and `mig`: the
effect, or the request that is sent, in the mode and under the checks that each has. The model's choices: that a mint into c0
discards its capability (log entry 22), the checks of `mig` in their order (log entry 30), and the way of `rmap` (log entry 70).
-/
def Obligations.SystemOperations : Prop :=
  ∀ (s : State) (g : BitVec 3) (d a : BitVec 5) (k : BitVec 1) (f : BitVec 2), s.me.pred g = true →
    let r := s.me.reg a
    let w := s.me.val a
    let base := r.bounds.1.toNat
    (s.me.mode = 0 → ∀ i ∈ [Instr.dbg g a, .rmap g d a, .chmint g d a, .pmint g d a],
      exec i s = .next (s.takeTrap (trapPrivileged s.instrBits))) ∧
    (s.me.mode ≠ 0 → w.toNat < 8 → exec (.dbg g a) s =
      .next (s.advance.postCore s.cur.core 0 .debugHalt (args s.cur.core (w.toNat % 8)))) ∧
    (∀ j < 8, ∀ n, s.me.mode ≠ 0 → (n = 1 ∨ n = 2) → w.toNat = j + 16 * n → exec (.dbg g a) s =
      .next (if s.advance.occupied s.cur.core j && (s.advance.strand s.cur.core j).halt then
          s.advance.modStrand s.cur.core j (fun x => { x with halt := false, stepOne := n == 2 })
        else s.advance)) ∧
    (s.me.mode = 3 → w >>> 19 = 0#64 → (w.extractLsb' 0 16).toNat < 55296 →
      let blk := (w.extractLsb' 0 16).toNat
      let l := (w.extractLsb' 16 3).toNat
      exec (.rmap g d a) s = .next ((s.sendFrom s.cur.core false (.lane (8 * blk + l)) 1
        (.remap s.cur.core s.cur.slot blk l ((s.me.val d).extractLsb' 0 4)) 0).waitNext .remap)) ∧
    (s.me.mode ≠ 0 → w >>> 29 = 0#64 → s.peerInside w = true → s.mayWrite d →
      exec (.chmint g d a) s = .next ((s.modMe (fun x => x.setReg d (channelCap w))).advance)) ∧
    (s.me.mode ≠ 0 → r.tag = true → r.kind = 1 → r.has 0 = true → r.inBounds r.val.toNat 32 = true → s.mayWrite d →
      r.val.toNat % 16 = 0 →
      let m := mintRecord (s.spBytes r.val.toNat 32)
      m.sound = true → (isHomed m.va = true → (s.part s.mySp).homeSliceOf (homeSlice m.va) = true) →
      ∀ q, narrowMeta (setPerm (setKind 0#64 m.kind) (m.perm &&& (mintMask m.kind).getD 0#12)) m.va m.size = some q →
        let c : CReg := { tag := true, val := BitVec.ofNat 64 m.va, mt := q }
        let op := s.tableOp 1 d a c
        ((s.sliceOf s.mySp m.va).isSome = true → s.replaying = false →
          (m.kind = 2 ∨ m.kind = 5 ∨ m.kind = 9 → exec (.pmint g d a) s = .next (s.startTable op
            (s.sliceSet s.mySp m.va) (.mint m.va m.size m.kind m.fmt m.ncon s.myCore.lcn))) ∧
          (m.kind = 4 → exec (.pmint g d a) s =
            .next (s.startTable op (s.sliceOf s.mySp m.va).toList (.check m.va m.size)))) ∧
        (m.kind = 0xB → isHomed m.va = false →
          exec (.pmint g d a) s = .next ((s.modMe (fun x => x.setReg d c)).advance))) ∧
    (r.tag = true → r.kind = 2 → r.has 5 = true → s.mayMove d a → (s.sliceOf s.mySp base).isSome = true →
      s.me.farOut = [] → s.replaying = false →
      exec (.cfrz g d a) s = .next (s.startTable (s.tableOp 0 d a (freezeReg r)) (s.sliceSet s.mySp base)
        (.freeze base r.bounds.2.toNat))) ∧
    (r.tag = true → (s.sliceOf s.mySp base).isSome = true → s.me.farOut = [] → s.replaying = false →
      (r.kind = 4 → r.has 6 = true → exec (.seal g a k f) s =
        .next (s.startTable (s.tableOp 2 a a CReg.zero) (s.sliceSet s.mySp base) (.done base))) ∧
      (r.kind = 5 → r.has 5 = true →
        let rm := (s.me.fmode.extractLsb' 0 3).toNat
        exec (.seal g a k f) s = .next (s.startTable (s.tableOp 3 a a (sealedReg r k)) (s.sliceSet s.mySp base)
          (.master base f.toNat (k == 1#1) (if rm = 4 then 0 else rm))))) ∧
    (r.tag = true → r.kind = 1 → s.crystalOn s.cur.core = true → r.has 0 = true → r.inBounds r.val.toNat 64 = true →
      r.val.toNat % 16 = 0 → ∀ c, crystalDesc (s.spBytes r.val.toNat 64) = some c → s.myCore.crystalBytes c ≤ 28672 →
      (s.buddyOf s.cur.core).isSome = true →
      (s.myCore.crystal.writing = none →
        exec (.ckpt g a) s = .next ((s.waitNext .ckpt).takeCrystal s.cur.core (some s.cur.slot)
          (r.val.toNat % 2 ^ 18) (s.spBytes r.val.toNat 64) c)) ∧
      (s.myCore.crystal.writing ≠ none →
        exec (.ckpt g a) s = .next (s.waitAgain (.ckptFirst s.cur.len s.cur.bits)))) ∧
    (w.extractLsb' 26 38 = 0#38 → s.me.streams = [] → s.myCore.ends.find? (fun e => e.2.boundTo s.cur.slot) = none →
      s.me.linearReg = none → s.me.stayingReg = none → s.me.farOut = [] →
      let b := granuleBytes s.shipRecord
      exec (.mig g a) s = .next ((s.sendFrom s.cur.core false (.port (w.extractLsb' 19 7).toNat) (b.length / 32)
        (.ship (w.extractLsb' 0 19).toNat s.cur.core s.cur.slot b (granuleTags s.shipRecord)) 0).waitNext (.mig w))) ∧
    (pairLegal s.cur.bits = true → exec .rlx s = .next { s with cur := { s.cur with relaxed := true } }) ∧
    (pairLegal s.cur.bits = false → exec .rlx s = .next (s.takeTrap (trapIllegal s.instrBits)))

/-- R142, R145, R187, R202, R212 to R214, R313, R437: what ends a wait. The strand is ready in the cycle after a fence's
condition (an instruction that performs the fence.far condition first acts then), an `alt`'s deadline, the last reply of its
load, its cache line's fill or its barrier's release; a `wtu` goes on at the first cycle of its core at which `ptime` has
reached the target. R224, R388: the debug unit. A halted slot issues nothing more; a register of a halted slot is written, but a
c register that holds a linear capability, and any register of a slot that is not halted, is left as it is. That an instruction
which performs the fence.far condition acts in the cycle of the condition (log entry 25), and the numbers of the debugger's
registers (log entry 67), are the model's choices. -/
def Obligations.WaitsEndAndDebug : Prop :=
  (∀ s : State,
    let p := s.arg.a
    let k := s.arg.b
    let x := s.strand p k
    let ready (q j : Nat) : Strand := { s.strand q j with wait := .ready, readyAt := s.countCore q + 1 }
    (s.arg.flag = false →
      (s.occupied p k = false ∨ s.fenceHolds p k = false → exec .fenceConditionMet s = .next s) ∧
      (s.occupied p k = true → s.fenceHolds p k = true →
        (∀ kind ids, x.wait = .fence kind ids → ∃ t, exec .fenceConditionMet s = .next t ∧ t.strand p k = ready p k) ∧
        (∀ len bits i, (x.wait = .ckptFirst len bits ∨ ∃ ids, x.wait = .fenceFirst ids len bits) →
          decodeFetched len bits = some i →
          ((s.core p).run ≠ .run → exec .fenceConditionMet s = .next (s.queueLooks (blockOf p))) ∧
          ((s.core p).run = .run →
            let t := { s with cur := { core := p, slot := k, pc := x.pc, len := len, bits := bits, relaxed := false } }
            ∀ u, (t.modMe (fun y => { y with wait := .ready })).actFenced i = .next u →
              exec .fenceConditionMet s = .next { u.afterFenced p k x.waitStart with cur := s.cur })))) ∧
    (s.arg.flag = true → exec .fenceConditionMet s = .next (s.pushLanded p k)) ∧
    (∀ ends n, s.occupied p k = true → x.wait = .alt ends (some n) → n ≤ s.now →
      ∃ t, exec .altDeadline s = .next t ∧ t.strand p k = ready p k) ∧
    (∀ n, s.occupied p k = true → x.wait = .time n → n ≤ s.now →
      ∃ t, exec .wtuTargetReached s = .next t ∧
        t.strand p k = { x with wait := .ready, readyAt := max (x.waitStart + 8) (s.countFrom p n) }) ∧
    (∃ t, exec .barrierRelease s = .next t ∧
      (∀ j < 8, ∀ thr, s.occupied p j = true → (s.strand p j).wait = .barrier k false thr → t.strand p j = ready p j) ∧
      ((∀ j < 8, ∀ thr, (s.strand p j).wait ≠ .barrier k true thr) → k < 17 → (t.core p).barr.getLsbD k = false)) ∧
    (∀ q f c j id i b tag d bits sg, Table.get? s.packets s.arg.a = some q → q.body = .reply (.strand c j id i) (.ok b tag) →
      j < 8 → s.occupied q.phys j = true → (s.strand q.phys j).far.find? (fun g => g.id == id) = some f → f.left = 1 →
      f.refused = none → f.relaxed = false → f.dest = .scalar d bits sg → (s.strand q.phys j).wait = .far id →
      ∃ t, exec .farReplyArrival s = .next t ∧ (t.strand q.phys j).wait = .ready ∧
        (t.strand q.phys j).readyAt = s.countCore q.phys + 1 ∧
        ∀ r, (t.strand q.phys j).reg r =
          if r = d ∧ d ≠ 0#5 then CReg.int (loadValue (bits / 8) sg b) else (s.strand q.phys j).reg r) ∧
    (∀ q blk line b tag, Table.get? s.packets s.arg.a = some q → q.body = .reply (.icache blk line) (.ok b tag) →
      ∃ t, exec .icacheLineFill s = .next t ∧ (t.block blk).cached line = some { line := line, bytes := b } ∧
        ∀ l < 8, ∀ j < 8, s.occupied (8 * blk + l) j = true → (s.strand (8 * blk + l) j).wait = .fetch line →
          t.strand (8 * blk + l) j = ready (8 * blk + l) j)) ∧
  (∀ s : State,
    let p := s.arg.a
    let k := s.arg.b
    let n := s.arg.c
    let x := s.strand p k
    let w : Word := s.arg.x.setWidth 64
    let put (y : Strand) := exec .debugRegisterWrite s = .next (s.setStrand p k y)
    s.occupied p k = true →
    (∃ t, exec .debugHalt s = .next t ∧ t.strand p k = { x with halt := true, stepOne := false } ∧
      (t.strand p k).ready = false) ∧
    (x.halt = false → exec .debugRegisterWrite s = .next s) ∧
    (x.halt = true →
      (n < 32 → (x.reg (BitVec.ofNat 5 n)).linear = true → exec .debugRegisterWrite s = .next s) ∧
      (n < 32 → (x.reg (BitVec.ofNat 5 n)).linear = false → put (x.setReg (BitVec.ofNat 5 n) (CReg.int w))) ∧
      (32 ≤ n → n < 48 → put (x.setVec (BitVec.ofNat 4 (n - 32)) s.arg.x)) ∧
      (48 ≤ n → n < 56 → put { x with e := x.e.set (n - 48) w }) ∧
      (n = 56 → put { x with p := w.setWidth 8 ||| 1#8 }) ∧
      (n = 64 → put { x with pc := w &&& ~~~(1#64), rep := none }) ∧
      (64 < n → n ≠ 68 → put (x.writeCsr (n - 64) w)) ∧
      (n = 68 →
        let marked := ((List.range 32).filter w.getLsbD).map (BitVec.ofNat 5)
        (x.lowestLinear marked = none → put (x.writeCsr 4 w)) ∧
        (x.lowestLinear marked ≠ none → exec .debugRegisterWrite s = .next s))))

/-- R194, R195, R199, R259, R368: a message enters an idle end that it matches, parks at a free one, and is NACKed at any
other; an acknowledgement or a release ends the sender's wait and clears a linear register that it sent; a NACK ends the
wait in trap 0x0B, or 0x0A where no lane answered. -/
def Obligations.MessagesLand : Prop :=
  ∀ (s : State) (q : Packet) (l h : Nat), Table.get? s.packets s.arg.a = some q → q.dst = .lane l →
    let p := q.phys
    let e := (s.core p).endAt h
    let idle : End := { e with state := .idle, clear := none, ackd := false, nakd := false }
    let x := s.strand p e.slot
    let waits := e.state = .sendWait ∧ (s.core p).run ≠ .saving ∧ s.occupied p e.slot = true ∧ x.wait = .send h
    (∀ lcn r pay, q.body = .message h lcn r pay →
      ((e.state = .idle ∨ e.state = .recvWait) → e.dirIn = true → e.plcn = lcn → e.pend = r → e.psz = pay.size →
        ∃ t, exec .messageArrival s = .next t ∧ (t.core p).endAt h = { e with state := .full, inbox := some pay } ∧
          (s.occupied p e.slot = true → (x.wait = .recv h ∨ ∃ ends dl, x.wait = .alt ends dl ∧ ends.contains h = true) →
            (t.strand p e.slot).wait = .ready ∧ (t.strand p e.slot).readyAt = s.countCore p + 1)) ∧
      (e.state = .free → ∃ t, exec .messageArrival s = .next t ∧
        (t.core p).endAt h = { e with
          state := .parked, dirIn := true, psz := pay.size, plcn := lcn, pend := r, inbox := some pay }) ∧
      (e.state ≠ .free → ¬ ((e.state = .idle ∨ e.state = .recvWait) ∧ e.dirIn = true ∧ e.plcn = lcn ∧ e.pend = r ∧
          e.psz = pay.size) →
        exec .messageArrival s = .next ((s.dropPacket s.arg.a).nackEnd p h lcn r (some pay)))) ∧
    (∀ i, (i = Instr.acknowledgementArrival ∧ q.body = .ack h ∧ h ≠ 64 ∨ i = Instr.releaseArrival ∧ q.body = .release h) →
      waits → ∃ t, exec i s = .next t ∧ (t.core p).endAt h = idle ∧ (t.strand p e.slot).wait = .ready ∧
        (t.strand p e.slot).readyAt = s.countCore p + 1 ∧
        ∀ r, (t.strand p e.slot).reg r = if e.clear = some r then CReg.zero else x.reg r) ∧
    (∀ absent, q.body = .nack h absent → h ≠ 64 → waits → x.inh = false →
      ∃ t, exec .nackArrival s = .next t ∧ (t.core p).endAt h = idle ∧ (t.strand p e.slot).wait = .ready ∧
        (t.strand p e.slot).pc = (s.core p).tvec ∧ (t.strand p e.slot).epc = x.waitPc ∧
        (t.strand p e.slot).tcause = (if absent then 0x0A#6 else 0x0B#6) ∧
        (t.strand p e.slot).tval = BitVec.ofNat 64 (e.plcn * 64 + e.pend))

/-- R200, R203, R208, R209, R249 to R251: the copy engine. A free CPE takes the oldest work of the next lane; a copy between
windows carries the bytes that R250 gives, as the window holds them when engines read it; a chunk's bytes stand in the
scratchpad with their full bits set; the last line reply makes the bytes; the end of a copy marks its entry and readies its
waiters; the end of a pull releases the sender, frees the end and readies its strand, or traps it where the pull stopped. That a
copy from a window reads its source whole at its turn (log entry 41), and the cycle in which a pull reads its bytes (log entry
100), are the model's choices. -/
def Obligations.CopyEngine : Prop :=
  ∀ s : State,
    let blk := s.arg.a
    let cpe := (s.block blk).cpe
    (∀ l i j, cpe.current = none → (lanesAfter cpe.lastServed).find? (fun l => cpe.work.getD l [] != []) = some l →
      ((cpe.work.getD l []).head?).map (·.2) = some (.job i) → cpe.job i = some j → j.dst.kind = 1 → j.src.kind = 1 →
      ∃ t tr, exec .cpeTurn s = .next t ∧ (t.block blk).cpe.current = some tr ∧ tr.work = .job i ∧ tr.lane = l ∧
        tr.turn = s.countCore (8 * blk) ∧
        tr.bytes = j.gather 0 j.dstBytes ((s.core (s.lanePhys blk l)).windowByte (s.countCore (8 * blk)) j.src.addr) ∧
        (t.block blk).cpe.work.getD l [] = (cpe.work.getD l []).drop 1 ∧ (t.block blk).cpe.lastServed = l ∧
        ((t.block blk).cpe.entries.getD i Entry.unused).state = .running) ∧
    (cpe.current.isSome = true → exec .cpeTurn s = .next s) ∧
    (∀ tr i j, cpe.current = some tr → tr.turn = s.arg.c → tr.work = .job i → cpe.job i = some j → s.arg.flag = false →
      tr.stopped = none →
      let p := s.lanePhys blk tr.lane
      let a := j.dst.addr % 2 ^ 18 + 128 * s.arg.b
      let b := (tr.bytes.drop (128 * s.arg.b)).take 128
      (s.core p).sp.wf = true → (∀ g ∈ granules a b.length, (s.core p).linearGranule g = false) →
      ∃ t, exec .cpeChunkWrite s = .next t ∧ t.Holds p a b ∧
        (∀ g ∈ granules a b.length, (t.core p).full g = true ∧ NatSet.has (t.core p).spTags g = false) ∧
        s.SameOutside t p a b.length) ∧
    (∀ q c j tag b tr i x, Table.get? s.packets s.arg.a = some q → q.body = .reply (.cpe c tr.turn j) (.ok b tag) →
      (s.block c).cpe.current = some tr → tr.work = .job i → (s.block c).cpe.job i = some x → x.dst.kind = 1 →
      tr.refused = false →
      let ls := { tr with left := tr.left - 1, lines := tr.lines.set j b }
      (1 < tr.left → ∃ t, exec .cpeLineReply s = .next t ∧ (t.block c).cpe.current = some ls) ∧
      (tr.left = 1 → ∃ t, exec .cpeLineReply s = .next t ∧ (t.block c).cpe.current = some { ls with
        bytes := x.gather 0 x.dstBytes (fun o => ls.byteAt (x.src.addr + o)) })) ∧
    (∀ tr i, cpe.current = some tr → tr.turn = s.arg.b → tr.work = .job i → tr.stopped = none → tr.refused = false →
      let e := cpe.entries.getD i Entry.unused
      let p := s.lanePhys blk e.lane
      ∃ t, exec .cpeJobCompletion s = .next t ∧ (t.block blk).cpe.current = none ∧
        ((t.block blk).cpe.entries.getD i Entry.unused).state = .done ∧
        ∀ k < 8, s.occupied p k = true → (s.strand p k).wait = .job (jobId 1 e.lane i e.uses) →
          (t.strand p k).wait = .ready) ∧
    (∀ tr src base n dst k,
      let p := s.arg.a
      let h := s.arg.b
      let e := (s.core p).endAt h
      let x := s.strand p e.slot
      s.arg.flag = false → (s.block (blockOf p)).cpe.current = some tr → tr.turn = s.arg.c → tr.lane = s.laneOf p →
      tr.work = .pull h src base n dst k → e.state = .pull → s.occupied p e.slot = true → x.wait = .pull h →
      (tr.stopped = none ∨ x.inh = false) →
      ∃ t, exec .pullCompletion s = .next t ∧ (t.core p).endAt h = { e with state := .idle, inbox := none } ∧
        (∃ q ∈ t.packets, q.2.body = .release e.pend ∧ q.2.dst = destOf e.plcn) ∧
        (t.strand p e.slot).wait = .ready ∧ (t.strand p e.slot).readyAt = s.countCore p + 1 ∧
        ∀ g, tr.stopped = some g → (t.strand p e.slot).pc = (s.core p).tvec ∧ (t.strand p e.slot).tcause = 0x08#6 ∧
          (t.strand p e.slot).tval = BitVec.ofNat 64 g)

/-- R208, R211, R235, R237 to R244, R246, R247: the matrix engine. A done entry is free a cycle later; queue entries go to
the lanes that wait, one to a lane in a cycle, and the strands get their job ids. The free array begins the chosen step: a
product is the chunk sum of its operand tiles, read in the cycle before, and the accumulator, which a job with ZERO has set to +0
as its first product begins; a drain reads its accumulator tile. An idle tile end takes its peer's offer, the model's choice (log
entry 122). A lane whose core has lost its clock is passed over (R351), and an
enqueue waits while an `mxq` of its lane that issued before it waits for its fence, the model's choice (log entry 115). Accumulators and drained bytes are written. A tile offer is granted a latch buffer, a granted tile leaves and lands,
and the out buffer is free after its last beat. A latch tile that does not fit, a refused offer and a drain onto a linear
capability fault their jobs. -/
def Obligations.MatrixEngine : Prop :=
  ∀ s : State,
    let blk := s.arg.a
    let b := s.block blk
    let k := s.countCore (8 * blk)
    let faulted (t : State) (n i code : Nat) : Prop :=
      ((t.block n).mxe.entries.getD i Entry.unused).state = .faulted ∧
        ((t.block n).mxe.entries.getD i Entry.unused).code = code
    let unwatched (n i : Nat) (e : Entry MxeJob) : Prop :=
      ∀ j < 8, (s.strand (s.lanePhys n e.lane) j).wait ≠ .job (jobId 0 e.lane i e.uses)
    (s.arg.flag = true →
      (s.arg.b ≠ 0 → (b.cpe.entries.getD s.arg.c Entry.unused).state = .done →
        ∃ t, exec .queueEntryGrant s = .next t ∧ ((t.block blk).cpe.entries.getD s.arg.c Entry.unused).state = .free) ∧
      (s.arg.b = 0 → (b.mxe.entries.getD s.arg.c Entry.unused).state = .done →
        ∃ t, exec .queueEntryGrant s = .next t ∧ ((t.block blk).mxe.entries.getD s.arg.c Entry.unused).state = .free)) ∧
    (s.arg.flag = false → s.arg.b = 1 →
      let r := grantLanes (lanesToGrant b.cpe.lastGranted k b.cpe.grantedAt) b.cpe.entries
        (b.cpe.waiting.filter (fun w => !s.laneStopped blk w.lane)) b.cpe.lastGranted
      ∃ t, exec .queueEntryGrant s = .next t ∧ (t.block blk).cpe.entries = r.2.1 ∧
        (t.block blk).cpe.waiting = ungranted b.cpe.waiting r.1 ∧
        (t.block blk).cpe.lastGranted = r.2.2.2 ∧ (∀ g ∈ r.1, Table.get? (t.block blk).cpe.grantedAt g.2.lane = some k) ∧
        ∀ i w, r.1 = [(i, w)] →
          let p := s.lanePhys blk w.lane
          s.occupied p w.slot = true → (s.strand p w.slot).wait = .queue 1 →
          (t.strand p w.slot).wait = .ready ∧ (w.d ≠ 0#5 → (t.strand p w.slot).reg w.d =
            CReg.int (BitVec.ofNat 64 (jobId 1 w.lane i (r.2.1.getD i Entry.unused).uses)))) ∧
    (s.arg.flag = false → s.arg.b = 0 →
      let r := grantLanes (lanesToGrant b.mxe.lastGranted k b.mxe.grantedAt) b.mxe.entries
        (b.mxe.waiting.filter (fun w => !s.behindFence blk w && !s.laneStopped blk w.lane)) b.mxe.lastGranted
      ∃ t, exec .queueEntryGrant s = .next t ∧ (t.block blk).mxe.waiting = ungranted b.mxe.waiting r.1 ∧
        (t.block blk).mxe.lastGranted = r.2.2.2 ∧ (∀ g ∈ r.1, Table.get? (t.block blk).mxe.grantedAt g.2.lane = some k) ∧
        (r.1 = [] → (t.block blk).mxe.entries = r.2.1) ∧
        ∀ i w, r.1 = [(i, w)] →
          let p := s.lanePhys blk w.lane
          let e := r.2.1.getD i Entry.unused
          (t.block blk).mxe.entries.getD i Entry.unused = 
            { e with job := e.job.map (fun j => { j with granted := k, order := b.mxe.order }) } ∧
          (s.occupied p w.slot = true → (s.strand p w.slot).wait = .queue 0 → (t.strand p w.slot).wait = .ready ∧
            (w.d ≠ 0#5 → (t.strand p w.slot).reg w.d = CReg.int (BitVec.ofNat 64 (jobId 0 w.lane i e.uses))))) ∧
    (∀ l i j, b.mxe.freeAt ≤ k → b.chooseStep k (s.laneStopped blk) = some (l, i, j, true) → j.op = 0 →
      let x := (s.core (s.lanePhys blk l)).operandTile (k - 1)
      let (r, t, c) := j.product
      let old := if j.zero && t == 0 then List.replicate 1024 0#32 else b.accTile l (j.cacc + r * (j.nt + 1) + c)
      let left := x j.fmt j.a ((j.mt + 1) * (j.kt + 1)) (r * (j.kt + 1) + t)
      let right := if j.bsrc then ((b.mxeLane l).latch.headD { fmt := 0, bytes := [], readyAt := 0 }).bytes
        else x j.fmt j.b ((j.kt + 1) * (j.nt + 1)) (t * (j.nt + 1) + c)
      ∃ u w, exec .mxeStepBegin s = .next u ∧ (u.block blk).mxe.freeAt = k + productTime j.fmt ∧
        (u.block blk).mxe.lastServed = l ∧ Table.get? (u.block blk).mxe.writes s.nextId = some w ∧ w.lane = l ∧
        w.tile = j.cacc + r * (j.nt + 1) + c ∧
        (j.zero = true → t = 0 → ∀ n < 1024, ((u.block blk).mxeLane l).acc.getD (1024 * w.tile + n) 0#32 = 0#32) ∧
        w.elems = old.zipIdx.map (fun e => chunkAdd j.fmt left right e.1 (e.2 / 32) (e.2 % 32)) ∧
        (j.fwd = true → r = 0 → ((u.block blk).mxeLane l).out = some { fmt := j.fmt, bytes := right, readyAt := 0 } ∧
          ((u.block blk).mxeLane l).outEnd = j.rout)) ∧
    (∀ l i j, b.mxe.freeAt ≤ k → b.chooseStep k (s.laneStopped blk) = some (l, i, j, true) → j.op ≠ 0 →
      let bytes := drainTile j.op ((List.range 1024).map (fun n =>
        (b.mxeLane l).acc.getD (1024 * (j.cacc + j.step) + n) 0#32))
      ∃ u, exec .mxeStepBegin s = .next u ∧ (u.block blk).mxe.freeAt = k + bytes.length / 128 ∧
        (u.block blk).mxe.lastServed = l ∧ ∀ m < bytes.length / 128, ∃ w ∈ (u.block blk).mxe.writes, w.2.lane = l ∧
          w.2.addr = j.b + j.step * bytes.length + 128 * m ∧ w.2.bytes = (bytes.drop (128 * m)).take 128) ∧
    (∀ l i j, b.mxe.freeAt ≤ k → b.chooseStep k (s.laneStopped blk) = some (l, i, j, false) →
      unwatched blk i (b.mxe.entries.getD i Entry.unused) → ∃ u, exec .mxeStepBegin s = .next u ∧ faulted u blk i 2) ∧
    (∀ e, Table.get? b.mxe.writes s.arg.b = some e →
      (∃ t, exec .accumulatorWrite s = .next t ∧ Table.get? (t.block blk).mxe.writes s.arg.b = none ∧
        ∀ n < e.elems.length, ((t.block blk).mxeLane e.lane).acc.getD (1024 * e.tile + n) 0#32 = e.elems.getD n 0#32) ∧
      (let p := s.lanePhys blk e.lane
       ((s.core p).sp.wf = true → (∀ g ∈ granules e.addr e.bytes.length, (s.core p).linearGranule g = false) →
        ∃ t, exec .drainGranuleWrite s = .next t ∧ t.Holds p e.addr e.bytes ∧
          (∀ g ∈ granules e.addr e.bytes.length, (t.core p).full g = true) ∧ s.SameOutside t p e.addr e.bytes.length) ∧
       ∀ g ∈ granules e.addr e.bytes.length, ∀ i x j, (s.core p).linearGranule g = true →
        b.mxe.findJob e.order = some (i, x, j) → Table.get? b.mxe.entries i = some x → unwatched blk i x →
        ∃ t, exec .drainGranuleWrite s = .next t ∧ faulted t blk i 9)) ∧
    (∀ e j, b.mxe.findJob s.arg.c = some (s.arg.b, e, j) →
      ∃ t, exec .mxeJobCompletion s = .next t ∧ ((t.block blk).mxe.entries.getD s.arg.b Entry.unused).state = .done) ∧
    (let x := b.mxeLane s.arg.b
     ∃ t, exec .outBufferFree s = .next t ∧ (t.block blk).mxeLane s.arg.b = { x with out := none, outSent := false }) ∧
    ∀ q, Table.get? s.packets s.arg.a = some q →
      let p := q.phys
      let u := s.dropPacket s.arg.a
      let m := (s.block (blockOf p)).mxe
      let x := (s.block (blockOf p)).mxeLane (s.laneOf p)
      (∀ h lcn r fmt n, q.body = .message h lcn r (.tile fmt n) →
        let e := (s.core p).endAt h
        ((e.state = .tile ∨ (e.state = .idle ∧ e.psz = 3)) → e.dirIn = true → e.plcn = lcn → e.pend = r →
          (x.latch.length + x.granted < 2 → ∃ t, exec .tileOffer s = .next t ∧
            ((t.core p).endAt h).state = .tile ∧
            (t.block (blockOf p)).mxeLane (s.laneOf p) = { x with offer := none, granted := x.granted + 1 }) ∧
          (2 ≤ x.latch.length + x.granted → ∃ t, exec .tileOffer s = .next t ∧ ((t.core p).endAt h).state = .tile ∧
            (t.block (blockOf p)).mxeLane (s.laneOf p) = { x with offer := some (lcn, r, fmt, n) })) ∧
        (e.state = .free → ∃ t, exec .tileOffer s = .next t ∧ ((t.core p).endAt h).state = .parked) ∧
        (e.state = .idle → e.psz ≠ 3 → exec .tileOffer s = .next (u.nackEnd p h lcn r (some (.tile fmt n))))) ∧
      (∀ h y, q.body = .grant h → x.out = some y → x.outEnd = h →
        let e := (s.core p).endAt h
        exec .tileGrant s = .next (((u.modBlock (blockOf p) (fun b => b.setMxeLane (s.laneOf p) { x with
          outSent := true })).sendFrom p true (destOf e.plcn) (tileBeats y.fmt) (.tile e.pend y) 0).postCore p
          (tileBeats y.fmt) .outBufferFree (args (blockOf p) (s.laneOf p)))) ∧
      (∀ h y, q.body = .tile h y → x.granted ≠ 0 →
        ∃ t, exec .tileLands s = .next t ∧ (t.block (blockOf p)).mxeLane (s.laneOf p) =
          { x with granted := x.granted - 1, latch := x.latch ++ [{ y with readyAt := s.countCore p + 1 }] }) ∧
      (∀ h absent, q.body = .nack h absent → x.out.isSome = true → x.outEnd = h →
        ∃ t, exec .tileOfferNack s = .next t ∧ ((t.block (blockOf p)).mxeLane (s.laneOf p)).out = none ∧
          ∀ i y j, m.findJob x.outOrder = some (i, y, j) → Table.get? m.entries i = some y → unwatched (blockOf p) i y →
            faulted t (blockOf p) i 4)

/-- R147, R150, R308 to R313: requests at a slice. One enters in a cycle, waits for its page's walk or for a round, or is
refused; an active round places it, fallow and refresh rounds place nothing; at its performance point a read answers the
bytes, a write has written them, and a reservation's bytes are written later in its reserved slot. R323, R324: a frozen pan is
never written; that a request let in before the freeze is refused with cause 0x06 at its performance point is the model's choice
(log entry 106). -/
def Obligations.SliceRequests : Prop :=
  ∀ s : State,
    let n := s.arg.a
    let x := s.slice n
    (∀ q m r tag f, Table.get? s.packets s.arg.a = some q → q.dst = .slice m → q.body = .request r →
      let y := s.slice m
      let now := s.count (s.sliceDom m)
      let train := y.waits
      let r' := { r with id := s.nextId, arrived := now, unchecked := train, frame := f * 2 ^ 21 + r.va % 2 ^ 21 }
      (y.lastEntry = now + 1 →
        exec .sliceRequestArrival s = .next (s.postDelayed (s.sliceDom m) .sliceRequestArrival s.arg)) ∧
      (y.lastEntry ≠ now + 1 → s.hostAtLink m = true → y.contest ≠ now + 1 →
        (y.lastHost = true → ∃ t, exec .sliceRequestArrival s = .next t ∧ (t.slice m).lastEntry = now + 1 ∧
          (t.slice m).lastHost = false) ∧
        (y.lastHost = false → exec .sliceRequestArrival s = .next ((s.modSlice m (fun z =>
          { z with contest := now + 1, lastHost := true })).postDelayed (s.sliceDom m) .sliceRequestArrival s.arg))) ∧
      ((∀ e ∈ s.agenda, e.event = .hostPanAccess → e.time ≠ s.now) → y.lastEntry ≠ now + 1 →
        (Table.get? y.tlb (tlbIndex r.va) = some (tag, f) → tag = tlbTag r.va →
          (train = true ∨ y.refuses r = none → ∃ t, exec .sliceRequestArrival s = .next t ∧
            (t.slice m).queue = y.queue ++ [r'] ∧ (t.slice m).lastEntry = now + 1) ∧
          (∀ c, train = false → y.refuses r = some c → ∃ t, exec .sliceRequestArrival s = .next t ∧
            (t.slice m).queue = y.queue ∧ (t.slice m).lastEntry = now + 1 ∧
            Table.get? (t.slice m).outs (s.nextId + 1) = some { req := r', result := .nack c, placed := false })) ∧
        ((∀ tag f, Table.get? y.tlb (tlbIndex r.va) = some (tag, f) → tag ≠ tlbTag r.va) →
          ∃ t, exec .sliceRequestArrival s = .next t ∧ (t.slice m).lastEntry = now + 1 ∧
            (t.slice m).queue =
              y.queue ++ [{ r with id := s.nextId, arrived := now, unchecked := train, walking := true }] ∧
            ∃ j, (r.va % 2 ^ 48 / 2 ^ 21, j) ∈ (t.slice m).walks))) ∧
    (let page := s.arg.b
     let mine (r : Request) : Bool := r.walking && r.va % 2 ^ 48 / 2 ^ 21 == page
     let read := ((x.walks.find? (fun w => w.1 == page)).map (·.2)).getD 0 + 1
     let w := s.walkPage n s.arg.c (page * 2 ^ 21)
     let train := x.waits
     (read < w.1 → ∃ t, exec .tlbWalkEnd s = .next t ∧ (t.slice n).queue = x.queue ∧ (t.slice n).outs = x.outs ∧
       ∀ v ∈ (t.slice n).walks, v.1 = page → v.2 = read) ∧
     (w.1 ≤ read → w.2 = none → train = false → ∃ t, exec .tlbWalkEnd s = .next t ∧
       (∀ v ∈ (t.slice n).walks, v.1 ≠ page) ∧ (t.slice n).queue = x.queue.filter (fun r => !mine r) ∧
       ∀ r ∈ x.queue, mine r = true →
         ∃ j, Table.get? (t.slice n).outs j = some { req := r, result := .nack 0x09#6, placed := false }) ∧
     ∀ f, w.1 ≤ read → w.2 = some f → (x.queue.map (·.id)).Nodup → x.marks.length + x.queue.length ≤ 2 ^ 20 →
       ∃ t, exec .tlbWalkEnd s = .next t ∧ (∀ v ∈ (t.slice n).walks, v.1 ≠ page) ∧
         Table.get? (t.slice n).tlb (tlbIndex (page * 2 ^ 21)) = some (tlbTag (page * 2 ^ 21), f) ∧
         ∀ r ∈ x.queue, mine r = true →
           ((r.unchecked && train) = true ∨ x.refuses r = none →
             { r with walking := false, arrived := s.count (s.sliceDom n), frame := f * 2 ^ 21 + r.va % 2 ^ 21
                      unchecked := r.unchecked && train } ∈ (t.slice n).queue) ∧
           (∀ c, (r.unchecked && train) = false → x.refuses r = some c → ∀ y ∈ (t.slice n).queue, y.id ≠ r.id)) ∧
    (∀ r,
      let k := s.count (s.sliceDom n) / 64
      x.queue = [r] → r.walking = false → r.unchecked = false → r.arrived < 64 * k → (∀ e ∈ x.lines, e.1 ∉ r.lines) →
      x.claimed k = false → (r.kind.reserves = true → x.claimed (k + 2) = false) → x.waits = false →
      (x.testDue && x.isHeld) = false →
      (∀ e ∈ x.reserved, e.1 ≠ k) → (∀ p ∈ x.placed, p.2.perform / 64 ≠ k) →
      ∃ t, exec .activeRoundStart s = .next t ∧ (t.slice n).queue = [] ∧ Table.get? (t.slice n).placed s.nextId =
        some { req := r, perform := 64 * k, member := 0, width := r.kind.width }) ∧
    (x.claimed (s.count (s.sliceDom n) / 64) = false → x.testDue = true → x.isHeld = true →
      ∃ t, exec .activeRoundStart s = .next t ∧ (t.slice n).pending = some (x.writeRow.testResult n) ∧
        (t.slice n).queue = x.queue) ∧
    (∀ i ∈ [Instr.fallowRound, .refreshRound], ∃ t, exec i s = .next t ∧ (t.slice n).queue = x.queue ∧
      (t.slice n).placed = x.placed ∧ t.hbm = s.hbm) ∧
    (∀ p, Table.get? x.placed s.arg.b = some p →
      let key := hbmKey n p.req.frame
      let old := s.hbm.readN key p.req.kind.bytes
      let answered (t : State) (v : Result) : Prop :=
        Table.get? (t.slice n).outs s.nextId = some { req := p.req, result := v, placed := true }
      (∀ m, p.req.kind = .read m false false → ∃ t, exec .slotPerform s = .next t ∧ t.hbm = s.hbm ∧
        Table.get? (t.slice n).placed s.arg.b = none ∧ answered t (.ok old false)) ∧
      (∀ b tag, p.req.kind = .write b tag → s.hbm.wf = true → s.abandoned p.req = false → x.frozen p.req = false →
        ∃ t, exec .slotPerform s = .next t ∧ t.hbm.readN key b.length = b ∧
          (∀ a, a < key ∨ key + b.length ≤ a → t.hbm.read a = s.hbm.read a) ∧ answered t (.ok [] false)) ∧
      (x.frozen p.req = true → ∃ t, exec .slotPerform s = .next t ∧ t.hbm = s.hbm ∧ (t.slice n).held = x.held ∧
        answered t (.nack 0x06#6)) ∧
      (∀ op bits b e, p.req.kind = .amo op bits b e → x.frozen p.req = false → ∃ t, exec .slotPerform s = .next t ∧ t.hbm = s.hbm ∧
        ((ReqKind.amo op bits b e).writes old = true → Table.get? (t.slice n).held s.arg.b =
          some (natBytes (bits / 8) (atomic op bits (bytesNat old) b.toNat e.toNat).1)) ∧
        ((ReqKind.amo op bits b e).writes old = false → (t.slice n).held = x.held) ∧ answered t (.ok old false)) ∧
      (∀ c w, p.req.kind = .contribute c w →
        (x.repeated p.req = true → ∃ t, exec .slotPerform s = .next t ∧ t.hbm = s.hbm ∧ (t.slice n).held = x.held ∧
          (t.slice n).marks = x.marks ∧ answered t (.ok [] false)) ∧
        (∀ b, x.repeated p.req = false → reserveWrite p.req.kind old = some b →
          ∃ t, exec .slotPerform s = .next t ∧ t.hbm = s.hbm ∧ Table.get? (t.slice n).held s.arg.b = some b ∧
            (∀ i e, x.panAt p.req.va = some (i, e) →
              (t.slice n).mark e.basep (p.req.lcn * 8 + p.req.slot) = some w) ∧ answered t (.ok [] false)) ∧
        (x.repeated p.req = false → reserveWrite p.req.kind old = none →
          ∃ t, exec .slotPerform s = .next t ∧ t.hbm = s.hbm ∧ (t.slice n).held = x.held ∧ answered t (.nack 0x06#6))) ∧
      (Table.get? x.held s.arg.b = none → ∃ t, exec .reservedWrite s = .next t ∧ t.hbm = s.hbm ∧
        Table.get? (t.slice n).placed s.arg.b = none ∧ ∀ l ∈ (t.slice n).lines, l.2 ≠ s.arg.b) ∧
      (∀ b, Table.get? x.held s.arg.b = some b → s.hbm.wf = true →
        ∃ t, exec .reservedWrite s = .next t ∧ t.hbm.readN key b.length = b ∧
          (∀ a, a < key ∨ key + b.length ≤ a → t.hbm.read a = s.hbm.read a) ∧
          Table.get? (t.slice n).placed s.arg.b = none ∧ ∀ l ∈ (t.slice n).lines, l.2 ≠ s.arg.b)) ∧
    (∀ o, Table.get? x.outs s.arg.b = some o → o.req.who ≠ .host → exec .sliceReply s =
      .next ((s.modSlice n (fun y => { y with outs := y.outs.erase s.arg.b })).sendSlice n true o.req.part o.req.lcn 1
        (.reply o.req.who o.result) 0))

/-- R117, R149, R153, R154, R197, R228, R305, R306, R314: the pan table. A slice sets a holder, freezes an exclusive pan whose
extent is the capability's, counts a contributor's done, takes an entry for a minted pan and zeroes an accumulate pan, checks a
contributor's mint, and seals when DONE is NCON; the last reply completes the operation of the strand that asked and enters a
minted pan at the slices that accepted it, or traps the strand and enters it at none. That a minted pan is entered at all its
slices with the last acceptance, and at none where one refuses (log entry 37), and the trap of a freeze of a pan that is not
exclusive (log entry 94), that the first refusal to arrive names the trap (log entry 119), and a homed pan over a multiple of 64 GiB
(log entry 116), are the model's choices. -/
def Obligations.PanTable : Prop :=
  ∀ s : State,
    let id := s.arg.a
    (∀ q n req, s.tableRequest id = some (q, n, req) →
      let x := s.slice n
      let refuses (i : Instr) (u : Trap) (after : Nat) : Prop := exec i s = .next (s.tableAnswer id (some u) after)
      let perm (va : Nat) : Trap := trapPermission (BitVec.ofNat 64 va)
      let asks (t : State) (i : Instr) (o : Operands) : Prop := ∃ d ∈ t.agenda, d.event = i ∧ d.arg = o
      (∀ va lcn, req = .holder va lcn →
        (x.panAt va = none → exec .holderUpdate s = .next (s.tableAnswer id none 0)) ∧
        ∀ i e, x.panAt va = some (i, e) → Table.get? x.pans i = some e →
          ∃ u : State, exec .holderUpdate s = .next (u.tableAnswer id none 0) ∧ u.packets = s.packets ∧
            Table.get? (u.slice n).pans i = some { e with holder := lcn }) ∧
      (x.failed = true →
        let u := trapTranslation (BitVec.ofNat 64 req.va)
        (∀ i ∈ [Instr.freezeRequest, .doneMessage, .panMintRequest, .contributorMintCheck], refuses i u 0) ∧
          refuses .masterSealRequest u 6) ∧
      (x.failed = false →
        (∀ base top, req = .freeze base top →
          (x.panAt base = none → refuses .freezeRequest (perm base) 0) ∧
          ∀ i e, x.panAt base = some (i, e) → Table.get? x.pans i = some e →
            let whole : Prop := e.basep * 2 ^ 21 = base ∧ (e.basep + e.pages) * 2 ^ 21 = top
            (whole → e.kind = 2 → ∃ u : State, exec .freezeRequest s = .next (u.tableAnswer id none 0) ∧
              u.packets = s.packets ∧ Table.get? (u.slice n).pans i = some { e with kind := 3 }) ∧
            (whole → e.kind ≠ 2 → refuses .freezeRequest (perm base) 0) ∧
            (¬whole → refuses .freezeRequest (trapBounds (BitVec.ofNat 64 base)) 0)) ∧
        (∀ va, req = .done va →
          (x.panAt va = none → refuses .doneMessage (perm va) 0) ∧
          ∀ i e, x.panAt va = some (i, e) → Table.get? x.pans i = some e →
            (e.kind = 5 → e.done < e.ncon → ∃ t, exec .doneMessage s = .next t ∧
              Table.get? (t.slice n).pans i = some { e with done := e.done + 1 } ∧
              ∀ pkt, e.sealing = some pkt → e.done + 1 = e.ncon →
                asks t .sealBegin (args n (e.basep * 2 ^ 21) pkt)) ∧
            (e.kind ≠ 5 ∨ e.ncon ≤ e.done → refuses .doneMessage (perm va) 0)) ∧
        (∀ va size kind fmt ncon holder i, req = .mint va size kind fmt ncon holder →
          let e : PanEntry := { basep := va / 2 ^ 21, pages := size / 2 ^ 21, kind := kind, fmt := fmt
                                tbl := s.sliceOf q.sp va == some n, isSealed := false, holder := holder, ncon := ncon
                                done := 0, sealing := none }
          let taken : List Mint := x.mints ++ [{ op := q.tableId, entry := i, pan := e }]
          (s.mintRefusal n q.sp va size = none → x.freePan = some i →
            (kind ≠ 5 → exec .panMintRequest s =
              .next ((s.modSlice n (fun y => { y with mints := taken })).tableAnswer id none 0)) ∧
            (kind = 5 → ∃ t, exec .panMintRequest s = .next t ∧ (t.slice n).mints = taken ∧ (t.slice n).pans = x.pans ∧
              asks t .panZeroingDone (args n va id) ∧
              (s.bytesOn n q.sp e ≠ 0 → ∃ c, (t.slice n).claims = x.claims ++ [c] ∧ c.base = va))) ∧
          ∀ u, s.mintRefusal n q.sp va size = some u → refuses .panMintRequest u 0) ∧
        (∀ va size, req = .check va size →
          (x.panAt va = none → refuses .contributorMintCheck (perm va) 0) ∧
          ∀ i e, x.panAt va = some (i, e) → exec .contributorMintCheck s =
            .next (s.tableAnswer id (if e.basep * 2 ^ 21 = va ∧ e.pages * 2 ^ 21 = size ∧ e.kind = 5 ∧
              e.isSealed = false then none else some (perm va)) 0)) ∧
        ∀ va f fr mode, req = .master va f fr mode →
          (x.panAt va = none → refuses .masterSealRequest (perm va) 6) ∧
          ∀ i e, x.panAt va = some (i, e) → Table.get? x.pans i = some e →
            let bad : Prop := e.kind ≠ 5 ∨ e.isSealed = true ∨ (e.fmt = 3 ∧ f ≠ 2) ∨
              (e.fmt = 2 ∧ f = 2 ∧ isHomed va = false)
            (bad → refuses .masterSealRequest (perm va) 6) ∧
            (¬bad → ∃ t, exec .masterSealRequest s = .next t ∧
              Table.get? (t.slice n).pans i = some { e with sealing := some id } ∧
              (e.done = e.ncon → asks t .sealBegin (args n (e.basep * 2 ^ 21) id)) ∧
              (e.done ≠ e.ncon → t.agenda = s.agenda)))) ∧
    (let n : Nat := s.arg.a
     let va : Nat := s.arg.b
     exec .panZeroingDone s = .next ((s.unclaim n va).tableAnswer s.arg.c none 0) ∧
     ∀ q m req i e, s.tableRequest s.arg.c = some (q, m, req) → (s.slice n).panAt va = some (i, e) →
       Table.get? (s.slice n).pans i = some e →
       (∃ t, exec .sealBegin s = .next t ∧ Table.get? (t.slice n).pans i = some { e with isSealed := true } ∧
         ((s.slice n).contributing e.basep = false →
           ∃ d ∈ t.agenda, d.event = .panConversionDone ∧ d.arg = args n va s.arg.c)) ∧
       ∀ w f fr mode, req = .master w f fr mode → ∃ u : State, exec .panConversionDone s = .next (u.tableAnswer s.arg.c none 0) ∧
         u.packets = s.packets ∧ u.hbm = ((s.flushHeld n e.basep).convert n q.sp e f mode).hbm ∧
         Table.get? (u.slice n).pans i = some { e with kind := if fr then 3 else 2, fmt := 0, sealing := none } ∧
         (∀ m ∈ (u.slice n).marks, m.1 ≠ e.basep) ∧ ∀ c ∈ (u.slice n).claims, c.base ≠ va) ∧
    (∀ q k n refused op, Table.get? s.packets id = some q → q.body = .tableReply k n refused →
      Table.get? (s.core q.phys).tableOps k = some op →
      let p := q.phys
      let x := s.strand p op.slot
      let from_ := if refused.isNone then n :: op.entered else op.entered
      (op.left = 1 → op.refused = none → refused = none → ∃ t, exec .panTableReply s = .next t ∧
        Table.get? (t.core p).tableOps k = none ∧
        (s.occupied p op.slot = true → x.wait = .table k →
          t.strand p op.slot = { x.tableDone op with wait := .ready, readyAt := s.countCore p + 1 }) ∧
        ∀ j ∈ from_, ∀ m, (s.slice j).mints.find? (fun y => y.op == k) = some m →
          Table.get? (t.slice j).pans m.entry = some m.pan ∧
          (m.pan.kind = 5 → ∀ a ∈ s.blocksOn j ((s.partOf p).getD 31) m.pan, ∀ key,
            s.keyOf ((s.partOf p).getD 31) a = some key → ∀ i < 2048, t.hbm.read (key + i) = 0#8)) ∧
      (∀ u, op.left = 1 → (if op.refused.isSome then op.refused else refused) = some u →
        ∃ t, exec .panTableReply s = .next t ∧ Table.get? (t.core p).tableOps k = none ∧
        (s.occupied p op.slot = true → x.wait = .table k → x.inh = false → t.strand p op.slot =
          { x.enter u x.waitPc x.waitRep (s.core p).tvec with readyAt := s.countCore p + 1 }) ∧
        ∀ j, (t.slice j).pans = (s.slice j).pans ∧ (j ∈ from_ → ∀ m ∈ (t.slice j).mints, m.op ≠ k)) ∧
      (1 < op.left → ∃ t op', exec .panTableReply s = .next t ∧ Table.get? (t.core p).tableOps k = some op' ∧
        op'.left = op.left - 1 ∧ op'.entered = from_ ∧
        op'.refused = if op.refused.isSome then op.refused else refused) ∧
      (s.occupied p op.slot = true → x.wait = .holder op.h →
        ∃ t, exec .holderUpdateReply s = .next t ∧ (t.strand p op.slot).wait = .ready ∧
          Table.get? (t.core p).tableOps k = none ∧ ((t.core p).endAt op.h).state = .idle ∧
          ∀ r, (t.strand p op.slot).reg r = (x.setReg op.d op.result).reg r))

/-- R257, R263 to R273: the rake. At its threshold a blocked strand starts a probe along its edges; a probe is echoed NO,
YES or BUSY or engages its strand; echoes, entries, confirms and their echoes are counted and answered; END marks the
members reported; the head grants one number at a time with the token, and hands out records in their order. That the token
goes to the waiting SEQ-REQs in the order of their arrival, whatever records the head holds itself (log entry 102), and that the
strand of a core that is saved or restored starts no probe (log entry 123), are the model's choices. -/
def Obligations.RakeEvents : Prop :=
  ∀ s : State,
    (let p := s.arg.a
     let k := s.arg.b
     let x := s.strand p k
     let c := s.core p
     let id : ProbeId := { time := s.now, lcn := c.lcn, slot := k }
     let es := s.edges p x
     let lanes := es.filter (fun e => decide (e.2.lcn < coreCount))
     s.occupied p k = true → x.wait.isEdge = true → s.countCore p = x.waitStart + x.threshold →
     ∃ t, exec .rakeThreshold s = .next t ∧ (t.strand p k).threshold = x.threshold + c.rakeT.toNat ∧
       (x.halt = false → x.reported = false → c.engagedIn k = none → c.engagement k id = none → c.record = none →
         c.run = .run →
         (lanes = [] → (t.core p).engagement k id = none) ∧
         (lanes ≠ [] → ∃ g, (t.core p).engagement k id = some g ∧ g.parent = none ∧ g.wstart = x.waitStart ∧
           g.echoesLeft = lanes.length ∧ g.anyNo = (lanes.length != es.length) ∧ g.entries =
             (x.entryCodes.map (fun e => (0, c.lcn, k, e.1, recordEntry c.lcn k e.1 e.2))).foldl insertEntry []))) ∧
    (∀ q, Table.get? s.packets s.arg.a = some q →
      let p := q.phys
      let c := s.core p
      let u := s.dropPacket s.arg.a
      let sends (i : Instr) (d : Nat) (b : Body) : Prop :=
        ∃ v : State, exec i s = .next (v.sendRake p d b) ∧ v.packets = u.packets
      let recorded (t : State) (k : Nat) (id : ProbeId) (g : Engaged) (n : Nat) : Prop :=
        let ws := g.entries.map (fun e => e.2.2.2.2)
        (t.core p).engagement k id = none ∧ (t.strand p (k % 16)).reported = true ∧ (t.core p).record = some
          { words := recordHeader 1 (min 64 ws.length) (decide (64 < ws.length)) n :: ws.take 64, next := 0 }
      (∀ id from_ k h e, q.body = .probe id from_ k h e →
        let j := (c.endAt e.target).slot
        let x := s.strand p j
        let echo (n : Nat) := exec .rakeProbe s = .next (u.sendRake p from_ (.echo id k n none))
        (s.edgeValid p q.srcLcn h e = false → echo 1) ∧
        (s.edgeValid p q.srcLcn h e = true → e.barrier = false →
          (x.blocked = false ∨ x.reported = true → echo 1) ∧
          (x.blocked = true → x.reported = false →
            (c.engagedIn j = none → exec .rakeProbe s = .next (u.engage p j id (some (from_, k)))) ∧
            ∀ g, c.engagedIn j = some g → (g.id = id → echo 0) ∧ (g.id ≠ id → g.id.earlier id = true → echo 2) ∧
              (g.id ≠ id → g.id.earlier id = false → exec .rakeProbe s = .next
                ((u.abortEngaged p j g.id).engage p j id (some (from_, k)))))) ∧
        (s.edgeValid p q.srcLcn h e = true → e.barrier = true → (∀ g ∈ c.gathers, g.id ≠ id ∨ g.parent ≠ (from_, k)) →
          (∃ i < 8, s.occupied p i = true) →
          (∀ i < 8, s.occupied p i = true → (s.strand p i).blocked = false ∨ (s.strand p i).reported = true) →
          sends .rakeProbe from_ (.echo id k 1 none))) ∧
      (∀ id k answer child, q.body = .echo id k answer child →
        (c.engagement k id = none →
          (∀ d, child = some d → exec .rakeEcho s = .next (u.sendRake p d.1 (.fin id d.2 false))) ∧
          (child = none → exec .rakeEcho s = .next u)) ∧
        ∀ g, c.engagement k id = some g →
          let g' : Engaged := { g with
            echoesLeft := g.echoesLeft - 1, anyNo := g.anyNo || answer == 1, anyBusy := g.anyBusy || answer == 2
            children := g.children ++ child.toList }
          let yes : Bool := !g'.anyNo && !g'.anyBusy && !g.aborted && s.stillBlocked p k g.wstart
          (1 < g.echoesLeft → ∃ t, exec .rakeEcho s = .next t ∧ (t.core p).engagement k id = some g') ∧
          (g.echoesLeft = 1 →
            (∀ d j, g.parent = some (d, j) → j ≠ 8 → sends .rakeEcho d
              (.echo id j (if yes then 0 else if g'.anyBusy && !g.aborted then 2 else 1) (some (p, k)))) ∧
            (g.parent = none → yes = true → g'.children ≠ [] → ∃ t, exec .rakeEcho s = .next t ∧
              (t.core p).engagement k id = some { g' with confirmsLeft := g'.children.length }) ∧
            (g.parent = none → yes = false → ∃ t, exec .rakeEcho s = .next t ∧
              (t.core p).engagement k id = none))) ∧
      (∀ id lcn k h w v g, q.body = .entry id (lcn, k, h, w, v) → c.engagement id.slot id = some g →
        ∃ t, exec .rakeEntry s = .next t ∧ (t.core p).engagement id.slot id = some { g with
          entries := insertEntry g.entries (s.countCore p, lcn, k, h, v) }) ∧
      (∀ id k parent, q.body = .confirm id k parent →
        let ok (b : Bool) := exec .rakeConfirm s = .next (u.sendRake p parent.1 (.confirmEcho id parent.2 b))
        (k = 8 → (∀ g ∈ c.gathers, g.id ≠ id ∨ g.parent ≠ parent) → ok false) ∧
        (k ≠ 8 → parent ≠ (p, 8) →
          (c.engagement k id = none → ok false) ∧
          ∀ g, c.engagement k id = some g →
            (g.children = [] ∨ g.aborted = true →
              ok (!g.confirmBad && !g.aborted && s.stillBlocked p k g.wstart)) ∧
            (g.children ≠ [] → g.aborted = false → ∃ t, exec .rakeConfirm s = .next t ∧
              (t.core p).engagement k id =
                some { g with parent := some parent, confirmsLeft := g.children.length }))) ∧
      (∀ id k ok g, q.body = .confirmEcho id k ok → k ≠ 8 → c.engagement k id = some g →
        let good : Bool := !(g.confirmBad || !ok) && !g.aborted && s.stillBlocked p k g.wstart
        (1 < g.confirmsLeft → ∃ t, exec .rakeConfirmEcho s = .next t ∧ (t.core p).engagement k id = some { g with
          confirmsLeft := g.confirmsLeft - 1, confirmBad := g.confirmBad || !ok }) ∧
        (g.confirmsLeft = 1 →
          (∀ d, g.parent = some d → d ≠ (p, 8) → sends .rakeConfirmEcho d.1 (.confirmEcho id d.2 good)) ∧
          (g.parent = none → good = false → ∃ t, exec .rakeConfirmEcho s = .next t ∧
            (t.core p).engagement k id = none) ∧
          (∀ n, g.parent = none → good = true → g.grant = some n → s.partOf p ≠ none →
            ∃ t, exec .rakeConfirmEcho s = .next t ∧ recorded t k id g n))) ∧
      (∀ id k ok g, q.body = .fin id k ok → k ≠ 8 → c.engagement k id = some g →
        ∃ t, exec .rakeEnd s = .next t ∧ (t.core p).engagement k id = none ∧
          (t.strand p (k % 16)).reported = ((s.strand p (k % 16)).reported ||
            (ok && s.stillWaits p k g.wstart))) ∧
      (∀ id, q.body = .seqReq id →
        let r := (s.part q.sp).rake
        (r.tokenOut = true → ∃ t, exec .seqReq s = .next t ∧
          (t.part q.sp).rake = { r with waiting := r.waiting ++ [id] }) ∧
        (r.tokenOut = false → r.waiting = [] → ∃ t, exec .seqReq s = .next t ∧
          (t.part q.sp).rake = { r with tokenOut := true })) ∧
      (∀ id n, q.body = .seqGrant id n →
        (c.engagement id.slot id = none → exec .seqGrant s = .next (u.sendFrom p false .head 1 (.token false) 0)) ∧
        ∀ g, c.engagement id.slot id = some g →
          (g.confirmsLeft ≠ 0 → ∃ t, exec .seqGrant s = .next t ∧
            (t.core p).engagement id.slot id = some { g with grant := some n }) ∧
          (g.confirmsLeft = 0 → g.confirmBad = false → g.aborted = false → s.stillBlocked p id.slot g.wstart = true →
            s.partOf p ≠ none → ∃ t, exec .seqGrant s = .next t ∧ recorded t id.slot id g n)) ∧
      (∀ written, q.body = .token written →
        let r := (s.part q.sp).rake
        let n := if written then (r.seq + 1) % 2 ^ 32 else r.seq
        (r.waiting = [] → r.held = [] → ∃ t, exec .deliveryTokenReturn s = .next t ∧ (t.part q.sp).rake =
          { r with tokenOut := false, seq := n }) ∧
        ∀ i rest, r.waiting = i :: rest → ∃ t, exec .deliveryTokenReturn s = .next t ∧ (t.part q.sp).rake =
          { r with tokenOut := true, seq := n, waiting := rest })) ∧
    (∀ r w,
      let sp := s.arg.a
      let p := s.arg.b
      let x := s.part sp
      let say (v : Word) : Body := .message x.evEnd x.evLcn x.evEnd (.word (CReg.int v))
      r.words[r.next]? = some w →
      (p ≠ coreCount → (s.core p).record = some r → s.partOf p = some sp →
        (x.evv = true → exec .recordWordResend s = .next (s.sendFrom p false (.lane x.evLcn) 1 (say w) 0)) ∧
        (x.evv = false → exec .recordWordResend s =
          .next (s.postCore p (s.core p).rakeT.toNat .recordWordResend (args sp p)))) ∧
      (p = coreCount → x.rake.current = some r →
        (x.evv = true → exec .recordWordResend s = .next (s.sendHead sp (.lane x.evLcn) (say w) 0)) ∧
        (x.evv = false → exec .recordWordResend s =
          .next (s.post (some sp) 0x10000 .recordWordResend (args sp coreCount))))) ∧
    (let sp := s.arg.a
     let r := (s.part sp).rake
     let n := (r.seq + 1) % 2 ^ 32
     (r.tokenOut = true → ∃ t, exec .supervisorRecord s = .next t ∧
       (t.part sp).rake = { r with held := r.held ++ [(s.arg.b, [s.arg.w])] }) ∧
     (r.tokenOut = false → r.waiting = [] → r.held = [] → ∃ t, exec .supervisorRecord s = .next t ∧
       (t.part sp).rake = { r with
         tokenOut := true, seq := n, current := some { words := [recordHeader s.arg.b 1 false n, s.arg.w], next := 0 } }))

/-- R279 to R281, R284 to R289, R291, R292: the launch head. An enabled queue with room takes a sound record and acknowledges
it, the next owner's best record becomes pending, a pending job is placed and its members wake, slot 0 starts as R279 says, and
a job whose members have all finished frees their ends and barriers. The members of a gang (log entry 69), and a wake that waits
where its core is out of service (log entry 40), are the model's choices. -/
def Obligations.LaunchEvents : Prop :=
  ∀ s : State,
    let sp := s.arg.a
    let x := s.part sp
    let k := s.count (some sp)
    let noticed (t : State) (m : Nat) (r : BitVec 512) (status : Nat) : Prop :=
      jobNoteV r = true → ∃ e ∈ (t.part m).notices, e.2.lcn = jobNoteLcn r ∧ e.2.toEnd = jobNoteEnd r ∧
        e.2.word = BitVec.ofNat 64 (jobIdOf r + status * 2 ^ 32)
    (∀ q n lcn h b, Table.get? s.packets s.arg.a = some q → q.body = .message n lcn h b →
      let refused : Prop :=
        exec .jobRecordIntake s = .next ((s.dropPacket s.arg.a).sendHead q.sp (destOf lcn) (.nack h false) 0)
      ((∀ r, b ≠ .vector r) → refused) ∧
      ∀ r, b = .vector r →
        let y := (s.part q.sp).queues.getD n LaunchQueue.reset
        let st := s.recordStatus q.sp n r
        (16 ≤ n ∨ y.en = false → refused) ∧
        (n < 16 → y.en = true →
          (y.records.length < 16 → y.waiting = [] →
            (st = 0 → ∃ t : State, exec .jobRecordIntake s = .next (t.headAck q.sp lcn h) ∧
              (t.part q.sp).queues.getD n LaunchQueue.reset =
                { y with records := y.records ++ [(s.count (some q.sp), r)] }) ∧
            (st ≠ 0 → ∃ t : State, exec .jobRecordIntake s = .next (t.headAck q.sp lcn h) ∧
              (t.part q.sp).queues = (s.part q.sp).queues ∧ noticed t q.sp r st)) ∧
          (16 ≤ y.records.length ∨ y.waiting ≠ [] → ∃ t, exec .jobRecordIntake s = .next t ∧
            (t.part q.sp).queues.getD n LaunchQueue.reset = { y with waiting := y.waiting ++ [(lcn, h, r)] }))) ∧
    (let w := s.arg.w
     let y := x.queues.getD s.arg.b LaunchQueue.reset
     let y' : LaunchQueue := { y with
       en := w.getLsbD 0, pm := w.getLsbD 1, owner := (w.extractLsb' 2 8).toNat
       weight := if w.extractLsb' 10 8 = 0#8 then 1 else (w.extractLsb' 10 8).toNat, waiting := [], hostWaiting := [] }
     ∃ t, exec .qcfgWrite s = .next t ∧
       let z := (t.part sp).queues.getD s.arg.b LaunchQueue.reset
       z.en = y'.en ∧ z.pm = y'.pm ∧ z.owner = y'.owner ∧ z.weight = y'.weight ∧
         ((y.waiting = [] ∧ y.hostWaiting = []) ∨ w.getLsbD 0 = false → z = y')) ∧
    (k < x.busy ∨ x.pending ≠ none ∨ x.nextOwner = none → exec .jobSelection s = .next s) ∧
    (∀ o q i c r,
      let y := x.queues.getD q LaunchQueue.reset
      let v := max (x.vf.getD o 0) x.vtime
      x.busy ≤ k → x.pending = none → x.nextOwner = some o → x.nextRecord o = some (q, i, c, r) →
      ∃ t j, exec .jobSelection s = .next t ∧ (t.part sp).jobs.get? (jobIdOf r) = some j ∧ j.state = .pending ∧
        j.record = r ∧ j.queue = q ∧ j.owner = o ∧ j.placeFrom = k + 30 ∧ (t.part sp).vtime = v ∧
        (∃ d ∈ t.agenda, d.event = .jobPlacement ∧ d.arg = args sp) ∧
        (y.waiting = [] → y.hostWaiting = [] →
          (t.part sp).vf.getD o 0 = (v + (2 ^ 16 * jobBw r * jobBh r + y.weight - 1) / y.weight) % 2 ^ 64 ∧
          (t.part sp).queues.getD q LaunchQueue.reset = { y with records := y.records.eraseIdx i })) ∧
    (x.pending = none → exec .jobPlacement s = .next s) ∧
    (∀ j, x.pending = some j →
      (k < j.placeFrom ∨ x.placeFor j.record = none → exec .jobPlacement s = .next s) ∧
      ∀ ox oy, j.placeFrom ≤ k → x.placeFor j.record = some (ox, oy) →
        let ms := s.memberCores sp ox oy (jobBw j.record) (jobBh j.record)
        ∃ t, exec .jobPlacement s = .next t ∧ (t.part sp).jobs.get? j.id = some { j with
          state := .running, ox := ox, oy := oy, members := ms, left := ms } ∧
          (∀ p ∈ ms, (t.core p).bmem = jobWmask j.record) ∧
          ∀ p ∈ ms, ∃ n q, Table.get? t.packets n = some q ∧ q.body = .leg .wake { args 0 j.id with flag := true } ∧
            q.x = 2 * max (16 * x.base + ox) (coordX p / 64 * 32) ∧ q.y = coordY p / 4 * 4 ∧
            ∃ d ∈ t.agenda, d.event = .packetHop ∧ d.arg = args n) ∧
    (∀ m j,
      let p := s.arg.a
      let id := s.arg.b
      let c := s.core p
      let r := j.record
      s.jobOf p id = some (m, j) →
      (c.run = .doubleTrap → exec .wake s = .next s) ∧
      (c.run ≠ .doubleTrap → s.arg.c = 1 ∨ (s.remapOf c.lcn).2 = false → exec .wake s = .next (s.memberAbsent p id)) ∧
      (s.arg.c ≠ 1 → (s.remapOf c.lcn).2 = true → c.run ≠ .doubleTrap → s.outOfService p = true →
        exec .wake s = .next (s.holdWake m p id)) ∧
      (s.arg.c ≠ 1 → (s.remapOf c.lcn).2 = true → c.run = .restoring → s.outOfService p = false → exec .wake s = .next (s.postCore p 1 .wake (args p id))) ∧
      (s.arg.c ≠ 1 → (s.remapOf c.lcn).2 = true → c.run ≠ .doubleTrap → c.run ≠ .restoring → s.outOfService p = false →
        ∃ t, exec .wake s = .next t ∧ (t.core p).grank = (j.members.findIdx? (· == p)).getD 0 ∧
          (t.core p).gsize = j.members.length ∧ (t.core p).gorg = 8 * (s.part m).blockAt j.ox j.oy ∧
          (t.core p).bmem = jobWmask r ∧ (t.core p).barr = 0#17 ∧ (t.core p).job = id ∧
          (t.core p).tvec = (if jobTvec r = 0 then c.tvec else BitVec.ofNat 64 (jobCode r + jobTvec r)) ∧
          (jobNchan r = 0 → t.occupied p 0 = true ∧
            t.strand p 0 = { wokenStrand r with serial := s.nextId, readyAt := s.countCore p + 1 }) ∧
          (jobNchan r ≠ 0 → (t.core p).wakeLeft = (entryLines r).length ∧ t.occupied p 0 = s.occupied p 0))) ∧
    (∀ m j,
      let p := s.arg.a
      let r := j.record
      let b := s.panRead m (jobArg r + 16 * jobChidx r) (16 * jobNchan r)
      let half (o : Nat) : Word := BitVec.ofNat 64 (bytesNat ((b.drop o).take 8))
      s.jobOf p (s.core p).job = some (m, j) →
      let u := s.bindEntry p (j.members.map (fun i => (s.core i).lcn)) (half 0) (half 8)
      ∃ t, exec .wakeChannelBind s = .next t ∧ t.occupied p 0 = true ∧
        ((t.strand p 0).pc = BitVec.ofNat 64 (jobCode r + jobEntry r) ∨
          ((t.strand p 0).pc = (s.core p).tvec ∧ (t.strand p 0).tcause = 0x0C#6)) ∧
        (jobNchan r = 1 →
          (u.2 = none → (t.strand p 0).pc = BitVec.ofNat 64 (jobCode r + jobEntry r)) ∧
          ∀ h, u.2 = some h → (t.strand p 0).pc = (s.core p).tvec ∧ (t.strand p 0).tcause = 0x0C#6 ∧
            (t.strand p 0).tval = BitVec.ofNat 64 (h + 256))) ∧
    (∀ j, x.jobs.get? s.arg.b = some j → j.id = s.arg.b →
      let done : Prop := j.state = .running ∧ j.left = [] ∧ ∀ p ∈ j.members, s.finished p = true
      (¬done → exec .jobCompletion s = .next s) ∧
      (done → ∃ t, exec .jobCompletion s = .next t ∧ (t.part sp).jobs.get? s.arg.b = none ∧ noticed t sp j.record 0 ∧
        ∀ p ∈ j.members, (t.core p).ends = [] ∧ (t.core p).job = 0 ∧ (t.core p).bmem &&& jobWmask j.record = 0#16 ∧
          (t.core p).barr &&& (jobWmask j.record).setWidth 17 = 0#17)) ∧
    (∀ n, x.notices.get? s.arg.b = some n → ∃ t, exec .noticeResend s = .next t ∧
      (t.part sp).notices.get? s.arg.b = some { n with sent := some s.nextId })

/-- R225, R326, R333 to R335, R340, R341, R343, R355, R416 to R421: device-register windows. A read answers the register at the
address or is refused; a store replaces the register as its rule says, with its effect on the block, the router or the slice; a
test's results take effect together. That a route-table entry with OUT 0 or 7 is refused is the model's choice (log entry 48).
-/
def Obligations.DeviceEvents : Prop :=
  ∀ s : State,
    let pkt := s.arg.a
    (∀ q ea size, s.deviceAccess pkt = some (q, ea, size, none) → exec .deviceWindowAccess s =
      .next (s.deviceAnswer pkt ((s.deviceRead ea).map (fun w => halfOf w ea size)))) ∧
    (∀ q ea size w, s.deviceAccess pkt = some (q, ea, size, some w) →
      let v := wholeOf ((s.deviceRead ea).getD 0#64) ea size w
      let (typ, idx, off) := deviceFields ea
      let blk := blockOf (coreAt (idx % 768) (idx / 768))
      let b := s.block blk
      let x := s.slice idx
      let bad := Host.Outcome.next (s.deviceAnswer pkt none)
      (s.deviceRead ea = none ∨ typ = 3 ∨ (typ = 4 ∧ 0x10000 ≤ off) → exec .deviceWindowAccess s = bad) ∧
      (typ ≠ 3 → typ ≠ 4 → (s.deviceRead ea).isSome = true →
        exec .deviceWindowAccess s = .next (s.deviceAnswer pkt (some 0#64))) ∧
      (typ = 4 → 0x100 ≤ off → off < 0x310 →
        (x.tstat.getLsbD 0 = true → exec .deviceWindowAccess s = bad) ∧
        (x.tstat.getLsbD 0 = false → ∃ t, exec .deviceWindowAccess s = .next t ∧
          (t.slice idx).ldly.getD ((off - 0x100) / 8) 0#64 = v &&& 0x3F3F#64)) ∧
      (s.badRoute (typ == 2) (idx % 768) (idx / 768) v = true → exec .routeTableWrite s = bad) ∧
      (s.badRoute (typ == 2) (idx % 768) (idx / 768) v = false → ∃ t, exec .routeTableWrite s = .next t ∧
        (t.routeTable (typ == 2) (idx % 768) (idx / 768)).getD (off / 8) 0#64 = v &&& 0x7FFFFFFFFFFF#64) ∧
      (∃ t, exec .bcfgOosWrite s = .next t ∧ (t.block blk).oos = v.extractLsb' 8 8) ∧
      (∀ p, v.getLsbD 16 = true → b.rsv = false → v.extractLsb' 8 8 = b.oos → b.reserveLane = some p →
        ∃ t, exec .reserveTake s = .next t ∧
          t.block blk = { b with rsv := true, rlane := p, rav := true, live := b.live - 1 }) ∧
      (v.getLsbD 16 = true → b.rsv = false → v.extractLsb' 8 8 = b.oos → b.reserveLane = none →
        ∃ t, exec .reserveTake s = .next t ∧ t.block blk = b) ∧
      (v.getLsbD 16 = false → b.rsv = true → v.extractLsb' 8 8 = b.oos →
        ∃ t, exec .reserveRelease s = .next t ∧ t.block blk = { b with rsv := false, rav := false }) ∧
      (x.tstat.getLsbD 0 = true → ∀ i ∈ [Instr.tctlWrite, .seedWrite, .repairWrite], exec i s = bad) ∧
      (x.tstat.getLsbD 0 = false →
        (∃ t, exec .tctlWrite s = .next t ∧ (t.slice idx).tctl = v &&& 0x1FF#64 ∧
          (v.getLsbD 0 = false → x.serving = false → ∀ r ∈ (t.slice idx).queue, r.unchecked = false)) ∧
        (∃ t, exec .seedWrite s = .next t ∧ (t.slice idx).seed = if v = 0#64 then 1#64 else v) ∧
        (if (v.getLsbD 6 ∧ 31 < (v.extractLsb' 0 6).toNat) ∨ (v.getLsbD 14 ∧ (v.extractLsb' 8 6).toNat < 32)
         then exec .repairWrite s = bad
         else ∃ t, exec .repairWrite s = .next t ∧ (t.slice idx).repair = v &&& 0x7F7F#64) ∧
        (v.getLsbD 0 = true → x.tctl.getLsbD 0 = true → ∃ t, exec .trunGo s = .next t ∧
          (t.slice idx).tstat = 1#64 ∧ (t.slice idx).pending = none)) ∧
      (v.getLsbD 0 = false → exec .trunGo s = .next (s.deviceAnswer pkt (some 0#64))) ∧
      (v.getLsbD 0 = true → x.tctl.getLsbD 0 = false ∨ x.tstat.getLsbD 0 = true → exec .trunGo s = bad)) ∧
    (∀ a b, (s.slice s.arg.a).pending = some (a, b) → ∃ t, exec .patternTestResult s = .next t ∧
      (t.slice s.arg.a).pass0 = a ∧ (t.slice s.arg.a).pass1 = b ∧ (t.slice s.arg.a).tstat = 0#64) ∧
    ∀ q c k blk l e, Table.get? s.packets pkt = some q → q.body = .remap c k blk l e →
      ∃ t, exec .remapWrite s = .next t ∧ (t.block blk).remap = (s.block blk).remap.set l e ∧
        ∀ p, t.physOf (8 * blk + l) = some p → (t.core p).lcn = 8 * blk + l

/-- R331, R336 to R342, R358, R410: a packet's head. A closed router or a port without a link holds it; a step goes to the next
router; a step into another partition's unit is dropped and counted; at its final router it goes on to its lane's core, while
that is not held, and a message for an absent lane is refused; the host performs an access at its link. That the parts of a
longer transfer are packets, and what becomes of one for an absent lane, is the model's choice (log entry 40). -/
def Obligations.FabricEvents : Prop :=
  ∀ (s : State) (q : Packet),
    let id := s.arg.a
    let o := s.output q
    Table.get? s.packets id = some q →
    (∀ i, (i = Instr.packetHop ∧ q.stage ≠ .leaving ∨ i = Instr.heldPacketRelease ∧ q.stage = .held) →
      (s.routerOpen q.x q.y = false → exec i s = .next (s.hold id q)) ∧
      (∀ a j, q.body = .leg .wake a → a.flag = true → s.routerOpen q.x q.y = true → (s.part q.sp).jobs.get? a.b = some j →
        let row := j.members.filter (fun p => coordY p / 4 * 4 == q.y && dieAt (coordX p) q.y == dieAt q.x q.y)
        ∃ t, exec i s = .next t ∧
          (q.inPort = 4 → ∀ p ∈ row, coordX p = q.x → ∃ d ∈ t.agenda, d.event = .wake ∧ d.arg = args p a.b) ∧
          ((∀ p ∈ row, coordX p ≤ q.x) → Table.get? t.packets id = none) ∧
          ((∃ p ∈ row, q.x < coordX p) →
            (s.routerOpen (q.x + 1) q.y = true →
              Table.get? t.packets id = some { q with x := q.x + 1, inPort := 4, stage := .moving }) ∧
            (s.routerOpen (q.x + 1) q.y = false →
              Table.get? t.packets id = some { q with inPort := 0, stage := .held }))) ∧
      ((∀ a, q.body = .leg .wake a → a.flag = false) →
      (s.routerOpen q.x q.y = true → s.atFinal q = false →
        (stepTo q.x q.y o = none → exec i s = .next (s.hold id q)) ∧
        ∀ x y, stepTo q.x q.y o = some (x, y) →
          (s.routerOpen x y = false → exec i s = .next (s.hold id q)) ∧
          (s.routerOpen x y = true → unitOf x = unitOf q.x ∨ s.unitPart (unitOf x) = some q.sp →
            ∃ t, exec i s = .next t ∧
              Table.get? t.packets id = some { q with x := x, y := y, inPort := farPort o, stage := .moving }) ∧
          (s.routerOpen x y = true → unitOf x ≠ unitOf q.x → s.unitPart (unitOf x) ≠ some q.sp →
            ∃ t, exec i s = .next t ∧ Table.get? t.packets id = none ∧
              (t.part q.sp).drops = (s.part q.sp).drops + 1 ∧
              ((s.part q.sp).firstDrop = none → (t.part q.sp).firstDrop = some (q.dst, q.srcLcn, q.sp)))) ∧
      (s.routerOpen q.x q.y = true → s.atFinal q = true →
        (∀ lcn p live, q.dst = .lane lcn → s.remapOf lcn = (p, live) →
          (∀ j a, q.body = .leg j a →
            (live = true → s.unitClosed q = false →
              (s.legHeld p j = true ∨ s.keptBack id q = true → exec i s = .next (s.hold id q)) ∧
              (s.legHeld p j = false → s.keptBack id q = false → ∃ t, exec i s = .next t ∧
                Table.get? t.packets id = none ∧ ∃ d ∈ t.agenda, d.event = j ∧ d.arg = { a with a := p })) ∧
            (live = false →
              (j = .pullCompletion → a.w = 1#64 → exec i s = .next ((s.dropPacket id).sendRouter q lcn
                (.lane (s.core a.d).lcn) (.leg j { a with w := 3#64 }))) ∧
              (j = .crystalCurrent → a.flag = true → exec i s = .next ((s.dropPacket id).sendRouter q lcn
                (.lane (s.core a.b).lcn) (.leg j { args a.b with c := 1 }))) ∧
              (j = .preemptionMessage → ∃ t, exec i s = .next t ∧ Table.get? t.packets id = none ∧
                ∃ d ∈ t.agenda, d.event = j ∧ d.arg = { a with flag := true }) ∧
              (j = .resumeRelease ∨ j = .wake → ∃ t, exec i s = .next t ∧ Table.get? t.packets id = none ∧
                ∃ d ∈ t.agenda, d.event = j ∧ d.arg = { a with c := 1 }))) ∧
          ((∀ c k b l e, q.body ≠ .remap c k b l e) → (∀ j a, q.body ≠ .leg j a) → q.body.forBlock = false →
            (live = true → s.unitClosed q = false → q.body.isRake = false → s.logFull p = false →
              (s.laneHeld p = false → s.keptBack id q = false → ∃ t, exec i s = .next t ∧
                Table.get? t.packets id = some { q with stage := .leaving, phys := p }) ∧
              (s.laneHeld p = true ∨ s.keptBack id q = true → exec i s = .next (s.hold id q))) ∧
            ∀ h from_ e b, q.body = .message h from_ e b → live = false → from_ ≠ lcn → from_ < coreCount →
              exec i s = .next ((s.dropPacket id).sendRouter q lcn (.lane from_) (.nack e true)))) ∧
        ∀ n, q.dst = .slice n → ∃ t, exec i s = .next t ∧
          Table.get? t.packets id = some { q with stage := .leaving, phys := 0 } ∧
          ∃ d ∈ t.agenda, d.event = (s.sliceEvent q.body).1 ∧ d.arg = args id))) ∧
    (q.stage = .leaving → ∀ r, q.body = .request r →
      (∀ n cap keep, r.kind = .read n cap keep → exec .packetHop s = .next ((s.dropPacket id).inject
        (newPacket true q.srcLcn q.sp q.x q.y (.lane r.lcn) 1 (.reply r.who (.ok (s.host.readN r.va n) false))) 0)) ∧
      ∀ b tag, r.kind = .write b tag → s.host.wf = true → ∃ t, exec .packetHop s = .next t ∧
        t.host.readN r.va b.length = b ∧
        ∀ a, a < r.va ∨ r.va + b.length ≤ a → t.host.read a = s.host.read a)

/-- R212, R219, R335, R364, R371, R381 to R387: crystals and containment. A crystal becomes current and its log begins at the
mark; a core takes one by itself with its last descriptor; an uncorrectable error or a retirement contains the core, whose lane
the reserve takes, or whose block is short; a restored substitute runs; entries of the log stand in the buddy's reserve. The
byte layout of the records (log entry 43), the cases that R382 leaves open (log entries 42 and 44), that a crystal which breaks the
rules of its fields counts as none (log entry 90), what becomes of crystal bytes that an absent lane refuses (log entry 40), that
a lane contained in its save stays saved until the resume (log entry 107), the numbers of slots that a crystal does not hold (log
entry 113), when a crystal that had to wait is taken (log entry 114), and the record of a hidden retirement without a reserve (log
entry 127), are the model's choices. -/
def Obligations.CrystalEvents : Prop :=
  ∀ s : State,
    let p := s.arg.a
    let c := s.core p
    let k := c.lcn % 8
    let blk := blockOf p
    let b := s.block blk
    (s.arg.flag = true → exec .crystalCurrent s = .next
      ((s.landCrystal p s.arg.b).sendFrom p false (.lane (s.core s.arg.b).lcn) 1 (.leg .crystalCurrent (args s.arg.b)) 0)) ∧
    (s.arg.flag = false → s.arg.c = 1 → ∃ t, exec .crystalCurrent s = .next t ∧
      (t.core p).crystal = { c.crystal with writing := none, slot := none, image := [] } ∧
      ∀ j < 8, s.occupied p j = true → (s.strand p j).wait = .ckpt → (t.strand p j).wait = .ready) ∧
    (∀ buf, s.arg.flag = false → s.arg.c ≠ 1 → c.crystal.writing = some buf → ∃ t, exec .crystalCurrent s = .next t ∧
      (t.core p).crystal.current = some buf ∧ (t.core p).crystal.writing = none ∧
      (t.core p).crystal.rows = c.crystal.rows.filter (fun r => decide (c.crystal.mark ≤ r.number)) ∧
      ∀ j < 8, s.occupied p j = true → (s.strand p j).wait = .ckpt → (t.strand p j).wait = .ready) ∧
    (∀ a d, c.crystal.desc = some a → crystalDesc (c.sp.readN a 64) = some d → s.crystalOn p = true → c.run = .run →
      (c.crystal.current.isSome = true ∨ s.arg.flag = true) → c.crystalBytes d ≤ 28672 → c.crystal.replay = [] →
      c.crystal.writing = none → ∀ b, s.buddyOf p = some b →
      ∃ t, exec .selfCrystal s = .next t ∧ (t.core p).crystal = { c.crystal with
        writing := some (if c.crystal.current = some 0 then 1 else 0), bytes := c.crystalBytes d, slot := none
        desc := some a, due := false, mark := c.crystal.next, taking := c.cseq
        image := if s.clockHeld b then c.crystalOf (c.sp.readN a 64) d else [] }) ∧
    (c.crystal.desc.isSome = true → s.crystalOn p = true → (c.crystal.current.isSome = true ∨ s.arg.flag = true) →
      (s.buddyOf p).isSome = true →
      (c.run = .saving ∨ c.run = .restoring ∨ c.crystal.writing ≠ none ∨ c.crystal.replay ≠ []) →
      ∃ t, exec .selfCrystal s = .next t ∧ (t.core p).crystal = { c.crystal with due := true }) ∧
    (c.crystal.desc = none ∨ s.crystalOn p = false ∨ s.buddyOf p = none → exec .selfCrystal s = .next s) ∧
    (∀ i ∈ [Instr.uncorrectableSoftError, .coreRetirement],
      (c.run = .contained ∨ c.run = .doubleTrap → exec i s = .next s) ∧
      (c.run ≠ .contained → c.run ≠ .doubleTrap → ∃ t, exec i s = .next t ∧ (t.core p).run = .contained ∧
        (b.rlane = p % 8 → (t.block blk).rav = false) ∧
        (s.remapOf (8 * blk + k) = (p, true) → b.rav = false ∨ b.rlane = p % 8 →
          (t.block blk).short = true ∧ (t.block blk).live = b.live - 1 ∧ (t.remapOf (8 * blk + k)).2 = false) ∧
        (s.remapOf (8 * blk + k) = (p, true) → b.rav = true → b.rlane ≠ p % 8 →
          let q := 8 * blk + b.rlane
          let reloads : Prop := s.crystalOn p = true ∧ c.crystal.current ≠ none
          (t.block blk).rav = false ∧ (t.block blk).remap.getD k 0#4 = BitVec.ofNat 4 (b.rlane + 8) ∧
            (t.core q).lcn = 8 * blk + k ∧ (t.core q).cseq = c.cseq ∧ (c.run = .saving → (t.core q).run = .saving) ∧
            (reloads → c.run ≠ .saving → (t.core q).run = .restoring) ∧
            (¬reloads → (t.core q).slots = [] ∧ (t.core q).ends = []) ∧
            (¬reloads → c.run ≠ .saving → (t.core q).run = .run)))) ∧
    (exec .softErrorCorrected s = .next { s with sup := { s.sup with corrected := s.sup.corrected + 1 } }) ∧
    (c.run ≠ .restoring → exec .substitutionRestoreDone s = .next s) ∧
    (∀ old hidden buf d, c.run = .restoring → c.replaces = some (old, hidden) → c.crystal.current = some buf →
      s.buddyOf p = some d →
      ((s.core d).crystalSound buf = true → ∃ t, exec .substitutionRestoreDone s = .next t ∧ (t.core p).run = .run ∧
        (t.core p).replaces = none ∧ (t.core p).grank = (s.core d).crystalWord buf 1 ∧
        ∀ j < 8, ((s.core d).crystalWord buf 10).testBit j = true → t.occupied p j = true) ∧
      ((s.core d).crystalSound buf = false → exec .substitutionRestoreDone s = .next (s.startEmpty p))) ∧
    (c.run = .restoring → c.crystal.current = none → ∃ t, exec .substitutionRestoreDone s = .next t ∧
      (t.core p).run = .run ∧ (t.core p).slots = [] ∧ (t.core p).ends = []) ∧
    (∀ d, s.buddyOf p = some d → (s.core d).sp.wf = true →
      let o := s.arg
      let a := logAddr o.b
      (o.d = 2 → exec .logWrite s = .next (s.modCore d (fun x =>
        x.noted o.w.toNat o.b [o.w1.toNat] (BitVec.ofNat 8 o.c)))) ∧
      (o.d ≠ 2 → ∃ t, exec .logWrite s = .next t ∧ (o.d = 1 → t.Holds d a (natBytes 8 o.c)) ∧
        (o.d ≠ 1 → t.Holds d a (natBytes 8 o.c ++ natBytes 8 0) ∧ t.Holds d (a + 32) (vecBytes o.x) ∧
          t.Holds d (a + 16) (natBytes 8 o.w.toNat ++ natBytes 8 (if o.flag then o.w1.toNat else 0)) ∧
          NatSet.has (t.core d).spTags (a / 16 + 1) = o.flag) ∧
        s.SameOutside t d a 128))

/-- R271, R374 to R379: the commands of a job. A running job is saved member by member, its images stand, and it leaves its
rectangle; a pre-empted one takes its rectangle again and its members read their images; abort ends a job; a save area is
registered for a recall; any other command is refused. The model's choices: OP 4 for a job in any state (log entry 64), the
image of a member that is contained (log entry 45), an image that breaks the rules of its fields (log entry 90), the lane that a
resume restores from its crystal (log entry 107), and the member whose lane is absent, which refuses the order of a pre-emption and
the release of a resume, and the order that waits at a restoring core (log entry 40). -/
def Obligations.CommandEvents : Prop :=
  ∀ s : State,
    let noticed (t : State) (sp : Nat) (r : BitVec 512) (status : Nat) : Prop :=
      jobNoteV r = true → ∃ e ∈ (t.part sp).notices, e.2.word = BitVec.ofNat 64 (jobIdOf r + status * 2 ^ 32)
    let ordered (t : State) (p : Nat) (i : Instr) (o : Operands) : Prop :=
      ∃ e ∈ t.packets, e.2.body = .leg i o ∧ e.2.dst = .lane (s.core p).lcn
    (∀ sp lcn h r,
      let x := s.part sp
      let u := s.dropPacket s.arg.a
      let refused (i : Instr) := exec i s = .next (u.refuseCommand sp lcn h r)
      s.command s.arg.a = some (sp, lcn, h, r) → s.arg.flag = false →
      (x.jobs.get? (cmdJob r) = none →
        ∀ i ∈ [Instr.preempt, .resume, .abort, .registerRecallSaveArea], refused i) ∧
      (∀ j, x.jobs.get? (cmdJob r) = some j → j.id = cmdJob r →
        let area := s.saveAreaAt sp (cmdSave r) (saveSize j.record)
        (j.state = .running → cmdOp r = 1 → cmdReserved r = false → area = true →
          ∃ t, exec .preempt s = .next t ∧ (t.part sp).jobs.get? j.id = some { j with
            state := .saving, left := j.members, save := cmdSave r, command := some (lcn, h), recalled := false } ∧
            ∀ p ∈ j.members, ordered t p .preemptionMessage (args p j.id)) ∧
        (j.state ≠ .running ∨ cmdOp r ≠ 1 ∨ cmdReserved r = true ∨ area = false → refused .preempt) ∧
        (j.state = .preempted → j.command = none → cmdOp r = 2 → cmdReserved r = false → area = true →
          let ms := s.memberCores sp j.ox j.oy (jobBw j.record) (jobBh j.record)
          let j' := { j with save := cmdSave r, command := some (lcn, h) }
          ∃ t, exec .resume s = .next t ∧
            (((s.modJobRec sp j.id (fun _ => j')).part sp).canResume j' = false →
              (t.part sp).jobs.get? j.id = some j') ∧
            (((s.modJobRec sp j.id (fun _ => j')).part sp).canResume j' = true →
              (t.part sp).jobs.get? j.id = some { j' with state := .restoring, members := ms, left := ms })) ∧
        (j.state ≠ .preempted ∨ j.command ≠ none ∨ cmdOp r ≠ 2 ∨ cmdReserved r = true ∨ area = false →
          refused .resume) ∧
        (j.state = .running → cmdOp r = 3 → cmdReserved r = false → ∃ t : State,
          exec .abort s = .next (t.headAck sp lcn h) ∧ (t.part sp).jobs.get? j.id = none ∧ noticed t sp j.record 6 ∧
          ∀ p ∈ j.members, (t.core p).ends = [] ∧ (t.core p).job = 0 ∧
            ((s.core p).run ≠ .doubleTrap ∨ (s.core p).frozenBy j.id = true → (t.core p).slots = [])) ∧
        (j.state = .preempted → cmdOp r = 3 → cmdReserved r = false → ∃ t : State,
          exec .abort s = .next (t.headAck sp lcn h) ∧ (t.part sp).jobs.get? j.id = none ∧ noticed t sp j.record 6 ∧
          ∀ p ∈ s.memberCores sp j.ox j.oy (jobBw j.record) (jobBh j.record),
            (s.core p).frozenBy j.id = true → (t.core p).slots = []) ∧
        ((j.state ≠ .running ∧ j.state ≠ .preempted) ∨ cmdOp r ≠ 3 ∨ cmdReserved r = true → refused .abort) ∧
        (cmdOp r = 4 → cmdReserved r = false → area = true → ∃ t : State,
          exec .registerRecallSaveArea s = .next (t.headAck sp lcn h) ∧
          (t.part sp).jobs.get? j.id = some { j with recallArea := cmdSave r }) ∧
        (cmdOp r ≠ 4 ∨ cmdReserved r = true ∨ area = false → refused .registerRecallSaveArea))) ∧
    (∀ j, s.arg.flag = true → (s.part s.arg.a).jobs.get? s.arg.b = some j → j.id = s.arg.b →
      let free := (s.part s.arg.a).canResume j
      let ms := s.memberCores s.arg.a j.ox j.oy (jobBw j.record) (jobBh j.record)
      (j.state ≠ .preempted ∨ j.command = none ∨ free = false → exec .resume s = .next s) ∧
      (j.state = .preempted → j.command ≠ none → free = true → ∃ t, exec .resume s = .next t ∧
        (t.part s.arg.a).jobs.get? j.id = some { j with state := .restoring, members := ms, left := ms })) ∧
    (∀ sp j,
      let p := s.arg.a
      let id := s.arg.b
      let l := s.laneOf p
      let c := s.core p
      let b := s.block (blockOf p)
      let again : Prop := exec .preemptionMessage s = .next (s.postCore p 1 .preemptionMessage (args p id))
      let reported : Job := { j with left := j.left.filter (· != p) }
      s.jobOf p id = some (sp, j) →
      (j.state ≠ .saving ∨ j.left.contains p = false → exec .preemptionMessage s = .next s) ∧
      (j.state = .saving → j.left.contains p = true → s.arg.flag = true → ∃ t, exec .preemptionMessage s = .next t ∧
        (t.core p).invalid = true ∧ (t.part sp).jobs.get? id = some reported) ∧
      (j.state = .saving → j.left.contains p = true → s.arg.flag = false →
        (c.run = .restoring → again) ∧
        (c.run = .contained ∨ c.run = .doubleTrap → ∃ t, exec .preemptionMessage s = .next t ∧
          (t.core p).invalid = true ∧ (t.part sp).jobs.get? id = some reported) ∧
        (c.run = .run ∨ c.run = .saving →
          (c.crystal.writing ≠ none → again) ∧
          (c.crystal.writing = none → (b.mxeLane l).out = none → b.mxe.laneJobs l = [] →
            ∃ t, exec .preemptionMessage s = .next t ∧ (t.core p).run = .saving ∧
              (s.quiet p = true → (t.part sp).jobs.get? id = some reported) ∧
              (s.quiet p = false → (t.part sp).jobs.get? id = some j))))) ∧
    (∀ j,
      let sp := s.arg.a
      let id := s.arg.b
      (s.part sp).jobs.get? id = some j →
      (j.state ≠ .saving ∨ j.left ≠ [] → exec .preemptSaveComplete s = .next s) ∧
      (j.state = .saving → j.left = [] → ∃ t, exec .preemptSaveComplete s = .next t ∧
        (t.part sp).jobs.get? id = some { j with
          state := .preempted, command := none, sent := j.members.flatMap (fun p => (s.core p).sentOut)
          kept := j.members.filterMap (fun p => (s.core p).keptLane), held := s.packetsKept j.members } ∧
        t.hbm = (j.members.foldl (fun v p => (v.meterStop p).writeImage sp p (v.imageAddr sp j p)) s).hbm ∧
        noticed t sp j.record 7 ∧
        ∀ p ∈ j.members, (t.core p).job = 0 ∧ (t.core p).dirty = 0#64 ∧
          (t.core p).cleanref = BitVec.ofNat 64 (s.imageAddr sp j p) ∧ (t.core p).bmem &&& jobWmask j.record = 0#16 ∧
          ((s.core p).run ≠ .doubleTrap → (t.core p).slots = [] ∧ (t.core p).ends = []) ∧
          ((s.core p).run = .doubleTrap → (t.core p).slots = (s.core p).slots)) ∧
      (s.arg.flag = false → j.state ≠ .restoring → exec .resumeRelease s = .next s) ∧
      (s.arg.flag = false → j.state = .restoring → ∃ t, exec .resumeRelease s = .next t ∧
        (t.part sp).jobs.get? id = some { j with state := .running, command := none, recalled := false } ∧
        noticed t sp j.record 8 ∧
        (∀ p ∈ j.members, ordered t p .resumeRelease { args p id with flag := true }) ∧
        ∀ p ∈ j.members, (s.core p).run = .restoring → headerSound (s.imageWord sp (s.imageAddr sp j p)) = true →
          (t.core p).bmem = BitVec.ofNat 16 (s.imageWord sp (s.imageAddr sp j p) 8))) ∧
    (∀ sp j,
      let p := s.arg.a
      s.jobOf p s.arg.b = some (sp, j) → s.arg.flag = true →
      (s.arg.c = 1 → exec .resumeRelease s = .next (s.memberAbsent p s.arg.b)) ∧ (s.arg.c ≠ 1 →
      let va := s.imageAddr sp j p
      let kept := j.kept.find? (fun e => e.lcn == (s.core p).lcn)
      ((s.core p).run ≠ .restoring → exec .resumeRelease s = .next s) ∧
      (∀ e, (s.core p).run = .restoring → kept = some e →
        let waits := ∃ b, s.buddyOf p = some b ∧ (s.core b).run = .restoring ∧ (s.core b).job = j.id
        (waits → exec .resumeRelease s = .next (s.postCore p 1 .resumeRelease { args p j.id with flag := true })) ∧
        (¬waits → ∃ t, exec .resumeRelease s = .next t ∧ (t.core p).run = .restoring ∧ (t.core p).slots = [] ∧
          (t.core p).ends = [] ∧ (t.core p).crystal = e.crystal ∧ (t.core p).replaces = some (e.old, e.hidden))) ∧
      ((s.core p).run = .restoring → kept = none → ∃ t, exec .resumeRelease s = .next t ∧ (t.core p).run = .run ∧
        (s.imageSound sp va = false → (t.core p).slots = [] ∧ (t.core p).ends = []) ∧
        (s.imageSound sp va = true → (t.core p).cleanref = BitVec.ofNat 64 va ∧ (t.core p).dirty = 0#64 ∧
          (t.core p).grank = s.imageWord sp va 1 ∧ (t.core p).bmem = BitVec.ofNat 16 (s.imageWord sp va 8) ∧
          (t.core p).fe = feOf (s.panRead sp (va + 0x100) 2048) ∧
          ∀ k < 8, (s.imageWord sp va 10).testBit k = true → t.occupied p k = true))))

/-- R348 to R353, R355: the clock tree. When a forwarder fails every core below it holds from that cycle, its die's manager
learns of it, rebuilds the tree with the forwarder out of service, and releases the adopted cores. The times of the report, the
rebuild and the release are free values within their bounds (log entry 11), and what the failed forwarder itself does until the
rebuild is the model's choice (log entry 50). -/
def Obligations.ClockTreeEvents : Prop :=
  ∀ s : State,
    let p := s.arg.a
    let f := s.forwarderOf p
    ((s.core p).tree.state ≠ .run → exec .parentClockStop s = .next s) ∧
    ((s.core p).tree.state = .run → ∃ t, exec .parentClockStop s = .next t ∧
      ∀ q ∈ s.treeBelow 256 [f], (s.core q).tree.state ≠ .off → (t.core q).tree = { (s.core q).tree with
        state := .hold, stoppedAt := if (s.core q).tree.state = .run then s.now else (s.core q).tree.stoppedAt
        heldFor := if (s.core q).tree.state = .run then 0 else (s.core q).tree.heldFor } ∧
        (∃ d ∈ t.agenda, d.event = .lostClockReport ∧ d.arg = args (dieOf f) f s.now ∧ s.now < d.time)) ∧
    (∃ t, exec .lostClockReport s = .next t ∧ (t.dcm s.arg.a).state = 1 ∧
      ∃ d ∈ t.agenda, d.event = .reroot ∧ d.arg = args s.arg.a s.arg.b s.arg.c ∧ s.now < d.time) ∧
    (∃ t, exec .reroot s = .next t ∧ (t.core s.arg.b).tree.state = .off ∧
      (t.block (blockOf s.arg.b)).oos.getLsbD (s.arg.b % 8) = true ∧ (t.dcm s.arg.a).state = 2 ∧
      (∀ q ∈ s.orphansOf s.arg.a s.arg.b, (t.core q).tree.state = .adopt ∨ (t.core q).tree.state = .off) ∧
      (∃ d ∈ t.agenda, d.event = .rerootRelease ∧ d.arg = args s.arg.a ∧ d.time = (t.dcm s.arg.a).release) ∧
      (t.dcm s.arg.a).failX = coordX s.arg.b % 64 ∧ (t.dcm s.arg.a).failY = coordY s.arg.b % 96 ∧
      (t.dcm s.arg.a).failT = s.arg.c ∧ s.now < (t.dcm s.arg.a).release ∧
      (t.dcm s.arg.a).count = min 0xFFFF ((s.dcm s.arg.a).count + 1)) ∧
    (let d := s.dcm s.arg.a
     ∃ t, exec .rerootRelease s = .next t ∧
      (∀ q ∈ d.orphans, (s.core q).tree.state = .adopt → (t.core q).tree.state = .run) ∧
      (t.dcm s.arg.a).orphans = d.orphans.filter (fun q => decide ((s.core q).tree.state ≠ .adopt)) ∧
      (t.dcm s.arg.a).state = if (t.dcm s.arg.a).orphans = [] then 0 else 1)

/-- R301, R307, R308, R356 to R361, R379, R395, R425 to R427: partitions and their clocks. A configuration word is held during
bring-up, refused, or takes effect, the cores of a partition that comes or goes being scrubbed; a reset empties the partition,
and nothing resets one that is not there; units are lent and recalled, and a job in a recalled unit is saved in the area
registered for it or aborted; page-table words reach every copy; a removed pan leaves no entry and no mark; a power mode is
stored, takes effect at its point, and yields to the thermal limit. The model's choices: the reset that ends the boot (log entry
62), refused words and a cleared EN (log entry 63), the recall areas (log entry 64), counts at a mode change (log entry 53), what a
reset discards beyond R360 (log entry 60), and the page table of a slice that changes its partition (log entry 125). -/
def Obligations.PartitionEvents : Prop :=
  ∀ s : State,
    let sp := s.arg.a
    let x := s.part sp
    let w := s.arg.w
    (20 ≤ sp → exec .partitionConfigWrite s = .next s) ∧
    (sp < 20 → s.sup.boot = true → exec .partitionConfigWrite s =
      .next { s with sup := { s.sup with heldWords := s.sup.heldWords ++ [(sp, w)] } }) ∧
    (sp < 20 → s.sup.boot = false →
      (s.configRefused sp w = true → exec .partitionConfigWrite s = .next s) ∧
      (s.configRefused sp w = false → ∃ t, exec .partitionConfigWrite s = .next t ∧
        let y := t.part sp
        y.en = w.getLsbD 0 ∧ y.base = (w.extractLsb' 1 5).toNat ∧ y.home = (w.extractLsb' 6 5).toNat ∧
        y.lent = (if x.en && w.getLsbD 0 then x.lent else 0) ∧
        y.evLcn = (w.extractLsb' 17 19).toNat ∧ y.evEnd = (w.extractLsb' 36 6).toNat ∧ y.evv = w.getLsbD 42 ∧
        ((x.en = true ∧ w.getLsbD 0 = false) ∨ (w.getLsbD 0 = true ∧ w.getLsbD 16 = true) → y.jobs = [] ∧ y.queues = []) ∧
        (x.en ≠ w.getLsbD 0 → ∀ p, unitOf (coordX p) ∈ (if x.en then x.units else y.units) →
          (t.core p).slots = [] ∧ (t.core p).ends = []))) ∧
    (s.sup.boot = false → x.en = true → ∃ t, exec .partitionReset s = .next t ∧ (t.part sp).jobs = [] ∧
      (t.part sp).queues = [] ∧ (t.part sp).rake = RakeHead.reset ∧ (∀ e ∈ t.packets, e.2.sp ≠ sp) ∧
      (∀ n, x.base ≤ unitOf (sliceX n) → unitOf (sliceX n) < x.base + x.home → (t.slice n).pans = []) ∧
      ∀ p, unitOf (coordX p) ∈ x.units → (t.core p).slots = [] ∧ (t.core p).ends = [] ∧ (t.core p).bmem = 0#16) ∧
    (s.sup.boot = false → x.en = false → exec .partitionReset s = .next s) ∧
    (s.sup.boot = true → sp ≠ 0 ∨ s.sup.stepDone ≠ 6 → exec .partitionReset s = .next s) ∧
    (s.sup.boot = true → sp = 0 → s.sup.stepDone = 6 → ∃ t, exec .partitionReset s = .next t ∧ t.sup.boot = false ∧
      t.sup.stepDone = 7 ∧ t.sup.heldWords = []) ∧
    (∀ u, s.sup.boot = false → s.lendable sp = some u →
      (s.arg.flag = false → ∃ t, exec .unitLend s = .next t ∧ t.part sp = x ∧
        ∀ p, unitOf (coordX p) = u → (t.core p).slots = []) ∧
      (s.arg.flag = true → ∃ t, exec .unitLend s = .next t ∧ t.part sp = { x with lent := x.lent + 1 } ∧
        ∀ e ∈ t.routesC ++ t.routesM, unitOf (e.1 % 768) ≠ u)) ∧
    (s.sup.boot = true ∨ s.lendable sp = none → exec .unitLend s = .next s) ∧
    (s.arg.flag = false → s.sup.boot = true ∨ x.en = false ∨ x.lent = 0 ∨ x.recalling ≠ 0 → exec .unitRecall s = .next s) ∧
    (s.arg.flag = true → x.recalling = 0 → exec .unitRecall s = .next s) ∧
    (∀ i j, s.sup.boot = false → s.arg.flag = false → x.en = true → x.lent ≠ 0 → x.recalling = 0 →
      x.jobs.filter (fun e => x.touches e.2 && decide (e.2.state = .running)) = [(i, j)] → x.jobs.get? i = some j →
      j.id = i → ∃ t, exec .unitRecall s = .next t ∧ (t.part sp).jobs.get? i =
        if j.recallArea ≠ 0 ∧ s.saveAreaAt sp j.recallArea (saveSize j.record) = true then some { j with
          state := .saving, left := j.members, save := j.recallArea, command := none, recalled := true }
        else none) ∧
    (s.sup.boot = false → s.arg.flag = false → x.en = true → x.lent ≠ 0 → x.recalling = 0 → x.jobs = [] →
      s.packets = [] → ∃ t, exec .unitRecall s = .next t ∧ t.part sp = { x with lent := x.lent - 1 } ∧
        ∀ p, unitOf (coordX p) = x.base + x.home + x.lent - 1 → (t.core p).slots = []) ∧
    (∃ t, exec .pageTableWrite s = .next t ∧
      (s.arg.b = 1 → (t.part sp).pt1.getD (s.arg.c % 2 ^ 18) 0#64 = w) ∧
      (s.arg.b ≠ 1 → (t.part sp).pt2.getD s.arg.c 0#64 = w) ∧ ∀ n ∈ x.slices, (t.slice n).tlb = []) ∧
    (∃ t, exec .panEntryRemoval s = .next t ∧ ∀ n ∈ s.sliceSet sp s.arg.b, (∀ e ∈ (t.slice n).pans,
      e.2.basep ≠ s.arg.b % 2 ^ 48 / 2 ^ 21) ∧ ∀ m ∈ (t.slice n).marks, m.1 ≠ s.arg.b % 2 ^ 48 / 2 ^ 21) ∧
    (if w.extractLsb' 0 2 = 3#2 then exec .ppwrWrite s = .next s
     else ∃ t, exec .ppwrWrite s = .next t ∧
       t.part sp = { x with wanted := (w.extractLsb' 0 2).toNat, pend := true } ∧
       (x.cap = false → ∃ d ∈ t.agenda, d.event = .modeChange ∧ d.time = s.nextModePoint ∧ d.arg = args sp)) ∧
    (let mode := if x.cap then 2 else x.wanted
     ∃ t, exec .modeChange s = .next t ∧ (t.part sp).mode = mode ∧ (mode ≠ x.mode → (t.part sp).m = s.now ∧ t.count (some sp) = s.now) ∧
      (x.cap = false → (t.part sp).pend = false)) ∧
    (s.sup.thermal = false → ∃ t, exec .thermalLimit s = .next t ∧ t.sup.thermal = true ∧
      ∀ i < 20, (t.part i).cap = true) ∧
    (s.sup.thermal = true → ∃ t, exec .thermalClear s = .next t ∧ t.sup.thermal = false ∧
      ∀ i < 20, (t.part i).cap = false)

/-- R13, R16, R354, R397, R398, R411, R424, R425, R428 to R435: the supervisor. Module reset does steps 1 to 3 of the bring-up
or stops at an image that fails, after which no register is written, and records the images that each part runs and the live
cores; steps 4 to 6 follow, failed channels being marked; the boot partition's strands start as R425 says; quotes and readouts
are signed once the identity key is there, unless the alarm holds; an image is accepted as R429 says; minimums only rise; a
switch ends within its bound; an alarm zeroises the keys, resets the partitions, closes the sluices and ends every service. The
model's choices: what a module reset keeps and when its steps end (log entry 62), how an image comes with its key (log entry
66), the switch of an image (log entry 109), and the numbers of the mailbox registers (log entry 67). The key pairs, BOOTID and
the durations are free values. -/
def Obligations.SupervisorEvents : Prop :=
  ∀ s : State,
    let o := s.arg
    let u := s.sup
    let no (i : Instr) := ∃ t, exec i s = .next t ∧ t.sup.refused = true
    (o.flag = false → ∃ t, exec .moduleReset s = .next t ∧ t.now = 0 ∧ t.cores = [] ∧ t.slices = [] ∧ t.packets = [] ∧
      t.hbm = s.hbm ∧ t.sup.boot = true ∧ t.sup.alarm = u.alarm ∧ t.sup.minimum = u.minimum ∧ t.sup.key = u.key ∧
      t.sup.rootDigest = u.rootDigest ∧ t.sup.switching = [] ∧
      (u.badImage = none → t.sup.stepDone = 3 ∧ t.sup.failedImage = none ∧ t.sup.running = u.loadImages ∧
        t.sup.liveCores = liveCoresOf s.fuses ∧
        ∃ d, t.agenda = [d] ∧ d.event = .moduleReset ∧ d.arg = { args 0 with flag := true } ∧ 0 < d.time) ∧
      ∀ i, u.badImage = some i → t.sup.stepDone = 0 ∧ t.sup.failedImage = some i ∧ t.agenda = []) ∧
    (o.flag = true →
      (u.boot = false ∨ u.stepDone < 3 ∨ 6 ≤ u.stepDone → exec .moduleReset s = .next s) ∧
      (u.boot = true → u.stepDone = 3 ∨ u.stepDone = 4 →
        (s.bootBusy = true → ∃ t, exec .moduleReset s = .next t ∧ t.sup = u ∧
          ∃ d ∈ t.agenda, d.event = .moduleReset ∧ d.arg = { args 0 with flag := true } ∧ s.now < d.time) ∧
        (s.bootBusy = false → ∃ t, exec .moduleReset s = .next t ∧ t.sup.stepDone = u.stepDone + 1 ∧
          (∀ n < 1536, (t.slice n).failed = ((s.slice n).failed || (u.stepDone == 3 && (s.slice n).unusable n))) ∧
          ∃ d ∈ t.agenda, d.event = .moduleReset ∧ d.arg = { args 0 with flag := true } ∧ s.now < d.time)) ∧
      (u.boot = true → u.stepDone = 5 → ∃ t, exec .moduleReset s = .next t ∧ t.sup.stepDone = 6 ∧
        (u.alarm = false → t.sup.key.isSome = true) ∧
        (u.alarm = false → u.key = none → ∀ k, t.sup.key = some k → ∀ m, verifies k.modulus m (k.sign m) = true) ∧ (u.key.isSome = true ∨ u.alarm = true → t.sup.key = u.key))) ∧
    (u.boot = true → u.failedImage = none → 3 ≤ u.stepDone → o.a < coreCount → o.b < 8 → s.occupied o.a o.b = false →
      ∃ t, exec .bootStrandStart s = .next t ∧ t.occupied o.a o.b = true ∧ (t.strand o.a o.b).pc = o.w &&& ~~~1#64 ∧
        (t.strand o.a o.b).mode = 3 ∧ (t.strand o.a o.b).codeLo = o.c ∧
        (t.strand o.a o.b).codeHi = o.c + o.d * 2 ^ 21 ∧
        (t.strand o.a o.b).reg 2#5 = { tag := o.flag, val := o.w1, mt := if o.flag then o.x.setWidth 64 else 0#64 } ∧
        (t.strand o.a o.b).readyAt = s.countCore o.a + 1) ∧
    (u.boot = false ∨ u.failedImage ≠ none ∨ u.stepDone < 3 ∨ coreCount ≤ o.a ∨ 8 ≤ o.b ∨ s.occupied o.a o.b = true →
      exec .bootStrandStart s = .next s) ∧
    (∀ k, u.key = some k → u.alarm = false → 6 ≤ u.stepDone →
      (∃ t, exec .quote s = .next t ∧ t.sup.refused = false ∧ t.sup.answer = some (signed k (u.quoteBytes o.x))) ∧
      ∃ t b, exec .meterReadout s = .next t ∧ t.sup.readouts = u.readouts + 1 ∧ t.sup.answer = some (signed k b) ∧
        b.take 8 = natBytes 8 u.bootId.toNat ∧ (b.drop 8).take 8 = natBytes 8 s.now ∧
        (b.drop 16).take 8 = natBytes 8 (u.readouts + 1)) ∧
    (u.key = none ∨ u.alarm = true ∨ u.stepDone < 6 → no .quote ∧ no .meterReadout) ∧
    (∀ i, u.rejects i = false → sha512 (rootKeyBytes i.key) = natBytes 64 u.rootDigest.toNat ∧
      verifies i.key (i.bytes.take 80) i.sig = true ∧ i.body.length = i.length ∧ sha512 i.body = i.digest ∧
      1 ≤ i.target ∧ i.target ≤ 4 ∧ u.minimum.getD i.target 0 ≤ i.version) ∧
    (∀ i, u.verified o.b = some i → i.target = o.a → ∃ t, exec .raiseFusedMinimum s = .next t ∧
      t.sup.minimum.getD o.a 0 = max (u.minimum.getD o.a 0) i.version) ∧
    (∀ i, u.verified o.b = some i → i.target ≠ o.a → no .raiseFusedMinimum) ∧
    (u.verified o.b = none → no .raiseFusedMinimum) ∧
    (∀ i, u.offered o = some i → u.rejects i = false) ∧
    (∀ i, u.offered o = some i → o.flag = false →
      let part := o.b % 2 ^ 16
      let fits : Prop := i.target = o.b / 2 ^ 16 ∧ part < targetParts i.target ∧
        (i.target = 3 → (s.slice part).tctl.getLsbD 0 = true)
      (fits → ∃ t w, exec .firmwareImageSwitch s = .next t ∧ t.sup.refused = false ∧ t.sup.running = u.running ∧
        Table.get? t.sup.images o.a = some i ∧ t.sup.switching = u.switching ++ [w] ∧ w.part = o.b ∧ w.image = o.a ∧
        ∃ d ∈ t.agenda, d.event = .firmwareImageSwitch ∧ d.arg = { args w.id with flag := true } ∧ s.now < d.time ∧
          (i.target = 1 → d.time ≤ s.now + 1500000) ∧ (i.target = 2 → d.time ≤ s.now + 3000000)) ∧
      (¬fits → no .firmwareImageSwitch)) ∧
    (u.offered o = none → o.flag = false → no .firmwareImageSwitch) ∧
    (o.flag = true →
      (u.switching.find? (fun w => w.id == o.a) = none → exec .firmwareImageSwitch s = .next s) ∧
      ∀ w, u.switching.find? (fun w => w.id == o.a) = some w → ∃ t, exec .firmwareImageSwitch s = .next t ∧
        t.sup.running = u.running.set w.part w.image ∧ t.sup.switching = u.switching.filter (fun x => x.id != w.id)) ∧
    (∀ i, u.offered o = some i → (i.target ≠ 1 ∨ u.alarm = false → no .alarmExit) ∧
      (i.target = 1 → u.alarm = true → ∃ t, exec .alarmExit s = .next t ∧ t.sup.alarm = false ∧
        t.sup.key.isSome = true ∧ (∀ k, t.sup.key = some k → ∀ m, verifies k.modulus m (k.sign m) = true) ∧ t.sup.alarms = (u.alarms + 1) % 2 ^ 16)) ∧
    (u.offered o = none → no .alarmExit) ∧
    (∃ t, exec .tamperAlarm s = .next t ∧ t.sup.key = none ∧ t.sup.alarm = true ∧
      (u.alarm = false → (∀ i < 20, s.partActive i = true → (t.part i).jobs = [] ∧ (t.part i).queues = []) ∧
        (∀ k < 72, ((s.port k).state = 2 → (t.port k).state = 3) ∧ ((s.port k).state = 1 → (t.port k).state = 0)) ∧
        t.sup.switching = [] ∧ ∀ n, (t.slice n).tctl.getLsbD 0 = false)) ∧
    (s.dead = true → exec .registerWrite s = .next s) ∧
    (o.a = 0 → s.dead = false → ∃ t, exec .registerWrite s = .next t ∧ t.sup.gm = o.w.getLsbD 2 ∧
      t.sup.sport = (o.w.extractLsb' 3 7).toNat ∧ t.sup.domain = o.w.extractLsb' 42 8) ∧
    (o.a = 1 → s.dead = false → ∃ t, exec .registerWrite s = .next t ∧ (t.part o.b).hostFn.pdlcn = (o.w.extractLsb' 0 19).toNat ∧
      (t.part o.b).hostFn.pdend = (o.w.extractLsb' 19 6).toNat) ∧
    (o.a = 2 → s.dead = false → ∃ t, exec .registerWrite s = .next t ∧ (t.part o.b).crystalMode = o.w.getLsbD 0) ∧
    (o.a = 3 → s.dead = false → ∃ t, exec .registerWrite s = .next t ∧ t.sup.epoch = u.epoch.extractLsb' 64 32 ++ o.w) ∧
    (o.a = 4 → s.dead = false → ∃ t, exec .registerWrite s = .next t ∧ t.sup.epoch =
      o.w.extractLsb' 0 32 ++ u.epoch.extractLsb' 0 64)

/-- R397 to R399: the boundary clock. A Sync of the panel's domain from the source is stamped, its Follow_Up gives the offset
that the discipline takes, and any other message changes nothing; a Delay_Req of the domain is answered with its arrival; a
Delay_Resp gives the mean path delay; a locked clock without a Sync holds over at its rate. The model's choices: the offset
before a path delay is measured and the free rate (log entry 58), and stamps in thirds of a nanosecond, so that four path delays
are the sum of the stamps (log entry 89). -/
def Obligations.PtpEvents : Prop :=
  ∀ s : State,
    let o := s.arg
    let u := s.sup
    (u.takes o.a o.d = true → ∃ t, exec .ptpSync s = .next t ∧ t.sup.ptpSeq = o.b ∧
      t.sup.ptpT2 = some (u.ptpTime s.now) ∧ t.sup.lastSync = s.now ∧
      ∃ d ∈ t.agenda, d.event = .syncTimeout ∧ d.time = s.now + 2 ^ 24) ∧
    (u.takes o.a o.d = false → ∀ i ∈ [Instr.ptpSync, .ptpFollowUp, .ptpDelayResp], exec i s = .next s) ∧
    (u.ptpSeq ≠ o.b → ∀ i ∈ [Instr.ptpFollowUp, .ptpDelayResp], exec i s = .next s) ∧
    (∀ t2, u.ptpT2 = some t2 → u.takes o.a o.d = true → u.ptpSeq = o.b →
      let off := s.offsetOf o.c t2
      ∃ t, exec .ptpFollowUp s = .next t ∧ t.sup.offs = BitVec.ofInt 16 (clampInt (-32768) 32767 off) ∧
        (-32 ≤ off → off ≤ 32 → t.sup.good = min 16 (u.good + 1)) ∧ (off < -32 ∨ 32 < off → t.sup.good = 0) ∧
        (u.ptState = 3 → t.sup.good ≠ 16 → t.sup.rate = u.rate) ∧
        (u.ptState ≠ 3 ∨ t.sup.good = 16 → -25000 ≤ t.sup.rate.toInt ∧ t.sup.rate.toInt ≤ 25000) ∧
        t.sup.ptState = (if t.sup.good = 16 then 2 else if u.ptState = 0 then 1 else u.ptState) ∧
        t.now = (if u.ptState = 0 ∧ off < 0 ∧ s.noPartition = true then s.now + ((-off) / 16).toNat else s.now)) ∧
    (o.d = u.domain.toNat → exec .ptpDelayReq s = .next (s.queueControl o.a (.ptp o.d 3 o.b (u.ptpTime s.now)))) ∧
    (o.d ≠ u.domain.toNat → exec .ptpDelayReq s = .next s) ∧
    (∀ t1 t2 t3, u.ptpT1 = some t1 → u.ptpT2 = some t2 → u.ptpT3 = some t3 → u.takes o.a o.d = true → u.ptpSeq = o.b →
      ∃ t, exec .ptpDelayResp s = .next t ∧
        t.sup.ptpMean = some (4 * (((t2 : Int) - t1) + ((o.c : Int) - t3)))) ∧
    (u.ptState = 2 → u.lastSync + 2 ^ 24 ≤ s.now → ∃ t, exec .syncTimeout s = .next t ∧ t.sup.ptState = 3 ∧
      t.sup.rate = u.rate) ∧
    (u.ptState ≠ 2 ∨ s.now < u.lastSync + 2 ^ 24 → exec .syncTimeout s = .next s) ∧
    (o.b ≠ 0 → exec .ptpTimerDue s = .next (s.queueControl o.a (.ptp u.domain.toNat 2 u.ptpSeq 0))) ∧
    (o.b = 0 → u.gm = false → exec .ptpTimerDue s = .next (s.queueControl o.a (.ptp u.domain.toNat 0 u.ptpSeq 0))) ∧
    (o.b = 0 → u.gm = true → ∃ t, exec .ptpTimerDue s = .next t ∧ t.sup.ptpSeq = (u.ptpSeq + 1) % 2 ^ 16 ∧
      (t.port o.a).control =
        (s.port o.a).control ++ [.ptp u.domain.toNat 0 ((u.ptpSeq + 1) % 2 ^ 16) 0])

/-- R401 to R409: optical ports. A slot sends a control frame first and data only while the port is open and its virtual
function may send; a frame arrives or is sent again; tokens are refilled to the burst; a flush empties a queue; a sluice drains,
closes, trains, opens and goes low as R408 says. That the virtual function's VFF is computed from the VP of before the choice is
the model's choice (log entry 55). -/
def Obligations.OpticalEvents : Prop :=
  ∀ s : State,
    let o := s.arg
    let k := o.a
    let p := s.port k
    let leaves (t : State) : Prop := ∃ d ∈ t.agenda, d.event = .frameArrival ∧ d.time = s.now + 8 + p.delay ∧
      d.arg = { args k s.nextId with flag := true }
    (∀ i rest, (p.state = 2 ∨ p.state = 3) → p.resend = i :: rest → ∃ t, exec .frameSlot s = .next t ∧
      (t.port k).resend = rest ∧ Table.get? (t.port k).frames s.nextId = some i ∧ (t.port k).unacked = p.unacked ∧ leaves t ∧
      ((∀ m n x, i ≠ .ptp m 0 n x) → (t.port k).control = p.control)) ∧
    (∀ i rest, (p.state = 2 ∨ p.state = 3) → p.resend = [] → p.control = i :: rest → (∀ m n x, i ≠ .ptp m 0 n x) →
      ∃ t, exec .frameSlot s = .next t ∧ (t.port k).control = rest ∧ Table.get? (t.port k).frames s.nextId = some i ∧
        (t.port k).unacked = p.unacked + 1 ∧ leaves t) ∧
    (∀ m n x rest, (p.state = 2 ∨ p.state = 3) → p.resend = [] → p.control = .ptp m 0 n x :: rest →
      ∃ t, exec .frameSlot s = .next t ∧ (t.port k).control = rest ++ [.ptp m 1 n (s.sup.ptpTime s.now)] ∧ leaves t) ∧
    (∀ v i rest, p.state = 2 → p.resend = [] → p.control = [] → p.choose = some v → (p.vf v).queue = i :: rest → i.frames = 1 →
      (p.vf v).sent = 0 → (∀ m n x, i ≠ .ptp m 0 n x) →
      ∃ t, exec .frameSlot s = .next t ∧ ((t.port k).vf v).queue = rest ∧ (t.port k).vp = (p.vf v).vff ∧
        ((t.port k).vf v).tokens = (p.vf v).tokens - 1 ∧
        ((t.port k).vf v).vff = max (p.vf v).vff p.vp + (2 ^ 16 + (p.vf v).weight - 1) / (p.vf v).weight ∧
        Table.get? (t.port k).frames s.nextId = some i ∧ leaves t) ∧
    (p.state ≠ 2 → p.state ≠ 3 → ∃ t, exec .frameSlot s = .next t ∧ t.port k = { p with armed := false }) ∧
    (∀ i, Table.get? p.frames o.b = some i →
      (o.flag = true → o.c ≠ 0 → ∃ t, exec .frameArrival s = .next t ∧ (t.port k).resend = p.resend ++ [i] ∧
        (t.port k).control = p.control ∧ (t.port k).unacked = p.unacked ∧ (t.port k).retry = min 0xFFFF (p.retry + 1)) ∧
      (o.flag = true → o.c = 0 → ∃ t, exec .frameArrival s = .next t ∧ Table.get? (t.port k).frames o.b = none ∧
        (t.port k).unacked = p.unacked - 1) ∧
      (let u := s.modPort k (fun p => { p with frames := p.frames.erase o.b })
       (o.flag = false → o.c = 0 → p.state = 2 ∨ p.state = 3 → exec .frameArrival s = .next (u.deliver k i)) ∧
       (o.flag = false → o.c ≠ 0 ∨ (p.state ≠ 2 ∧ p.state ≠ 3) → exec .frameArrival s = .next u))) ∧
    (∃ t, exec .tokenRefill s = .next t ∧ ∀ v, ((t.port k).vf v).tokens = (match Table.get? p.vfs v with
      | some f => min (f.tokens + f.rate) f.burst
      | none => 0)) ∧
    (let v := o.b % 16
     let f := p.vf v
     let one (n : Nat) : Nat := if n = 0 then 1 else n
     (o.c = 0 → ∃ t, exec .vfConfigWrite s = .next t ∧ (t.port k).vf v = { f with w0 := o.w &&& 0x1FFFFFFFFFFFF#64 }) ∧
     (o.c ≠ 0 → ∃ t, exec .vfConfigWrite s = .next t ∧ (t.port k).vf v = { f with
       rate := min 32 (o.w.extractLsb' 0 6).toNat, burst := one (o.w.extractLsb' 6 8).toNat
       weight := one (o.w.extractLsb' 14 8).toNat })) ∧
    (∃ t, exec .vfFlush s = .next t ∧ ((t.port k).vf o.b).queue = [] ∧ ((t.port k).vf o.b).sent = 0) ∧
    (p.state = 2 → ∃ t, exec .sluiceClose s = .next t ∧ (t.port k).state = 3 ∧
      (t.port k).control = p.control ++ [.marker]) ∧
    (p.state ≠ 2 → exec .sluiceClose s = .next s) ∧
    (p.state = 2 ∨ p.state = 3 → ∃ t, exec .closeMarker s = .next t ∧ (t.port k).state = 3 ∧
      (t.port k).markerSeen = true) ∧
    (p.state = 3 → p.unacked = 0 → p.markerSent = true → p.markerSeen = true →
      ∃ t, exec .drainComplete s = .next t ∧ (t.port k).state = 0) ∧
    (p.state ≠ 3 ∨ p.unacked ≠ 0 ∨ p.markerSent = false ∨ p.markerSeen = false → exec .drainComplete s = .next s) ∧
    (∀ i ∈ [Instr.sluiceOpen, .wakeHint],
      (s.dead = true → exec i s = .next s) ∧
      (s.dead = false → p.state = 0 ∨ p.state = 4 → ∃ t, exec i s = .next t ∧ (t.port k).state = 1 ∧
        (t.port k).training = p.training + 1) ∧
      (p.state ≠ 0 → p.state ≠ 4 → exec i s = .next s)) ∧
    (p.state = 0 → exec .lowPowerEnter s = .next (s.modPort k (fun p => { p with state := 4 }))) ∧
    (p.state = 1 →
      (∃ t, exec .trainingSuccess s = .next t ∧ (t.port k).state = 2 ∧ (t.port k).delay = o.b % 2 ^ 16 ∧
        (t.port k).peerId = o.w.setWidth 16) ∧
      (p.training = o.b → ∃ t, exec .trainingTimeout s = .next t ∧ (t.port k).state = 0 ∧
        (t.port k).fails = min 255 (p.fails + 1)))

/-- R220, R262, R311, R406, R410 to R413: the host and moves between panels. A host record is taken, discarded or left at the
link; the host takes a pan and is its holder, accesses it only while it is, and gives it back; a shipped strand resumes in the
lowest empty slot, its sender's slot empties, or the sender traps. The cases that R411 to R413 leave open are read as log entry
59 says, which is the model's choice. -/
def Obligations.HostAndMigration : Prop :=
  ∀ s : State,
    let o := s.arg
    (let n := o.b % 16
     let y := (s.part o.a).queues.getD n LaunchQueue.reset
     let behind := 16 ≤ y.records.length ∨ y.waiting ≠ [] ∨ y.hostWaiting ≠ []
     (s.dead = true ∨ s.partActive o.a = false → exec .hostRecordWrite s = .next s) ∧
     (s.dead = false → s.partActive o.a = true →
      (y.en = false → ∃ t, exec .hostRecordWrite s = .next t ∧ (t.part o.a).hostFn.qst = 10 ∧
        (t.part o.a).hostFn.qnum = n ∧ (t.part o.a).queues = (s.part o.a).queues) ∧
      (y.en = true → behind → ∃ t, exec .hostRecordWrite s = .next t ∧
        (t.part o.a).queues.getD n LaunchQueue.reset = { y with hostWaiting := y.hostWaiting ++ [o.x] }) ∧
      (y.en = true → ¬ behind → ∃ t, exec .hostRecordWrite s = .next t ∧ (t.part o.a).hostFn.qnum = n ∧
        (t.part o.a).hostFn.qst = s.recordStatus o.a n o.x ∧
        (s.recordStatus o.a n o.x = 0 →
          ((t.part o.a).queues.getD n LaunchQueue.reset).records.length = y.records.length + 1)))) ∧
    (∀ q lcn c h x, Table.get? s.packets o.a = some q → q.body = .message c lcn h x →
      let answer (t : State) (b : Body) : State := t.sendAt q.x q.y q.sp hostLcn (.lane lcn) 1 b 0
      (∀ r, c = 0 → x = .word r → r.tag = true → r.kind = 2 → ∃ t u, exec .hostPanTake s = .next t ∧
        t = answer u (.ack h) ∧ (t.part q.sp).hostFn.held = (s.part q.sp).hostFn.held ++ [r] ∧
        ∀ n i e, s.tableSlice q.sp r.bounds.1.toNat = some n → (s.slice n).panAt r.bounds.1.toNat = some (i, e) →
          Table.get? (s.slice n).pans i = some e →
          Table.get? (t.slice n).pans i = some { e with holder := hostLcn }) ∧
      ((c ≠ 0 ∨ ∀ r, x = .word r → r.tag = false ∨ r.kind ≠ 2) →
        exec .hostPanTake s = .next (answer (s.dropPacket o.a) (.nack h false)))) ∧
    (∀ n m i e, s.sliceOf o.a o.b = some n → s.tableEntry o.a o.b = some (m, i, e) →
      (e.holder ≠ hostLcn → exec .hostPanAccess s = .next s) ∧
      (e.holder = hostLcn → (∀ d ∈ s.agenda, d.event ≠ .sliceRequestArrival) →
        (s.slice n).lastEntry ≠ s.count (s.sliceDom n) + 1 → s.hostBehind o e = false →
        exec .hostPanAccess s = .next (s.enterSlice n
          { id := 0, who := .host, lcn := hostLcn, slot := 0, part := o.a, va := o.b
            kind := if o.flag then .write ((vecBytes o.x).take o.c) false else .read o.c false false
            arrived := 0, walking := false, frame := 0, host := true, unchecked := false })) ∧
      (e.holder = hostLcn → s.hostBehind o e = true ∨ (s.slice n).lastEntry = s.count (s.sliceDom n) + 1 →
        exec .hostPanAccess s = .next (s.postDelayed (s.sliceDom n) .hostPanAccess o))) ∧
    (let f := (s.part o.a).hostFn
     let va := o.w.toNat % 2 ^ 48
     let found := f.held.find? (fun r => r.bounds.1.toNat == va || (s.panOf o.a r).1 == va)
     (found = none ∨ f.pst = 1 → exec .pret s = .next s) ∧
     ∀ r, found = some r → f.pst ≠ 1 →
      (s.hostBusy o.a r = true → exec .pret s = .next (s.post (some o.a) 1 .pret o)) ∧
      (s.hostBusy o.a r = false →
        let here := f.pdlcn < coreCount ∧ s.unitPart (unitOf (coordX f.pdlcn)) = some o.a
        ∃ t, exec .pret s = .next t ∧
          (here → (t.part o.a).hostFn.pst = 1 ∧ ∃ u : State, t = u.sendAt (tapX (unitOf (coordX f.pdlcn))) 0 o.a hostLcn
            (.lane f.pdlcn) 1 (.message f.pdend hostLcn 0 (.word r)) 0) ∧
          (¬ here → (t.part o.a).hostFn.pst = 3))) ∧
    (∀ q lcn c k b tags, Table.get? s.packets o.a = some q → q.body = .ship lcn c k b tags → 16 ≤ b.length →
      let p := q.phys
      let free := (List.range 8).find? (fun j => !s.occupied p j)
      (∀ j, free = some j → ∃ t, exec .migRecordArrival s = .next t ∧ t.occupied p j = true ∧
        (t.strand p j).wait = .ready ∧ (t.strand p j).readyAt = s.countCore p + 1 ∧
        (t.strand p j).pc = BitVec.ofNat 64 (bytesNat (b.take 8)) &&& ~~~1#64) ∧
      (free = none → exec .migRecordArrival s = .next ((s.dropPacket o.a).sendFrom p false
        (.port (q.srcLcn - 0x7F100)) 1 (.shipReply c k false) 0))) ∧
    (∀ p k w, s.migWaits o.a = some (p, k, w) →
      (∃ t, exec .migAccept s = .next t ∧ t.occupied p k = false) ∧
      ((s.strand p k).inh = false → ∃ t, exec .migRefusal s = .next t ∧ (t.strand p k).wait = .ready ∧
        (t.strand p k).pc = (s.core p).tvec ∧ (t.strand p k).epc = (s.strand p k).waitPc ∧
        (t.strand p k).tcause = 0x0B#6 ∧ (t.strand p k).tval = w))

/-- R60, R69, R89: a step runs the instruction that the bytes at the strand's `pc` decode to, then what a debugged slot adds (R224): a
strand without a repetition, a pending trap or an outstanding far access issues at `t` what it fetches; a legal pair runs
its second half, marked relaxed, in the same slot; bits that decode to nothing, and an illegal pair, trap. A step whose next
act is an event performs that event, unless its core's clock is held or it is the landing of a packet at a core that can
no longer take it. -/
def Obligations.StepRunsDecoded : Prop :=
  (∀ (s : State) (d : Due) (rest : List Due), s.nextAct = .event d rest → s.stopped d = false → s.strayed d = false →
    step s = exec d.event (s.atEvent d rest)) ∧
  ∀ (s : State) (t p k len : Nat) (bits : BitVec 48),
    let x := s.strand p k
    let u := { s with now := t, cur := { core := p, slot := k, pc := x.pc, len := 4, bits := 0#48, relaxed := false } }.modMe
      (fun y => { y with popped := [] })
    let v := { u.modMe (fun y => y.capture len bits) with
      cur := { core := p, slot := k, pc := x.pc, len := len, bits := bits, relaxed := false } }
    let w : BitVec 32 := bits.extractLsb' 0 32
    s.nextAct = .issue t p k → x.pendTrap = none → x.rep = none → x.far = [] →
    u.fetchInstr p x x.pc = .ok (len, bits) →
    (∀ i, isPair bits = false → decodeBits len w = .ok i →
      step s = match exec i v with
        | .next y => .next y.afterIssue
        | o => o) ∧
    (∀ e, isPair bits = false → decodeBits len w = .error e →
      step s = .next (v.takeTrap (trapIllegal v.instrBits)).afterIssue) ∧
    (∀ j, isPair bits = true → pairLegal bits = true → decode32 (bits.extractLsb' 16 32) = .ok j →
      step s = match exec j { v with cur := { v.cur with relaxed := true } } with
        | .next y => .next y.afterIssue
        | o => o) ∧
    (isPair bits = true → pairLegal bits = false → step s = .next (v.takeTrap (trapIllegal v.instrBits)).afterIssue)

/-- R15, R60, R61, R67, R70 to R89: words written out from the encoding tables, field by field, and the instructions that they
are. -/
def Obligations.DecodesSpecWords : Prop :=
  (decode32 0b0000000_11100_10010_11100_000000_100_1#32).toOption = some (.add 4#3 28#5 18#5 28#5) ∧
  (decode32 0b001100000000_10110_01001_000000_100_1#32).toOption = some (.clz 4#3 9#5 22#5) ∧
  (decode32 0b100000_1_11011_10110_01010_000000_011_1#32).toOption = some (.shli 3#3 10#5 22#5 59#6) ∧
  (decode32 0b110000010110_10111_10100_000001_001_1#32).toOption = some (.addi 1#3 20#5 23#5 3094#12) ∧
  (decode32 0b10000101011101011_00001_000101_010_1#32).toOption = some (.lhi 2#3 1#5 68331#17) ∧
  (decode32 0b011011_010011_10000_10000_000110_011_1#32).toOption = some (.bfx 3#3 16#5 16#5 19#6 27#6) ∧
  (decode32 0b0000110_01010_11010_01110_001000_101_1#32).toOption = some (.cadd 5#3 14#5 26#5 10#5) ∧
  (decode32 0b00111_01000_011_100_110_001_001100_010_1#32).toOption = some (.cmp 2#3 1#3 6#3 4#3 3#3 8#5 7#5) ∧
  (decode32 0b0000101100010010101100_010000_110_1#32).toOption = some (.br 6#3 181420#22) ∧
  (decode32 0b0011111011000000000001_010001_111_1#32).toOption = some (.j 30388225#25) ∧
  (decode32 0b000000000000_10111_01110_010011_010_1#32).toOption = some (.jr 2#3 14#5 23#5) ∧
  (decode32 0b0_1001110011110100_01_010_010110_010_1#32).toOption = some (.lxi 2#3 2#3 1#2 40180#16) ∧
  (decode32 0b00000010000000_011_11111_010111_111_1#32).toOption = some (.mvxFromE 7#3 31#5 3#3) ∧
  (decode32 0b10010110_1_010_11011_01101_011010_110_1#32).toOption = some (.ldFc 6#3 13#5 27#5 150#8 2#3) ∧
  (decode32 0b110110000_001_11110_11001_011100_100_1#32).toOption = some (.stc 4#3 25#5 30#5 432#9) ∧
  (decode32 0b000_01_100_1011_00111_0_1111_011110_110_1#32).toOption = some (.vldg 6#3 15#4 7#5 11#4 1#2) ∧
  (decode32 0b000000000000_10111_10000_011111_110_1#32).toOption = some (.pushm 6#3 16#5 23#5) ∧
  (decode32 0b00_0_1001_10010_00101_11000_100000_001_1#32).toOption = some (.amoCas 1#3 24#5 5#5 18#5 0#1) ∧
  (decode32 0b000_10_10_0_1001_00011_00000_100010_011_1#32).toOption = some (.acc 3#3 3#5 9#4 2#2 2#2) ∧
  (decode32 0b100_0000_0_0001_1_0101_0_1110_100101_110_1#32).toOption = some (.vfma 6#3 14#4 2#3 5#4 1#4 4#3) ∧
  (decode32 0b010_0010_0_1001_0_0011_0_0001_100111_110_1#32).toOption = some (.vcvt 6#3 1#4 3#4 2#4 9#4 2#3) ∧
  (decode32 0b000_0_010_0_1100_1_0101_0_1111_101001_001_1#32).toOption = some (.vcmp 1#3 15#4 2#3 2#3 5#4 12#4 0#1) ∧
  (decode32 0b00_01_001_1_0011_0_1000_0_1001_101100_110_1#32).toOption = some (.vshuf 6#3 9#4 4#3 8#4 19#6) ∧
  (decode32 0b0000001_01110_00_101_01101_110100_110_1#32).toOption = some (.sbindOut 6#3 13#5 5#3 14#5) ∧
  (decode32 0b000000_110001_01011_00000_110111_101_1#32).toOption = some (.snd 5#3 11#5 49#6) ∧
  (decode32 0b00000000000000_001_00010_111001_011_1#32).toOption = some (.alt 3#3 2#5 1#3) ∧
  (decode32 0b0000_101_11110_00011_10100_111010_110_1#32).toOption = some (.mxq 6#3 20#5 3#5 30#5 5#3) ∧
  (decode32 0b0000000_01110_0000000000_111100_110_1#32).toOption = some (.barr 6#3 14#5) ∧
  (decode32 0b0000000_01101_01001_00_001_111101_010_1#32).toOption = some (.spwn 2#3 9#5 13#5 1#3) ∧
  (decode32 0b000001001100_00000_10011_111110_100_1#32).toOption = some (.csrr 4#3 19#5 76#12) ∧
  (decode32 0b111100000011_01000_01011_111110_100_1#32).toOption = some (.rmap 4#3 11#5 8#5) ∧
  (decodeBits 2 0b000_0010_1011_00000#32).toOption = some (.mov16 11#4 2#4) ∧
  (decodeBits 2 0b011_1100_0001_01000#32).toOption = some (.st16 1#4 3#3 12#4) ∧
  (decodeBits 2 0b10000110_100_01010#32).toOption = some (.br16 4#3 134#8) ∧
  (decode32 0x00000001#32).toOption = some .nop ∧ (decodeBits 2 0x00000012#32).toOption = some .nop16 ∧ (decodeBits 2 0x00000014#32).toOption = some .rlx ∧
  (decode32 0xFFFFFFFF#32).toOption = none ∧
  (decode [0x01#8, 0x00#8, 0x00#8, 0x00#8]).toOption = some (.nop, 4) ∧ (decode [0x12#8, 0x00#8]).toOption = some (.nop16, 2)

/-- R60 to R89: decoding the word that an instruction encodes to gives the instruction back, with every operand at every
value that its checks allow. -/
def Obligations.EncodeDecodeAgree : Prop :=
  ∀ (i : Instr) (n : Nat) (w : BitVec 32), i.wf = true → encode i = some (n, w) → decodeBits n w = .ok i

/-- R354, R424, R425: module reset leaves `ptime` at 0, the boot partition in charge of every unit, and every core empty, with
the reset values of the per-core registers that chapter 01 gives; every memory is in its canonical form. The canonical form of
the memories, and that an unlisted byte reads 0, is the model's choice (log entry 1), as is `tclass` from the depth (log entry
108). -/
def Obligations.ResetState : Prop :=
  State.reset.now = 0 ∧ State.reset.sup.boot = true ∧ State.reset.MemoriesCanonical ∧
  (∀ u < 24, State.reset.unitPart u = some 0) ∧
  ∀ p < coreCount, (State.reset.core p).slots = [] ∧ (State.reset.core p).ends = [] ∧ (State.reset.core p).lcn = p ∧
    (State.reset.core p).rakeT = 0x10000#32 ∧ (State.reset.core p).tscale = 0x100000000#64 ∧
    (State.reset.core p).grank = 0 ∧ (State.reset.core p).gsize = 0 ∧ (State.reset.core p).gorg = 0 ∧
    (State.reset.core p).clat = 0#32 ∧ (State.reset.core p).tvec = 0#64 ∧
    (State.reset.core p).pcid.toNat = p % 8 + p / 8 % 768 * 8 + p / 6144 * 2 ^ 13 ∧
    (let d := ((coordX p % 64 : Int) - 32).natAbs + ((coordY p % 96 : Int) - 48).natAbs
     (State.reset.core p).tree.depth = d ∧ (State.reset.core p).tree.cls = if d ≤ 63 then 0 else 1) ∧
    (State.reset.core p).toff = 0#64 ∧ (∀ g < 16384, (State.reset.core p).full g = false) ∧
    (State.reset.core p).bmem = 0#16 ∧ (State.reset.core p).barr = 0#17 ∧ (State.reset.core p).run = .run

/-- The memories of the panel, and the model's canonical form of them: every step keeps it (log entry 1). -/
def Obligations.StepKeepsMemories : Prop :=
  ∀ s t : State, s.MemoriesCanonical → step s = .next t → t.MemoriesCanonical

/-- R395: `ptime` never decreases, but at a module reset. -/
def Obligations.TimeNeverFalls : Prop :=
  ∀ s t : State, (∀ d rest, s.nextAct = .event d rest → d.event ≠ .moduleReset) → step s = .next t → s.now ≤ t.now
end

