-- ==== Sys2Proof/Laws/Table.lean ====
section
/-! SUPPORT. Laws of the sorted tables and number sets: a read after a write, and writes to other keys. They hold of
every list of pairs, sorted or not. -/

namespace Sys2Proof

variable {α : Type}

@[simp] theorem Table.get?_nil (k : Nat) : Table.get? ([] : Table α) k = none := rfl

/-- A key that was written reads what was written. -/
@[simp] theorem Table.get?_set_self (t : Table α) (k : Nat) (x : α) : Table.get? (t.set k x) k = some x := by
  induction t with
  | nil => simp [Table.set, Table.get?]
  | cons e rest ih =>
    obtain ⟨j, y⟩ := e
    simp only [Table.set]
    split
    · simp [Table.get?]
    · split
      · simp [Table.get?]
      · rename_i h
        simp [Table.get?, ih, Ne.symm h]

/-- Another key reads what it read before. -/
theorem Table.get?_set_ne (t : Table α) {k j : Nat} (x : α) (h : j ≠ k) : Table.get? (t.set k x) j = Table.get? t j := by
  induction t with
  | nil => simp [Table.set, Table.get?, Ne.symm h]
  | cons e rest ih =>
    obtain ⟨i, y⟩ := e
    simp only [Table.set]
    split
    · simp [Table.get?, Ne.symm h]
    · split
      · subst_vars
        simp [Table.get?, Ne.symm h]
      · simp [Table.get?, ih]

theorem Table.get?_set (t : Table α) (k j : Nat) (x : α) :
    Table.get? (t.set k x) j = if j = k then some x else Table.get? t j := by
  split
  · subst_vars; simp
  · rename_i h; exact Table.get?_set_ne t x h

@[simp] theorem Table.getD_set_self (t : Table α) (k : Nat) (x d : α) : (t.set k x).getD k d = x := by
  simp [Table.getD]

theorem Table.getD_set_ne (t : Table α) {k j : Nat} (x d : α) (h : j ≠ k) : (t.set k x).getD j d = t.getD j d := by
  simp [Table.getD, Table.get?_set_ne t x h]

theorem Table.getD_set (t : Table α) (k j : Nat) (x d : α) :
    (t.set k x).getD j d = if j = k then x else t.getD j d := by
  split
  · subst_vars; simp
  · rename_i h; exact Table.getD_set_ne t x d h

/-- Of two writes to one key the later stands. -/
@[simp] theorem Table.set_set (t : Table α) (k : Nat) (x y : α) : (t.set k x).set k y = t.set k y := by
  induction t with
  | nil => simp [Table.set]
  | cons e rest ih =>
    obtain ⟨j, z⟩ := e
    by_cases h : k < j
    · simp [Table.set, h]
    · by_cases h' : k = j
      · simp [Table.set, h']
      · simp [Table.set, h, h', ih]

/-- Of an entry of a written table: it is the new one, or it was there before. -/
theorem Table.mem_set {t : Table α} {k : Nat} {x : α} {e : Nat × α} (h : e ∈ t.set k x) : e = (k, x) ∨ e ∈ t := by
  induction t with
  | nil => simpa [Table.set] using h
  | cons f rest ih =>
    obtain ⟨j, z⟩ := f
    simp only [Table.set] at h
    split at h
    · simpa using h
    · split at h
      · rcases List.mem_cons.1 h with h | h
        · exact .inl h
        · exact .inr (List.mem_cons_of_mem _ h)
      · rcases List.mem_cons.1 h with h | h
        · exact .inr (h ▸ List.mem_cons_self)
        · rcases ih h with h | h
          · exact .inl h
          · exact .inr (List.mem_cons_of_mem _ h)

/-- An entry that is read is listed. -/
theorem Table.mem_of_get? {t : Table α} {k : Nat} {x : α} (h : Table.get? t k = some x) : (k, x) ∈ t := by
  induction t with
  | nil => simp at h
  | cons f rest ih =>
    obtain ⟨j, z⟩ := f
    simp only [Table.get?] at h
    split at h
    · simp_all
    · exact List.mem_cons_of_mem _ (ih h)

/-- A set answers for what was put into it. -/
@[simp] theorem NatSet.has_insert (t : NatSet) (k j : Nat) : NatSet.has (NatSet.insert t k) j = (j == k || NatSet.has t j) := by
  induction t with
  | nil =>
    by_cases h : k = j
    · simp [NatSet.insert, NatSet.has, h]
    · simp [NatSet.insert, NatSet.has, h, Ne.symm h]
  | cons i rest ih =>
    simp only [NatSet.insert]
    split
    · by_cases h : k = j
      · simp [NatSet.has, h]
      · simp [NatSet.has, h, Ne.symm h]
    · split
      · rename_i h; subst h
        by_cases h : k = j
        · simp [NatSet.has, h]
        · simp [NatSet.has, h, Ne.symm h]
      · by_cases h : i = j
        · simp [NatSet.has, h]
        · simp [NatSet.has, h, ih]

/-- A set does not answer for what was taken out of it. -/
@[simp] theorem NatSet.has_remove (t : NatSet) (k j : Nat) : NatSet.has (NatSet.remove t k) j = (j != k && NatSet.has t j) := by
  induction t with
  | nil => simp [NatSet.remove, NatSet.has]
  | cons i rest ih =>
    simp only [NatSet.remove]
    split
    · rename_i h; subst h
      by_cases h : k = j
      · rw [ih]; simp [h]
      · simp [ih, NatSet.has, h]
    · rename_i h'
      by_cases h : i = j
      · subst h
        simp [NatSet.has, Ne.symm h']
      · simp [NatSet.has, h, ih]

/-- What is in a set after several numbers have been taken out of it. -/
theorem NatSet.has_removeAll (ks : List Nat) : ∀ (t : NatSet) (j : Nat),
    NatSet.has (ks.foldl NatSet.remove t) j = (decide (j ∉ ks) && NatSet.has t j) := by
  induction ks with
  | nil => simp
  | cons k ks ih =>
    intro t j
    by_cases h : j = k
    · simp [ih, h]
    · have hb : (j != k) = true := by simp [h]
      simp [ih, h, hb]

end Sys2Proof
end

