-- ==== Sys2Proof/Laws/Memory.lean ====
section
/-! SUPPORT. Laws of the memories: reads after writes, and that every operation keeps the canonical form. -/

namespace Sys2Proof.Machine

/-! ## One byte -/

/-- Below its lower bound a canonical memory reads 0. -/
theorem Memory.read_of_wfFrom {lo a : Nat} (m : Memory) (h : Memory.wfFrom lo m = true) (ha : a < lo) : m.read a = 0#8 := by
  cases m with
  | nil => rfl
  | cons e rest =>
    obtain ⟨j, x⟩ := e
    simp only [Memory.wfFrom, Bool.and_eq_true, decide_eq_true_eq] at h
    simp only [Memory.read]
    rw [if_neg (by omega), if_pos (by omega)]

/-- A lower bound may be lowered. -/
theorem Memory.wfFrom_mono {lo lo' : Nat} (h : lo' ≤ lo) (m : Memory) (hm : Memory.wfFrom lo m = true) :
    Memory.wfFrom lo' m = true := by
  cases m with
  | nil => rfl
  | cons e rest =>
    obtain ⟨j, x⟩ := e
    simp only [Memory.wfFrom, Bool.and_eq_true, decide_eq_true_eq] at hm ⊢
    exact ⟨⟨by omega, hm.1.2⟩, hm.2⟩

/-- A write keeps the canonical form above any bound below its address. -/
theorem Memory.wfFrom_write (m : Memory) : ∀ {lo a : Nat} (x : Byte), lo ≤ a → Memory.wfFrom lo m = true →
    Memory.wfFrom lo (m.write a x) = true := by
  induction m with
  | nil =>
    intro lo a x ha _
    simp only [Memory.write]
    split
    · rfl
    · rename_i h; simp [Memory.wfFrom, ha, h]
  | cons e rest ih =>
    obtain ⟨j, y⟩ := e
    intro lo a x ha hm
    have hm' := hm
    simp only [Memory.wfFrom, Bool.and_eq_true, decide_eq_true_eq] at hm'
    obtain ⟨⟨hlo, hy⟩, hr⟩ := hm'
    simp only [Memory.write]
    split
    · split
      · exact hm
      · rename_i h1 h2
        simp only [Memory.wfFrom, Bool.and_eq_true, decide_eq_true_eq]
        exact ⟨⟨ha, by simpa using h2⟩, ⟨by omega, hy⟩, hr⟩
    · split
      · split
        · exact Memory.wfFrom_mono (by omega) rest hr
        · rename_i h1 h2 h3
          subst h2
          simp only [Memory.wfFrom, Bool.and_eq_true, decide_eq_true_eq]
          exact ⟨⟨ha, by simpa using h3⟩, hr⟩
      · simp only [Memory.wfFrom, Bool.and_eq_true, decide_eq_true_eq]
        exact ⟨⟨hlo, hy⟩, ih x (by omega) hr⟩

/-- A write keeps the canonical form. -/
theorem Memory.wf_write {m : Memory} (a : Nat) (x : Byte) (h : m.wf = true) : (m.write a x).wf = true :=
  Memory.wfFrom_write m x (Nat.zero_le a) h

/-- A read after a write: the byte written, and every other byte as it was. -/
theorem Memory.read_write_from (m : Memory) : ∀ {lo : Nat} (a b : Nat) (x : Byte), Memory.wfFrom lo m = true →
    (m.write a x).read b = if b = a then x else m.read b := by
  induction m with
  | nil =>
    intro lo a b x _
    simp only [Memory.write]
    by_cases hx : x = 0#8
    · simp [hx, Memory.read]
    · by_cases hb : b = a
      · simp [hx, Memory.read, hb]
      · simp [hx, Memory.read, hb, Ne.symm hb]
  | cons e rest ih =>
    obtain ⟨j, y⟩ := e
    intro lo a b x hm
    simp only [Memory.wfFrom, Bool.and_eq_true, decide_eq_true_eq] at hm
    obtain ⟨⟨hlo, hy⟩, hr⟩ := hm
    simp only [Memory.write]
    by_cases h1 : a < j
    · simp only [h1, if_true]
      by_cases hx : x = 0#8
      · simp only [hx, if_true, Memory.read]
        by_cases hb : b = a
        · subst hb; simp [h1, Nat.ne_of_gt h1]
        · simp [hb]
      · simp only [hx, if_false, Memory.read]
        by_cases hb : b = a
        · simp [hb]
        · by_cases hlt : b < a
          · simp [hb, Ne.symm hb, hlt, show j ≠ b by omega, show b < j by omega]
          · simp [hb, Ne.symm hb, hlt]
    · by_cases h2 : a = j
      · subst h2
        simp only [Nat.lt_irrefl, if_false, if_true]
        by_cases hx : x = 0#8
        · simp only [hx, if_true, Memory.read]
          by_cases hb : b = a
          · subst hb; simp [Memory.read_of_wfFrom rest hr (Nat.lt_succ_self b)]
          · by_cases hlt : b < a
            · simp [hb, Ne.symm hb, hlt, Memory.read_of_wfFrom rest hr (show b < a + 1 by omega)]
            · simp [hb, Ne.symm hb, hlt]
        · simp only [hx, if_false, Memory.read]
          by_cases hb : b = a
          · simp [hb]
          · simp [hb, Ne.symm hb]
      · simp only [h1, h2, if_false, Memory.read]
        by_cases hj : j = b
        · simp [hj, show ¬ b = a by omega]
        · by_cases hlt : b < j
          · simp [hj, hlt, show ¬ b = a by omega]
          · simp only [hj, hlt, if_false]
            exact ih a b x hr

theorem Memory.read_write {m : Memory} (a b : Nat) (x : Byte) (h : m.wf = true) :
    (m.write a x).read b = if b = a then x else m.read b := Memory.read_write_from m a b x h

/-! ## Several bytes -/

theorem Memory.wf_writeN (l : List Byte) : ∀ {m : Memory} (a : Nat), m.wf = true → (m.writeN a l).wf = true := by
  induction l with
  | nil => intro m a h; exact h
  | cons x rest ih => intro m a h; exact ih (a + 1) (Memory.wf_write a x h)

/-- After a write of bytes from `a`, an address among them reads its byte, and any other what it read before. -/
theorem Memory.read_writeN (l : List Byte) : ∀ {m : Memory} (a b : Nat), m.wf = true →
    (m.writeN a l).read b = if a ≤ b ∧ b < a + l.length then l.getD (b - a) 0#8 else m.read b := by
  induction l with
  | nil => intro m a b _; simp [Memory.writeN, show ¬ (a ≤ b ∧ b < a) by omega]
  | cons x rest ih =>
    intro m a b h
    simp only [Memory.writeN, List.length_cons]
    rw [ih (a + 1) b (Memory.wf_write a x h), Memory.read_write a b x h]
    by_cases hb : b = a
    · subst hb
      simp [show b ≤ b ∧ b < b + (rest.length + 1) by omega]
    · by_cases hin : a + 1 ≤ b ∧ b < a + 1 + rest.length
      · have : b - a = (b - (a + 1)) + 1 := by omega
        simp [hin, show a ≤ b ∧ b < a + (rest.length + 1) by omega, this]
      · rw [if_neg hin, if_neg hb, if_neg (by omega)]

/-- A read of several bytes, byte by byte. -/
@[simp] theorem Memory.length_readN (m : Memory) (a n : Nat) : (m.readN a n).length = n := by simp [Memory.readN]

/-- Bytes read back as they were written. -/
theorem Memory.readN_writeN {m : Memory} (a : Nat) (l : List Byte) (h : m.wf = true) :
    (m.writeN a l).readN a l.length = l := by
  apply List.ext_getElem
  · simp
  · intro i h1 h2
    simp only [Memory.readN, List.getElem_map, List.getElem_range]
    rw [Memory.read_writeN l a (a + i) h]
    simp [show a ≤ a + i ∧ a + i < a + l.length by omega, List.getD_eq_getElem?_getD, h2]

/-! ## Scratchpads, HBM and host memory -/

theorem Core.wf_spWrite {c : Core} (a : Nat) (b : List Byte) (h : c.sp.wf = true) : (c.spWrite a b).sp.wf = true :=
  Memory.wf_writeN b a h

theorem Core.read_spWrite {c : Core} (a b : Nat) (l : List Byte) (h : c.sp.wf = true) :
    (c.spWrite a l).sp.read b = if a ≤ b ∧ b < a + l.length then l.getD (b - a) 0#8 else c.sp.read b :=
  Memory.read_writeN l a b h

/-- A store leaves the tags of the granules that it does not touch, and clears those of the others (R134). -/
@[simp] theorem Core.has_spTags_spWrite (c : Core) (a : Nat) (b : List Byte) (g : Nat) :
    NatSet.has (c.spWrite a b).spTags g = (decide (g ∉ granules a b.length) && NatSet.has c.spTags g) :=
  NatSet.has_removeAll _ _ _

@[simp] theorem Core.full_spWrite (c : Core) (a : Nat) (b : List Byte) (g : Nat) : (c.spWrite a b).full g = c.full g := rfl

theorem Core.wf_spPutReg {c : Core} (a : Nat) (r : CReg) (h : c.sp.wf = true) : (c.spPutReg a r).sp.wf = true := by
  have H := Core.wf_spWrite a (natBytes 8 r.val.toNat ++ natBytes 8 (if r.tag then r.mt.toNat else 0)) h
  by_cases ht : r.tag = true
  · simpa only [Core.spPutReg, ht, if_true] using H
  · simp only [Core.spPutReg, ht, Bool.false_eq_true, if_false] at H ⊢
    exact H

theorem State.wf_hbmWrite {s : State} (k : Nat) (b : List Byte) (h : s.hbm.wf = true) : (s.hbmWrite k b).hbm.wf = true :=
  Memory.wf_writeN b k h

/-- Writing a pan keeps HBM canonical. -/
theorem State.wf_panWrite {s : State} (sp va : Nat) (b : List Byte) (h : s.hbm.wf = true) :
    (s.panWrite sp va b).hbm.wf = true := by
  unfold State.panWrite
  generalize blockPieces (b.length / 2048 + 2) va b.length = ps
  suffices H : ∀ (t : State × List Byte), t.1.hbm.wf = true →
      ((ps.foldl (fun (t : State × List Byte) p =>
        (match t.1.keyOf sp p.1 with
         | some k => t.1.hbmWrite k (t.2.take p.2)
         | none => t.1, t.2.drop p.2)) t).1.hbm.wf = true) from H (s, b) h
  induction ps with
  | nil => intro t ht; exact ht
  | cons p rest ih =>
    intro t ht
    apply ih
    show (match t.1.keyOf sp p.1 with
         | some k => t.1.hbmWrite k (t.2.take p.2)
         | none => t.1).hbm.wf = true
    split
    · exact State.wf_hbmWrite _ _ ht
    · exact ht

theorem State.wf_panSetTag {s : State} (sp va : Nat) (h : s.hbm.wf = true) : (s.panSetTag sp va).hbm.wf = true := by
  unfold State.panSetTag
  split <;> exact h

/-! ## Numbers and bytes -/

@[simp] theorem length_natBytes (n x : Nat) : (natBytes n x).length = n := by
  induction n generalizing x with
  | zero => rfl
  | succ n ih => simp [natBytes, ih]

/-- The value of a number's bytes is the number modulo their range. -/
theorem bytesNat_natBytes (n x : Nat) : bytesNat (natBytes n x) = x % 256 ^ n := by
  induction n generalizing x with
  | zero => simp [natBytes, bytesNat, Nat.mod_one]
  | succ n ih =>
    simp only [natBytes, bytesNat, ih, BitVec.toNat_ofNat]
    have h : 256 ^ (n + 1) = 256 * 256 ^ n := by rw [pow_succ, Nat.mul_comm]
    rw [h, Nat.mod_mul]

end Sys2Proof.Machine
end

