-- ==== Sys2Proof/Laws/Keys.lean ====
section
/-! SUPPORT. What a generated key pair signs, its modulus verifies (R428, R430). -/

namespace Sys2Proof.Machine

theorem powMod_eq (m : Nat) : ∀ fuel b e : Nat, e < 2 ^ fuel → powMod m fuel b e = b ^ e % m
  | 0, b, e, h => by simp [powMod, show e = 0 by omega]
  | fuel + 1, b, e, h => by
    have ih := powMod_eq m fuel (b * b % m) (e / 2) (by rw [Nat.pow_succ] at h; omega)
    have sq : (b * b % m) ^ (e / 2) % m = b ^ (2 * (e / 2)) % m := by
      rw [← Nat.pow_mod, ← Nat.pow_two, ← Nat.pow_mul]
    unfold powMod
    split
    · simp_all
    · simp only [ih, sq]
      split
      · rw [Nat.mul_mod, Nat.mod_mod, ← Nat.mul_mod, ← Nat.pow_succ', show (2 * (e / 2)).succ = e by omega]
      · rw [show 2 * (e / 2) = e by omega]

/-- Fermat's theorem for one prime of a key. -/
theorem pow_modEq_of_prime {p d x : Nat} (hp : p.Prime) (h : d % (p - 1) = 1) : x ^ d ≡ x [MOD p] := by
  have := Fact.mk hp
  rw [← ZMod.natCast_eq_natCast_iff, Nat.cast_pow]
  by_cases hx : (x : ZMod p) = 0
  · have : d ≠ 0 := by rintro rfl; simp at h
    simp [hx, this]
  · rw [← Nat.div_add_mod d (p - 1), h, pow_add, pow_mul, ZMod.pow_card_sub_one_eq_one hx]
    simp

/-- The public exponent undoes the private one (R428, RFC 8017). -/
theorem opens_of_key (k : Config.RsaKey) (x : Nat) (hx : x < k.primes.prod) :
    (x ^ k.exponent % k.primes.prod) ^ 65537 % k.primes.prod = x := by
  rw [← Nat.pow_mod, ← Nat.pow_mul]
  have co : k.primes.Pairwise Nat.Coprime :=
    k.distinct.imp_of_mem (fun ha hb h => (Nat.coprime_primes (k.prime _ ha).1 (k.prime _ hb).1).2 h)
  have : x ^ (k.exponent * 65537) ≡ x [MOD k.primes.prod] :=
    (Nat.modEq_list_prod_iff co).2 (fun i =>
      pow_modEq_of_prime (k.prime _ (List.get_mem _ i)).1 (by rw [Nat.mul_comm]; exact k.inverse _ (List.get_mem _ i)))
  rw [this, Nat.mod_eq_of_lt hx]

theorem natBytes_bytesNat : ∀ b : List Byte, natBytes b.length (bytesNat b) = b
  | [] => rfl
  | x :: b => by
    have hx : x.toNat < 256 := x.isLt
    have h0 : (x.toNat + 256 * bytesNat b) / 256 = bytesNat b := by omega
    have h1 : BitVec.ofNat 8 (x.toNat + 256 * bytesNat b) = x :=
      BitVec.eq_of_toNat_eq (by simp only [BitVec.toNat_ofNat]; omega)
    simp only [List.length_cons, bytesNat, natBytes, h0, h1, natBytes_bytesNat b]

theorem bytesNat_lt : ∀ b : List Byte, bytesNat b < 256 ^ b.length
  | [] => by simp [bytesNat]
  | x :: b => by
    have hx : x.toNat < 256 := x.isLt
    have := bytesNat_lt b
    simp only [List.length_cons, bytesNat, Nat.pow_succ]
    omega

theorem bytesNat_append_zero : ∀ b : List Byte, bytesNat (b ++ [0#8]) = bytesNat b
  | [] => rfl
  | x :: b => by simp only [List.cons_append, bytesNat, bytesNat_append_zero b]

@[simp] theorem length_bigBytes (n x : Nat) : (bigBytes n x).length = n := by simp [bigBytes]

theorem bigNat_bigBytes (n x : Nat) : bigNat (bigBytes n x) = x % 256 ^ n := by
  simp [bigNat, bigBytes, bytesNat_natBytes]

theorem bigBytes_bigNat (b : List Byte) : bigBytes b.length (bigNat b) = b := by
  have := natBytes_bytesNat b.reverse
  rw [List.length_reverse] at this
  simp [bigBytes, bigNat, this]

@[simp] theorem length_sha512 (m : List Byte) : (sha512 m).length = 64 := by simp [sha512]

theorem length_encodedMessage (m : List Byte) : (encodedMessage m).length = 512 := by
  simp only [encodedMessage, List.length_append, List.length_replicate, length_sha512, List.length_cons, List.length_nil]

theorem pow_256 (n : Nat) : 256 ^ n = 2 ^ (8 * n) := by rw [Nat.pow_mul]

/-- An encoded message begins with a byte 0, so it is less than any modulus. -/
theorem encodedMessage_lt (m : List Byte) : bigNat (encodedMessage m) < 2 ^ 4088 := by
  obtain ⟨b, hb⟩ : ∃ b, encodedMessage m = 0#8 :: b := ⟨_, rfl⟩
  have hl := length_encodedMessage m
  rw [hb, List.length_cons] at hl
  have := bytesNat_lt b.reverse
  rw [List.length_reverse, show b.length = 511 by omega] at this
  rw [hb, bigNat, List.reverse_cons, bytesNat_append_zero]
  rwa [pow_256] at this

/-- What a generated key pair signs, its modulus verifies (R428, R430). -/
theorem verifies_sign (k : Config.RsaKey) (m : List Byte) :
    verifies (storedKey k).modulus m ((storedKey k).sign m) = true := by
  obtain ⟨lo, hi⟩ := k.size
  have hn : (storedKey k).modulus.toNat = k.primes.prod := by simp [storedKey, Nat.mod_eq_of_lt hi]
  have he : (storedKey k).exponent.toNat = k.exponent := by
    simp [storedKey, Nat.mod_eq_of_lt (k.small.trans hi)]
  have hx : bigNat (encodedMessage m) < k.primes.prod :=
    (encodedMessage_lt m).trans_le ((Nat.pow_le_pow_right (by decide) (by decide)).trans lo)
  have hlt : bigNat (encodedMessage m) ^ k.exponent % k.primes.prod < k.primes.prod := Nat.mod_lt _ (by omega)
  have hs : bigNat ((storedKey k).sign m) = bigNat (encodedMessage m) ^ k.exponent % k.primes.prod := by
    rw [KeyPair.sign, bigNat_bigBytes, hn, he, powMod_eq _ _ _ _ (k.small.trans hi),
      Nat.mod_eq_of_lt (hlt.trans (by rw [pow_256]; exact hi))]
  have hb : (storedKey k).modulus.getLsbD 4095 = true := by
    rw [BitVec.getLsbD, hn, Nat.testBit_eq_decide_div_mod_eq, decide_eq_true_eq]
    rw [Nat.div_eq_of_lt_le (k := 1) (by simpa using lo) (by simpa [← Nat.pow_succ'] using hi)]
  have back : bigBytes 512 (bigNat (encodedMessage m)) = encodedMessage m := by
    have := bigBytes_bigNat (encodedMessage m)
    rwa [length_encodedMessage] at this
  rw [verifies, hb, hs, hn, powMod_eq _ _ _ _ (by decide), publicExponent, opens_of_key k _ hx, back]
  simp [KeyPair.sign, hlt]

end Sys2Proof.Machine
end

