-- ==== Sys2Proof/Laws/State.lean ====
section
/-! SUPPORT. What each update of the state leaves alone, field by field, and what the reads of a core, a strand and the
other tables give after an update. -/

namespace Sys2Proof.Machine

/-! ## Fields an update does not touch -/

@[simp] theorem State.setCore_now (s : State) (p : Nat) (c : Core) : (s.setCore p c).now = s.now := rfl
@[simp] theorem State.setCore_blocks (s : State) (p : Nat) (c : Core) : (s.setCore p c).blocks = s.blocks := rfl
@[simp] theorem State.setCore_slices (s : State) (p : Nat) (c : Core) : (s.setCore p c).slices = s.slices := rfl
@[simp] theorem State.setCore_parts (s : State) (p : Nat) (c : Core) : (s.setCore p c).parts = s.parts := rfl
@[simp] theorem State.setCore_ports (s : State) (p : Nat) (c : Core) : (s.setCore p c).ports = s.ports := rfl
@[simp] theorem State.setCore_dcms (s : State) (p : Nat) (c : Core) : (s.setCore p c).dcms = s.dcms := rfl
@[simp] theorem State.setCore_routesC (s : State) (p : Nat) (c : Core) : (s.setCore p c).routesC = s.routesC := rfl
@[simp] theorem State.setCore_routesM (s : State) (p : Nat) (c : Core) : (s.setCore p c).routesM = s.routesM := rfl
@[simp] theorem State.setCore_hbm (s : State) (p : Nat) (c : Core) : (s.setCore p c).hbm = s.hbm := rfl
@[simp] theorem State.setCore_hbmTags (s : State) (p : Nat) (c : Core) : (s.setCore p c).hbmTags = s.hbmTags := rfl
@[simp] theorem State.setCore_host (s : State) (p : Nat) (c : Core) : (s.setCore p c).host = s.host := rfl
@[simp] theorem State.setCore_fuses (s : State) (p : Nat) (c : Core) : (s.setCore p c).fuses = s.fuses := rfl
@[simp] theorem State.setCore_sup (s : State) (p : Nat) (c : Core) : (s.setCore p c).sup = s.sup := rfl
@[simp] theorem State.setCore_packets (s : State) (p : Nat) (c : Core) : (s.setCore p c).packets = s.packets := rfl
@[simp] theorem State.setCore_agenda (s : State) (p : Nat) (c : Core) : (s.setCore p c).agenda = s.agenda := rfl
@[simp] theorem State.setCore_parked (s : State) (p : Nat) (c : Core) : (s.setCore p c).parked = s.parked := rfl
@[simp] theorem State.setCore_cur (s : State) (p : Nat) (c : Core) : (s.setCore p c).cur = s.cur := rfl
@[simp] theorem State.setCore_arg (s : State) (p : Nat) (c : Core) : (s.setCore p c).arg = s.arg := rfl
@[simp] theorem State.setCore_nextId (s : State) (p : Nat) (c : Core) : (s.setCore p c).nextId = s.nextId := rfl
@[simp] theorem State.setCore_freeCtr (s : State) (p : Nat) (c : Core) : (s.setCore p c).freeCtr = s.freeCtr := rfl

@[simp] theorem State.modCore_now (s : State) (p : Nat) (f : Core → Core) : (s.modCore p f).now = s.now := rfl
@[simp] theorem State.modCore_blocks (s : State) (p : Nat) (f : Core → Core) : (s.modCore p f).blocks = s.blocks := rfl
@[simp] theorem State.modCore_slices (s : State) (p : Nat) (f : Core → Core) : (s.modCore p f).slices = s.slices := rfl
@[simp] theorem State.modCore_parts (s : State) (p : Nat) (f : Core → Core) : (s.modCore p f).parts = s.parts := rfl
@[simp] theorem State.modCore_ports (s : State) (p : Nat) (f : Core → Core) : (s.modCore p f).ports = s.ports := rfl
@[simp] theorem State.modCore_dcms (s : State) (p : Nat) (f : Core → Core) : (s.modCore p f).dcms = s.dcms := rfl
@[simp] theorem State.modCore_routesC (s : State) (p : Nat) (f : Core → Core) : (s.modCore p f).routesC = s.routesC := rfl
@[simp] theorem State.modCore_routesM (s : State) (p : Nat) (f : Core → Core) : (s.modCore p f).routesM = s.routesM := rfl
@[simp] theorem State.modCore_hbm (s : State) (p : Nat) (f : Core → Core) : (s.modCore p f).hbm = s.hbm := rfl
@[simp] theorem State.modCore_hbmTags (s : State) (p : Nat) (f : Core → Core) : (s.modCore p f).hbmTags = s.hbmTags := rfl
@[simp] theorem State.modCore_host (s : State) (p : Nat) (f : Core → Core) : (s.modCore p f).host = s.host := rfl
@[simp] theorem State.modCore_fuses (s : State) (p : Nat) (f : Core → Core) : (s.modCore p f).fuses = s.fuses := rfl
@[simp] theorem State.modCore_sup (s : State) (p : Nat) (f : Core → Core) : (s.modCore p f).sup = s.sup := rfl
@[simp] theorem State.modCore_packets (s : State) (p : Nat) (f : Core → Core) : (s.modCore p f).packets = s.packets := rfl
@[simp] theorem State.modCore_agenda (s : State) (p : Nat) (f : Core → Core) : (s.modCore p f).agenda = s.agenda := rfl
@[simp] theorem State.modCore_parked (s : State) (p : Nat) (f : Core → Core) : (s.modCore p f).parked = s.parked := rfl
@[simp] theorem State.modCore_cur (s : State) (p : Nat) (f : Core → Core) : (s.modCore p f).cur = s.cur := rfl
@[simp] theorem State.modCore_arg (s : State) (p : Nat) (f : Core → Core) : (s.modCore p f).arg = s.arg := rfl
@[simp] theorem State.modCore_nextId (s : State) (p : Nat) (f : Core → Core) : (s.modCore p f).nextId = s.nextId := rfl
@[simp] theorem State.modCore_freeCtr (s : State) (p : Nat) (f : Core → Core) : (s.modCore p f).freeCtr = s.freeCtr := rfl

@[simp] theorem State.setBlock_now (s : State) (b : Nat) (x : Block) : (s.setBlock b x).now = s.now := rfl
@[simp] theorem State.setBlock_cores (s : State) (b : Nat) (x : Block) : (s.setBlock b x).cores = s.cores := rfl
@[simp] theorem State.setBlock_slices (s : State) (b : Nat) (x : Block) : (s.setBlock b x).slices = s.slices := rfl
@[simp] theorem State.setBlock_parts (s : State) (b : Nat) (x : Block) : (s.setBlock b x).parts = s.parts := rfl
@[simp] theorem State.setBlock_ports (s : State) (b : Nat) (x : Block) : (s.setBlock b x).ports = s.ports := rfl
@[simp] theorem State.setBlock_dcms (s : State) (b : Nat) (x : Block) : (s.setBlock b x).dcms = s.dcms := rfl
@[simp] theorem State.setBlock_routesC (s : State) (b : Nat) (x : Block) : (s.setBlock b x).routesC = s.routesC := rfl
@[simp] theorem State.setBlock_routesM (s : State) (b : Nat) (x : Block) : (s.setBlock b x).routesM = s.routesM := rfl
@[simp] theorem State.setBlock_hbm (s : State) (b : Nat) (x : Block) : (s.setBlock b x).hbm = s.hbm := rfl
@[simp] theorem State.setBlock_hbmTags (s : State) (b : Nat) (x : Block) : (s.setBlock b x).hbmTags = s.hbmTags := rfl
@[simp] theorem State.setBlock_host (s : State) (b : Nat) (x : Block) : (s.setBlock b x).host = s.host := rfl
@[simp] theorem State.setBlock_fuses (s : State) (b : Nat) (x : Block) : (s.setBlock b x).fuses = s.fuses := rfl
@[simp] theorem State.setBlock_sup (s : State) (b : Nat) (x : Block) : (s.setBlock b x).sup = s.sup := rfl
@[simp] theorem State.setBlock_packets (s : State) (b : Nat) (x : Block) : (s.setBlock b x).packets = s.packets := rfl
@[simp] theorem State.setBlock_agenda (s : State) (b : Nat) (x : Block) : (s.setBlock b x).agenda = s.agenda := rfl
@[simp] theorem State.setBlock_parked (s : State) (b : Nat) (x : Block) : (s.setBlock b x).parked = s.parked := rfl
@[simp] theorem State.setBlock_cur (s : State) (b : Nat) (x : Block) : (s.setBlock b x).cur = s.cur := rfl
@[simp] theorem State.setBlock_arg (s : State) (b : Nat) (x : Block) : (s.setBlock b x).arg = s.arg := rfl
@[simp] theorem State.setBlock_nextId (s : State) (b : Nat) (x : Block) : (s.setBlock b x).nextId = s.nextId := rfl
@[simp] theorem State.setBlock_freeCtr (s : State) (b : Nat) (x : Block) : (s.setBlock b x).freeCtr = s.freeCtr := rfl

@[simp] theorem State.modBlock_now (s : State) (b : Nat) (f : Block → Block) : (s.modBlock b f).now = s.now := rfl
@[simp] theorem State.modBlock_cores (s : State) (b : Nat) (f : Block → Block) : (s.modBlock b f).cores = s.cores := rfl
@[simp] theorem State.modBlock_slices (s : State) (b : Nat) (f : Block → Block) : (s.modBlock b f).slices = s.slices := rfl
@[simp] theorem State.modBlock_parts (s : State) (b : Nat) (f : Block → Block) : (s.modBlock b f).parts = s.parts := rfl
@[simp] theorem State.modBlock_ports (s : State) (b : Nat) (f : Block → Block) : (s.modBlock b f).ports = s.ports := rfl
@[simp] theorem State.modBlock_dcms (s : State) (b : Nat) (f : Block → Block) : (s.modBlock b f).dcms = s.dcms := rfl
@[simp] theorem State.modBlock_routesC (s : State) (b : Nat) (f : Block → Block) : (s.modBlock b f).routesC = s.routesC := rfl
@[simp] theorem State.modBlock_routesM (s : State) (b : Nat) (f : Block → Block) : (s.modBlock b f).routesM = s.routesM := rfl
@[simp] theorem State.modBlock_hbm (s : State) (b : Nat) (f : Block → Block) : (s.modBlock b f).hbm = s.hbm := rfl
@[simp] theorem State.modBlock_hbmTags (s : State) (b : Nat) (f : Block → Block) : (s.modBlock b f).hbmTags = s.hbmTags := rfl
@[simp] theorem State.modBlock_host (s : State) (b : Nat) (f : Block → Block) : (s.modBlock b f).host = s.host := rfl
@[simp] theorem State.modBlock_fuses (s : State) (b : Nat) (f : Block → Block) : (s.modBlock b f).fuses = s.fuses := rfl
@[simp] theorem State.modBlock_sup (s : State) (b : Nat) (f : Block → Block) : (s.modBlock b f).sup = s.sup := rfl
@[simp] theorem State.modBlock_packets (s : State) (b : Nat) (f : Block → Block) : (s.modBlock b f).packets = s.packets := rfl
@[simp] theorem State.modBlock_agenda (s : State) (b : Nat) (f : Block → Block) : (s.modBlock b f).agenda = s.agenda := rfl
@[simp] theorem State.modBlock_parked (s : State) (b : Nat) (f : Block → Block) : (s.modBlock b f).parked = s.parked := rfl
@[simp] theorem State.modBlock_cur (s : State) (b : Nat) (f : Block → Block) : (s.modBlock b f).cur = s.cur := rfl
@[simp] theorem State.modBlock_arg (s : State) (b : Nat) (f : Block → Block) : (s.modBlock b f).arg = s.arg := rfl
@[simp] theorem State.modBlock_nextId (s : State) (b : Nat) (f : Block → Block) : (s.modBlock b f).nextId = s.nextId := rfl
@[simp] theorem State.modBlock_freeCtr (s : State) (b : Nat) (f : Block → Block) : (s.modBlock b f).freeCtr = s.freeCtr := rfl

@[simp] theorem State.setSlice_now (s : State) (n : Nat) (x : Slice) : (s.setSlice n x).now = s.now := rfl
@[simp] theorem State.setSlice_cores (s : State) (n : Nat) (x : Slice) : (s.setSlice n x).cores = s.cores := rfl
@[simp] theorem State.setSlice_blocks (s : State) (n : Nat) (x : Slice) : (s.setSlice n x).blocks = s.blocks := rfl
@[simp] theorem State.setSlice_parts (s : State) (n : Nat) (x : Slice) : (s.setSlice n x).parts = s.parts := rfl
@[simp] theorem State.setSlice_ports (s : State) (n : Nat) (x : Slice) : (s.setSlice n x).ports = s.ports := rfl
@[simp] theorem State.setSlice_dcms (s : State) (n : Nat) (x : Slice) : (s.setSlice n x).dcms = s.dcms := rfl
@[simp] theorem State.setSlice_routesC (s : State) (n : Nat) (x : Slice) : (s.setSlice n x).routesC = s.routesC := rfl
@[simp] theorem State.setSlice_routesM (s : State) (n : Nat) (x : Slice) : (s.setSlice n x).routesM = s.routesM := rfl
@[simp] theorem State.setSlice_hbm (s : State) (n : Nat) (x : Slice) : (s.setSlice n x).hbm = s.hbm := rfl
@[simp] theorem State.setSlice_hbmTags (s : State) (n : Nat) (x : Slice) : (s.setSlice n x).hbmTags = s.hbmTags := rfl
@[simp] theorem State.setSlice_host (s : State) (n : Nat) (x : Slice) : (s.setSlice n x).host = s.host := rfl
@[simp] theorem State.setSlice_fuses (s : State) (n : Nat) (x : Slice) : (s.setSlice n x).fuses = s.fuses := rfl
@[simp] theorem State.setSlice_sup (s : State) (n : Nat) (x : Slice) : (s.setSlice n x).sup = s.sup := rfl
@[simp] theorem State.setSlice_packets (s : State) (n : Nat) (x : Slice) : (s.setSlice n x).packets = s.packets := rfl
@[simp] theorem State.setSlice_agenda (s : State) (n : Nat) (x : Slice) : (s.setSlice n x).agenda = s.agenda := rfl
@[simp] theorem State.setSlice_parked (s : State) (n : Nat) (x : Slice) : (s.setSlice n x).parked = s.parked := rfl
@[simp] theorem State.setSlice_cur (s : State) (n : Nat) (x : Slice) : (s.setSlice n x).cur = s.cur := rfl
@[simp] theorem State.setSlice_arg (s : State) (n : Nat) (x : Slice) : (s.setSlice n x).arg = s.arg := rfl
@[simp] theorem State.setSlice_nextId (s : State) (n : Nat) (x : Slice) : (s.setSlice n x).nextId = s.nextId := rfl
@[simp] theorem State.setSlice_freeCtr (s : State) (n : Nat) (x : Slice) : (s.setSlice n x).freeCtr = s.freeCtr := rfl

@[simp] theorem State.modSlice_now (s : State) (n : Nat) (f : Slice → Slice) : (s.modSlice n f).now = s.now := rfl
@[simp] theorem State.modSlice_cores (s : State) (n : Nat) (f : Slice → Slice) : (s.modSlice n f).cores = s.cores := rfl
@[simp] theorem State.modSlice_blocks (s : State) (n : Nat) (f : Slice → Slice) : (s.modSlice n f).blocks = s.blocks := rfl
@[simp] theorem State.modSlice_parts (s : State) (n : Nat) (f : Slice → Slice) : (s.modSlice n f).parts = s.parts := rfl
@[simp] theorem State.modSlice_ports (s : State) (n : Nat) (f : Slice → Slice) : (s.modSlice n f).ports = s.ports := rfl
@[simp] theorem State.modSlice_dcms (s : State) (n : Nat) (f : Slice → Slice) : (s.modSlice n f).dcms = s.dcms := rfl
@[simp] theorem State.modSlice_routesC (s : State) (n : Nat) (f : Slice → Slice) : (s.modSlice n f).routesC = s.routesC := rfl
@[simp] theorem State.modSlice_routesM (s : State) (n : Nat) (f : Slice → Slice) : (s.modSlice n f).routesM = s.routesM := rfl
@[simp] theorem State.modSlice_hbm (s : State) (n : Nat) (f : Slice → Slice) : (s.modSlice n f).hbm = s.hbm := rfl
@[simp] theorem State.modSlice_hbmTags (s : State) (n : Nat) (f : Slice → Slice) : (s.modSlice n f).hbmTags = s.hbmTags := rfl
@[simp] theorem State.modSlice_host (s : State) (n : Nat) (f : Slice → Slice) : (s.modSlice n f).host = s.host := rfl
@[simp] theorem State.modSlice_fuses (s : State) (n : Nat) (f : Slice → Slice) : (s.modSlice n f).fuses = s.fuses := rfl
@[simp] theorem State.modSlice_sup (s : State) (n : Nat) (f : Slice → Slice) : (s.modSlice n f).sup = s.sup := rfl
@[simp] theorem State.modSlice_packets (s : State) (n : Nat) (f : Slice → Slice) : (s.modSlice n f).packets = s.packets := rfl
@[simp] theorem State.modSlice_agenda (s : State) (n : Nat) (f : Slice → Slice) : (s.modSlice n f).agenda = s.agenda := rfl
@[simp] theorem State.modSlice_parked (s : State) (n : Nat) (f : Slice → Slice) : (s.modSlice n f).parked = s.parked := rfl
@[simp] theorem State.modSlice_cur (s : State) (n : Nat) (f : Slice → Slice) : (s.modSlice n f).cur = s.cur := rfl
@[simp] theorem State.modSlice_arg (s : State) (n : Nat) (f : Slice → Slice) : (s.modSlice n f).arg = s.arg := rfl
@[simp] theorem State.modSlice_nextId (s : State) (n : Nat) (f : Slice → Slice) : (s.modSlice n f).nextId = s.nextId := rfl
@[simp] theorem State.modSlice_freeCtr (s : State) (n : Nat) (f : Slice → Slice) : (s.modSlice n f).freeCtr = s.freeCtr := rfl

@[simp] theorem State.setPart_now (s : State) (sp : Nat) (x : Partition) : (s.setPart sp x).now = s.now := rfl
@[simp] theorem State.setPart_cores (s : State) (sp : Nat) (x : Partition) : (s.setPart sp x).cores = s.cores := rfl
@[simp] theorem State.setPart_blocks (s : State) (sp : Nat) (x : Partition) : (s.setPart sp x).blocks = s.blocks := rfl
@[simp] theorem State.setPart_slices (s : State) (sp : Nat) (x : Partition) : (s.setPart sp x).slices = s.slices := rfl
@[simp] theorem State.setPart_ports (s : State) (sp : Nat) (x : Partition) : (s.setPart sp x).ports = s.ports := rfl
@[simp] theorem State.setPart_dcms (s : State) (sp : Nat) (x : Partition) : (s.setPart sp x).dcms = s.dcms := rfl
@[simp] theorem State.setPart_routesC (s : State) (sp : Nat) (x : Partition) : (s.setPart sp x).routesC = s.routesC := rfl
@[simp] theorem State.setPart_routesM (s : State) (sp : Nat) (x : Partition) : (s.setPart sp x).routesM = s.routesM := rfl
@[simp] theorem State.setPart_hbm (s : State) (sp : Nat) (x : Partition) : (s.setPart sp x).hbm = s.hbm := rfl
@[simp] theorem State.setPart_hbmTags (s : State) (sp : Nat) (x : Partition) : (s.setPart sp x).hbmTags = s.hbmTags := rfl
@[simp] theorem State.setPart_host (s : State) (sp : Nat) (x : Partition) : (s.setPart sp x).host = s.host := rfl
@[simp] theorem State.setPart_fuses (s : State) (sp : Nat) (x : Partition) : (s.setPart sp x).fuses = s.fuses := rfl
@[simp] theorem State.setPart_sup (s : State) (sp : Nat) (x : Partition) : (s.setPart sp x).sup = s.sup := rfl
@[simp] theorem State.setPart_packets (s : State) (sp : Nat) (x : Partition) : (s.setPart sp x).packets = s.packets := rfl
@[simp] theorem State.setPart_agenda (s : State) (sp : Nat) (x : Partition) : (s.setPart sp x).agenda = s.agenda := rfl
@[simp] theorem State.setPart_parked (s : State) (sp : Nat) (x : Partition) : (s.setPart sp x).parked = s.parked := rfl
@[simp] theorem State.setPart_cur (s : State) (sp : Nat) (x : Partition) : (s.setPart sp x).cur = s.cur := rfl
@[simp] theorem State.setPart_arg (s : State) (sp : Nat) (x : Partition) : (s.setPart sp x).arg = s.arg := rfl
@[simp] theorem State.setPart_nextId (s : State) (sp : Nat) (x : Partition) : (s.setPart sp x).nextId = s.nextId := rfl
@[simp] theorem State.setPart_freeCtr (s : State) (sp : Nat) (x : Partition) : (s.setPart sp x).freeCtr = s.freeCtr := rfl

@[simp] theorem State.modPart_now (s : State) (sp : Nat) (f : Partition → Partition) : (s.modPart sp f).now = s.now := rfl
@[simp] theorem State.modPart_cores (s : State) (sp : Nat) (f : Partition → Partition) : (s.modPart sp f).cores = s.cores := rfl
@[simp] theorem State.modPart_blocks (s : State) (sp : Nat) (f : Partition → Partition) : (s.modPart sp f).blocks = s.blocks := rfl
@[simp] theorem State.modPart_slices (s : State) (sp : Nat) (f : Partition → Partition) : (s.modPart sp f).slices = s.slices := rfl
@[simp] theorem State.modPart_ports (s : State) (sp : Nat) (f : Partition → Partition) : (s.modPart sp f).ports = s.ports := rfl
@[simp] theorem State.modPart_dcms (s : State) (sp : Nat) (f : Partition → Partition) : (s.modPart sp f).dcms = s.dcms := rfl
@[simp] theorem State.modPart_routesC (s : State) (sp : Nat) (f : Partition → Partition) : (s.modPart sp f).routesC = s.routesC := rfl
@[simp] theorem State.modPart_routesM (s : State) (sp : Nat) (f : Partition → Partition) : (s.modPart sp f).routesM = s.routesM := rfl
@[simp] theorem State.modPart_hbm (s : State) (sp : Nat) (f : Partition → Partition) : (s.modPart sp f).hbm = s.hbm := rfl
@[simp] theorem State.modPart_hbmTags (s : State) (sp : Nat) (f : Partition → Partition) : (s.modPart sp f).hbmTags = s.hbmTags := rfl
@[simp] theorem State.modPart_host (s : State) (sp : Nat) (f : Partition → Partition) : (s.modPart sp f).host = s.host := rfl
@[simp] theorem State.modPart_fuses (s : State) (sp : Nat) (f : Partition → Partition) : (s.modPart sp f).fuses = s.fuses := rfl
@[simp] theorem State.modPart_sup (s : State) (sp : Nat) (f : Partition → Partition) : (s.modPart sp f).sup = s.sup := rfl
@[simp] theorem State.modPart_packets (s : State) (sp : Nat) (f : Partition → Partition) : (s.modPart sp f).packets = s.packets := rfl
@[simp] theorem State.modPart_agenda (s : State) (sp : Nat) (f : Partition → Partition) : (s.modPart sp f).agenda = s.agenda := rfl
@[simp] theorem State.modPart_parked (s : State) (sp : Nat) (f : Partition → Partition) : (s.modPart sp f).parked = s.parked := rfl
@[simp] theorem State.modPart_cur (s : State) (sp : Nat) (f : Partition → Partition) : (s.modPart sp f).cur = s.cur := rfl
@[simp] theorem State.modPart_arg (s : State) (sp : Nat) (f : Partition → Partition) : (s.modPart sp f).arg = s.arg := rfl
@[simp] theorem State.modPart_nextId (s : State) (sp : Nat) (f : Partition → Partition) : (s.modPart sp f).nextId = s.nextId := rfl
@[simp] theorem State.modPart_freeCtr (s : State) (sp : Nat) (f : Partition → Partition) : (s.modPart sp f).freeCtr = s.freeCtr := rfl

@[simp] theorem State.modPort_now (s : State) (k : Nat) (f : Port → Port) : (s.modPort k f).now = s.now := rfl
@[simp] theorem State.modPort_cores (s : State) (k : Nat) (f : Port → Port) : (s.modPort k f).cores = s.cores := rfl
@[simp] theorem State.modPort_blocks (s : State) (k : Nat) (f : Port → Port) : (s.modPort k f).blocks = s.blocks := rfl
@[simp] theorem State.modPort_slices (s : State) (k : Nat) (f : Port → Port) : (s.modPort k f).slices = s.slices := rfl
@[simp] theorem State.modPort_parts (s : State) (k : Nat) (f : Port → Port) : (s.modPort k f).parts = s.parts := rfl
@[simp] theorem State.modPort_dcms (s : State) (k : Nat) (f : Port → Port) : (s.modPort k f).dcms = s.dcms := rfl
@[simp] theorem State.modPort_routesC (s : State) (k : Nat) (f : Port → Port) : (s.modPort k f).routesC = s.routesC := rfl
@[simp] theorem State.modPort_routesM (s : State) (k : Nat) (f : Port → Port) : (s.modPort k f).routesM = s.routesM := rfl
@[simp] theorem State.modPort_hbm (s : State) (k : Nat) (f : Port → Port) : (s.modPort k f).hbm = s.hbm := rfl
@[simp] theorem State.modPort_hbmTags (s : State) (k : Nat) (f : Port → Port) : (s.modPort k f).hbmTags = s.hbmTags := rfl
@[simp] theorem State.modPort_host (s : State) (k : Nat) (f : Port → Port) : (s.modPort k f).host = s.host := rfl
@[simp] theorem State.modPort_fuses (s : State) (k : Nat) (f : Port → Port) : (s.modPort k f).fuses = s.fuses := rfl
@[simp] theorem State.modPort_sup (s : State) (k : Nat) (f : Port → Port) : (s.modPort k f).sup = s.sup := rfl
@[simp] theorem State.modPort_packets (s : State) (k : Nat) (f : Port → Port) : (s.modPort k f).packets = s.packets := rfl
@[simp] theorem State.modPort_agenda (s : State) (k : Nat) (f : Port → Port) : (s.modPort k f).agenda = s.agenda := rfl
@[simp] theorem State.modPort_parked (s : State) (k : Nat) (f : Port → Port) : (s.modPort k f).parked = s.parked := rfl
@[simp] theorem State.modPort_cur (s : State) (k : Nat) (f : Port → Port) : (s.modPort k f).cur = s.cur := rfl
@[simp] theorem State.modPort_arg (s : State) (k : Nat) (f : Port → Port) : (s.modPort k f).arg = s.arg := rfl
@[simp] theorem State.modPort_nextId (s : State) (k : Nat) (f : Port → Port) : (s.modPort k f).nextId = s.nextId := rfl
@[simp] theorem State.modPort_freeCtr (s : State) (k : Nat) (f : Port → Port) : (s.modPort k f).freeCtr = s.freeCtr := rfl

@[simp] theorem State.modDcm_now (s : State) (n : Nat) (f : Dcm → Dcm) : (s.modDcm n f).now = s.now := rfl
@[simp] theorem State.modDcm_cores (s : State) (n : Nat) (f : Dcm → Dcm) : (s.modDcm n f).cores = s.cores := rfl
@[simp] theorem State.modDcm_blocks (s : State) (n : Nat) (f : Dcm → Dcm) : (s.modDcm n f).blocks = s.blocks := rfl
@[simp] theorem State.modDcm_slices (s : State) (n : Nat) (f : Dcm → Dcm) : (s.modDcm n f).slices = s.slices := rfl
@[simp] theorem State.modDcm_parts (s : State) (n : Nat) (f : Dcm → Dcm) : (s.modDcm n f).parts = s.parts := rfl
@[simp] theorem State.modDcm_ports (s : State) (n : Nat) (f : Dcm → Dcm) : (s.modDcm n f).ports = s.ports := rfl
@[simp] theorem State.modDcm_routesC (s : State) (n : Nat) (f : Dcm → Dcm) : (s.modDcm n f).routesC = s.routesC := rfl
@[simp] theorem State.modDcm_routesM (s : State) (n : Nat) (f : Dcm → Dcm) : (s.modDcm n f).routesM = s.routesM := rfl
@[simp] theorem State.modDcm_hbm (s : State) (n : Nat) (f : Dcm → Dcm) : (s.modDcm n f).hbm = s.hbm := rfl
@[simp] theorem State.modDcm_hbmTags (s : State) (n : Nat) (f : Dcm → Dcm) : (s.modDcm n f).hbmTags = s.hbmTags := rfl
@[simp] theorem State.modDcm_host (s : State) (n : Nat) (f : Dcm → Dcm) : (s.modDcm n f).host = s.host := rfl
@[simp] theorem State.modDcm_fuses (s : State) (n : Nat) (f : Dcm → Dcm) : (s.modDcm n f).fuses = s.fuses := rfl
@[simp] theorem State.modDcm_sup (s : State) (n : Nat) (f : Dcm → Dcm) : (s.modDcm n f).sup = s.sup := rfl
@[simp] theorem State.modDcm_packets (s : State) (n : Nat) (f : Dcm → Dcm) : (s.modDcm n f).packets = s.packets := rfl
@[simp] theorem State.modDcm_agenda (s : State) (n : Nat) (f : Dcm → Dcm) : (s.modDcm n f).agenda = s.agenda := rfl
@[simp] theorem State.modDcm_parked (s : State) (n : Nat) (f : Dcm → Dcm) : (s.modDcm n f).parked = s.parked := rfl
@[simp] theorem State.modDcm_cur (s : State) (n : Nat) (f : Dcm → Dcm) : (s.modDcm n f).cur = s.cur := rfl
@[simp] theorem State.modDcm_arg (s : State) (n : Nat) (f : Dcm → Dcm) : (s.modDcm n f).arg = s.arg := rfl
@[simp] theorem State.modDcm_nextId (s : State) (n : Nat) (f : Dcm → Dcm) : (s.modDcm n f).nextId = s.nextId := rfl
@[simp] theorem State.modDcm_freeCtr (s : State) (n : Nat) (f : Dcm → Dcm) : (s.modDcm n f).freeCtr = s.freeCtr := rfl

@[simp] theorem State.setStrand_now (s : State) (p k : Nat) (x : Strand) : (s.setStrand p k x).now = s.now := rfl
@[simp] theorem State.setStrand_blocks (s : State) (p k : Nat) (x : Strand) : (s.setStrand p k x).blocks = s.blocks := rfl
@[simp] theorem State.setStrand_slices (s : State) (p k : Nat) (x : Strand) : (s.setStrand p k x).slices = s.slices := rfl
@[simp] theorem State.setStrand_parts (s : State) (p k : Nat) (x : Strand) : (s.setStrand p k x).parts = s.parts := rfl
@[simp] theorem State.setStrand_ports (s : State) (p k : Nat) (x : Strand) : (s.setStrand p k x).ports = s.ports := rfl
@[simp] theorem State.setStrand_dcms (s : State) (p k : Nat) (x : Strand) : (s.setStrand p k x).dcms = s.dcms := rfl
@[simp] theorem State.setStrand_routesC (s : State) (p k : Nat) (x : Strand) : (s.setStrand p k x).routesC = s.routesC := rfl
@[simp] theorem State.setStrand_routesM (s : State) (p k : Nat) (x : Strand) : (s.setStrand p k x).routesM = s.routesM := rfl
@[simp] theorem State.setStrand_hbm (s : State) (p k : Nat) (x : Strand) : (s.setStrand p k x).hbm = s.hbm := rfl
@[simp] theorem State.setStrand_hbmTags (s : State) (p k : Nat) (x : Strand) : (s.setStrand p k x).hbmTags = s.hbmTags := rfl
@[simp] theorem State.setStrand_host (s : State) (p k : Nat) (x : Strand) : (s.setStrand p k x).host = s.host := rfl
@[simp] theorem State.setStrand_fuses (s : State) (p k : Nat) (x : Strand) : (s.setStrand p k x).fuses = s.fuses := rfl
@[simp] theorem State.setStrand_sup (s : State) (p k : Nat) (x : Strand) : (s.setStrand p k x).sup = s.sup := rfl
@[simp] theorem State.setStrand_packets (s : State) (p k : Nat) (x : Strand) : (s.setStrand p k x).packets = s.packets := rfl
@[simp] theorem State.setStrand_agenda (s : State) (p k : Nat) (x : Strand) : (s.setStrand p k x).agenda = s.agenda := rfl
@[simp] theorem State.setStrand_parked (s : State) (p k : Nat) (x : Strand) : (s.setStrand p k x).parked = s.parked := rfl
@[simp] theorem State.setStrand_cur (s : State) (p k : Nat) (x : Strand) : (s.setStrand p k x).cur = s.cur := rfl
@[simp] theorem State.setStrand_arg (s : State) (p k : Nat) (x : Strand) : (s.setStrand p k x).arg = s.arg := rfl
@[simp] theorem State.setStrand_nextId (s : State) (p k : Nat) (x : Strand) : (s.setStrand p k x).nextId = s.nextId := rfl
@[simp] theorem State.setStrand_freeCtr (s : State) (p k : Nat) (x : Strand) : (s.setStrand p k x).freeCtr = s.freeCtr := rfl

@[simp] theorem State.modStrand_now (s : State) (p k : Nat) (f : Strand → Strand) : (s.modStrand p k f).now = s.now := rfl
@[simp] theorem State.modStrand_blocks (s : State) (p k : Nat) (f : Strand → Strand) : (s.modStrand p k f).blocks = s.blocks := rfl
@[simp] theorem State.modStrand_slices (s : State) (p k : Nat) (f : Strand → Strand) : (s.modStrand p k f).slices = s.slices := rfl
@[simp] theorem State.modStrand_parts (s : State) (p k : Nat) (f : Strand → Strand) : (s.modStrand p k f).parts = s.parts := rfl
@[simp] theorem State.modStrand_ports (s : State) (p k : Nat) (f : Strand → Strand) : (s.modStrand p k f).ports = s.ports := rfl
@[simp] theorem State.modStrand_dcms (s : State) (p k : Nat) (f : Strand → Strand) : (s.modStrand p k f).dcms = s.dcms := rfl
@[simp] theorem State.modStrand_routesC (s : State) (p k : Nat) (f : Strand → Strand) : (s.modStrand p k f).routesC = s.routesC := rfl
@[simp] theorem State.modStrand_routesM (s : State) (p k : Nat) (f : Strand → Strand) : (s.modStrand p k f).routesM = s.routesM := rfl
@[simp] theorem State.modStrand_hbm (s : State) (p k : Nat) (f : Strand → Strand) : (s.modStrand p k f).hbm = s.hbm := rfl
@[simp] theorem State.modStrand_hbmTags (s : State) (p k : Nat) (f : Strand → Strand) : (s.modStrand p k f).hbmTags = s.hbmTags := rfl
@[simp] theorem State.modStrand_host (s : State) (p k : Nat) (f : Strand → Strand) : (s.modStrand p k f).host = s.host := rfl
@[simp] theorem State.modStrand_fuses (s : State) (p k : Nat) (f : Strand → Strand) : (s.modStrand p k f).fuses = s.fuses := rfl
@[simp] theorem State.modStrand_sup (s : State) (p k : Nat) (f : Strand → Strand) : (s.modStrand p k f).sup = s.sup := rfl
@[simp] theorem State.modStrand_packets (s : State) (p k : Nat) (f : Strand → Strand) : (s.modStrand p k f).packets = s.packets := rfl
@[simp] theorem State.modStrand_agenda (s : State) (p k : Nat) (f : Strand → Strand) : (s.modStrand p k f).agenda = s.agenda := rfl
@[simp] theorem State.modStrand_parked (s : State) (p k : Nat) (f : Strand → Strand) : (s.modStrand p k f).parked = s.parked := rfl
@[simp] theorem State.modStrand_cur (s : State) (p k : Nat) (f : Strand → Strand) : (s.modStrand p k f).cur = s.cur := rfl
@[simp] theorem State.modStrand_arg (s : State) (p k : Nat) (f : Strand → Strand) : (s.modStrand p k f).arg = s.arg := rfl
@[simp] theorem State.modStrand_nextId (s : State) (p k : Nat) (f : Strand → Strand) : (s.modStrand p k f).nextId = s.nextId := rfl
@[simp] theorem State.modStrand_freeCtr (s : State) (p k : Nat) (f : Strand → Strand) : (s.modStrand p k f).freeCtr = s.freeCtr := rfl

@[simp] theorem State.setMe_now (s : State) (x : Strand) : (s.setMe x).now = s.now := rfl
@[simp] theorem State.setMe_blocks (s : State) (x : Strand) : (s.setMe x).blocks = s.blocks := rfl
@[simp] theorem State.setMe_slices (s : State) (x : Strand) : (s.setMe x).slices = s.slices := rfl
@[simp] theorem State.setMe_parts (s : State) (x : Strand) : (s.setMe x).parts = s.parts := rfl
@[simp] theorem State.setMe_ports (s : State) (x : Strand) : (s.setMe x).ports = s.ports := rfl
@[simp] theorem State.setMe_dcms (s : State) (x : Strand) : (s.setMe x).dcms = s.dcms := rfl
@[simp] theorem State.setMe_routesC (s : State) (x : Strand) : (s.setMe x).routesC = s.routesC := rfl
@[simp] theorem State.setMe_routesM (s : State) (x : Strand) : (s.setMe x).routesM = s.routesM := rfl
@[simp] theorem State.setMe_hbm (s : State) (x : Strand) : (s.setMe x).hbm = s.hbm := rfl
@[simp] theorem State.setMe_hbmTags (s : State) (x : Strand) : (s.setMe x).hbmTags = s.hbmTags := rfl
@[simp] theorem State.setMe_host (s : State) (x : Strand) : (s.setMe x).host = s.host := rfl
@[simp] theorem State.setMe_fuses (s : State) (x : Strand) : (s.setMe x).fuses = s.fuses := rfl
@[simp] theorem State.setMe_sup (s : State) (x : Strand) : (s.setMe x).sup = s.sup := rfl
@[simp] theorem State.setMe_packets (s : State) (x : Strand) : (s.setMe x).packets = s.packets := rfl
@[simp] theorem State.setMe_agenda (s : State) (x : Strand) : (s.setMe x).agenda = s.agenda := rfl
@[simp] theorem State.setMe_parked (s : State) (x : Strand) : (s.setMe x).parked = s.parked := rfl
@[simp] theorem State.setMe_cur (s : State) (x : Strand) : (s.setMe x).cur = s.cur := rfl
@[simp] theorem State.setMe_arg (s : State) (x : Strand) : (s.setMe x).arg = s.arg := rfl
@[simp] theorem State.setMe_nextId (s : State) (x : Strand) : (s.setMe x).nextId = s.nextId := rfl
@[simp] theorem State.setMe_freeCtr (s : State) (x : Strand) : (s.setMe x).freeCtr = s.freeCtr := rfl

@[simp] theorem State.modMe_now (s : State) (f : Strand → Strand) : (s.modMe f).now = s.now := rfl
@[simp] theorem State.modMe_blocks (s : State) (f : Strand → Strand) : (s.modMe f).blocks = s.blocks := rfl
@[simp] theorem State.modMe_slices (s : State) (f : Strand → Strand) : (s.modMe f).slices = s.slices := rfl
@[simp] theorem State.modMe_parts (s : State) (f : Strand → Strand) : (s.modMe f).parts = s.parts := rfl
@[simp] theorem State.modMe_ports (s : State) (f : Strand → Strand) : (s.modMe f).ports = s.ports := rfl
@[simp] theorem State.modMe_dcms (s : State) (f : Strand → Strand) : (s.modMe f).dcms = s.dcms := rfl
@[simp] theorem State.modMe_routesC (s : State) (f : Strand → Strand) : (s.modMe f).routesC = s.routesC := rfl
@[simp] theorem State.modMe_routesM (s : State) (f : Strand → Strand) : (s.modMe f).routesM = s.routesM := rfl
@[simp] theorem State.modMe_hbm (s : State) (f : Strand → Strand) : (s.modMe f).hbm = s.hbm := rfl
@[simp] theorem State.modMe_hbmTags (s : State) (f : Strand → Strand) : (s.modMe f).hbmTags = s.hbmTags := rfl
@[simp] theorem State.modMe_host (s : State) (f : Strand → Strand) : (s.modMe f).host = s.host := rfl
@[simp] theorem State.modMe_fuses (s : State) (f : Strand → Strand) : (s.modMe f).fuses = s.fuses := rfl
@[simp] theorem State.modMe_sup (s : State) (f : Strand → Strand) : (s.modMe f).sup = s.sup := rfl
@[simp] theorem State.modMe_packets (s : State) (f : Strand → Strand) : (s.modMe f).packets = s.packets := rfl
@[simp] theorem State.modMe_agenda (s : State) (f : Strand → Strand) : (s.modMe f).agenda = s.agenda := rfl
@[simp] theorem State.modMe_parked (s : State) (f : Strand → Strand) : (s.modMe f).parked = s.parked := rfl
@[simp] theorem State.modMe_cur (s : State) (f : Strand → Strand) : (s.modMe f).cur = s.cur := rfl
@[simp] theorem State.modMe_arg (s : State) (f : Strand → Strand) : (s.modMe f).arg = s.arg := rfl
@[simp] theorem State.modMe_nextId (s : State) (f : Strand → Strand) : (s.modMe f).nextId = s.nextId := rfl
@[simp] theorem State.modMe_freeCtr (s : State) (f : Strand → Strand) : (s.modMe f).freeCtr = s.freeCtr := rfl

@[simp] theorem State.modMyCore_now (s : State) (f : Core → Core) : (s.modMyCore f).now = s.now := rfl
@[simp] theorem State.modMyCore_blocks (s : State) (f : Core → Core) : (s.modMyCore f).blocks = s.blocks := rfl
@[simp] theorem State.modMyCore_slices (s : State) (f : Core → Core) : (s.modMyCore f).slices = s.slices := rfl
@[simp] theorem State.modMyCore_parts (s : State) (f : Core → Core) : (s.modMyCore f).parts = s.parts := rfl
@[simp] theorem State.modMyCore_ports (s : State) (f : Core → Core) : (s.modMyCore f).ports = s.ports := rfl
@[simp] theorem State.modMyCore_dcms (s : State) (f : Core → Core) : (s.modMyCore f).dcms = s.dcms := rfl
@[simp] theorem State.modMyCore_routesC (s : State) (f : Core → Core) : (s.modMyCore f).routesC = s.routesC := rfl
@[simp] theorem State.modMyCore_routesM (s : State) (f : Core → Core) : (s.modMyCore f).routesM = s.routesM := rfl
@[simp] theorem State.modMyCore_hbm (s : State) (f : Core → Core) : (s.modMyCore f).hbm = s.hbm := rfl
@[simp] theorem State.modMyCore_hbmTags (s : State) (f : Core → Core) : (s.modMyCore f).hbmTags = s.hbmTags := rfl
@[simp] theorem State.modMyCore_host (s : State) (f : Core → Core) : (s.modMyCore f).host = s.host := rfl
@[simp] theorem State.modMyCore_fuses (s : State) (f : Core → Core) : (s.modMyCore f).fuses = s.fuses := rfl
@[simp] theorem State.modMyCore_sup (s : State) (f : Core → Core) : (s.modMyCore f).sup = s.sup := rfl
@[simp] theorem State.modMyCore_packets (s : State) (f : Core → Core) : (s.modMyCore f).packets = s.packets := rfl
@[simp] theorem State.modMyCore_agenda (s : State) (f : Core → Core) : (s.modMyCore f).agenda = s.agenda := rfl
@[simp] theorem State.modMyCore_parked (s : State) (f : Core → Core) : (s.modMyCore f).parked = s.parked := rfl
@[simp] theorem State.modMyCore_cur (s : State) (f : Core → Core) : (s.modMyCore f).cur = s.cur := rfl
@[simp] theorem State.modMyCore_arg (s : State) (f : Core → Core) : (s.modMyCore f).arg = s.arg := rfl
@[simp] theorem State.modMyCore_nextId (s : State) (f : Core → Core) : (s.modMyCore f).nextId = s.nextId := rfl
@[simp] theorem State.modMyCore_freeCtr (s : State) (f : Core → Core) : (s.modMyCore f).freeCtr = s.freeCtr := rfl

@[simp] theorem State.advanceBy_now (s : State) (n : Nat) : (s.advanceBy n).now = s.now := rfl
@[simp] theorem State.advanceBy_blocks (s : State) (n : Nat) : (s.advanceBy n).blocks = s.blocks := rfl
@[simp] theorem State.advanceBy_slices (s : State) (n : Nat) : (s.advanceBy n).slices = s.slices := rfl
@[simp] theorem State.advanceBy_parts (s : State) (n : Nat) : (s.advanceBy n).parts = s.parts := rfl
@[simp] theorem State.advanceBy_ports (s : State) (n : Nat) : (s.advanceBy n).ports = s.ports := rfl
@[simp] theorem State.advanceBy_dcms (s : State) (n : Nat) : (s.advanceBy n).dcms = s.dcms := rfl
@[simp] theorem State.advanceBy_routesC (s : State) (n : Nat) : (s.advanceBy n).routesC = s.routesC := rfl
@[simp] theorem State.advanceBy_routesM (s : State) (n : Nat) : (s.advanceBy n).routesM = s.routesM := rfl
@[simp] theorem State.advanceBy_hbm (s : State) (n : Nat) : (s.advanceBy n).hbm = s.hbm := rfl
@[simp] theorem State.advanceBy_hbmTags (s : State) (n : Nat) : (s.advanceBy n).hbmTags = s.hbmTags := rfl
@[simp] theorem State.advanceBy_host (s : State) (n : Nat) : (s.advanceBy n).host = s.host := rfl
@[simp] theorem State.advanceBy_fuses (s : State) (n : Nat) : (s.advanceBy n).fuses = s.fuses := rfl
@[simp] theorem State.advanceBy_sup (s : State) (n : Nat) : (s.advanceBy n).sup = s.sup := rfl
@[simp] theorem State.advanceBy_packets (s : State) (n : Nat) : (s.advanceBy n).packets = s.packets := rfl
@[simp] theorem State.advanceBy_agenda (s : State) (n : Nat) : (s.advanceBy n).agenda = s.agenda := rfl
@[simp] theorem State.advanceBy_parked (s : State) (n : Nat) : (s.advanceBy n).parked = s.parked := rfl
@[simp] theorem State.advanceBy_cur (s : State) (n : Nat) : (s.advanceBy n).cur = s.cur := rfl
@[simp] theorem State.advanceBy_arg (s : State) (n : Nat) : (s.advanceBy n).arg = s.arg := rfl
@[simp] theorem State.advanceBy_nextId (s : State) (n : Nat) : (s.advanceBy n).nextId = s.nextId := rfl
@[simp] theorem State.advanceBy_freeCtr (s : State) (n : Nat) : (s.advanceBy n).freeCtr = s.freeCtr := rfl

@[simp] theorem State.advance_now (s : State) : s.advance.now = s.now := rfl
@[simp] theorem State.advance_blocks (s : State) : s.advance.blocks = s.blocks := rfl
@[simp] theorem State.advance_slices (s : State) : s.advance.slices = s.slices := rfl
@[simp] theorem State.advance_parts (s : State) : s.advance.parts = s.parts := rfl
@[simp] theorem State.advance_ports (s : State) : s.advance.ports = s.ports := rfl
@[simp] theorem State.advance_dcms (s : State) : s.advance.dcms = s.dcms := rfl
@[simp] theorem State.advance_routesC (s : State) : s.advance.routesC = s.routesC := rfl
@[simp] theorem State.advance_routesM (s : State) : s.advance.routesM = s.routesM := rfl
@[simp] theorem State.advance_hbm (s : State) : s.advance.hbm = s.hbm := rfl
@[simp] theorem State.advance_hbmTags (s : State) : s.advance.hbmTags = s.hbmTags := rfl
@[simp] theorem State.advance_host (s : State) : s.advance.host = s.host := rfl
@[simp] theorem State.advance_fuses (s : State) : s.advance.fuses = s.fuses := rfl
@[simp] theorem State.advance_sup (s : State) : s.advance.sup = s.sup := rfl
@[simp] theorem State.advance_packets (s : State) : s.advance.packets = s.packets := rfl
@[simp] theorem State.advance_agenda (s : State) : s.advance.agenda = s.agenda := rfl
@[simp] theorem State.advance_parked (s : State) : s.advance.parked = s.parked := rfl
@[simp] theorem State.advance_cur (s : State) : s.advance.cur = s.cur := rfl
@[simp] theorem State.advance_arg (s : State) : s.advance.arg = s.arg := rfl
@[simp] theorem State.advance_nextId (s : State) : s.advance.nextId = s.nextId := rfl
@[simp] theorem State.advance_freeCtr (s : State) : s.advance.freeCtr = s.freeCtr := rfl

@[simp] theorem State.postAt_now (s : State) (d : Option Nat) (t : Nat) (i : Instr) (o : Operands) : (s.postAt d t i o).now = s.now := rfl
@[simp] theorem State.postAt_cores (s : State) (d : Option Nat) (t : Nat) (i : Instr) (o : Operands) : (s.postAt d t i o).cores = s.cores := rfl
@[simp] theorem State.postAt_blocks (s : State) (d : Option Nat) (t : Nat) (i : Instr) (o : Operands) : (s.postAt d t i o).blocks = s.blocks := rfl
@[simp] theorem State.postAt_slices (s : State) (d : Option Nat) (t : Nat) (i : Instr) (o : Operands) : (s.postAt d t i o).slices = s.slices := rfl
@[simp] theorem State.postAt_parts (s : State) (d : Option Nat) (t : Nat) (i : Instr) (o : Operands) : (s.postAt d t i o).parts = s.parts := rfl
@[simp] theorem State.postAt_ports (s : State) (d : Option Nat) (t : Nat) (i : Instr) (o : Operands) : (s.postAt d t i o).ports = s.ports := rfl
@[simp] theorem State.postAt_dcms (s : State) (d : Option Nat) (t : Nat) (i : Instr) (o : Operands) : (s.postAt d t i o).dcms = s.dcms := rfl
@[simp] theorem State.postAt_routesC (s : State) (d : Option Nat) (t : Nat) (i : Instr) (o : Operands) : (s.postAt d t i o).routesC = s.routesC := rfl
@[simp] theorem State.postAt_routesM (s : State) (d : Option Nat) (t : Nat) (i : Instr) (o : Operands) : (s.postAt d t i o).routesM = s.routesM := rfl
@[simp] theorem State.postAt_hbm (s : State) (d : Option Nat) (t : Nat) (i : Instr) (o : Operands) : (s.postAt d t i o).hbm = s.hbm := rfl
@[simp] theorem State.postAt_hbmTags (s : State) (d : Option Nat) (t : Nat) (i : Instr) (o : Operands) : (s.postAt d t i o).hbmTags = s.hbmTags := rfl
@[simp] theorem State.postAt_host (s : State) (d : Option Nat) (t : Nat) (i : Instr) (o : Operands) : (s.postAt d t i o).host = s.host := rfl
@[simp] theorem State.postAt_fuses (s : State) (d : Option Nat) (t : Nat) (i : Instr) (o : Operands) : (s.postAt d t i o).fuses = s.fuses := rfl
@[simp] theorem State.postAt_sup (s : State) (d : Option Nat) (t : Nat) (i : Instr) (o : Operands) : (s.postAt d t i o).sup = s.sup := rfl
@[simp] theorem State.postAt_packets (s : State) (d : Option Nat) (t : Nat) (i : Instr) (o : Operands) : (s.postAt d t i o).packets = s.packets := rfl
@[simp] theorem State.postAt_parked (s : State) (d : Option Nat) (t : Nat) (i : Instr) (o : Operands) : (s.postAt d t i o).parked = s.parked := rfl
@[simp] theorem State.postAt_cur (s : State) (d : Option Nat) (t : Nat) (i : Instr) (o : Operands) : (s.postAt d t i o).cur = s.cur := rfl
@[simp] theorem State.postAt_arg (s : State) (d : Option Nat) (t : Nat) (i : Instr) (o : Operands) : (s.postAt d t i o).arg = s.arg := rfl
@[simp] theorem State.postAt_nextId (s : State) (d : Option Nat) (t : Nat) (i : Instr) (o : Operands) : (s.postAt d t i o).nextId = s.nextId := rfl
@[simp] theorem State.postAt_freeCtr (s : State) (d : Option Nat) (t : Nat) (i : Instr) (o : Operands) : (s.postAt d t i o).freeCtr = s.freeCtr := rfl

@[simp] theorem State.post_now (s : State) (d : Option Nat) (n : Nat) (i : Instr) (o : Operands) : (s.post d n i o).now = s.now := rfl
@[simp] theorem State.post_cores (s : State) (d : Option Nat) (n : Nat) (i : Instr) (o : Operands) : (s.post d n i o).cores = s.cores := rfl
@[simp] theorem State.post_blocks (s : State) (d : Option Nat) (n : Nat) (i : Instr) (o : Operands) : (s.post d n i o).blocks = s.blocks := rfl
@[simp] theorem State.post_slices (s : State) (d : Option Nat) (n : Nat) (i : Instr) (o : Operands) : (s.post d n i o).slices = s.slices := rfl
@[simp] theorem State.post_parts (s : State) (d : Option Nat) (n : Nat) (i : Instr) (o : Operands) : (s.post d n i o).parts = s.parts := rfl
@[simp] theorem State.post_ports (s : State) (d : Option Nat) (n : Nat) (i : Instr) (o : Operands) : (s.post d n i o).ports = s.ports := rfl
@[simp] theorem State.post_dcms (s : State) (d : Option Nat) (n : Nat) (i : Instr) (o : Operands) : (s.post d n i o).dcms = s.dcms := rfl
@[simp] theorem State.post_routesC (s : State) (d : Option Nat) (n : Nat) (i : Instr) (o : Operands) : (s.post d n i o).routesC = s.routesC := rfl
@[simp] theorem State.post_routesM (s : State) (d : Option Nat) (n : Nat) (i : Instr) (o : Operands) : (s.post d n i o).routesM = s.routesM := rfl
@[simp] theorem State.post_hbm (s : State) (d : Option Nat) (n : Nat) (i : Instr) (o : Operands) : (s.post d n i o).hbm = s.hbm := rfl
@[simp] theorem State.post_hbmTags (s : State) (d : Option Nat) (n : Nat) (i : Instr) (o : Operands) : (s.post d n i o).hbmTags = s.hbmTags := rfl
@[simp] theorem State.post_host (s : State) (d : Option Nat) (n : Nat) (i : Instr) (o : Operands) : (s.post d n i o).host = s.host := rfl
@[simp] theorem State.post_fuses (s : State) (d : Option Nat) (n : Nat) (i : Instr) (o : Operands) : (s.post d n i o).fuses = s.fuses := rfl
@[simp] theorem State.post_sup (s : State) (d : Option Nat) (n : Nat) (i : Instr) (o : Operands) : (s.post d n i o).sup = s.sup := rfl
@[simp] theorem State.post_packets (s : State) (d : Option Nat) (n : Nat) (i : Instr) (o : Operands) : (s.post d n i o).packets = s.packets := rfl
@[simp] theorem State.post_parked (s : State) (d : Option Nat) (n : Nat) (i : Instr) (o : Operands) : (s.post d n i o).parked = s.parked := rfl
@[simp] theorem State.post_cur (s : State) (d : Option Nat) (n : Nat) (i : Instr) (o : Operands) : (s.post d n i o).cur = s.cur := rfl
@[simp] theorem State.post_arg (s : State) (d : Option Nat) (n : Nat) (i : Instr) (o : Operands) : (s.post d n i o).arg = s.arg := rfl
@[simp] theorem State.post_nextId (s : State) (d : Option Nat) (n : Nat) (i : Instr) (o : Operands) : (s.post d n i o).nextId = s.nextId := rfl
@[simp] theorem State.post_freeCtr (s : State) (d : Option Nat) (n : Nat) (i : Instr) (o : Operands) : (s.post d n i o).freeCtr = s.freeCtr := rfl

@[simp] theorem State.postDelayed_now (s : State) (d : Option Nat) (i : Instr) (o : Operands) : (s.postDelayed d i o).now = s.now := rfl
@[simp] theorem State.postDelayed_cores (s : State) (d : Option Nat) (i : Instr) (o : Operands) : (s.postDelayed d i o).cores = s.cores := rfl
@[simp] theorem State.postDelayed_blocks (s : State) (d : Option Nat) (i : Instr) (o : Operands) : (s.postDelayed d i o).blocks = s.blocks := rfl
@[simp] theorem State.postDelayed_slices (s : State) (d : Option Nat) (i : Instr) (o : Operands) : (s.postDelayed d i o).slices = s.slices := rfl
@[simp] theorem State.postDelayed_parts (s : State) (d : Option Nat) (i : Instr) (o : Operands) : (s.postDelayed d i o).parts = s.parts := rfl
@[simp] theorem State.postDelayed_ports (s : State) (d : Option Nat) (i : Instr) (o : Operands) : (s.postDelayed d i o).ports = s.ports := rfl
@[simp] theorem State.postDelayed_dcms (s : State) (d : Option Nat) (i : Instr) (o : Operands) : (s.postDelayed d i o).dcms = s.dcms := rfl
@[simp] theorem State.postDelayed_routesC (s : State) (d : Option Nat) (i : Instr) (o : Operands) : (s.postDelayed d i o).routesC = s.routesC := rfl
@[simp] theorem State.postDelayed_routesM (s : State) (d : Option Nat) (i : Instr) (o : Operands) : (s.postDelayed d i o).routesM = s.routesM := rfl
@[simp] theorem State.postDelayed_hbm (s : State) (d : Option Nat) (i : Instr) (o : Operands) : (s.postDelayed d i o).hbm = s.hbm := rfl
@[simp] theorem State.postDelayed_hbmTags (s : State) (d : Option Nat) (i : Instr) (o : Operands) : (s.postDelayed d i o).hbmTags = s.hbmTags := rfl
@[simp] theorem State.postDelayed_host (s : State) (d : Option Nat) (i : Instr) (o : Operands) : (s.postDelayed d i o).host = s.host := rfl
@[simp] theorem State.postDelayed_fuses (s : State) (d : Option Nat) (i : Instr) (o : Operands) : (s.postDelayed d i o).fuses = s.fuses := rfl
@[simp] theorem State.postDelayed_sup (s : State) (d : Option Nat) (i : Instr) (o : Operands) : (s.postDelayed d i o).sup = s.sup := rfl
@[simp] theorem State.postDelayed_packets (s : State) (d : Option Nat) (i : Instr) (o : Operands) : (s.postDelayed d i o).packets = s.packets := rfl
@[simp] theorem State.postDelayed_parked (s : State) (d : Option Nat) (i : Instr) (o : Operands) : (s.postDelayed d i o).parked = s.parked := rfl
@[simp] theorem State.postDelayed_cur (s : State) (d : Option Nat) (i : Instr) (o : Operands) : (s.postDelayed d i o).cur = s.cur := rfl
@[simp] theorem State.postDelayed_arg (s : State) (d : Option Nat) (i : Instr) (o : Operands) : (s.postDelayed d i o).arg = s.arg := rfl
@[simp] theorem State.postDelayed_nextId (s : State) (d : Option Nat) (i : Instr) (o : Operands) : (s.postDelayed d i o).nextId = s.nextId := rfl
@[simp] theorem State.postDelayed_freeCtr (s : State) (d : Option Nat) (i : Instr) (o : Operands) : (s.postDelayed d i o).freeCtr = s.freeCtr := rfl

@[simp] theorem State.postCore_now (s : State) (p n : Nat) (i : Instr) (o : Operands) : (s.postCore p n i o).now = s.now := rfl
@[simp] theorem State.postCore_cores (s : State) (p n : Nat) (i : Instr) (o : Operands) : (s.postCore p n i o).cores = s.cores := rfl
@[simp] theorem State.postCore_blocks (s : State) (p n : Nat) (i : Instr) (o : Operands) : (s.postCore p n i o).blocks = s.blocks := rfl
@[simp] theorem State.postCore_slices (s : State) (p n : Nat) (i : Instr) (o : Operands) : (s.postCore p n i o).slices = s.slices := rfl
@[simp] theorem State.postCore_parts (s : State) (p n : Nat) (i : Instr) (o : Operands) : (s.postCore p n i o).parts = s.parts := rfl
@[simp] theorem State.postCore_ports (s : State) (p n : Nat) (i : Instr) (o : Operands) : (s.postCore p n i o).ports = s.ports := rfl
@[simp] theorem State.postCore_dcms (s : State) (p n : Nat) (i : Instr) (o : Operands) : (s.postCore p n i o).dcms = s.dcms := rfl
@[simp] theorem State.postCore_routesC (s : State) (p n : Nat) (i : Instr) (o : Operands) : (s.postCore p n i o).routesC = s.routesC := rfl
@[simp] theorem State.postCore_routesM (s : State) (p n : Nat) (i : Instr) (o : Operands) : (s.postCore p n i o).routesM = s.routesM := rfl
@[simp] theorem State.postCore_hbm (s : State) (p n : Nat) (i : Instr) (o : Operands) : (s.postCore p n i o).hbm = s.hbm := rfl
@[simp] theorem State.postCore_hbmTags (s : State) (p n : Nat) (i : Instr) (o : Operands) : (s.postCore p n i o).hbmTags = s.hbmTags := rfl
@[simp] theorem State.postCore_host (s : State) (p n : Nat) (i : Instr) (o : Operands) : (s.postCore p n i o).host = s.host := rfl
@[simp] theorem State.postCore_fuses (s : State) (p n : Nat) (i : Instr) (o : Operands) : (s.postCore p n i o).fuses = s.fuses := rfl
@[simp] theorem State.postCore_sup (s : State) (p n : Nat) (i : Instr) (o : Operands) : (s.postCore p n i o).sup = s.sup := rfl
@[simp] theorem State.postCore_packets (s : State) (p n : Nat) (i : Instr) (o : Operands) : (s.postCore p n i o).packets = s.packets := rfl
@[simp] theorem State.postCore_parked (s : State) (p n : Nat) (i : Instr) (o : Operands) : (s.postCore p n i o).parked = s.parked := rfl
@[simp] theorem State.postCore_cur (s : State) (p n : Nat) (i : Instr) (o : Operands) : (s.postCore p n i o).cur = s.cur := rfl
@[simp] theorem State.postCore_arg (s : State) (p n : Nat) (i : Instr) (o : Operands) : (s.postCore p n i o).arg = s.arg := rfl
@[simp] theorem State.postCore_nextId (s : State) (p n : Nat) (i : Instr) (o : Operands) : (s.postCore p n i o).nextId = s.nextId := rfl
@[simp] theorem State.postCore_freeCtr (s : State) (p n : Nat) (i : Instr) (o : Operands) : (s.postCore p n i o).freeCtr = s.freeCtr := rfl

/-! ## Reads after updates -/

@[simp] theorem State.core_setCore_self (s : State) (p : Nat) (c : Core) : (s.setCore p c).core p = c := by
  simp [State.core, State.setCore]

theorem State.core_setCore (s : State) (p q : Nat) (c : Core) :
    (s.setCore p c).core q = if q = p then c else s.core q := by
  simp only [State.core, State.setCore, Table.getD_set]

@[simp] theorem State.core_modCore_self (s : State) (p : Nat) (f : Core → Core) : (s.modCore p f).core p = f (s.core p) := by
  simp [State.modCore]

theorem State.core_modCore (s : State) (p q : Nat) (f : Core → Core) :
    (s.modCore p f).core q = if q = p then f (s.core p) else s.core q := by
  simp only [State.modCore, State.core_setCore]

@[simp] theorem State.setCore_setCore (s : State) (p : Nat) (c d : Core) : (s.setCore p c).setCore p d = s.setCore p d := by
  simp [State.setCore]

@[simp] theorem State.strand_setStrand_self (s : State) (p k : Nat) (x : Strand) : (s.setStrand p k x).strand p k = x := by
  simp [State.strand, State.setStrand]

theorem State.strand_setStrand (s : State) (p k q j : Nat) (x : Strand) :
    (s.setStrand p k x).strand q j = if q = p ∧ j = k then x else s.strand q j := by
  simp only [State.strand, State.setStrand, State.core_modCore]
  by_cases h : q = p
  · subst h
    by_cases h' : j = k
    · subst h'; simp
    · simp [h', Table.getD_set_ne, Core.vacant]
  · simp [h]

@[simp] theorem State.setStrand_setStrand (s : State) (p k : Nat) (x y : Strand) :
    (s.setStrand p k x).setStrand p k y = s.setStrand p k y := by
  simp [State.setStrand, State.modCore]

@[simp] theorem State.me_setMe (s : State) (x : Strand) : (s.setMe x).me = x := by
  simp [State.me, State.setMe]

@[simp] theorem State.setMe_setMe (s : State) (x y : Strand) : (s.setMe x).setMe y = s.setMe y := by
  simp [State.setMe]

@[simp] theorem State.me_modMe (s : State) (f : Strand → Strand) : (s.modMe f).me = f s.me := by
  simp [State.modMe]

@[simp] theorem State.modMe_modMe (s : State) (f h : Strand → Strand) : (s.modMe f).modMe h = s.modMe (fun x => h (f x)) := by
  simp [State.modMe]

/-- What a change of strands leaves of a core: everything but its slots. -/
theorem State.core_setStrand (s : State) (p k q : Nat) (x : Strand) :
    (s.setStrand p k x).core q = if q = p then { s.core p with slots := (s.core p).slots.set k x } else s.core q := by
  simp only [State.setStrand, State.core_modCore]

@[simp] theorem State.myCore_setMe (s : State) (x : Strand) :
    (s.setMe x).myCore = { s.myCore with slots := s.myCore.slots.set s.cur.slot x } := by
  simp [State.myCore, State.setMe, State.core_setStrand]

/-- The clock and the partitions do not depend on the cores. -/
@[simp] theorem State.partOf_setMe (s : State) (x : Strand) (p : Nat) : (s.setMe x).partOf p = s.partOf p := rfl

@[simp] theorem State.count_setMe (s : State) (x : Strand) (d : Option Nat) : (s.setMe x).count d = s.count d := rfl

@[simp] theorem State.k_setMe (s : State) (x : Strand) : (s.setMe x).k = s.k := rfl

@[simp] theorem State.k_modMe (s : State) (f : Strand → Strand) : (s.modMe f).k = s.k := rfl

@[simp] theorem State.mySp_setMe (s : State) (x : Strand) : (s.setMe x).mySp = s.mySp := rfl

/-- Advancing: the strand is past its instruction, and issues no earlier than `n` cycles from now. -/
theorem State.advanceBy_eq (s : State) (n : Nat) :
    s.advanceBy n = s.setMe { s.me.past s.cur.len with readyAt := s.k + n } := rfl

theorem State.advance_eq (s : State) : s.advance = s.setMe { s.me.past s.cur.len with readyAt := s.k + 8 } := rfl

@[simp] theorem State.block_modBlock_self (s : State) (b : Nat) (f : Block → Block) : (s.modBlock b f).block b = f (s.block b) := by
  simp [State.block, State.modBlock, State.setBlock]

@[simp] theorem State.slice_modSlice_self (s : State) (n : Nat) (f : Slice → Slice) : (s.modSlice n f).slice n = f (s.slice n) := by
  simp [State.slice, State.modSlice, State.setSlice]

@[simp] theorem State.port_modPort_self (s : State) (k : Nat) (f : Port → Port) : (s.modPort k f).port k = f (s.port k) := by
  simp [State.port, State.modPort]

@[simp] theorem State.dcm_modDcm_self (s : State) (n : Nat) (f : Dcm → Dcm) : (s.modDcm n f).dcm n = f (s.dcm n) := by
  simp [State.dcm, State.modDcm]

/-! ## Registers of a strand -/

theorem Strand.reg_zero (x : Strand) : x.reg 0#5 = CReg.zero := by simp [Strand.reg]

/-- A written c register reads what was written; c0 discards the write; the others stay. -/
theorem Strand.reg_setReg (x : Strand) (d r : BitVec 5) (v : CReg) :
    (x.setReg d v).reg r = if r = d ∧ d ≠ 0#5 then v else x.reg r := by
  unfold Strand.setReg
  by_cases hd : d = 0#5
  · simp [hd]
  · simp only [hd, if_false, Strand.reg]
    by_cases hr : r = d
    · subst hr
      simp [hd]
    · have hn : r.toNat ≠ d.toNat := fun h => hr (BitVec.eq_of_toNat_eq h)
      by_cases h0 : r = 0#5
      · simp [h0]; intro h; simp_all
      · have hl : r.toNat < 32 := r.isLt
        simp [h0, hr, Table.getD_set_ne _ _ _ hn, hl]
        congr 1
        simp only [eq_iff_iff]
        constructor
        · rintro ⟨h, -⟩; exact h
        · intro h
          exact ⟨h, by omega⟩

end Sys2Proof.Machine
end

