-- ==== Sys2Proof/Laws/Ops.lean ====
section
/-! SUPPORT. What each shared operation of the meanings answers: the guard, the writes of a register, the traps, the checks
of a destination, the stores to a scratchpad, the waits. -/

namespace Sys2Proof.Machine

/-! ## Guards and settling -/

@[simp] theorem State.settle_ok (s t : State) : s.settle (.ok t) = t := rfl
@[simp] theorem State.settle_error (s : State) (e : Trap) : s.settle (.error e) = s.takeTrap e := rfl

theorem State.act_on {s : State} {g : BitVec 3} (f : State → Act) (h : s.me.pred g = true) :
    s.act g f = .next (s.settle (f s)) := by simp [State.act, h]

theorem State.act_off {s : State} {g : BitVec 3} (f : State → Act) (h : s.me.pred g = false) :
    s.act g f = .next s.advance := by simp [State.act, h]

theorem State.act_ok {s t : State} {g : BitVec 3} {f : State → Act} (h : s.me.pred g = true) (hf : f s = .ok t) :
    s.act g f = .next t := by rw [State.act_on f h, hf]; rfl

theorem State.act_error {s : State} {g : BitVec 3} {f : State → Act} {e : Trap} (h : s.me.pred g = true)
    (hf : f s = .error e) : s.act g f = .next (s.takeTrap e) := by rw [State.act_on f h, hf]; rfl

@[simp] theorem State.pred_enabled (s : State) (g : BitVec 3) : s.enabled.me.pred g = s.me.pred g := by
  simp [State.enabled, Strand.pred, Strand.setVe]

theorem State.actV_on {s : State} {g : BitVec 3} (f : State → Act) (h : s.me.pred g = true) :
    s.actV g f = .next (s.enabled.settle (f s.enabled)) := State.act_on f (by simpa [State.enabled] using (s.pred_enabled g).trans h)

theorem State.actV_off {s : State} {g : BitVec 3} (f : State → Act) (h : s.me.pred g = false) :
    s.actV g f = .next s.enabled.advance := State.act_off f (by simpa [State.enabled] using (s.pred_enabled g).trans h)

/-! ## Conditions -/

@[simp] theorem need_true (t : Trap) : need true t = .ok () := rfl
@[simp] theorem need_false (t : Trap) : need false t = .error t := rfl
theorem need_ok_iff (b : Bool) (t : Trap) : need b t = .ok () ↔ b = true := by cases b <;> simp

theorem State.writable_iff (s : State) (d : BitVec 5) : s.writable d = .ok () ↔ s.mayWrite d := by
  by_cases h : d = 0#5 <;> simp [State.writable, State.mayWrite, need_ok_iff, h]

theorem State.writable_of_not {s : State} {d : BitVec 5} (h : ¬ s.mayWrite d) :
    s.writable d = .error (trapLinearity (d.setWidth 64)) := by
  simp only [State.mayWrite, not_or] at h
  simp [State.writable, h.1, h.2, need, regNo]

/-! ## Writing a register -/

theorem State.putIntBy_ok {s : State} {d : BitVec 5} (w : Word) (n : Nat) (h : s.mayWrite d) :
    s.putIntBy d w n = .ok (s.wrote d w n) := by
  simp [State.putIntBy, (s.writable_iff d).2 h, State.wrote, bind, Except.bind, pure, Except.pure]

theorem State.putIntBy_error {s : State} {d : BitVec 5} (w : Word) (n : Nat) (h : ¬ s.mayWrite d) :
    s.putIntBy d w n = .error (trapLinearity (d.setWidth 64)) := by
  simp [State.putIntBy, State.writable_of_not h, bind, Except.bind]

theorem State.putInt_ok {s : State} {d : BitVec 5} (w : Word) (h : s.mayWrite d) : s.putInt d w = .ok (s.wrote d w 8) :=
  State.putIntBy_ok w 8 h

theorem State.moveCap_ok {s : State} {d a : BitVec 5} (r : CReg) (h : s.mayMove d a) :
    s.moveCap d a r = .ok (s.moved d a r) := by
  obtain ⟨h1, h2⟩ := h
  have h0 : ((s.me.reg a).linear && d == 0#5) = false := by
    cases hl : (s.me.reg a).linear <;> simp_all
  by_cases e : d = a
  · subst e
    simp only [State.moveCap, h0, need, Bool.not_false, if_true, State.moved, bne_self_eq_false, Bool.and_false, bind,
      Except.bind, pure, Except.pure, Bool.false_eq_true, if_false]
  · have hw : s.writable d = .ok () := (s.writable_iff d).2 (h1.resolve_left e)
    have hne : (a != d) = true := by simpa using fun h => e h.symm
    simp only [State.moveCap, h0, e, hw, hne, State.moved, bind, Except.bind, pure, Except.pure, need, Bool.not_false,
      if_true, if_false, Bool.and_true]

theorem Strand.setReg_zero (x : Strand) (r : CReg) : x.setReg 0#5 r = x := rfl

theorem Strand.setPred_zero (x : Strand) (b : Bool) : x.setPred 0#3 b = x := rfl

/-! ## Only the executing strand -/

theorem State.onlyStrand_setMe (s : State) (x : Strand) : s.OnlyStrand (s.setMe x) := by
  simp [State.OnlyStrand]

theorem State.onlyStrand_modMe (s : State) (f : Strand → Strand) : s.OnlyStrand (s.modMe f) :=
  s.onlyStrand_setMe _

theorem State.OnlyStrand.setMe {s t : State} (h : s.OnlyStrand t) (x : Strand) : s.OnlyStrand (t.setMe x) := by
  rw [State.OnlyStrand] at h
  rw [h, State.setMe_setMe]
  exact s.onlyStrand_setMe x

theorem State.onlyStrand_advanceBy (s : State) (n : Nat) : s.OnlyStrand (s.advanceBy n) := s.onlyStrand_modMe _

theorem State.onlyStrand_wrote (s : State) (d : BitVec 5) (w : Word) (n : Nat) : s.OnlyStrand (s.wrote d w n) :=
  (s.onlyStrand_modMe _).setMe _

/-! ## Traps -/

/-- With INH = 0 a trap changes nothing but the executing strand (R368). -/
theorem State.takeTrap_eq {s : State} {e : Trap} (h : s.me.inh = false) :
    s.takeTrap e = s.setMe { s.me.enter e s.cur.pc s.me.rep s.myCore.tvec with readyAt := s.k + 8 } := by
  have h' : (s.strand s.cur.core s.cur.slot).inh = false := h
  simp [State.takeTrap, State.trapAt, h', State.setMe, State.me, State.myCore]

/-- With INH = 1 it contains the core (R370). -/
theorem State.takeTrap_double {s : State} {e : Trap} (h : s.me.inh = true) :
    s.takeTrap e = (s.containAs s.cur.core .doubleTrap).postRecord
      (((s.containAs s.cur.core .doubleTrap).partOf s.cur.core).getD 31) 5
      (recordEntry (s.core s.cur.core).lcn s.cur.slot e.cause.toNat 0) := by
  have h' : (s.strand s.cur.core s.cur.slot).inh = true := h
  simp [State.takeTrap, State.trapAt, h']

/-! ## Scratchpad stores -/

@[simp] theorem windowBytes_window {r : CReg} (h : r.place = .window) (n : Nat) : windowBytes r n = n := if_pos h
@[simp] theorem windowBytes_other {r : CReg} (h : r.place ≠ .window) (n : Nat) : windowBytes r n = 0 := if_neg h

theorem State.myCore_spStore (s : State) (ea : Int) (b : List Byte) :
    (s.spStore ea b).myCore = s.myCore.spWrite (ea.toNat % 2 ^ 18) b := by
  simp [State.spStore, State.modMyCore, State.myCore, State.modCore, State.core, State.setCore]

/-! ## Waiting -/

theorem State.waitNext_quiet {s : State} {w : Wait} (h : w.isEdge = false) :
    s.waitNext w = s.modMe (fun x => x.waitFor w false s.cur.len s.k s.myCore.rakeT.toNat) := by
  simp [State.waitNext, h]

theorem State.waitAgain_quiet {s : State} {w : Wait} (h : w.isEdge = false) :
    s.waitAgain w = s.modMe (fun x => x.waitFor w true s.cur.len s.k s.myCore.rakeT.toNat) := by
  simp [State.waitAgain, h]

theorem State.fenceFirst_clear {s : State} (f : State → Act) (h : s.me.farOut = []) : s.fenceFirst f = f s := by
  simp [State.fenceFirst, h]

theorem State.fenceFirst_waits {s : State} (f : State → Act) (h : s.me.farOut ≠ []) :
    s.fenceFirst f = .ok (s.waitAgain (.fenceFirst s.me.farOut s.cur.len s.cur.bits)) := by
  simp [State.fenceFirst, h]

theorem State.sendFar_waits {s : State} {w : Wait} (dest : FarDest) (parts : List (Nat × ReqKind)) (host : Bool)
    (before : State → State) (h : s.farGate = some w) : s.sendFar dest parts host before = s.waitAgain w := by
  simp [State.sendFar, h]

theorem State.sendFar_goes {s : State} (dest : FarDest) (parts : List (Nat × ReqKind)) (host : Bool)
    (before : State → State) (h : s.farGate = none) :
    s.sendFar dest parts host before =
      (((before s).fresh.2).sendInOrder (before s).fresh.1 host parts).holdFar (before s).fresh.1 (parts.map (·.1)) dest := by
  simp [State.sendFar, h]

end Sys2Proof.Machine
end

