-- ==== Sys2Proof/Laws/PerInstr.lean ====
section
/-! SUPPORT. The family "Length": what every instruction's encoding shows of its length (R60, R61, R67). -/

namespace Sys2Proof.Laws

/-- An encoding has two or four bytes, and bit 0 of its first halfword is 1 exactly where it has four (R60, R61, R67). -/
def Length.Statement (i : Instr) : Prop :=
  ∀ n w, encode i = some (n, w) → (n = 2 ∨ n = 4) ∧ w.getLsbD 0 = (n == 4)

theorem getLsbD_append_one {k : Nat} (x : BitVec k) : (x ++ 1#1).getLsbD 0 = true := by simp [BitVec.getLsbD_append]

theorem getLsbD_short {k : Nat} (x : BitVec k) (c : BitVec 5) (h : c.getLsbD 0 = false) :
    ((x ++ c).setWidth 32).getLsbD 0 = false := by
  rw [BitVec.getLsbD_setWidth, BitVec.getLsbD_append]; simpa using h

theorem Length.add (g : BitVec 3) (d : BitVec 5) (a : BitVec 5) (b : BitVec 5) : Length.Statement (.add g d a b) := fun _ _ h => by cases h; exact ⟨.inr rfl, getLsbD_append_one _⟩
theorem Length.sub (g : BitVec 3) (d : BitVec 5) (a : BitVec 5) (b : BitVec 5) : Length.Statement (.sub g d a b) := fun _ _ h => by cases h; exact ⟨.inr rfl, getLsbD_append_one _⟩
theorem Length.and (g : BitVec 3) (d : BitVec 5) (a : BitVec 5) (b : BitVec 5) : Length.Statement (.and g d a b) := fun _ _ h => by cases h; exact ⟨.inr rfl, getLsbD_append_one _⟩
theorem Length.or (g : BitVec 3) (d : BitVec 5) (a : BitVec 5) (b : BitVec 5) : Length.Statement (.or g d a b) := fun _ _ h => by cases h; exact ⟨.inr rfl, getLsbD_append_one _⟩
theorem Length.xor (g : BitVec 3) (d : BitVec 5) (a : BitVec 5) (b : BitVec 5) : Length.Statement (.xor g d a b) := fun _ _ h => by cases h; exact ⟨.inr rfl, getLsbD_append_one _⟩
theorem Length.shl (g : BitVec 3) (d : BitVec 5) (a : BitVec 5) (b : BitVec 5) : Length.Statement (.shl g d a b) := fun _ _ h => by cases h; exact ⟨.inr rfl, getLsbD_append_one _⟩
theorem Length.shr (g : BitVec 3) (d : BitVec 5) (a : BitVec 5) (b : BitVec 5) : Length.Statement (.shr g d a b) := fun _ _ h => by cases h; exact ⟨.inr rfl, getLsbD_append_one _⟩
theorem Length.sar (g : BitVec 3) (d : BitVec 5) (a : BitVec 5) (b : BitVec 5) : Length.Statement (.sar g d a b) := fun _ _ h => by cases h; exact ⟨.inr rfl, getLsbD_append_one _⟩
theorem Length.mul (g : BitVec 3) (d : BitVec 5) (a : BitVec 5) (b : BitVec 5) : Length.Statement (.mul g d a b) := fun _ _ h => by cases h; exact ⟨.inr rfl, getLsbD_append_one _⟩
theorem Length.mulh (g : BitVec 3) (d : BitVec 5) (a : BitVec 5) (b : BitVec 5) : Length.Statement (.mulh g d a b) := fun _ _ h => by cases h; exact ⟨.inr rfl, getLsbD_append_one _⟩
theorem Length.mulhz (g : BitVec 3) (d : BitVec 5) (a : BitVec 5) (b : BitVec 5) : Length.Statement (.mulhz g d a b) := fun _ _ h => by cases h; exact ⟨.inr rfl, getLsbD_append_one _⟩
theorem Length.div (g : BitVec 3) (d : BitVec 5) (a : BitVec 5) (b : BitVec 5) : Length.Statement (.div g d a b) := fun _ _ h => by cases h; exact ⟨.inr rfl, getLsbD_append_one _⟩
theorem Length.divz (g : BitVec 3) (d : BitVec 5) (a : BitVec 5) (b : BitVec 5) : Length.Statement (.divz g d a b) := fun _ _ h => by cases h; exact ⟨.inr rfl, getLsbD_append_one _⟩
theorem Length.rem (g : BitVec 3) (d : BitVec 5) (a : BitVec 5) (b : BitVec 5) : Length.Statement (.rem g d a b) := fun _ _ h => by cases h; exact ⟨.inr rfl, getLsbD_append_one _⟩
theorem Length.remz (g : BitVec 3) (d : BitVec 5) (a : BitVec 5) (b : BitVec 5) : Length.Statement (.remz g d a b) := fun _ _ h => by cases h; exact ⟨.inr rfl, getLsbD_append_one _⟩
theorem Length.min (g : BitVec 3) (d : BitVec 5) (a : BitVec 5) (b : BitVec 5) : Length.Statement (.min g d a b) := fun _ _ h => by cases h; exact ⟨.inr rfl, getLsbD_append_one _⟩
theorem Length.max (g : BitVec 3) (d : BitVec 5) (a : BitVec 5) (b : BitVec 5) : Length.Statement (.max g d a b) := fun _ _ h => by cases h; exact ⟨.inr rfl, getLsbD_append_one _⟩
theorem Length.minz (g : BitVec 3) (d : BitVec 5) (a : BitVec 5) (b : BitVec 5) : Length.Statement (.minz g d a b) := fun _ _ h => by cases h; exact ⟨.inr rfl, getLsbD_append_one _⟩
theorem Length.maxz (g : BitVec 3) (d : BitVec 5) (a : BitVec 5) (b : BitVec 5) : Length.Statement (.maxz g d a b) := fun _ _ h => by cases h; exact ⟨.inr rfl, getLsbD_append_one _⟩
theorem Length.clm (g : BitVec 3) (d : BitVec 5) (a : BitVec 5) (b : BitVec 5) : Length.Statement (.clm g d a b) := fun _ _ h => by cases h; exact ⟨.inr rfl, getLsbD_append_one _⟩
theorem Length.clmh (g : BitVec 3) (d : BitVec 5) (a : BitVec 5) (b : BitVec 5) : Length.Statement (.clmh g d a b) := fun _ _ h => by cases h; exact ⟨.inr rfl, getLsbD_append_one _⟩
theorem Length.clz (g : BitVec 3) (d : BitVec 5) (a : BitVec 5) : Length.Statement (.clz g d a) := fun _ _ h => by cases h; exact ⟨.inr rfl, getLsbD_append_one _⟩
theorem Length.ctz (g : BitVec 3) (d : BitVec 5) (a : BitVec 5) : Length.Statement (.ctz g d a) := fun _ _ h => by cases h; exact ⟨.inr rfl, getLsbD_append_one _⟩
theorem Length.pcnt (g : BitVec 3) (d : BitVec 5) (a : BitVec 5) : Length.Statement (.pcnt g d a) := fun _ _ h => by cases h; exact ⟨.inr rfl, getLsbD_append_one _⟩
theorem Length.bswp (g : BitVec 3) (d : BitVec 5) (a : BitVec 5) : Length.Statement (.bswp g d a) := fun _ _ h => by cases h; exact ⟨.inr rfl, getLsbD_append_one _⟩
theorem Length.mov (g : BitVec 3) (d : BitVec 5) (a : BitVec 5) : Length.Statement (.mov g d a) := fun _ _ h => by cases h; exact ⟨.inr rfl, getLsbD_append_one _⟩
theorem Length.sext8 (g : BitVec 3) (d : BitVec 5) (a : BitVec 5) : Length.Statement (.sext8 g d a) := fun _ _ h => by cases h; exact ⟨.inr rfl, getLsbD_append_one _⟩
theorem Length.sext16 (g : BitVec 3) (d : BitVec 5) (a : BitVec 5) : Length.Statement (.sext16 g d a) := fun _ _ h => by cases h; exact ⟨.inr rfl, getLsbD_append_one _⟩
theorem Length.sext32 (g : BitVec 3) (d : BitVec 5) (a : BitVec 5) : Length.Statement (.sext32 g d a) := fun _ _ h => by cases h; exact ⟨.inr rfl, getLsbD_append_one _⟩
theorem Length.zext8 (g : BitVec 3) (d : BitVec 5) (a : BitVec 5) : Length.Statement (.zext8 g d a) := fun _ _ h => by cases h; exact ⟨.inr rfl, getLsbD_append_one _⟩
theorem Length.zext16 (g : BitVec 3) (d : BitVec 5) (a : BitVec 5) : Length.Statement (.zext16 g d a) := fun _ _ h => by cases h; exact ⟨.inr rfl, getLsbD_append_one _⟩
theorem Length.zext32 (g : BitVec 3) (d : BitVec 5) (a : BitVec 5) : Length.Statement (.zext32 g d a) := fun _ _ h => by cases h; exact ⟨.inr rfl, getLsbD_append_one _⟩
theorem Length.sel (g : BitVec 3) (d : BitVec 5) (p : BitVec 3) (a : BitVec 5) (b : BitVec 5) : Length.Statement (.sel g d p a b) := fun _ _ h => by cases h; exact ⟨.inr rfl, getLsbD_append_one _⟩
theorem Length.shli (g : BitVec 3) (d : BitVec 5) (a : BitVec 5) (n : BitVec 6) : Length.Statement (.shli g d a n) := fun _ _ h => by cases h; exact ⟨.inr rfl, getLsbD_append_one _⟩
theorem Length.shri (g : BitVec 3) (d : BitVec 5) (a : BitVec 5) (n : BitVec 6) : Length.Statement (.shri g d a n) := fun _ _ h => by cases h; exact ⟨.inr rfl, getLsbD_append_one _⟩
theorem Length.sari (g : BitVec 3) (d : BitVec 5) (a : BitVec 5) (n : BitVec 6) : Length.Statement (.sari g d a n) := fun _ _ h => by cases h; exact ⟨.inr rfl, getLsbD_append_one _⟩
theorem Length.nop : Length.Statement .nop := fun _ _ h => by cases h; decide
theorem Length.addi (g : BitVec 3) (d : BitVec 5) (a : BitVec 5) (i : BitVec 12) : Length.Statement (.addi g d a i) := fun _ _ h => by cases h; exact ⟨.inr rfl, getLsbD_append_one _⟩
theorem Length.andi (g : BitVec 3) (d : BitVec 5) (a : BitVec 5) (i : BitVec 12) : Length.Statement (.andi g d a i) := fun _ _ h => by cases h; exact ⟨.inr rfl, getLsbD_append_one _⟩
theorem Length.ori (g : BitVec 3) (d : BitVec 5) (a : BitVec 5) (i : BitVec 12) : Length.Statement (.ori g d a i) := fun _ _ h => by cases h; exact ⟨.inr rfl, getLsbD_append_one _⟩
theorem Length.xori (g : BitVec 3) (d : BitVec 5) (a : BitVec 5) (i : BitVec 12) : Length.Statement (.xori g d a i) := fun _ _ h => by cases h; exact ⟨.inr rfl, getLsbD_append_one _⟩
theorem Length.lhi (g : BitVec 3) (d : BitVec 5) (i : BitVec 17) : Length.Statement (.lhi g d i) := fun _ _ h => by cases h; exact ⟨.inr rfl, getLsbD_append_one _⟩
theorem Length.bfx (g : BitVec 3) (d : BitVec 5) (a : BitVec 5) (o : BitVec 6) (l : BitVec 6) : Length.Statement (.bfx g d a o l) := fun _ _ h => by cases h; exact ⟨.inr rfl, getLsbD_append_one _⟩
theorem Length.bfi (g : BitVec 3) (d : BitVec 5) (a : BitVec 5) (o : BitVec 6) (l : BitVec 6) : Length.Statement (.bfi g d a o l) := fun _ _ h => by cases h; exact ⟨.inr rfl, getLsbD_append_one _⟩
theorem Length.cbnd (g : BitVec 3) (d : BitVec 5) (a : BitVec 5) (b : BitVec 5) : Length.Statement (.cbnd g d a b) := fun _ _ h => by cases h; exact ⟨.inr rfl, getLsbD_append_one _⟩
theorem Length.cprm (g : BitVec 3) (d : BitVec 5) (a : BitVec 5) (b : BitVec 5) : Length.Statement (.cprm g d a b) := fun _ _ h => by cases h; exact ⟨.inr rfl, getLsbD_append_one _⟩
theorem Length.cget (g : BitVec 3) (d : BitVec 5) (a : BitVec 5) (s : BitVec 5) : Length.Statement (.cget g d a s) := fun _ _ h => by cases h; exact ⟨.inr rfl, getLsbD_append_one _⟩
theorem Length.cfrz (g : BitVec 3) (d : BitVec 5) (a : BitVec 5) : Length.Statement (.cfrz g d a) := fun _ _ h => by cases h; exact ⟨.inr rfl, getLsbD_append_one _⟩
theorem Length.cmv (g : BitVec 3) (d : BitVec 5) (a : BitVec 5) : Length.Statement (.cmv g d a) := fun _ _ h => by cases h; exact ⟨.inr rfl, getLsbD_append_one _⟩
theorem Length.ctst (g : BitVec 3) (d : BitVec 5) (a : BitVec 5) : Length.Statement (.ctst g d a) := fun _ _ h => by cases h; exact ⟨.inr rfl, getLsbD_append_one _⟩
theorem Length.cadd (g : BitVec 3) (d : BitVec 5) (a : BitVec 5) (b : BitVec 5) : Length.Statement (.cadd g d a b) := fun _ _ h => by cases h; exact ⟨.inr rfl, getLsbD_append_one _⟩
theorem Length.cmint (g : BitVec 3) (d : BitVec 5) (a : BitVec 5) (b : BitVec 5) : Length.Statement (.cmint g d a b) := fun _ _ h => by cases h; exact ⟨.inr rfl, getLsbD_append_one _⟩
theorem Length.caddImm (g : BitVec 3) (d : BitVec 5) (a : BitVec 5) (i : BitVec 12) : Length.Statement (.caddImm g d a i) := fun _ _ h => by cases h; exact ⟨.inr rfl, getLsbD_append_one _⟩
theorem Length.cmp (g : BitVec 3) (p : BitVec 3) (q : BitVec 3) (t : BitVec 3) (c : BitVec 3) (a : BitVec 5) (b : BitVec 5) : Length.Statement (.cmp g p q t c a b) := fun _ _ h => by cases h; exact ⟨.inr rfl, getLsbD_append_one _⟩
theorem Length.cmpi (g : BitVec 3) (p : BitVec 3) (q : BitVec 3) (t : BitVec 3) (c : BitVec 3) (a : BitVec 5) (i : BitVec 5) : Length.Statement (.cmpi g p q t c a i) := fun _ _ h => by cases h; exact ⟨.inr rfl, getLsbD_append_one _⟩
theorem Length.fcmp (g : BitVec 3) (p : BitVec 3) (q : BitVec 3) (t : BitVec 3) (c : BitVec 3) (a : BitVec 5) (b : BitVec 5) : Length.Statement (.fcmp g p q t c a b) := fun _ _ h => by cases h; exact ⟨.inr rfl, getLsbD_append_one _⟩
theorem Length.pcmb (g : BitVec 3) (p : BitVec 3) (q : BitVec 3) (t : BitVec 3) (c : BitVec 3) (a : BitVec 3) (b : BitVec 3) : Length.Statement (.pcmb g p q t c a b) := fun _ _ h => by cases h; exact ⟨.inr rfl, getLsbD_append_one _⟩
theorem Length.br (g : BitVec 3) (o : BitVec 22) : Length.Statement (.br g o) := fun _ _ h => by cases h; exact ⟨.inr rfl, getLsbD_append_one _⟩
theorem Length.j (o : BitVec 25) : Length.Statement (.j o) := fun _ _ h => by cases h; exact ⟨.inr rfl, getLsbD_append_one _⟩
theorem Length.jal (g : BitVec 3) (o : BitVec 22) : Length.Statement (.jal g o) := fun _ _ h => by cases h; exact ⟨.inr rfl, getLsbD_append_one _⟩
theorem Length.jr (g : BitVec 3) (d : BitVec 5) (a : BitVec 5) : Length.Statement (.jr g d a) := fun _ _ h => by cases h; exact ⟨.inr rfl, getLsbD_append_one _⟩
theorem Length.ret (g : BitVec 3) (a : BitVec 5) : Length.Statement (.ret g a) := fun _ _ h => by cases h; exact ⟨.inr rfl, getLsbD_append_one _⟩
theorem Length.rep (g : BitVec 3) (t : BitVec 3) (c : BitVec 10) (l : BitVec 4) (s : BitVec 4) (r : BitVec 1) : Length.Statement (.rep g t c l s r) := fun _ _ h => by cases h; exact ⟨.inr rfl, getLsbD_append_one _⟩
theorem Length.lxi (g : BitVec 3) (e : BitVec 3) (k : BitVec 2) (i : BitVec 16) : Length.Statement (.lxi g e k i) := fun _ _ h => by cases h; exact ⟨.inr rfl, getLsbD_append_one _⟩
theorem Length.lxiZ (g : BitVec 3) (e : BitVec 3) (k : BitVec 2) (i : BitVec 16) : Length.Statement (.lxiZ g e k i) := fun _ _ h => by cases h; exact ⟨.inr rfl, getLsbD_append_one _⟩
theorem Length.mvxToE (g : BitVec 3) (d : BitVec 3) (a : BitVec 5) : Length.Statement (.mvxToE g d a) := fun _ _ h => by cases h; exact ⟨.inr rfl, getLsbD_append_one _⟩
theorem Length.mvxFromE (g : BitVec 3) (d : BitVec 5) (a : BitVec 3) : Length.Statement (.mvxFromE g d a) := fun _ _ h => by cases h; exact ⟨.inr rfl, getLsbD_append_one _⟩
theorem Length.ld (g : BitVec 3) (d : BitVec 5) (a : BitVec 5) (o : BitVec 9) (s : BitVec 3) : Length.Statement (.ld g d a o s) := fun _ _ h => by cases h; exact ⟨.inr rfl, getLsbD_append_one _⟩
theorem Length.st (g : BitVec 3) (d : BitVec 5) (a : BitVec 5) (o : BitVec 9) (s : BitVec 3) : Length.Statement (.st g d a o s) := fun _ _ h => by cases h; exact ⟨.inr rfl, getLsbD_append_one _⟩
theorem Length.ldF (g : BitVec 3) (d : BitVec 5) (a : BitVec 5) (o : BitVec 8) (s : BitVec 3) : Length.Statement (.ldF g d a o s) := fun _ _ h => by cases h; exact ⟨.inr rfl, getLsbD_append_one _⟩
theorem Length.ldFc (g : BitVec 3) (d : BitVec 5) (a : BitVec 5) (o : BitVec 8) (s : BitVec 3) : Length.Statement (.ldFc g d a o s) := fun _ _ h => by cases h; exact ⟨.inr rfl, getLsbD_append_one _⟩
theorem Length.stE (g : BitVec 3) (d : BitVec 5) (a : BitVec 5) (o : BitVec 9) (s : BitVec 3) : Length.Statement (.stE g d a o s) := fun _ _ h => by cases h; exact ⟨.inr rfl, getLsbD_append_one _⟩
theorem Length.ldc (g : BitVec 3) (d : BitVec 5) (a : BitVec 5) (o : BitVec 9) : Length.Statement (.ldc g d a o) := fun _ _ h => by cases h; exact ⟨.inr rfl, getLsbD_append_one _⟩
theorem Length.stc (g : BitVec 3) (d : BitVec 5) (a : BitVec 5) (o : BitVec 9) : Length.Statement (.stc g d a o) := fun _ _ h => by cases h; exact ⟨.inr rfl, getLsbD_append_one _⟩
theorem Length.vld (g : BitVec 3) (d : BitVec 4) (a : BitVec 5) (o : BitVec 9) : Length.Statement (.vld g d a o) := fun _ _ h => by cases h; exact ⟨.inr rfl, getLsbD_append_one _⟩
theorem Length.vst (g : BitVec 3) (d : BitVec 4) (a : BitVec 5) (o : BitVec 9) : Length.Statement (.vst g d a o) := fun _ _ h => by cases h; exact ⟨.inr rfl, getLsbD_append_one _⟩
theorem Length.vlds (g : BitVec 3) (d : BitVec 4) (a : BitVec 5) (b : BitVec 5) (w : BitVec 2) : Length.Statement (.vlds g d a b w) := fun _ _ h => by cases h; exact ⟨.inr rfl, getLsbD_append_one _⟩
theorem Length.vsts (g : BitVec 3) (d : BitVec 4) (a : BitVec 5) (b : BitVec 5) (w : BitVec 2) : Length.Statement (.vsts g d a b w) := fun _ _ h => by cases h; exact ⟨.inr rfl, getLsbD_append_one _⟩
theorem Length.vldg (g : BitVec 3) (d : BitVec 4) (a : BitVec 5) (b : BitVec 4) (w : BitVec 2) : Length.Statement (.vldg g d a b w) := fun _ _ h => by cases h; exact ⟨.inr rfl, getLsbD_append_one _⟩
theorem Length.vstx (g : BitVec 3) (d : BitVec 4) (a : BitVec 5) (b : BitVec 4) (w : BitVec 2) : Length.Statement (.vstx g d a b w) := fun _ _ h => by cases h; exact ⟨.inr rfl, getLsbD_append_one _⟩
theorem Length.pushm (g : BitVec 3) (d : BitVec 5) (a : BitVec 5) : Length.Statement (.pushm g d a) := fun _ _ h => by cases h; exact ⟨.inr rfl, getLsbD_append_one _⟩
theorem Length.popm (g : BitVec 3) (d : BitVec 5) (a : BitVec 5) : Length.Statement (.popm g d a) := fun _ _ h => by cases h; exact ⟨.inr rfl, getLsbD_append_one _⟩
theorem Length.fenceFar (g : BitVec 3) : Length.Statement (.fenceFar g) := fun _ _ h => by cases h; exact ⟨.inr rfl, getLsbD_append_one _⟩
theorem Length.fenceEng (g : BitVec 3) : Length.Statement (.fenceEng g) := fun _ _ h => by cases h; exact ⟨.inr rfl, getLsbD_append_one _⟩
theorem Length.fenceCore (g : BitVec 3) : Length.Statement (.fenceCore g) := fun _ _ h => by cases h; exact ⟨.inr rfl, getLsbD_append_one _⟩
theorem Length.amoAdd (g : BitVec 3) (d : BitVec 5) (a : BitVec 5) (b : BitVec 5) (w : BitVec 1) : Length.Statement (.amoAdd g d a b w) := fun _ _ h => by cases h; exact ⟨.inr rfl, getLsbD_append_one _⟩
theorem Length.amoAnd (g : BitVec 3) (d : BitVec 5) (a : BitVec 5) (b : BitVec 5) (w : BitVec 1) : Length.Statement (.amoAnd g d a b w) := fun _ _ h => by cases h; exact ⟨.inr rfl, getLsbD_append_one _⟩
theorem Length.amoOr (g : BitVec 3) (d : BitVec 5) (a : BitVec 5) (b : BitVec 5) (w : BitVec 1) : Length.Statement (.amoOr g d a b w) := fun _ _ h => by cases h; exact ⟨.inr rfl, getLsbD_append_one _⟩
theorem Length.amoXor (g : BitVec 3) (d : BitVec 5) (a : BitVec 5) (b : BitVec 5) (w : BitVec 1) : Length.Statement (.amoXor g d a b w) := fun _ _ h => by cases h; exact ⟨.inr rfl, getLsbD_append_one _⟩
theorem Length.amoMin (g : BitVec 3) (d : BitVec 5) (a : BitVec 5) (b : BitVec 5) (w : BitVec 1) : Length.Statement (.amoMin g d a b w) := fun _ _ h => by cases h; exact ⟨.inr rfl, getLsbD_append_one _⟩
theorem Length.amoMax (g : BitVec 3) (d : BitVec 5) (a : BitVec 5) (b : BitVec 5) (w : BitVec 1) : Length.Statement (.amoMax g d a b w) := fun _ _ h => by cases h; exact ⟨.inr rfl, getLsbD_append_one _⟩
theorem Length.amoMinz (g : BitVec 3) (d : BitVec 5) (a : BitVec 5) (b : BitVec 5) (w : BitVec 1) : Length.Statement (.amoMinz g d a b w) := fun _ _ h => by cases h; exact ⟨.inr rfl, getLsbD_append_one _⟩
theorem Length.amoMaxz (g : BitVec 3) (d : BitVec 5) (a : BitVec 5) (b : BitVec 5) (w : BitVec 1) : Length.Statement (.amoMaxz g d a b w) := fun _ _ h => by cases h; exact ⟨.inr rfl, getLsbD_append_one _⟩
theorem Length.amoSwp (g : BitVec 3) (d : BitVec 5) (a : BitVec 5) (b : BitVec 5) (w : BitVec 1) : Length.Statement (.amoSwp g d a b w) := fun _ _ h => by cases h; exact ⟨.inr rfl, getLsbD_append_one _⟩
theorem Length.amoCas (g : BitVec 3) (d : BitVec 5) (a : BitVec 5) (b : BitVec 5) (w : BitVec 1) : Length.Statement (.amoCas g d a b w) := fun _ _ h => by cases h; exact ⟨.inr rfl, getLsbD_append_one _⟩
theorem Length.vamoAdd (g : BitVec 3) (d : BitVec 4) (a : BitVec 5) (b : BitVec 4) (w : BitVec 1) : Length.Statement (.vamoAdd g d a b w) := fun _ _ h => by cases h; exact ⟨.inr rfl, getLsbD_append_one _⟩
theorem Length.vamoAnd (g : BitVec 3) (d : BitVec 4) (a : BitVec 5) (b : BitVec 4) (w : BitVec 1) : Length.Statement (.vamoAnd g d a b w) := fun _ _ h => by cases h; exact ⟨.inr rfl, getLsbD_append_one _⟩
theorem Length.vamoOr (g : BitVec 3) (d : BitVec 4) (a : BitVec 5) (b : BitVec 4) (w : BitVec 1) : Length.Statement (.vamoOr g d a b w) := fun _ _ h => by cases h; exact ⟨.inr rfl, getLsbD_append_one _⟩
theorem Length.vamoXor (g : BitVec 3) (d : BitVec 4) (a : BitVec 5) (b : BitVec 4) (w : BitVec 1) : Length.Statement (.vamoXor g d a b w) := fun _ _ h => by cases h; exact ⟨.inr rfl, getLsbD_append_one _⟩
theorem Length.vamoMin (g : BitVec 3) (d : BitVec 4) (a : BitVec 5) (b : BitVec 4) (w : BitVec 1) : Length.Statement (.vamoMin g d a b w) := fun _ _ h => by cases h; exact ⟨.inr rfl, getLsbD_append_one _⟩
theorem Length.vamoMax (g : BitVec 3) (d : BitVec 4) (a : BitVec 5) (b : BitVec 4) (w : BitVec 1) : Length.Statement (.vamoMax g d a b w) := fun _ _ h => by cases h; exact ⟨.inr rfl, getLsbD_append_one _⟩
theorem Length.vamoMinz (g : BitVec 3) (d : BitVec 4) (a : BitVec 5) (b : BitVec 4) (w : BitVec 1) : Length.Statement (.vamoMinz g d a b w) := fun _ _ h => by cases h; exact ⟨.inr rfl, getLsbD_append_one _⟩
theorem Length.vamoMaxz (g : BitVec 3) (d : BitVec 4) (a : BitVec 5) (b : BitVec 4) (w : BitVec 1) : Length.Statement (.vamoMaxz g d a b w) := fun _ _ h => by cases h; exact ⟨.inr rfl, getLsbD_append_one _⟩
theorem Length.vamoSwp (g : BitVec 3) (d : BitVec 4) (a : BitVec 5) (b : BitVec 4) (w : BitVec 1) : Length.Statement (.vamoSwp g d a b w) := fun _ _ h => by cases h; exact ⟨.inr rfl, getLsbD_append_one _⟩
theorem Length.acc (g : BitVec 3) (a : BitVec 5) (b : BitVec 4) (l : BitVec 2) (f : BitVec 2) : Length.Statement (.acc g a b l f) := fun _ _ h => by cases h; exact ⟨.inr rfl, getLsbD_append_one _⟩
theorem Length.maccMx8 (g : BitVec 3) (d : BitVec 5) (a : BitVec 5) (b : BitVec 4) : Length.Statement (.maccMx8 g d a b) := fun _ _ h => by cases h; exact ⟨.inr rfl, getLsbD_append_one _⟩
theorem Length.maccMx4 (g : BitVec 3) (d : BitVec 5) (a : BitVec 5) (b : BitVec 4) : Length.Statement (.maccMx4 g d a b) := fun _ _ h => by cases h; exact ⟨.inr rfl, getLsbD_append_one _⟩
theorem Length.seal (g : BitVec 3) (a : BitVec 5) (k : BitVec 1) (f : BitVec 2) : Length.Statement (.seal g a k f) := fun _ _ h => by cases h; exact ⟨.inr rfl, getLsbD_append_one _⟩
theorem Length.feSet (g : BitVec 3) (a : BitVec 5) (b : BitVec 5) : Length.Statement (.feSet g a b) := fun _ _ h => by cases h; exact ⟨.inr rfl, getLsbD_append_one _⟩
theorem Length.feClr (g : BitVec 3) (a : BitVec 5) (b : BitVec 5) : Length.Statement (.feClr g a b) := fun _ _ h => by cases h; exact ⟨.inr rfl, getLsbD_append_one _⟩
theorem Length.vadd (g : BitVec 3) (d : BitVec 4) (t : BitVec 3) (a : BitVec 4) (b : BitVec 4) (r : BitVec 3) : Length.Statement (.vadd g d t a b r) := fun _ _ h => by cases h; exact ⟨.inr rfl, getLsbD_append_one _⟩
theorem Length.vsub (g : BitVec 3) (d : BitVec 4) (t : BitVec 3) (a : BitVec 4) (b : BitVec 4) (r : BitVec 3) : Length.Statement (.vsub g d t a b r) := fun _ _ h => by cases h; exact ⟨.inr rfl, getLsbD_append_one _⟩
theorem Length.vmul (g : BitVec 3) (d : BitVec 4) (t : BitVec 3) (a : BitVec 4) (b : BitVec 4) (r : BitVec 3) : Length.Statement (.vmul g d t a b r) := fun _ _ h => by cases h; exact ⟨.inr rfl, getLsbD_append_one _⟩
theorem Length.vmin (g : BitVec 3) (d : BitVec 4) (t : BitVec 3) (a : BitVec 4) (b : BitVec 4) (u : BitVec 1) : Length.Statement (.vmin g d t a b u) := fun _ _ h => by cases h; exact ⟨.inr rfl, getLsbD_append_one _⟩
theorem Length.vmax (g : BitVec 3) (d : BitVec 4) (t : BitVec 3) (a : BitVec 4) (b : BitVec 4) (u : BitVec 1) : Length.Statement (.vmax g d t a b u) := fun _ _ h => by cases h; exact ⟨.inr rfl, getLsbD_append_one _⟩
theorem Length.vabs (g : BitVec 3) (d : BitVec 4) (t : BitVec 3) (a : BitVec 4) : Length.Statement (.vabs g d t a) := fun _ _ h => by cases h; exact ⟨.inr rfl, getLsbD_append_one _⟩
theorem Length.vneg (g : BitVec 3) (d : BitVec 4) (t : BitVec 3) (a : BitVec 4) : Length.Statement (.vneg g d t a) := fun _ _ h => by cases h; exact ⟨.inr rfl, getLsbD_append_one _⟩
theorem Length.vdiv (g : BitVec 3) (d : BitVec 4) (t : BitVec 3) (a : BitVec 4) (b : BitVec 4) (r : BitVec 3) : Length.Statement (.vdiv g d t a b r) := fun _ _ h => by cases h; exact ⟨.inr rfl, getLsbD_append_one _⟩
theorem Length.vsqrt (g : BitVec 3) (d : BitVec 4) (t : BitVec 3) (a : BitVec 4) (r : BitVec 3) : Length.Statement (.vsqrt g d t a r) := fun _ _ h => by cases h; exact ⟨.inr rfl, getLsbD_append_one _⟩
theorem Length.vfma (g : BitVec 3) (d : BitVec 4) (t : BitVec 3) (a : BitVec 4) (b : BitVec 4) (r : BitVec 3) : Length.Statement (.vfma g d t a b r) := fun _ _ h => by cases h; exact ⟨.inr rfl, getLsbD_append_one _⟩
theorem Length.vfms (g : BitVec 3) (d : BitVec 4) (t : BitVec 3) (a : BitVec 4) (b : BitVec 4) (r : BitVec 3) : Length.Statement (.vfms g d t a b r) := fun _ _ h => by cases h; exact ⟨.inr rfl, getLsbD_append_one _⟩
theorem Length.vfnma (g : BitVec 3) (d : BitVec 4) (t : BitVec 3) (a : BitVec 4) (b : BitVec 4) (r : BitVec 3) : Length.Statement (.vfnma g d t a b r) := fun _ _ h => by cases h; exact ⟨.inr rfl, getLsbD_append_one _⟩
theorem Length.vfnms (g : BitVec 3) (d : BitVec 4) (t : BitVec 3) (a : BitVec 4) (b : BitVec 4) (r : BitVec 3) : Length.Statement (.vfnms g d t a b r) := fun _ _ h => by cases h; exact ⟨.inr rfl, getLsbD_append_one _⟩
theorem Length.vrcp (g : BitVec 3) (d : BitVec 4) (t : BitVec 3) (a : BitVec 4) : Length.Statement (.vrcp g d t a) := fun _ _ h => by cases h; exact ⟨.inr rfl, getLsbD_append_one _⟩
theorem Length.vrsq (g : BitVec 3) (d : BitVec 4) (t : BitVec 3) (a : BitVec 4) : Length.Statement (.vrsq g d t a) := fun _ _ h => by cases h; exact ⟨.inr rfl, getLsbD_append_one _⟩
theorem Length.vex2 (g : BitVec 3) (d : BitVec 4) (t : BitVec 3) (a : BitVec 4) : Length.Statement (.vex2 g d t a) := fun _ _ h => by cases h; exact ⟨.inr rfl, getLsbD_append_one _⟩
theorem Length.vlg2 (g : BitVec 3) (d : BitVec 4) (t : BitVec 3) (a : BitVec 4) : Length.Statement (.vlg2 g d t a) := fun _ _ h => by cases h; exact ⟨.inr rfl, getLsbD_append_one _⟩
theorem Length.vtanh (g : BitVec 3) (d : BitVec 4) (t : BitVec 3) (a : BitVec 4) : Length.Statement (.vtanh g d t a) := fun _ _ h => by cases h; exact ⟨.inr rfl, getLsbD_append_one _⟩
theorem Length.vsin (g : BitVec 3) (d : BitVec 4) (t : BitVec 3) (a : BitVec 4) : Length.Statement (.vsin g d t a) := fun _ _ h => by cases h; exact ⟨.inr rfl, getLsbD_append_one _⟩
theorem Length.vcvt (g : BitVec 3) (d : BitVec 4) (a : BitVec 4) (e : BitVec 4) (s : BitVec 4) (r : BitVec 3) : Length.Statement (.vcvt g d a e s r) := fun _ _ h => by cases h; exact ⟨.inr rfl, getLsbD_append_one _⟩
theorem Length.vdot (g : BitVec 3) (d : BitVec 4) (t : BitVec 3) (a : BitVec 4) (b : BitVec 4) (r : BitVec 3) : Length.Statement (.vdot g d t a b r) := fun _ _ h => by cases h; exact ⟨.inr rfl, getLsbD_append_one _⟩
theorem Length.vredsum (g : BitVec 3) (d : BitVec 4) (t : BitVec 3) (a : BitVec 4) (r : BitVec 3) : Length.Statement (.vredsum g d t a r) := fun _ _ h => by cases h; exact ⟨.inr rfl, getLsbD_append_one _⟩
theorem Length.vredmax (g : BitVec 3) (d : BitVec 4) (t : BitVec 3) (a : BitVec 4) : Length.Statement (.vredmax g d t a) := fun _ _ h => by cases h; exact ⟨.inr rfl, getLsbD_append_one _⟩
theorem Length.vredmin (g : BitVec 3) (d : BitVec 4) (t : BitVec 3) (a : BitVec 4) : Length.Statement (.vredmin g d t a) := fun _ _ h => by cases h; exact ⟨.inr rfl, getLsbD_append_one _⟩
theorem Length.vredx (g : BitVec 3) (t : BitVec 3) (a : BitVec 4) (b : BitVec 4) : Length.Statement (.vredx g t a b) := fun _ _ h => by cases h; exact ⟨.inr rfl, getLsbD_append_one _⟩
theorem Length.vcmp (g : BitVec 3) (d : BitVec 4) (t : BitVec 3) (c : BitVec 3) (a : BitVec 4) (b : BitVec 4) (u : BitVec 1) : Length.Statement (.vcmp g d t c a b u) := fun _ _ h => by cases h; exact ⟨.inr rfl, getLsbD_append_one _⟩
theorem Length.vand (g : BitVec 3) (d : BitVec 4) (a : BitVec 4) (b : BitVec 4) : Length.Statement (.vand g d a b) := fun _ _ h => by cases h; exact ⟨.inr rfl, getLsbD_append_one _⟩
theorem Length.vor (g : BitVec 3) (d : BitVec 4) (a : BitVec 4) (b : BitVec 4) : Length.Statement (.vor g d a b) := fun _ _ h => by cases h; exact ⟨.inr rfl, getLsbD_append_one _⟩
theorem Length.vxor (g : BitVec 3) (d : BitVec 4) (a : BitVec 4) (b : BitVec 4) : Length.Statement (.vxor g d a b) := fun _ _ h => by cases h; exact ⟨.inr rfl, getLsbD_append_one _⟩
theorem Length.vsel (g : BitVec 3) (d : BitVec 4) (t : BitVec 3) (a : BitVec 4) (b : BitVec 4) : Length.Statement (.vsel g d t a b) := fun _ _ h => by cases h; exact ⟨.inr rfl, getLsbD_append_one _⟩
theorem Length.viadd (g : BitVec 3) (d : BitVec 4) (t : BitVec 3) (a : BitVec 4) (b : BitVec 4) : Length.Statement (.viadd g d t a b) := fun _ _ h => by cases h; exact ⟨.inr rfl, getLsbD_append_one _⟩
theorem Length.visub (g : BitVec 3) (d : BitVec 4) (t : BitVec 3) (a : BitVec 4) (b : BitVec 4) : Length.Statement (.visub g d t a b) := fun _ _ h => by cases h; exact ⟨.inr rfl, getLsbD_append_one _⟩
theorem Length.vimul (g : BitVec 3) (d : BitVec 4) (t : BitVec 3) (a : BitVec 4) (b : BitVec 4) : Length.Statement (.vimul g d t a b) := fun _ _ h => by cases h; exact ⟨.inr rfl, getLsbD_append_one _⟩
theorem Length.vshl (g : BitVec 3) (d : BitVec 4) (t : BitVec 3) (a : BitVec 4) (b : BitVec 4) : Length.Statement (.vshl g d t a b) := fun _ _ h => by cases h; exact ⟨.inr rfl, getLsbD_append_one _⟩
theorem Length.vshr (g : BitVec 3) (d : BitVec 4) (t : BitVec 3) (a : BitVec 4) (b : BitVec 4) : Length.Statement (.vshr g d t a b) := fun _ _ h => by cases h; exact ⟨.inr rfl, getLsbD_append_one _⟩
theorem Length.vsar (g : BitVec 3) (d : BitVec 4) (t : BitVec 3) (a : BitVec 4) (b : BitVec 4) : Length.Statement (.vsar g d t a b) := fun _ _ h => by cases h; exact ⟨.inr rfl, getLsbD_append_one _⟩
theorem Length.vpcnt (g : BitVec 3) (d : BitVec 4) (t : BitVec 3) (a : BitVec 4) : Length.Statement (.vpcnt g d t a) := fun _ _ h => by cases h; exact ⟨.inr rfl, getLsbD_append_one _⟩
theorem Length.vclm (g : BitVec 3) (d : BitVec 4) (t : BitVec 3) (a : BitVec 4) (b : BitVec 4) : Length.Statement (.vclm g d t a b) := fun _ _ h => by cases h; exact ⟨.inr rfl, getLsbD_append_one _⟩
theorem Length.vperm (g : BitVec 3) (d : BitVec 4) (t : BitVec 3) (a : BitVec 4) (b : BitVec 4) : Length.Statement (.vperm g d t a b) := fun _ _ h => by cases h; exact ⟨.inr rfl, getLsbD_append_one _⟩
theorem Length.vshuf (g : BitVec 3) (d : BitVec 4) (t : BitVec 3) (a : BitVec 4) (idx : BitVec 6) : Length.Statement (.vshuf g d t a idx) := fun _ _ h => by cases h; exact ⟨.inr rfl, getLsbD_append_one _⟩
theorem Length.vslideUp (g : BitVec 3) (d : BitVec 4) (t : BitVec 3) (a : BitVec 4) (idx : BitVec 6) : Length.Statement (.vslideUp g d t a idx) := fun _ _ h => by cases h; exact ⟨.inr rfl, getLsbD_append_one _⟩
theorem Length.vslideDn (g : BitVec 3) (d : BitVec 4) (t : BitVec 3) (a : BitVec 4) (idx : BitVec 6) : Length.Statement (.vslideDn g d t a idx) := fun _ _ h => by cases h; exact ⟨.inr rfl, getLsbD_append_one _⟩
theorem Length.vsplat (g : BitVec 3) (d : BitVec 4) (t : BitVec 3) (a : BitVec 4) : Length.Statement (.vsplat g d t a) := fun _ _ h => by cases h; exact ⟨.inr rfl, getLsbD_append_one _⟩
theorem Length.vins (g : BitVec 3) (d : BitVec 4) (t : BitVec 3) (a : BitVec 4) (idx : BitVec 6) : Length.Statement (.vins g d t a idx) := fun _ _ h => by cases h; exact ⟨.inr rfl, getLsbD_append_one _⟩
theorem Length.vext (g : BitVec 3) (d : BitVec 4) (t : BitVec 3) (a : BitVec 4) (idx : BitVec 6) : Length.Statement (.vext g d t a idx) := fun _ _ h => by cases h; exact ⟨.inr rfl, getLsbD_append_one _⟩
theorem Length.vmov (g : BitVec 3) (d : BitVec 4) (t : BitVec 3) (a : BitVec 4) : Length.Statement (.vmov g d t a) := fun _ _ h => by cases h; exact ⟨.inr rfl, getLsbD_append_one _⟩
theorem Length.sbindIn (g : BitVec 3) (d : BitVec 5) (a : BitVec 3) (b : BitVec 5) : Length.Statement (.sbindIn g d a b) := fun _ _ h => by cases h; exact ⟨.inr rfl, getLsbD_append_one _⟩
theorem Length.sbindOut (g : BitVec 3) (d : BitVec 5) (a : BitVec 3) (b : BitVec 5) : Length.Statement (.sbindOut g d a b) := fun _ _ h => by cases h; exact ⟨.inr rfl, getLsbD_append_one _⟩
theorem Length.sfree (g : BitVec 3) (d : BitVec 5) : Length.Statement (.sfree g d) := fun _ _ h => by cases h; exact ⟨.inr rfl, getLsbD_append_one _⟩
theorem Length.sskip (g : BitVec 3) (d : BitVec 5) (a : BitVec 5) : Length.Statement (.sskip g d a) := fun _ _ h => by cases h; exact ⟨.inr rfl, getLsbD_append_one _⟩
theorem Length.chset (g : BitVec 3) (a : BitVec 5) (h : BitVec 6) : Length.Statement (.chset g a h) := fun _ _ h => by cases h; exact ⟨.inr rfl, getLsbD_append_one _⟩
theorem Length.chclr (g : BitVec 3) (h : BitVec 6) : Length.Statement (.chclr g h) := fun _ _ h => by cases h; exact ⟨.inr rfl, getLsbD_append_one _⟩
theorem Length.chst (g : BitVec 3) (d : BitVec 5) (h : BitVec 6) : Length.Statement (.chst g d h) := fun _ _ h => by cases h; exact ⟨.inr rfl, getLsbD_append_one _⟩
theorem Length.snd (g : BitVec 3) (a : BitVec 5) (h : BitVec 6) : Length.Statement (.snd g a h) := fun _ _ h => by cases h; exact ⟨.inr rfl, getLsbD_append_one _⟩
theorem Length.sndv (g : BitVec 3) (a : BitVec 4) (h : BitVec 6) : Length.Statement (.sndv g a h) := fun _ _ h => by cases h; exact ⟨.inr rfl, getLsbD_append_one _⟩
theorem Length.bsnd (g : BitVec 3) (a : BitVec 5) (h : BitVec 6) : Length.Statement (.bsnd g a h) := fun _ _ h => by cases h; exact ⟨.inr rfl, getLsbD_append_one _⟩
theorem Length.rcv (g : BitVec 3) (d : BitVec 5) (h : BitVec 6) : Length.Statement (.rcv g d h) := fun _ _ h => by cases h; exact ⟨.inr rfl, getLsbD_append_one _⟩
theorem Length.rcvv (g : BitVec 3) (d : BitVec 4) (h : BitVec 6) : Length.Statement (.rcvv g d h) := fun _ _ h => by cases h; exact ⟨.inr rfl, getLsbD_append_one _⟩
theorem Length.brcv (g : BitVec 3) (a : BitVec 5) (h : BitVec 6) : Length.Statement (.brcv g a h) := fun _ _ h => by cases h; exact ⟨.inr rfl, getLsbD_append_one _⟩
theorem Length.alt (g : BitVec 3) (d : BitVec 5) (a : BitVec 3) : Length.Statement (.alt g d a) := fun _ _ h => by cases h; exact ⟨.inr rfl, getLsbD_append_one _⟩
theorem Length.altP (g : BitVec 3) (d : BitVec 5) (a : BitVec 3) : Length.Statement (.altP g d a) := fun _ _ h => by cases h; exact ⟨.inr rfl, getLsbD_append_one _⟩
theorem Length.altD (g : BitVec 3) (d : BitVec 5) (a : BitVec 3) (b : BitVec 3) : Length.Statement (.altD g d a b) := fun _ _ h => by cases h; exact ⟨.inr rfl, getLsbD_append_one _⟩
theorem Length.altPD (g : BitVec 3) (d : BitVec 5) (a : BitVec 3) (b : BitVec 3) : Length.Statement (.altPD g d a b) := fun _ _ h => by cases h; exact ⟨.inr rfl, getLsbD_append_one _⟩
theorem Length.mxq (g : BitVec 3) (d : BitVec 5) (a : BitVec 5) (b : BitVec 5) (s : BitVec 3) : Length.Statement (.mxq g d a b s) := fun _ _ h => by cases h; exact ⟨.inr rfl, getLsbD_append_one _⟩
theorem Length.cpq (g : BitVec 3) (d : BitVec 5) (a : BitVec 5) (b : BitVec 5) (m : BitVec 3) : Length.Statement (.cpq g d a b m) := fun _ _ h => by cases h; exact ⟨.inr rfl, getLsbD_append_one _⟩
theorem Length.jwait (g : BitVec 3) (a : BitVec 5) : Length.Statement (.jwait g a) := fun _ _ h => by cases h; exact ⟨.inr rfl, getLsbD_append_one _⟩
theorem Length.jst (g : BitVec 3) (d : BitVec 5) (a : BitVec 5) : Length.Statement (.jst g d a) := fun _ _ h => by cases h; exact ⟨.inr rfl, getLsbD_append_one _⟩
theorem Length.mxf (g : BitVec 3) : Length.Statement (.mxf g) := fun _ _ h => by cases h; exact ⟨.inr rfl, getLsbD_append_one _⟩
theorem Length.barr (g : BitVec 3) (b : BitVec 5) : Length.Statement (.barr g b) := fun _ _ h => by cases h; exact ⟨.inr rfl, getLsbD_append_one _⟩
theorem Length.barw (g : BitVec 3) (b : BitVec 5) : Length.Statement (.barw g b) := fun _ _ h => by cases h; exact ⟨.inr rfl, getLsbD_append_one _⟩
theorem Length.bar (g : BitVec 3) (b : BitVec 5) : Length.Statement (.bar g b) := fun _ _ h => by cases h; exact ⟨.inr rfl, getLsbD_append_one _⟩
theorem Length.wtu (g : BitVec 3) (a : BitVec 5) : Length.Statement (.wtu g a) := fun _ _ h => by cases h; exact ⟨.inr rfl, getLsbD_append_one _⟩
theorem Length.rdt (g : BitVec 3) (d : BitVec 5) : Length.Statement (.rdt g d) := fun _ _ h => by cases h; exact ⟨.inr rfl, getLsbD_append_one _⟩
theorem Length.spwn (g : BitVec 3) (a : BitVec 5) (b : BitVec 5) (k : BitVec 3) : Length.Statement (.spwn g a b k) := fun _ _ h => by cases h; exact ⟨.inr rfl, getLsbD_append_one _⟩
theorem Length.hlt (g : BitVec 3) : Length.Statement (.hlt g) := fun _ _ h => by cases h; exact ⟨.inr rfl, getLsbD_append_one _⟩
theorem Length.ckpt (g : BitVec 3) (a : BitVec 5) : Length.Statement (.ckpt g a) := fun _ _ h => by cases h; exact ⟨.inr rfl, getLsbD_append_one _⟩
theorem Length.mig (g : BitVec 3) (a : BitVec 5) : Length.Statement (.mig g a) := fun _ _ h => by cases h; exact ⟨.inr rfl, getLsbD_append_one _⟩
theorem Length.sstat (g : BitVec 3) (d : BitVec 5) (k : BitVec 3) : Length.Statement (.sstat g d k) := fun _ _ h => by cases h; exact ⟨.inr rfl, getLsbD_append_one _⟩
theorem Length.csrr (g : BitVec 3) (d : BitVec 5) (c : BitVec 12) : Length.Statement (.csrr g d c) := fun _ _ h => by cases h; exact ⟨.inr rfl, getLsbD_append_one _⟩
theorem Length.csrw (g : BitVec 3) (c : BitVec 12) (a : BitVec 5) : Length.Statement (.csrw g c a) := fun _ _ h => by cases h; exact ⟨.inr rfl, getLsbD_append_one _⟩
theorem Length.csrx (g : BitVec 3) (d : BitVec 5) (c : BitVec 12) (a : BitVec 5) : Length.Statement (.csrx g d c a) := fun _ _ h => by cases h; exact ⟨.inr rfl, getLsbD_append_one _⟩
theorem Length.trap (g : BitVec 3) (a : BitVec 5) : Length.Statement (.trap g a) := fun _ _ h => by cases h; exact ⟨.inr rfl, getLsbD_append_one _⟩
theorem Length.eret (g : BitVec 3) : Length.Statement (.eret g) := fun _ _ h => by cases h; exact ⟨.inr rfl, getLsbD_append_one _⟩
theorem Length.dbg (g : BitVec 3) (a : BitVec 5) : Length.Statement (.dbg g a) := fun _ _ h => by cases h; exact ⟨.inr rfl, getLsbD_append_one _⟩
theorem Length.rmap (g : BitVec 3) (d : BitVec 5) (a : BitVec 5) : Length.Statement (.rmap g d a) := fun _ _ h => by cases h; exact ⟨.inr rfl, getLsbD_append_one _⟩
theorem Length.chmint (g : BitVec 3) (d : BitVec 5) (a : BitVec 5) : Length.Statement (.chmint g d a) := fun _ _ h => by cases h; exact ⟨.inr rfl, getLsbD_append_one _⟩
theorem Length.pmint (g : BitVec 3) (d : BitVec 5) (a : BitVec 5) : Length.Statement (.pmint g d a) := fun _ _ h => by cases h; exact ⟨.inr rfl, getLsbD_append_one _⟩
theorem Length.mov16 (d : BitVec 4) (s : BitVec 4) : Length.Statement (.mov16 d s) := fun _ _ h => by cases h; exact ⟨.inl rfl, getLsbD_short _ _ rfl⟩
theorem Length.addi16 (d : BitVec 4) (i : BitVec 3) (s : BitVec 4) : Length.Statement (.addi16 d i s) := fun _ _ h => by cases h; exact ⟨.inl rfl, getLsbD_short _ _ rfl⟩
theorem Length.add16 (d : BitVec 4) (s : BitVec 4) : Length.Statement (.add16 d s) := fun _ _ h => by cases h; exact ⟨.inl rfl, getLsbD_short _ _ rfl⟩
theorem Length.ld16 (d : BitVec 4) (i : BitVec 3) (s : BitVec 4) : Length.Statement (.ld16 d i s) := fun _ _ h => by cases h; exact ⟨.inl rfl, getLsbD_short _ _ rfl⟩
theorem Length.st16 (d : BitVec 4) (i : BitVec 3) (s : BitVec 4) : Length.Statement (.st16 d i s) := fun _ _ h => by cases h; exact ⟨.inl rfl, getLsbD_short _ _ rfl⟩
theorem Length.br16 (n : BitVec 3) (o : BitVec 8) : Length.Statement (.br16 n o) := fun _ _ h => by cases h; exact ⟨.inl rfl, getLsbD_short _ _ rfl⟩
theorem Length.j16 (o : BitVec 11) : Length.Statement (.j16 o) := fun _ _ h => by cases h; exact ⟨.inl rfl, getLsbD_short _ _ rfl⟩
theorem Length.snd16 (d : BitVec 4) (s : BitVec 4) : Length.Statement (.snd16 d s) := fun _ _ h => by cases h; exact ⟨.inl rfl, getLsbD_short _ _ rfl⟩
theorem Length.rcv16 (d : BitVec 4) (s : BitVec 4) : Length.Statement (.rcv16 d s) := fun _ _ h => by cases h; exact ⟨.inl rfl, getLsbD_short _ _ rfl⟩
theorem Length.nop16 : Length.Statement .nop16 := fun _ _ h => by cases h; decide
theorem Length.rlx : Length.Statement .rlx := fun _ _ h => by cases h; decide
theorem Length.farReplyArrival : Length.Statement .farReplyArrival := fun _ _ h => by cases h
theorem Length.fenceConditionMet : Length.Statement .fenceConditionMet := fun _ _ h => by cases h
theorem Length.icacheLineFill : Length.Statement .icacheLineFill := fun _ _ h => by cases h
theorem Length.wtuTargetReached : Length.Statement .wtuTargetReached := fun _ _ h => by cases h
theorem Length.altDeadline : Length.Statement .altDeadline := fun _ _ h => by cases h
theorem Length.messageArrival : Length.Statement .messageArrival := fun _ _ h => by cases h
theorem Length.acknowledgementArrival : Length.Statement .acknowledgementArrival := fun _ _ h => by cases h
theorem Length.releaseArrival : Length.Statement .releaseArrival := fun _ _ h => by cases h
theorem Length.nackArrival : Length.Statement .nackArrival := fun _ _ h => by cases h
theorem Length.pullCompletion : Length.Statement .pullCompletion := fun _ _ h => by cases h
theorem Length.holderUpdate : Length.Statement .holderUpdate := fun _ _ h => by cases h
theorem Length.holderUpdateReply : Length.Statement .holderUpdateReply := fun _ _ h => by cases h
theorem Length.barrierRelease : Length.Statement .barrierRelease := fun _ _ h => by cases h
theorem Length.queueEntryGrant : Length.Statement .queueEntryGrant := fun _ _ h => by cases h
theorem Length.mxeStepBegin : Length.Statement .mxeStepBegin := fun _ _ h => by cases h
theorem Length.accumulatorWrite : Length.Statement .accumulatorWrite := fun _ _ h => by cases h
theorem Length.drainGranuleWrite : Length.Statement .drainGranuleWrite := fun _ _ h => by cases h
theorem Length.mxeJobCompletion : Length.Statement .mxeJobCompletion := fun _ _ h => by cases h
theorem Length.tileOffer : Length.Statement .tileOffer := fun _ _ h => by cases h
theorem Length.tileGrant : Length.Statement .tileGrant := fun _ _ h => by cases h
theorem Length.tileLands : Length.Statement .tileLands := fun _ _ h => by cases h
theorem Length.outBufferFree : Length.Statement .outBufferFree := fun _ _ h => by cases h
theorem Length.tileOfferNack : Length.Statement .tileOfferNack := fun _ _ h => by cases h
theorem Length.cpeTurn : Length.Statement .cpeTurn := fun _ _ h => by cases h
theorem Length.cpeLineReply : Length.Statement .cpeLineReply := fun _ _ h => by cases h
theorem Length.cpeChunkWrite : Length.Statement .cpeChunkWrite := fun _ _ h => by cases h
theorem Length.cpeJobCompletion : Length.Statement .cpeJobCompletion := fun _ _ h => by cases h
theorem Length.sliceRequestArrival : Length.Statement .sliceRequestArrival := fun _ _ h => by cases h
theorem Length.tlbWalkEnd : Length.Statement .tlbWalkEnd := fun _ _ h => by cases h
theorem Length.activeRoundStart : Length.Statement .activeRoundStart := fun _ _ h => by cases h
theorem Length.fallowRound : Length.Statement .fallowRound := fun _ _ h => by cases h
theorem Length.refreshRound : Length.Statement .refreshRound := fun _ _ h => by cases h
theorem Length.slotPerform : Length.Statement .slotPerform := fun _ _ h => by cases h
theorem Length.reservedWrite : Length.Statement .reservedWrite := fun _ _ h => by cases h
theorem Length.sliceReply : Length.Statement .sliceReply := fun _ _ h => by cases h
theorem Length.freezeRequest : Length.Statement .freezeRequest := fun _ _ h => by cases h
theorem Length.doneMessage : Length.Statement .doneMessage := fun _ _ h => by cases h
theorem Length.panMintRequest : Length.Statement .panMintRequest := fun _ _ h => by cases h
theorem Length.contributorMintCheck : Length.Statement .contributorMintCheck := fun _ _ h => by cases h
theorem Length.masterSealRequest : Length.Statement .masterSealRequest := fun _ _ h => by cases h
theorem Length.sealBegin : Length.Statement .sealBegin := fun _ _ h => by cases h
theorem Length.panConversionDone : Length.Statement .panConversionDone := fun _ _ h => by cases h
theorem Length.panZeroingDone : Length.Statement .panZeroingDone := fun _ _ h => by cases h
theorem Length.panTableReply : Length.Statement .panTableReply := fun _ _ h => by cases h
theorem Length.rakeThreshold : Length.Statement .rakeThreshold := fun _ _ h => by cases h
theorem Length.rakeProbe : Length.Statement .rakeProbe := fun _ _ h => by cases h
theorem Length.rakeEcho : Length.Statement .rakeEcho := fun _ _ h => by cases h
theorem Length.rakeEntry : Length.Statement .rakeEntry := fun _ _ h => by cases h
theorem Length.rakeConfirm : Length.Statement .rakeConfirm := fun _ _ h => by cases h
theorem Length.rakeConfirmEcho : Length.Statement .rakeConfirmEcho := fun _ _ h => by cases h
theorem Length.rakeEnd : Length.Statement .rakeEnd := fun _ _ h => by cases h
theorem Length.seqReq : Length.Statement .seqReq := fun _ _ h => by cases h
theorem Length.seqGrant : Length.Statement .seqGrant := fun _ _ h => by cases h
theorem Length.recordWordResend : Length.Statement .recordWordResend := fun _ _ h => by cases h
theorem Length.supervisorRecord : Length.Statement .supervisorRecord := fun _ _ h => by cases h
theorem Length.jobRecordIntake : Length.Statement .jobRecordIntake := fun _ _ h => by cases h
theorem Length.hostRecordWrite : Length.Statement .hostRecordWrite := fun _ _ h => by cases h
theorem Length.jobSelection : Length.Statement .jobSelection := fun _ _ h => by cases h
theorem Length.jobPlacement : Length.Statement .jobPlacement := fun _ _ h => by cases h
theorem Length.wake : Length.Statement .wake := fun _ _ h => by cases h
theorem Length.wakeChannelBind : Length.Statement .wakeChannelBind := fun _ _ h => by cases h
theorem Length.jobCompletion : Length.Statement .jobCompletion := fun _ _ h => by cases h
theorem Length.noticeResend : Length.Statement .noticeResend := fun _ _ h => by cases h
theorem Length.qcfgWrite : Length.Statement .qcfgWrite := fun _ _ h => by cases h
theorem Length.preempt : Length.Statement .preempt := fun _ _ h => by cases h
theorem Length.preemptionMessage : Length.Statement .preemptionMessage := fun _ _ h => by cases h
theorem Length.preemptSaveComplete : Length.Statement .preemptSaveComplete := fun _ _ h => by cases h
theorem Length.resume : Length.Statement .resume := fun _ _ h => by cases h
theorem Length.resumeRelease : Length.Statement .resumeRelease := fun _ _ h => by cases h
theorem Length.abort : Length.Statement .abort := fun _ _ h => by cases h
theorem Length.registerRecallSaveArea : Length.Statement .registerRecallSaveArea := fun _ _ h => by cases h
theorem Length.crystalCurrent : Length.Statement .crystalCurrent := fun _ _ h => by cases h
theorem Length.selfCrystal : Length.Statement .selfCrystal := fun _ _ h => by cases h
theorem Length.logWrite : Length.Statement .logWrite := fun _ _ h => by cases h
theorem Length.uncorrectableSoftError : Length.Statement .uncorrectableSoftError := fun _ _ h => by cases h
theorem Length.softErrorCorrected : Length.Statement .softErrorCorrected := fun _ _ h => by cases h
theorem Length.coreRetirement : Length.Statement .coreRetirement := fun _ _ h => by cases h
theorem Length.substitutionRestoreDone : Length.Statement .substitutionRestoreDone := fun _ _ h => by cases h
theorem Length.debugHalt : Length.Statement .debugHalt := fun _ _ h => by cases h
theorem Length.debugRegisterWrite : Length.Statement .debugRegisterWrite := fun _ _ h => by cases h
theorem Length.packetHop : Length.Statement .packetHop := fun _ _ h => by cases h
theorem Length.heldPacketRelease : Length.Statement .heldPacketRelease := fun _ _ h => by cases h
theorem Length.remapWrite : Length.Statement .remapWrite := fun _ _ h => by cases h
theorem Length.routeTableWrite : Length.Statement .routeTableWrite := fun _ _ h => by cases h
theorem Length.bcfgOosWrite : Length.Statement .bcfgOosWrite := fun _ _ h => by cases h
theorem Length.reserveTake : Length.Statement .reserveTake := fun _ _ h => by cases h
theorem Length.reserveRelease : Length.Statement .reserveRelease := fun _ _ h => by cases h
theorem Length.deviceWindowAccess : Length.Statement .deviceWindowAccess := fun _ _ h => by cases h
theorem Length.parentClockStop : Length.Statement .parentClockStop := fun _ _ h => by cases h
theorem Length.lostClockReport : Length.Statement .lostClockReport := fun _ _ h => by cases h
theorem Length.reroot : Length.Statement .reroot := fun _ _ h => by cases h
theorem Length.rerootRelease : Length.Statement .rerootRelease := fun _ _ h => by cases h
theorem Length.moduleReset : Length.Statement .moduleReset := fun _ _ h => by cases h
theorem Length.bootStrandStart : Length.Statement .bootStrandStart := fun _ _ h => by cases h
theorem Length.partitionConfigWrite : Length.Statement .partitionConfigWrite := fun _ _ h => by cases h
theorem Length.partitionReset : Length.Statement .partitionReset := fun _ _ h => by cases h
theorem Length.unitLend : Length.Statement .unitLend := fun _ _ h => by cases h
theorem Length.unitRecall : Length.Statement .unitRecall := fun _ _ h => by cases h
theorem Length.pageTableWrite : Length.Statement .pageTableWrite := fun _ _ h => by cases h
theorem Length.panEntryRemoval : Length.Statement .panEntryRemoval := fun _ _ h => by cases h
theorem Length.ppwrWrite : Length.Statement .ppwrWrite := fun _ _ h => by cases h
theorem Length.modeChange : Length.Statement .modeChange := fun _ _ h => by cases h
theorem Length.thermalLimit : Length.Statement .thermalLimit := fun _ _ h => by cases h
theorem Length.thermalClear : Length.Statement .thermalClear := fun _ _ h => by cases h
theorem Length.ptpSync : Length.Statement .ptpSync := fun _ _ h => by cases h
theorem Length.ptpFollowUp : Length.Statement .ptpFollowUp := fun _ _ h => by cases h
theorem Length.ptpDelayReq : Length.Statement .ptpDelayReq := fun _ _ h => by cases h
theorem Length.ptpDelayResp : Length.Statement .ptpDelayResp := fun _ _ h => by cases h
theorem Length.syncTimeout : Length.Statement .syncTimeout := fun _ _ h => by cases h
theorem Length.frameSlot : Length.Statement .frameSlot := fun _ _ h => by cases h
theorem Length.frameArrival : Length.Statement .frameArrival := fun _ _ h => by cases h
theorem Length.tokenRefill : Length.Statement .tokenRefill := fun _ _ h => by cases h
theorem Length.vfConfigWrite : Length.Statement .vfConfigWrite := fun _ _ h => by cases h
theorem Length.vfFlush : Length.Statement .vfFlush := fun _ _ h => by cases h
theorem Length.sluiceClose : Length.Statement .sluiceClose := fun _ _ h => by cases h
theorem Length.sluiceOpen : Length.Statement .sluiceOpen := fun _ _ h => by cases h
theorem Length.lowPowerEnter : Length.Statement .lowPowerEnter := fun _ _ h => by cases h
theorem Length.closeMarker : Length.Statement .closeMarker := fun _ _ h => by cases h
theorem Length.drainComplete : Length.Statement .drainComplete := fun _ _ h => by cases h
theorem Length.wakeHint : Length.Statement .wakeHint := fun _ _ h => by cases h
theorem Length.trainingSuccess : Length.Statement .trainingSuccess := fun _ _ h => by cases h
theorem Length.trainingTimeout : Length.Statement .trainingTimeout := fun _ _ h => by cases h
theorem Length.migRecordArrival : Length.Statement .migRecordArrival := fun _ _ h => by cases h
theorem Length.migAccept : Length.Statement .migAccept := fun _ _ h => by cases h
theorem Length.migRefusal : Length.Statement .migRefusal := fun _ _ h => by cases h
theorem Length.hostPanTake : Length.Statement .hostPanTake := fun _ _ h => by cases h
theorem Length.hostPanAccess : Length.Statement .hostPanAccess := fun _ _ h => by cases h
theorem Length.pret : Length.Statement .pret := fun _ _ h => by cases h
theorem Length.tctlWrite : Length.Statement .tctlWrite := fun _ _ h => by cases h
theorem Length.trunGo : Length.Statement .trunGo := fun _ _ h => by cases h
theorem Length.patternTestResult : Length.Statement .patternTestResult := fun _ _ h => by cases h
theorem Length.repairWrite : Length.Statement .repairWrite := fun _ _ h => by cases h
theorem Length.seedWrite : Length.Statement .seedWrite := fun _ _ h => by cases h
theorem Length.quote : Length.Statement .quote := fun _ _ h => by cases h
theorem Length.meterReadout : Length.Statement .meterReadout := fun _ _ h => by cases h
theorem Length.raiseFusedMinimum : Length.Statement .raiseFusedMinimum := fun _ _ h => by cases h
theorem Length.firmwareImageSwitch : Length.Statement .firmwareImageSwitch := fun _ _ h => by cases h
theorem Length.tamperAlarm : Length.Statement .tamperAlarm := fun _ _ h => by cases h
theorem Length.alarmExit : Length.Statement .alarmExit := fun _ _ h => by cases h
theorem Length.registerWrite : Length.Statement .registerWrite := fun _ _ h => by cases h
theorem Length.deliveryTokenReturn : Length.Statement .deliveryTokenReturn := fun _ _ h => by cases h
theorem Length.ptpTimerDue : Length.Statement .ptpTimerDue := fun _ _ h => by cases h

end Sys2Proof.Laws
end

