-- ==== Sys2Proof/Tests/Slice0.lean ====
section
/-! SUPPORT. The model's own tests: ill-formed terms, a word of every encoded instruction written out field by field from the
opcode table, single steps on small states, and for every statement with hypotheses a state and operands that meet them. -/

namespace Sys2Proof.Tests

set_option Elab.async false

open Sys2Proof Sys2Proof.Machine

/-! ## Ill-formed terms: one for each check -/

theorem test_illformed_scalar :
    (Instr.add 0 0 0 0).wf = false ∧ (Instr.bfx 0 1 1 63 1).wf = false ∧ (Instr.bfi 0 1 1 1 63).wf = false ∧
    (Instr.cget 0 1 1 6).wf = false ∧ (Instr.rep 0 0 1 1 1 0).wf = false ∧ (Instr.rep 0 1 32 1 1 1).wf = false := by decide

theorem test_illformed_memory :
    (Instr.ld 0 1 2 0 7).wf = false ∧ (Instr.st 0 1 2 0 4).wf = false ∧ (Instr.ldF 0 1 2 0 7).wf = false ∧
    (Instr.ldFc 0 1 2 0 7).wf = false ∧ (Instr.stE 0 1 2 0 4).wf = false ∧ (Instr.stc 0 2 2 0).wf = false ∧
    (Instr.vlds 0 1 2 3 3).wf = false ∧ (Instr.vsts 0 1 2 3 3).wf = false ∧ (Instr.vldg 0 1 2 3 3).wf = false ∧
    (Instr.vstx 0 1 2 3 3).wf = false ∧ (Instr.pushm 0 0 1).wf = false ∧ (Instr.pushm 0 3 2).wf = false ∧
    (Instr.popm 0 0 1).wf = false ∧ (Instr.popm 0 3 2).wf = false ∧ (Instr.acc 0 1 1 3 0).wf = false ∧
    (Instr.acc 0 1 1 0 3).wf = false ∧ (Instr.seal 0 1 0 3).wf = false := by decide

theorem test_illformed_vector :
    (Instr.vadd 0 1 3 1 1 0).wf = false ∧ (Instr.vadd 0 1 0 1 1 6).wf = false ∧ (Instr.vsub 0 1 5 1 1 0).wf = false ∧
    (Instr.vmul 0 1 3 1 1 0).wf = false ∧ (Instr.vmin 0 1 0 1 1 1).wf = false ∧ (Instr.vmax 0 1 3 1 1 0).wf = false ∧
    (Instr.vabs 0 1 3 1).wf = false ∧ (Instr.vneg 0 1 4 1).wf = false ∧ (Instr.vdiv 0 1 5 1 1 0).wf = false ∧
    (Instr.vsqrt 0 1 0 1 7).wf = false ∧ (Instr.vfma 0 1 3 1 1 0).wf = false ∧ (Instr.vfms 0 1 0 1 1 6).wf = false ∧
    (Instr.vfnma 0 1 7 1 1 0).wf = false ∧ (Instr.vfnms 0 1 4 1 1 0).wf = false ∧ (Instr.vrcp 0 1 3 1).wf = false ∧
    (Instr.vrsq 0 1 5 1).wf = false ∧ (Instr.vex2 0 1 3 1).wf = false ∧ (Instr.vlg2 0 1 3 1).wf = false ∧
    (Instr.vtanh 0 1 3 1).wf = false ∧ (Instr.vsin 0 1 3 1).wf = false ∧ (Instr.vcvt 0 1 1 12 0 0).wf = false ∧
    (Instr.vcvt 0 1 1 0 12 0).wf = false ∧ (Instr.vcvt 0 1 1 2 2 0).wf = false ∧ (Instr.vcvt 0 1 1 1 2 6).wf = false ∧
    (Instr.vdot 0 1 0 1 1 0).wf = false ∧ (Instr.vdot 0 1 6 1 1 1).wf = false ∧ (Instr.vdot 0 1 1 1 1 6).wf = false ∧
    (Instr.vredsum 0 1 3 1 0).wf = false ∧ (Instr.vredsum 0 1 5 1 1).wf = false ∧ (Instr.vredmax 0 1 3 1).wf = false ∧
    (Instr.vredmin 0 1 4 1).wf = false ∧ (Instr.vredx 0 5 1 1).wf = false ∧ (Instr.vcmp 0 1 0 0 1 1 1).wf = false ∧
    (Instr.vcmp 0 1 5 6 1 1 0).wf = false := by decide

theorem test_illformed_lanes :
    (Instr.vsel 0 1 0 1 1).wf = false ∧ (Instr.viadd 0 1 0 1 1).wf = false ∧ (Instr.visub 0 1 1 1 1).wf = false ∧
    (Instr.vimul 0 1 2 1 1).wf = false ∧ (Instr.vshl 0 1 3 1 1).wf = false ∧ (Instr.vshr 0 1 4 1 1).wf = false ∧
    (Instr.vsar 0 1 0 1 1).wf = false ∧ (Instr.vpcnt 0 1 0 1).wf = false ∧ (Instr.vclm 0 1 0 1 1).wf = false ∧
    (Instr.vshuf 0 1 0 1 17).wf = false ∧ (Instr.vshuf 0 1 0 1 52).wf = false ∧ (Instr.vins 0 1 0 1 16).wf = false ∧
    (Instr.vext 0 1 1 1 32).wf = false ∧ (Instr.sbindIn 0 12 0 1).wf = false ∧ (Instr.sbindOut 0 13 6 1).wf = false ∧
    (Instr.sfree 0 16).wf = false ∧ (Instr.sskip 0 12 1).wf = false := by decide

theorem test_illformed_system :
    (Instr.barr 0 17).wf = false ∧ (Instr.barw 0 17).wf = false ∧ (Instr.bar 0 31).wf = false ∧
    (Instr.csrr 0 1 7).wf = false ∧ (Instr.csrr 0 0 1).wf = false ∧ (Instr.csrw 0 0x00C 1).wf = false ∧
    (Instr.csrw 0 1 0).wf = false ∧ (Instr.csrx 0 1 0x04D 1).wf = false ∧ (Instr.csrx 0 0 1 1).wf = false ∧
    (Instr.csrx 0 1 1 0).wf = false ∧ (Instr.mov16 0 1).wf = false := by decide

/-! ## Words of the opcode table, field by field: bits 31 to 0, or 15 to 0 -/

theorem test_words_0 :
    (decode32 0b0000000_11001_10110_01110_000000_111_1#32).toOption = some (.add 7#3 14#5 22#5 25#5) ∧
    (decode32 0b0000001_11001_00010_11110_000000_111_1#32).toOption = some (.sub 7#3 30#5 2#5 25#5) ∧
    (decode32 0b0000010_11101_01110_10100_000000_101_1#32).toOption = some (.and 5#3 20#5 14#5 29#5) ∧
    (decode32 0b0000011_01000_01100_10010_000000_100_1#32).toOption = some (.or 4#3 18#5 12#5 8#5) ∧
    (decode32 0b0000100_10100_11000_00100_000000_100_1#32).toOption = some (.xor 4#3 4#5 24#5 20#5) ∧
    (decode32 0b0000101_01101_11101_11010_000000_100_1#32).toOption = some (.shl 4#3 26#5 29#5 13#5) ∧
    (decode32 0b0000110_01111_01000_00010_000000_011_1#32).toOption = some (.shr 3#3 2#5 8#5 15#5) ∧
    (decode32 0b0000111_11011_11010_00010_000000_111_1#32).toOption = some (.sar 7#3 2#5 26#5 27#5) := by decide

theorem test_words_1 :
    (decode32 0b0001000_01111_11111_11111_000000_101_1#32).toOption = some (.mul 5#3 31#5 31#5 15#5) ∧
    (decode32 0b0001001_00011_10000_00001_000000_010_1#32).toOption = some (.mulh 2#3 1#5 16#5 3#5) ∧
    (decode32 0b0001010_11011_11100_10100_000000_110_1#32).toOption = some (.mulhz 6#3 20#5 28#5 27#5) ∧
    (decode32 0b0001011_01110_00001_01001_000000_011_1#32).toOption = some (.div 3#3 9#5 1#5 14#5) ∧
    (decode32 0b0001100_01101_00101_00110_000000_011_1#32).toOption = some (.divz 3#3 6#5 5#5 13#5) ∧
    (decode32 0b0001101_10111_01001_11001_000000_100_1#32).toOption = some (.rem 4#3 25#5 9#5 23#5) ∧
    (decode32 0b0001110_01001_01000_00001_000000_101_1#32).toOption = some (.remz 5#3 1#5 8#5 9#5) ∧
    (decode32 0b0001111_11101_01010_11001_000000_001_1#32).toOption = some (.min 1#3 25#5 10#5 29#5) := by decide

theorem test_words_2 :
    (decode32 0b0010000_10010_01101_11000_000000_011_1#32).toOption = some (.max 3#3 24#5 13#5 18#5) ∧
    (decode32 0b0010001_01110_10101_11110_000000_100_1#32).toOption = some (.minz 4#3 30#5 21#5 14#5) ∧
    (decode32 0b0010010_01101_11001_10101_000000_100_1#32).toOption = some (.maxz 4#3 21#5 25#5 13#5) ∧
    (decode32 0b0010011_00100_00111_01011_000000_001_1#32).toOption = some (.clm 1#3 11#5 7#5 4#5) ∧
    (decode32 0b0010100_11001_01111_00001_000000_001_1#32).toOption = some (.clmh 1#3 1#5 15#5 25#5) ∧
    (decode32 0b001100000000_00110_10001_000000_101_1#32).toOption = some (.clz 5#3 17#5 6#5) ∧
    (decode32 0b001100100000_11110_01110_000000_010_1#32).toOption = some (.ctz 2#3 14#5 30#5) ∧
    (decode32 0b001101000000_01111_10111_000000_100_1#32).toOption = some (.pcnt 4#3 23#5 15#5) := by decide

theorem test_words_3 :
    (decode32 0b001101100000_10000_00001_000000_111_1#32).toOption = some (.bswp 7#3 1#5 16#5) ∧
    (decode32 0b001110000000_00010_00010_000000_010_1#32).toOption = some (.mov 2#3 2#5 2#5) ∧
    (decode32 0b010000000000_10000_11111_000000_001_1#32).toOption = some (.sext8 1#3 31#5 16#5) ∧
    (decode32 0b010000100000_11110_00100_000000_001_1#32).toOption = some (.sext16 1#3 4#5 30#5) ∧
    (decode32 0b010001000000_01101_10100_000000_100_1#32).toOption = some (.sext32 4#3 20#5 13#5) ∧
    (decode32 0b010010000000_10111_01010_000000_101_1#32).toOption = some (.zext8 5#3 10#5 23#5) ∧
    (decode32 0b010010100000_11001_01110_000000_001_1#32).toOption = some (.zext16 1#3 14#5 25#5) ∧
    (decode32 0b010011000000_10010_10011_000000_110_1#32).toOption = some (.zext32 6#3 19#5 18#5) := by decide

theorem test_words_4 :
    (decode32 0b0110_101_11010_01110_10101_000000_100_1#32).toOption = some (.sel 4#3 21#5 5#3 14#5 26#5) ∧
    (decode32 0b100000_0_10010_11000_00111_000000_110_1#32).toOption = some (.shli 6#3 7#5 24#5 18#6) ∧
    (decode32 0b100001_0_00110_10101_00010_000000_111_1#32).toOption = some (.shri 7#3 2#5 21#5 6#6) ∧
    (decode32 0b100010_1_10011_11101_10101_000000_111_1#32).toOption = some (.sari 7#3 21#5 29#5 51#6) ∧
    (decode32 0b101010011010_11000_10111_000001_100_1#32).toOption = some (.addi 4#3 23#5 24#5 2714#12) ∧
    (decode32 0b011111100010_10110_01111_000010_001_1#32).toOption = some (.andi 1#3 15#5 22#5 2018#12) ∧
    (decode32 0b001001100110_01001_00011_000011_001_1#32).toOption = some (.ori 1#3 3#5 9#5 614#12) ∧
    (decode32 0b001100001011_00110_10110_000100_110_1#32).toOption = some (.xori 6#3 22#5 6#5 779#12) := by decide

theorem test_words_5 :
    (decode32 0b10010000111001111_00110_000101_011_1#32).toOption = some (.lhi 3#3 6#5 74191#17) ∧
    (decode32 0b000001_011001_01111_00110_000110_100_1#32).toOption = some (.bfx 4#3 6#5 15#5 25#6 1#6) ∧
    (decode32 0b011010_100000_01010_11101_000111_011_1#32).toOption = some (.bfi 3#3 29#5 10#5 32#6 26#6) ∧
    (decode32 0b0000000_10000_01011_01100_001000_101_1#32).toOption = some (.cbnd 5#3 12#5 11#5 16#5) ∧
    (decode32 0b0000001_01111_01100_01000_001000_111_1#32).toOption = some (.cprm 7#3 8#5 12#5 15#5) ∧
    (decode32 0b0000010_00100_11001_10000_001000_100_1#32).toOption = some (.cget 4#3 16#5 25#5 4#5) ∧
    (decode32 0b000001100000_11010_10100_001000_100_1#32).toOption = some (.cfrz 4#3 20#5 26#5) ∧
    (decode32 0b000010000000_01101_01001_001000_001_1#32).toOption = some (.cmv 1#3 9#5 13#5) := by decide

theorem test_words_6 :
    (decode32 0b000010100000_00110_01001_001000_011_1#32).toOption = some (.ctst 3#3 9#5 6#5) ∧
    (decode32 0b0000110_11110_10011_10110_001000_110_1#32).toOption = some (.cadd 6#3 22#5 19#5 30#5) ∧
    (decode32 0b0000111_01110_10100_11101_001000_011_1#32).toOption = some (.cmint 3#3 29#5 20#5 14#5) ∧
    (decode32 0b010001000001_00100_10110_001001_001_1#32).toOption = some (.caddImm 1#3 22#5 4#5 1089#12) ∧
    (decode32 0b10000_00101_011_001_111_110_001100_010_1#32).toOption = some (.cmp 2#3 6#3 7#3 1#3 3#3 5#5 16#5) ∧
    (decode32 0b10101_01100_110_110_011_011_001101_111_1#32).toOption = some (.cmpi 7#3 3#3 3#3 6#3 6#3 12#5 21#5) ∧
    (decode32 0b10010_10100_111_001_111_101_001110_001_1#32).toOption = some (.fcmp 1#3 5#3 7#3 1#3 7#3 20#5 18#5) ∧
    (decode32 0b00_100_00_010_110_101_011_001_001111_001_1#32).toOption = some (.pcmb 1#3 1#3 3#3 5#3 6#3 2#3 4#3) := by decide

theorem test_words_7 :
    (decode32 0b0010110011001010101111_010000_001_1#32).toOption = some (.br 1#3 733871#22) ∧
    (decode32 0b1011000100011001001011_010001_110_1#32).toOption = some (.j 28067403#25) ∧
    (decode32 0b1001001101001110011000_010010_011_1#32).toOption = some (.jal 3#3 2413464#22) ∧
    (decode32 0b000000000000_10100_00100_010011_001_1#32).toOption = some (.jr 1#3 4#5 20#5) ∧
    (decode32 0b000000000000_00111_00000_010100_010_1#32).toOption = some (.ret 2#3 7#5) ∧
    (decode32 0b1111_100_0000011010_1_0011_010101_001_1#32).toOption = some (.rep 1#3 4#3 26#10 3#4 15#4 1#1) ∧
    (decode32 0b0_1000001010001101_10_010_010110_001_1#32).toOption = some (.lxi 1#3 2#3 2#2 33421#16) ∧
    (decode32 0b1_1000101010100000_11_010_010110_010_1#32).toOption = some (.lxiZ 2#3 2#3 3#2 35488#16) := by decide

theorem test_words_8 :
    (decode32 0b000000000000_00010_00_101_010111_010_1#32).toOption = some (.mvxToE 2#3 5#3 2#5) ∧
    (decode32 0b00000010000000_111_00100_010111_110_1#32).toOption = some (.mvxFromE 6#3 4#5 7#3) ∧
    (decode32 0b011101011_101_11000_10001_011000_100_1#32).toOption = some (.ld 4#3 17#5 24#5 235#9 5#3) ∧
    (decode32 0b011000111_010_11110_01010_011001_001_1#32).toOption = some (.st 1#3 10#5 30#5 199#9 2#3) ∧
    (decode32 0b01101110_0_101_00111_10000_011010_100_1#32).toOption = some (.ldF 4#3 16#5 7#5 110#8 5#3) ∧
    (decode32 0b11100010_1_101_00101_11000_011010_011_1#32).toOption = some (.ldFc 3#3 24#5 5#5 226#8 5#3) ∧
    (decode32 0b011110110_001_00011_11000_011011_011_1#32).toOption = some (.stE 3#3 24#5 3#5 246#9 1#3) ∧
    (decode32 0b011100001_000_11010_10000_011100_001_1#32).toOption = some (.ldc 1#3 16#5 26#5 225#9) := by decide

theorem test_words_9 :
    (decode32 0b111111010_001_10000_11100_011100_111_1#32).toOption = some (.stc 7#3 28#5 16#5 506#9) ∧
    (decode32 0b010111100_000_00001_0_1100_011101_011_1#32).toOption = some (.vld 3#3 12#4 1#5 188#9) ∧
    (decode32 0b010100011_001_01101_0_1011_011101_111_1#32).toOption = some (.vst 7#3 11#4 13#5 163#9) ∧
    (decode32 0b000_01_00_10011_10010_0_1100_011110_011_1#32).toOption = some (.vlds 3#3 12#4 18#5 19#5 1#2) ∧
    (decode32 0b000_01_01_11011_10010_0_1101_011110_100_1#32).toOption = some (.vsts 4#3 13#4 18#5 27#5 1#2) ∧
    (decode32 0b000_10_100_0110_01000_0_0001_011110_110_1#32).toOption = some (.vldg 6#3 1#4 8#5 6#4 2#2) ∧
    (decode32 0b000_01_110_0100_01010_0_1101_011110_110_1#32).toOption = some (.vstx 6#3 13#4 10#5 4#4 1#2) ∧
    (decode32 0b000000000000_10011_01110_011111_100_1#32).toOption = some (.pushm 4#3 14#5 19#5) := by decide

theorem test_words_10 :
    (decode32 0b000000100000_11010_10000_011111_111_1#32).toOption = some (.popm 7#3 16#5 26#5) ∧
    (decode32 0b0010000000000000000000_011111_100_1#32).toOption = some (.fenceFar 4#3) ∧
    (decode32 0b0010001000000000000000_011111_010_1#32).toOption = some (.fenceEng 2#3) ∧
    (decode32 0b0010010000000000000000_011111_010_1#32).toOption = some (.fenceCore 2#3) ∧
    (decode32 0b00_1_0000_11110_11000_00010_100000_110_1#32).toOption = some (.amoAdd 6#3 2#5 24#5 30#5 1#1) ∧
    (decode32 0b00_1_0001_11101_10110_10110_100000_110_1#32).toOption = some (.amoAnd 6#3 22#5 22#5 29#5 1#1) ∧
    (decode32 0b00_1_0010_01101_10110_10011_100000_111_1#32).toOption = some (.amoOr 7#3 19#5 22#5 13#5 1#1) ∧
    (decode32 0b00_0_0011_11110_11100_11010_100000_010_1#32).toOption = some (.amoXor 2#3 26#5 28#5 30#5 0#1) := by decide

theorem test_words_11 :
    (decode32 0b00_1_0100_10000_10001_10110_100000_101_1#32).toOption = some (.amoMin 5#3 22#5 17#5 16#5 1#1) ∧
    (decode32 0b00_1_0101_10100_10001_01111_100000_011_1#32).toOption = some (.amoMax 3#3 15#5 17#5 20#5 1#1) ∧
    (decode32 0b00_0_0110_01100_01101_00101_100000_100_1#32).toOption = some (.amoMinz 4#3 5#5 13#5 12#5 0#1) ∧
    (decode32 0b00_0_0111_11100_11011_11010_100000_011_1#32).toOption = some (.amoMaxz 3#3 26#5 27#5 28#5 0#1) ∧
    (decode32 0b00_1_1000_10000_10001_11111_100000_101_1#32).toOption = some (.amoSwp 5#3 31#5 17#5 16#5 1#1) ∧
    (decode32 0b00_1_1001_01101_10100_10110_100000_011_1#32).toOption = some (.amoCas 3#3 22#5 20#5 13#5 1#1) ∧
    (decode32 0b00_1_00000_1001_10101_0_1110_100001_101_1#32).toOption = some (.vamoAdd 5#3 14#4 21#5 9#4 1#1) ∧
    (decode32 0b00_0_00010_0010_11100_0_0100_100001_010_1#32).toOption = some (.vamoAnd 2#3 4#4 28#5 2#4 0#1) := by decide

theorem test_words_12 :
    (decode32 0b00_0_00100_1111_11110_0_0111_100001_110_1#32).toOption = some (.vamoOr 6#3 7#4 30#5 15#4 0#1) ∧
    (decode32 0b00_1_00110_1101_00001_0_0010_100001_101_1#32).toOption = some (.vamoXor 5#3 2#4 1#5 13#4 1#1) ∧
    (decode32 0b00_1_01000_1101_10001_0_0101_100001_010_1#32).toOption = some (.vamoMin 2#3 5#4 17#5 13#4 1#1) ∧
    (decode32 0b00_0_01010_1011_01000_0_0100_100001_100_1#32).toOption = some (.vamoMax 4#3 4#4 8#5 11#4 0#1) ∧
    (decode32 0b00_0_01100_0100_11101_0_1100_100001_001_1#32).toOption = some (.vamoMinz 1#3 12#4 29#5 4#4 0#1) ∧
    (decode32 0b00_0_01110_0110_01110_0_1110_100001_011_1#32).toOption = some (.vamoMaxz 3#3 14#4 14#5 6#4 0#1) ∧
    (decode32 0b00_1_10000_1011_00101_0_0110_100001_110_1#32).toOption = some (.vamoSwp 6#3 6#4 5#5 11#4 1#1) ∧
    (decode32 0b000_01_01_0_1101_00011_00000_100010_010_1#32).toOption = some (.acc 2#3 3#5 13#4 1#2 1#2) := by decide

theorem test_words_13 :
    (decode32 0b00000000_0110_11111_01010_100011_011_1#32).toOption = some (.maccMx8 3#3 10#5 31#5 6#4) ∧
    (decode32 0b00000010_0101_00011_00001_100011_111_1#32).toOption = some (.maccMx4 7#3 1#5 3#5 5#4) ∧
    (decode32 0b0001_1_01_00000_01110_00000_100011_100_1#32).toOption = some (.seal 4#3 14#5 1#1 1#2) ∧
    (decode32 0b0010000_11010_11001_00000_100011_110_1#32).toOption = some (.feSet 6#3 25#5 26#5) ∧
    (decode32 0b0010001_10101_11001_00000_100011_010_1#32).toOption = some (.feClr 2#3 25#5 21#5) ∧
    (decode32 0b001_0000_0_1111_0_1111_1_0100_100100_111_1#32).toOption = some (.vadd 7#3 4#4 1#3 15#4 15#4 1#3) ∧
    (decode32 0b101_0001_0_0001_0_1010_1_1100_100100_100_1#32).toOption = some (.vsub 4#3 12#4 1#3 10#4 1#4 5#3) ∧
    (decode32 0b010_0010_0_1001_0_1100_1_1000_100100_011_1#32).toOption = some (.vmul 3#3 8#4 1#3 12#4 9#4 2#3) := by decide

theorem test_words_14 :
    (decode32 0b00_0_0011_1_0100_1_1111_0_0001_100100_010_1#32).toOption = some (.vmin 2#3 1#4 6#3 15#4 4#4 0#1) ∧
    (decode32 0b00_0_0100_0_1110_1_0010_0_0001_100100_001_1#32).toOption = some (.vmax 1#3 1#4 2#3 2#4 14#4 0#1) ∧
    (decode32 0b0000101_1_0000_1_1010_1_1000_100100_110_1#32).toOption = some (.vabs 6#3 8#4 7#3 10#4) ∧
    (decode32 0b0000110_0_0000_0_0001_1_0110_100100_011_1#32).toOption = some (.vneg 3#3 6#4 1#3 1#4) ∧
    (decode32 0b101_0111_0_1100_1_1010_0_1110_100100_010_1#32).toOption = some (.vdiv 2#3 14#4 2#3 10#4 12#4 5#3) ∧
    (decode32 0b011_1000_0_0000_0_1011_1_1001_100100_100_1#32).toOption = some (.vsqrt 4#3 9#4 1#3 11#4 3#3) ∧
    (decode32 0b101_0000_0_0011_0_1101_1_1011_100101_101_1#32).toOption = some (.vfma 5#3 11#4 1#3 13#4 3#4 5#3) ∧
    (decode32 0b011_0001_0_1101_0_1000_1_0001_100101_011_1#32).toOption = some (.vfms 3#3 1#4 1#3 8#4 13#4 3#3) := by decide

theorem test_words_15 :
    (decode32 0b001_0010_0_0001_0_1000_1_1100_100101_101_1#32).toOption = some (.vfnma 5#3 12#4 1#3 8#4 1#4 1#3) ∧
    (decode32 0b001_0011_0_1100_0_0001_1_0001_100101_001_1#32).toOption = some (.vfnms 1#3 1#4 1#3 1#4 12#4 1#3) ∧
    (decode32 0b0000000_0_0000_1_0111_0_0011_100110_111_1#32).toOption = some (.vrcp 7#3 3#4 2#3 7#4) ∧
    (decode32 0b0000001_0_0000_1_1000_0_0010_100110_001_1#32).toOption = some (.vrsq 1#3 2#4 2#3 8#4) ∧
    (decode32 0b0000010_0_0000_1_1100_0_0111_100110_111_1#32).toOption = some (.vex2 7#3 7#4 2#3 12#4) ∧
    (decode32 0b0000011_0_0000_1_1101_0_0101_100110_110_1#32).toOption = some (.vlg2 6#3 5#4 2#3 13#4) ∧
    (decode32 0b0000100_0_0000_1_0001_0_0010_100110_011_1#32).toOption = some (.vtanh 3#3 2#4 2#3 1#4) ∧
    (decode32 0b0000101_0_0000_1_1100_0_1001_100110_101_1#32).toOption = some (.vsin 5#3 9#4 2#3 12#4) := by decide

theorem test_words_16 :
    (decode32 0b011_0101_0_0111_0_0010_0_0111_100111_101_1#32).toOption = some (.vcvt 5#3 7#4 2#4 5#4 7#4 3#3) ∧
    (decode32 0b101_0000_0_0100_1_1110_1_1000_101000_110_1#32).toOption = some (.vdot 6#3 8#4 3#3 14#4 4#4 5#3) ∧
    (decode32 0b010_0001_0_0000_1_0100_0_1101_101000_100_1#32).toOption = some (.vredsum 4#3 13#4 2#3 4#4 2#3) ∧
    (decode32 0b0000010_1_0000_0_0001_1_1111_101000_001_1#32).toOption = some (.vredmax 1#3 15#4 5#3 1#4) ∧
    (decode32 0b0000011_1_0000_1_0011_1_1101_101000_101_1#32).toOption = some (.vredmin 5#3 13#4 7#3 3#4) ∧
    (decode32 0b0000100_1_0100_0_0101_0_0000_101000_100_1#32).toOption = some (.vredx 4#3 4#3 5#4 4#4) ∧
    (decode32 0b000_0_010_1_0110_1_1110_1_1010_101001_001_1#32).toOption = some (.vcmp 1#3 10#4 7#3 2#3 14#4 6#4 0#1) ∧
    (decode32 0b00000001_0100_0_0011_1_1000_101010_101_1#32).toOption = some (.vand 5#3 8#4 3#4 4#4) := by decide

theorem test_words_17 :
    (decode32 0b00000011_0110_0_0101_1_0001_101010_001_1#32).toOption = some (.vor 1#3 1#4 5#4 6#4) ∧
    (decode32 0b00000101_0101_0_0100_1_1010_101010_100_1#32).toOption = some (.vxor 4#3 10#4 4#4 5#4) ∧
    (decode32 0b0000011_1_0101_0_1001_1_1101_101010_011_1#32).toOption = some (.vsel 3#3 13#4 5#3 9#4 5#4) ∧
    (decode32 0b0000000_1_1100_1_1111_0_0100_101011_001_1#32).toOption = some (.viadd 1#3 4#4 6#3 15#4 12#4) ∧
    (decode32 0b0000001_1_0100_1_0011_0_1101_101011_001_1#32).toOption = some (.visub 1#3 13#4 6#3 3#4 4#4) ∧
    (decode32 0b0000010_1_1101_1_1110_0_0001_101011_100_1#32).toOption = some (.vimul 4#3 1#4 6#3 14#4 13#4) ∧
    (decode32 0b0000011_1_1011_1_1001_0_0100_101011_100_1#32).toOption = some (.vshl 4#3 4#4 6#3 9#4 11#4) ∧
    (decode32 0b0000100_1_1101_1_1101_0_1011_101011_110_1#32).toOption = some (.vshr 6#3 11#4 6#3 13#4 13#4) := by decide

theorem test_words_18 :
    (decode32 0b0000101_1_0001_0_0011_1_0011_101011_100_1#32).toOption = some (.vsar 4#3 3#4 5#3 3#4 1#4) ∧
    (decode32 0b0000110_1_0000_1_1100_0_0101_101011_011_1#32).toOption = some (.vpcnt 3#3 5#4 6#3 12#4) ∧
    (decode32 0b0000111_1_1100_1_1000_0_1000_101011_110_1#32).toOption = some (.vclm 6#3 8#4 6#3 8#4 12#4) ∧
    (decode32 0b0000000_1_1001_1_0101_1_1000_101100_010_1#32).toOption = some (.vperm 2#3 8#4 7#3 5#4 9#4) ∧
    (decode32 0b00_00_001_1_1011_1_1001_0_0110_101100_100_1#32).toOption = some (.vshuf 4#3 6#4 6#3 9#4 11#6) ∧
    (decode32 0b00_01_010_1_0110_1_0110_0_0100_101100_101_1#32).toOption = some (.vslideUp 5#3 4#4 6#3 6#4 22#6) ∧
    (decode32 0b00_01_011_1_0000_0_0010_1_0111_101100_010_1#32).toOption = some (.vslideDn 2#3 7#4 5#3 2#4 16#6) ∧
    (decode32 0b0000100_1_0000_1_0100_0_1010_101100_010_1#32).toOption = some (.vsplat 2#3 10#4 6#3 4#4) := by decide

theorem test_words_19 :
    (decode32 0b00_11_101_1_1110_0_1110_0_1000_101100_101_1#32).toOption = some (.vins 5#3 8#4 4#3 14#4 62#6) ∧
    (decode32 0b00_01_110_0_0101_1_0100_1_0001_101100_001_1#32).toOption = some (.vext 1#3 1#4 3#3 4#4 21#6) ∧
    (decode32 0b0000111_0_0000_0_0010_1_1101_101100_101_1#32).toOption = some (.vmov 5#3 13#4 1#3 2#4) ∧
    (decode32 0b0000000_11011_00_010_01110_110100_100_1#32).toOption = some (.sbindIn 4#3 14#5 2#3 27#5) ∧
    (decode32 0b0000001_01110_00_100_01110_110100_011_1#32).toOption = some (.sbindOut 3#3 14#5 4#3 14#5) ∧
    (decode32 0b00000100000000000_01110_110100_001_1#32).toOption = some (.sfree 1#3 14#5) ∧
    (decode32 0b000001100000_01001_01110_110100_001_1#32).toOption = some (.sskip 1#3 14#5 9#5) ∧
    (decode32 0b000000_101010_01101_00000_110110_010_1#32).toOption = some (.chset 2#3 13#5 42#6) := by decide

theorem test_words_20 :
    (decode32 0b000001_110110_0000000000_110110_100_1#32).toOption = some (.chclr 4#3 54#6) ∧
    (decode32 0b000010_100101_00000_01100_110110_101_1#32).toOption = some (.chst 5#3 12#5 37#6) ∧
    (decode32 0b000000_000011_11101_00000_110111_100_1#32).toOption = some (.snd 4#3 29#5 3#6) ∧
    (decode32 0b000001_011101_0_0011_00000_110111_001_1#32).toOption = some (.sndv 1#3 3#4 29#6) ∧
    (decode32 0b000010_110110_01000_00000_110111_010_1#32).toOption = some (.bsnd 2#3 8#5 54#6) ∧
    (decode32 0b000000_001010_00000_11111_111000_111_1#32).toOption = some (.rcv 7#3 31#5 10#6) ∧
    (decode32 0b000001_111101_000000_0001_111000_110_1#32).toOption = some (.rcvv 6#3 1#4 61#6) ∧
    (decode32 0b000010_001111_11000_00000_111000_111_1#32).toOption = some (.brcv 7#3 24#5 15#6) := by decide

theorem test_words_21 :
    (decode32 0b00000000000000_111_10100_111001_101_1#32).toOption = some (.alt 5#3 20#5 7#3) ∧
    (decode32 0b00000010000000_101_00001_111001_111_1#32).toOption = some (.altP 7#3 1#5 5#3) ∧
    (decode32 0b000001000_010_00_010_00110_111001_001_1#32).toOption = some (.altD 1#3 6#5 2#3 2#3) ∧
    (decode32 0b000001100_010_00_100_01101_111001_110_1#32).toOption = some (.altPD 6#3 13#5 4#3 2#3) ∧
    (decode32 0b0000_101_10000_10100_11001_111010_101_1#32).toOption = some (.mxq 5#3 25#5 20#5 16#5 5#3) ∧
    (decode32 0b0000_100_11000_00110_11100_111011_100_1#32).toOption = some (.cpq 4#3 28#5 6#5 24#5 4#3) ∧
    (decode32 0b000100000000_01110_00000_111011_010_1#32).toOption = some (.jwait 2#3 14#5) ∧
    (decode32 0b001000000000_11000_10011_111011_100_1#32).toOption = some (.jst 4#3 19#5 24#5) := by decide

theorem test_words_22 :
    (decode32 0b0011000000000000000000_111011_111_1#32).toOption = some (.mxf 7#3) ∧
    (decode32 0b0000000_01001_0000000000_111100_100_1#32).toOption = some (.barr 4#3 9#5) ∧
    (decode32 0b0000001_10000_0000000000_111100_101_1#32).toOption = some (.barw 5#3 16#5) ∧
    (decode32 0b0000010_00010_0000000000_111100_101_1#32).toOption = some (.bar 5#3 2#5) ∧
    (decode32 0b000001100000_10110_00000_111100_100_1#32).toOption = some (.wtu 4#3 22#5) ∧
    (decode32 0b00001000000000000_00011_111100_011_1#32).toOption = some (.rdt 3#3 3#5) ∧
    (decode32 0b0000000_01000_11110_00_110_111101_110_1#32).toOption = some (.spwn 6#3 30#5 8#5 6#3) ∧
    (decode32 0b0000001000000000000000_111101_011_1#32).toOption = some (.hlt 3#3) := by decide

theorem test_words_23 :
    (decode32 0b000001000000_00110_00000_111101_101_1#32).toOption = some (.ckpt 5#3 6#5) ∧
    (decode32 0b000001100000_00010_00000_111101_011_1#32).toOption = some (.mig 3#3 2#5) ∧
    (decode32 0b000010000_110_00000_01001_111101_011_1#32).toOption = some (.sstat 3#3 9#5 6#3) ∧
    (decode32 0b000000000110_00000_01011_111110_110_1#32).toOption = some (.csrr 6#3 11#5 6#12) ∧
    (decode32 0b000000000001_11110_00000_111110_101_1#32).toOption = some (.csrw 5#3 1#12 30#5) ∧
    (decode32 0b000001000100_01011_10101_111110_101_1#32).toOption = some (.csrx 5#3 21#5 68#12 11#5) ∧
    (decode32 0b111100000000_10001_00000_111110_100_1#32).toOption = some (.trap 4#3 17#5) ∧
    (decode32 0b1111000000010000000000_111110_100_1#32).toOption = some (.eret 4#3) := by decide

theorem test_words_24 :
    (decode32 0b111100000010_11000_00000_111110_110_1#32).toOption = some (.dbg 6#3 24#5) ∧
    (decode32 0b111100000011_10100_10100_111110_011_1#32).toOption = some (.rmap 3#3 20#5 20#5) ∧
    (decode32 0b111100000100_10010_01011_111110_110_1#32).toOption = some (.chmint 6#3 11#5 18#5) ∧
    (decode32 0b111100000101_01010_10000_111110_011_1#32).toOption = some (.pmint 3#3 16#5 10#5) ∧
    (decodeBits 2 0b000_0101_0011_00000#32).toOption = some (.mov16 3#4 5#4) ∧
    (decodeBits 2 0b110_0100_1111_00010#32).toOption = some (.addi16 15#4 6#3 4#4) ∧
    (decodeBits 2 0b000_1010_0110_00100#32).toOption = some (.add16 6#4 10#4) ∧
    (decodeBits 2 0b110_0010_1111_00110#32).toOption = some (.ld16 15#4 6#3 2#4) := by decide

theorem test_words_25 :
    (decodeBits 2 0b101_0110_0101_01000#32).toOption = some (.st16 5#4 5#3 6#4) ∧
    (decodeBits 2 0b00110000_010_01010#32).toOption = some (.br16 2#3 48#8) ∧
    (decodeBits 2 0b01001111101_01100#32).toOption = some (.j16 637#11) ∧
    (decodeBits 2 0b000_0100_1110_01110#32).toOption = some (.snd16 14#4 4#4) ∧
    (decodeBits 2 0b000_1011_0111_10000#32).toOption = some (.rcv16 7#4 11#4) ∧
    (decodeBits 2 0b0000000000010010#32).toOption = some .nop16 ∧
    (decodeBits 2 0b0000000000010100#32).toOption = some .rlx := by decide

theorem test_word_nop : (decode32 0x00000001#32).toOption = some .nop := by decide

/-- Reserved majors and codes are refused (R89). -/
theorem test_words_reserved :
    (decode32 0b0010101_00010_00001_00011_000000_000_1#32).toOption = none ∧
    (decode32 0b0000000_00010_00001_00011_001010_000_1#32).toOption = none ∧
    (decode32 0b0000000_00010_00001_00011_111111_000_1#32).toOption = none ∧
    (decodeBits 2 0b000_0000_0000_10110#32).toOption = none := by decide

/-! ## Small states -/

/-- A capability of kind `k` with permissions `p` over the bytes from `b` to `t`, all below 2 MiB, at address `v`. -/
def cap (k p b t v : Nat) : CReg :=
  { tag := true, val := BitVec.ofNat 64 v, mt := BitVec.ofNat 64 (p + k * 2 ^ 12 + b * 2 ^ 22 + t * 2 ^ 43) }

/-- A Machine-mode strand with these c registers. -/
def strandOf (c : Table CReg) : Strand := { Strand.fresh with sst := 3#13, c := c }

/-- Core 0 of the panel executes the strand in slot 0, an instruction of four bytes at 0x1000. -/
def stateOf (x : Strand) (f : Core → Core) : State :=
  { State.reset with
    cores := [(0, f { Core.reset 0 with slots := [(0, x)] })]
    cur := { core := 0, slot := 0, pc := 0x1000#64, len := 4, bits := 0#48, relaxed := false } }

def oneOf (c : Table CReg) : State := stateOf (strandOf c) id

/-- Integers in c1 to c6: 0x90, all ones, the most negative number, 0, −7 and 2. -/
def ints : State :=
  oneOf [(1, CReg.int 0x90#64), (2, CReg.int (BitVec.allOnes 64)), (3, CReg.int (BitVec.intMin 64)), (4, CReg.zero),
    (5, CReg.int 0xFFFFFFFFFFFFFFF9#64), (6, CReg.int 2#64)]

/-- The value of c`d` after one instruction. -/
def valAfter (i : Instr) (s : State) (d : BitVec 5) : Option Word :=
  match exec i s with
  | .next t => some (t.me.val d)
  | _ => none

theorem ok_of {e : Except Trap Unit} (h : e.toBool = true) : e = .ok () := by cases e <;> simp_all [Except.toBool]

theorem ok_some {α : Type} {e : Except Trap α} (h : e.toBool = true) : ∃ x, e = .ok x := by
  cases e <;> simp_all [Except.toBool]

/-! ## Single steps, from the spec's worked examples -/

/-- R106's worked example: the carry-less product by all ones is a prefix XOR. -/
theorem test_clm_prefix : valAfter (.clm 0 7 1 2) ints 7 = some 0x70#64 ∧ valAfter (.clmh 0 7 1 2) ints 7 = some 0x70#64 := by
  decide +kernel

/-- R107's example: −7 by 2. -/
theorem test_div_truncates : valAfter (.div 0 7 5 6) ints 7 = some 0xFFFFFFFFFFFFFFFD#64 ∧
    valAfter (.rem 0 7 5 6) ints 7 = some (BitVec.allOnes 64) ∧
    valAfter (.divz 0 7 5 6) ints 7 = some 0x7FFFFFFFFFFFFFFC#64 ∧ valAfter (.remz 0 7 5 6) ints 7 = some 1#64 := by
  decide +kernel

/-- R107: a zero divisor and the signed overflow. -/
theorem test_div_corners : valAfter (.div 0 7 5 4) ints 7 = some (BitVec.allOnes 64) ∧
    valAfter (.rem 0 7 5 4) ints 7 = some 0xFFFFFFFFFFFFFFF9#64 ∧
    valAfter (.div 0 7 3 2) ints 7 = some (BitVec.intMin 64) ∧ valAfter (.rem 0 7 3 2) ints 7 = some 0#64 := by
  decide +kernel

/-- R106: wrap and sign. -/
theorem test_scalar_corners : valAfter (.add 0 7 2 6) ints 7 = some 1#64 ∧ valAfter (.sub 0 7 4 6) ints 7 = some 0xFFFFFFFFFFFFFFFE#64 ∧
    valAfter (.sar 0 7 3 2) ints 7 = some (BitVec.allOnes 64) ∧ valAfter (.mulh 0 7 2 2) ints 7 = some 0#64 ∧
    valAfter (.mulhz 0 7 2 2) ints 7 = some 0xFFFFFFFFFFFFFFFE#64 ∧ valAfter (.clz 0 7 4) ints 7 = some 64#64 ∧
    valAfter (.min 0 7 2 6) ints 7 = some (BitVec.allOnes 64) ∧ valAfter (.minz 0 7 2 6) ints 7 = some 2#64 := by
  decide +kernel

/-- R23: a write to c0 is discarded. -/
theorem test_c0_reads_zero : valAfter (.add 0 0 2 6) ints 0 = some 0#64 := by decide +kernel

/-- R109: `lhi` of the lowest immediate; R110: the top bit, and one bit put at the top. -/
theorem test_fields : valAfter (.lhi 0 7 0x10000) ints 7 = some 0xFFFFFFFFF0000000#64 ∧
    valAfter (.bfx 0 7 3 63 0) ints 7 = some 1#64 ∧ valAfter (.bfi 0 4 2 63 0) ints 4 = some (BitVec.intMin 64) := by
  decide +kernel

/-- The predicates p1 and p2 after a compare. -/
def predsAfter (i : Instr) (s : State) : Option (Bool × Bool) :=
  match exec i s with
  | .next t => some (t.me.pred 1, t.me.pred 2)
  | _ => none

/-- p1 = 1, p2 = 0; c1 < c2. -/
def preds : State := stateOf { strandOf [(1, CReg.int 1#64), (2, CReg.int 2#64)] with p := 3#8 } id

/-- R124's example: each type with the condition true (`eq` of c1 with itself). -/
theorem test_compare_types_true : (List.range 8).map (fun t => predsAfter (.cmp 0 1 2 (BitVec.ofNat 3 t) 0 1 1) preds) =
    [some (true, false), some (true, false), some (true, false), some (true, false), some (false, true),
      some (true, false), some (true, true), some (true, true)] := by decide +kernel

/-- R124's example: each type with the condition false. -/
theorem test_compare_types_false : (List.range 8).map (fun t => predsAfter (.cmp 0 1 2 (BitVec.ofNat 3 t) 0 1 2) preds) =
    [some (false, true), some (false, true), some (false, false), some (true, true), some (true, false),
      some (false, false), some (false, false), some (false, true)] := by decide +kernel

/-- R124: under a false guard only `clr` writes. -/
theorem test_compare_guarded : ∀ t < 8, predsAfter (.cmp 3 1 2 (BitVec.ofNat 3 t) 0 1 1) preds =
    some (decide (t ≠ 1), false) := by decide +kernel

/-- A window over the whole scratchpad with every permission, at address `v`. -/
def win (v : Nat) : CReg := cap 1 0xFFF 0 0x40000 v

/-- c1: the window at 64; c2: 16; c3: a linear (exclusive pan) capability; c4: the window at its last granule. -/
def mem : State :=
  oneOf [(1, win 64), (2, CReg.int 16#64), (3, cap 2 0x7FF 0x100000 0x101000 0x100000), (4, win 0x3FFF0)]

theorem test_store_then_load :
    (match exec (.st 0 2 1 1 3) mem with
     | .next t => (t.myCore.sp.readN 72 8, t.myCore.sp.read 71, t.myCore.sp.read 80)
     | _ => ([], 0, 0)) = ([16#8, 0#8, 0#8, 0#8, 0#8, 0#8, 0#8, 0#8], 0#8, 0#8) ∧
    valAfter (.ld 0 7 1 0 2) { mem with cores := [(0, { mem.core 0 with sp := [(66, 0x80#8), (67, 0xFF#8)] })] } 7 =
      some 0xFFFFFFFFFF800000#64 := by decide +kernel

/-- R368: the software trap enters the handler; R222: `eret` comes back. -/
theorem test_trap_and_return :
    (match exec (.trap 0 2) mem with
     | .next t => some (t.me.epc, t.me.tcause, t.me.tval, t.me.pc, t.me.mode, t.me.inh)
     | _ => none) = some (0x1000#64, 0x10#6, 16#64, 0#64, 3, true) ∧
    (match exec (.eret 0) (stateOf { strandOf [] with epc := 0x2000#64, esst := 0#13 } id) with
     | .next t => some (t.me.pc, t.me.mode, t.me.inh)
     | _ => none) = some (0x2000#64, 0, false) := by decide +kernel

/-- R102: an integer is not written over a linear capability. -/
theorem test_linear_kept : (match exec (.add 0 3 2 2) mem with
     | .next t => some (t.me.tcause, t.me.tval, (t.me.reg 3).tag)
     | _ => none) = some (0x08#6, 3#64, true) := by decide +kernel

/-! ## Witnesses: the hypotheses of every statement, met together -/

theorem witness_IntegerResults : ints.me.pred 0 = true ∧ ints.mayWrite 31 ∧ ints.mayWrite 0 ∧ ints.mayWrite 1 :=
  ⟨by decide, .inr (by decide +kernel), .inl rfl, .inr (by decide +kernel)⟩

theorem witness_UnaryAndImmediateResults : ints.me.pred 0 = true ∧ ints.mayWrite 31 ∧
    (63#6).toNat + (0#6).toNat < 64 ∧ (0#6).toNat + (63#6).toNat < 64 ∧ ints.mayWrite ((15#4).setWidth 5) := by
  and_intros <;> first | decide +kernel | exact .inr (by decide +kernel)

theorem witness_DivisionResults : ints.me.pred 0 = true ∧ ints.mayWrite 7 ∧ ints.me.val 4 = 0#64 ∧ ints.me.val 6 ≠ 0#64 ∧
    ints.me.val 3 = BitVec.intMin 64 ∧ ints.me.val 2 = BitVec.allOnes 64 := by
  and_intros <;> first | decide +kernel | exact .inr (by decide +kernel)

theorem witness_RegisterFrame : ∃ t, writesOnly (.caddImm 0 3 3 8) = some [3, 3] ∧ exec (.caddImm 0 3 3 8) mem = .next t :=
  ⟨_, rfl, rfl⟩

theorem witness_LinearDestinationsAndGuards :
    (mem.me.pred 0 = true ∧ (3#5 : BitVec 5) ≠ 0#5 ∧ (mem.me.reg 3).linear = true) ∧
    (actsUnder (.add 1 1 2 2) = some (1, false) ∧ mem.me.pred 1 = false) ∧
    (actsUnder (.vadd 7 1 0 2 2 0) = some (7, true) ∧ mem.me.pred 7 = false) := by decide +kernel

theorem witness_CompareResults : preds.me.pred 1 = true ∧ preds.me.pred 3 = false ∧
    (∃ (i : Instr) (cond : Bool), i = .cmp 1 1 2 2 2 1 2 ∧ cond = compareWords 2 (preds.me.val 1) (preds.me.val 2)) ∧
    (∃ (i : Instr) (cond : Bool), i = .cmpi 1 0 2 0 0 1 31 ∧ cond = compareWords 0 (preds.me.val 1) (compareImm 0 31)) ∧
    (∃ (i : Instr) (cond : Bool) (fl : BitVec 5), i = .fcmp 1 1 1 1 7 1 2 ∧
      (cond, fl) = compareFloat 7 (preds.me.fp32Of 1) (preds.me.fp32Of 2)) ∧
    (∃ (i : Instr) (cond : Bool), i = .pcmb 1 7 2 7 0 1 2 ∧ cond = combinePreds 0 (preds.me.pred 1) (preds.me.pred 2)) :=
  ⟨by decide, by decide, ⟨_, _, rfl, rfl⟩, ⟨_, _, rfl, rfl⟩, ⟨_, _, _, rfl, rfl⟩, ⟨_, _, rfl, rfl⟩⟩

def repOf (pos left : Nat) : Rep :=
  { body := 0x1000#64, len := 2, stg := 0#3, stride := 0#4, k := 0, left := left, captured := [], pos := pos, empty := false }

theorem witness_ExtensionRegistersAndRepetition : ints.me.pred 0 = true ∧
    ((repOf 0 1).pos + 1 < (repOf 0 1).len) ∧ ((repOf 1 2).len ≤ (repOf 1 2).pos + 1 ∧ 1 < (repOf 1 2).left) ∧
    ((repOf 1 1).len ≤ (repOf 1 1).pos + 1 ∧ (repOf 1 1).left ≤ 1) := by decide

/-- One register holds a linear capability. -/
def dead (r : Nat) : State := oneOf [(r, cap 2 0x7FF 0x100000 0x101000 0x100000)]

theorem witness_BranchesAndCalls : ints.me.pred 0 = true ∧
    (∀ r, r ∈ deadSet → (ints.me.reg r).linear = false) ∧ (ints.me.reg 1).linear = false ∧ (31#5 : BitVec 5) ≠ 0#5 ∧
    (ints.me.reg 31).linear = false ∧ ((ints.me.val 1).getLsbD 0 = false) ∧ (ints.me.val 2).getLsbD 0 = true ∧
    ((ints.cur.pc + (1#22).signExtend 64 * 2#64).getLsbD 0 = false) ∧
    (10#5 ∈ deadSet ∧ ((dead 10).me.reg 10).linear = true ∧ ∀ q, q < 10#5 → q ∈ deadSet → ((dead 10).me.reg q).linear = false) ∧
    (17#5 ∈ deadSet ∧ ((dead 17).me.reg 17).linear = true ∧ ∀ q, q < 17#5 → q ∈ deadSet → ((dead 17).me.reg q).linear = false) ∧
    (((dead 1).me.reg 1).linear = true ∧ ∀ q, q < 1#5 → q = 1#5 ∨ q ∈ deadSet → ((dead 1).me.reg q).linear = false) ∧
    (∀ r ∈ 0#5 :: deadSet, (ints.me.reg r).linear = false) := by
  decide +kernel

def inHandler : State := stateOf { strandOf [] with sst := 0x1003#13, esst := 3#13 } id

theorem witness_TrapEntry : mem.me.inh = false ∧ inHandler.me.inh = true := by decide +kernel

/-- A strand in mode `m` whose `esst` names mode `e`. -/
def modes (m e : Nat) : State := stateOf { strandOf [] with sst := BitVec.ofNat 13 m, esst := BitVec.ofNat 13 e } id

theorem witness_TrapAndReturn :
    (∀ x ∈ [(1, 0), (1, 1), (3, 0), (3, 1), (3, 3)], (modes x.1 x.2).me.pred 0 = true ∧ (modes x.1 x.2).me.mode ≠ 0 ∧
      ((modes x.1 x.2).me.esst.extractLsb' 0 2).toNat ≠ 2 ∧
      ((modes x.1 x.2).me.esst.extractLsb' 0 2).toNat ≤ (modes x.1 x.2).me.mode) ∧
    (modes 0 0).me.inh = false ∧ (modes 0 0).me.mode = 0 ∧ ((modes 3 2).me.esst.extractLsb' 0 2).toNat = 2 ∧
    (modes 1 3).me.mode < ((modes 1 3).me.esst.extractLsb' 0 2).toNat := by decide +kernel

theorem witness_BoundsAndNarrowing : (win 64).representable 0#64 = true ∧ (win 64).representable 0x1FFFFF#64 = true ∧
    (∃ m, narrowReg (win 64) 0 = .ok m) ∧ (∃ m, narrowReg (win 0) 0x40000 = .ok m) := by
  and_intros <;> first | decide +kernel | exact ok_some (by decide +kernel)

theorem witness_CapabilityMoveResults : mem.me.pred 0 = true ∧ mem.mayMove 7 1 ∧ mem.mayMove 3 3 ∧ mem.mayMove 7 3 ∧
    (mem.me.reg 1).tag = true ∧ narrowableKind (mem.me.reg 1).kind = true ∧ reservedKind (mem.me.reg 1).kind = false ∧
    (∃ m, narrowReg (mem.me.reg 1) (mem.me.val 2).toNat = .ok m) ∧
    (mem.me.reg 1).representable ((mem.me.reg 1).val + mem.me.val 2) = true ∧
    (mem.me.reg 1).representable ((mem.me.reg 1).val + (0x7FF#12).signExtend 64) = true :=
  ⟨by decide, ⟨.inr (.inr (by decide +kernel)), by decide⟩, ⟨.inl rfl, by decide⟩, ⟨.inr (.inr (by decide +kernel)), by decide⟩,
    by decide +kernel, by decide +kernel, by decide +kernel, ok_some (by decide +kernel), by decide +kernel, by decide +kernel⟩

theorem witness_CapabilityMoveResults_outside : (mem.me.reg 2).tag = false ∧ mem.mayWrite 7 ∧
    ((mem.me.reg 1).tag = true ∧ narrowableKind (mem.me.reg 1).kind = true ∧ (mem.me.reg 1).linear = false ∧
      (mem.me.reg 1).representable ((mem.me.reg 1).val + (0x800#12).signExtend 64) = false) ∧
    ((mem.me.reg 3).linear = true ∧ narrowableKind (mem.me.reg 3).kind = true ∧
      (mem.me.reg 3).representable ((mem.me.reg 3).val + (0xFFF#12).signExtend 64) = false) := by
  and_intros <;> first | decide +kernel | exact .inr (by decide +kernel)

/-- A capability from 2^43 to the end of the address space, 2^64. -/
def upper : CReg := { tag := true, val := BitVec.ofNat 64 (2 ^ 43), mt := BitVec.ofNat 64 (0xFFF + 2 ^ 12 + 43 * 2 ^ 16 + 2 ^ 22) }

/-- c1 is a channel capability; c2 describes a window for `cmint`. -/
def minting (m : Nat) : State :=
  stateOf { strandOf [(1, cap 6 0 0 0 0), (2, CReg.int (win 0).mt), (3, CReg.zero), (4, cap 1 3 0 0x1000 0x1000)] with
    sst := BitVec.ofNat 13 m } id

theorem witness_CapabilityReadsAndMint : (minting 0).me.pred 0 = true ∧ (minting 3).mayWrite 7 ∧
    ((minting 3).me.reg 3).tag = false ∧ ((minting 3).me.reg 1).kind = 6 ∧
    (((minting 3).me.reg 4).tag = true ∧ ((minting 3).me.reg 4).kind ≠ 6 ∧ ((minting 3).me.reg 4).bounds.2 < 2 ^ 64 ∧
      ((minting 3).me.reg 4).inBounds ((minting 3).me.reg 4).val.toNat 1 = false) ∧
    (upper.kind ≠ 6 ∧ upper.bounds.2 = 2 ^ 64) ∧ (minting 0).me.mode = 0 ∧ (minting 3).me.mode ≠ 0 ∧
    (∃ r, mintReg ((minting 3).me.mode == 3) ((minting 3).me.val 3) ((minting 3).me.val 2) 2 = .ok r) := by
  and_intros <;> first | decide +kernel | exact .inr (by decide +kernel) | exact ok_some (by decide +kernel)

theorem witness_AccessChecks : (CReg.zero).tag = false ∧
    ((cap 6 0xFFF 0 16 0).tag = true ∧ baseKind .ld (cap 6 0xFFF 0 16 0).kind = .tagTrap) ∧
    ((cap 3 0xFFF 0 16 0).tag = true ∧ baseKind .st (cap 3 0xFFF 0 16 0).kind = .perm) ∧
    ((cap 1 0x002 0 16 0).tag = true ∧ baseKind .ld (cap 1 0x002 0 16 0).kind = .yes ∧
      (cap 1 0x002 0 16 0).perm &&& permL ≠ permL) ∧
    (checkPlace .ld 1 (win 0) permL 0x40000).toBool = true ∧ (win 0).inBounds 0x40000 1 = false ∧
    (win 0).inBounds 0x3FFFF 1 = true ∧ (mem.me.reg 3).linear = true ∧ (3#5 : BitVec 5) ≠ 0#5 ∧
    (mem.checkLinearity (win 0) 1 8 false none).toBool = true ∧ (win 0).place ≠ .device ∧ (1 : Int) % 8 ≠ 0 := by
  decide +kernel

theorem witness_WindowLoadsAndStores : mem.me.pred 0 = true ∧ mem.MemoriesCanonical ∧ (mem.me.reg 1).kind = 1 ∧
    mem.checkAccess .ld 4 permL 0x3FFFF 1 1 false (some 7) = .ok () ∧
    mem.checkAccess .ld 1 permL 64 8 8 false (some 0) = .ok () ∧
    mem.checkAccess .st 4 permS 0x3FFF8 8 8 true none = .ok () ∧ (mem.me.reg ((4#4).setWidth 5)).kind = 1 ∧
    mem.checkAccess .st 1 permS (((mem.me.val 1).toNat : Int) + 8 * (7#3).toNat) 8 8 true none = .ok () := by
  and_intros <;> decide +kernel

theorem witness_MemoryFrame : mem.MemoriesCanonical ∧ (∃ ds a n t, memoryEffect mem (.amoCas 0 7 1 2 1) = some (ds, a, n) ∧
    exec (.amoCas 0 7 1 2 1) mem = .next t) := ⟨⟨by decide, by decide, by decide⟩, _, _, _, _, rfl, rfl⟩

/-- Granule 4 is full in `memFull`, empty in `mem`. -/
def memFull : State := stateOf (strandOf [(1, win 64), (2, CReg.int 16#64), (4, win 0x3FFF0)]) (fun c => { c with fe := [4] })

theorem witness_FullEmpty : mem.me.pred 0 = true ∧
    ((mem.me.reg 1).tag = true ∧ (mem.me.reg 1).kind = 1 ∧ (mem.me.reg 1).inBounds 64 8 = true ∧ (mem.me.reg 1).has 0 = true ∧
      (mem.me.reg 1).has 1 = true ∧ (64 : Int) % 8 = 0 ∧ ∀ q ∈ granules 64 8, mem.myCore.linearGranule q = false) ∧
    memFull.myCore.full 4 = true ∧ mem.myCore.full 4 = false ∧ mem.mayWrite 7 ∧
    ((mem.me.reg 1).inBounds 64 16 = true ∧ (mem.me.val 2).toNat % 16 = 0 ∧ (mem.me.reg 1).val.toNat % 16 = 0) := by
  and_intros <;> first | decide +kernel | exact .inr (by decide +kernel)

/-- `hsp` and `hsl` of a strand. -/
def stack (hsp hsl : Nat) : State :=
  stateOf { strandOf [(1, win 64), (3, cap 2 0x7FF 0x100000 0x101000 0x100000)] with
    hsp := BitVec.ofNat 64 hsp, hsl := BitVec.ofNat 64 hsl } id

theorem witness_CapabilityMemoryAndStack : mem.me.pred 0 = true ∧ (mem.me.reg 1).kind = 1 ∧
    mem.checkAccess .ldc 1 permL 64 16 16 false (some 7) = .ok () ∧
    loadable (granuleReg (mem.spBytes 64 16) (mem.spTag 64 && (mem.me.reg 1).has 3)) = true ∧
    mem.checkAccess .stc 1 permS 64 16 16 true none = .ok () ∧ ((mem.me.reg 3).tag = true → (mem.me.reg 1).has 4 = true) ∧
    ((stack 0x100 0x100).me.hsp.toNat < (stack 0x100 0x100).me.hsl.toNat + 16 * 1) ∧
    ((stack 0x110 0x100).me.hsl.toNat + 16 * 1 ≤ (stack 0x110 0x100).me.hsp.toNat) ∧
    (∀ q ∈ granules ((stack 0x110 0x100).me.hsp.toNat - 16 * 1) (16 * 1), (stack 0x110 0x100).myCore.linearGranule q = false) ∧
    ((stack 0x3FFF0 0).me.hsp.toNat + 16 * 1 ≤ 0x40000) ∧ (∀ r ∈ regRange 5 5, ((stack 0x3FFF0 0).me.reg r).linear = false) ∧
    loadable (granuleReg ((stack 0x3FFF0 0).myCore.sp.readN 0x3FFF0 16) false) = true := by decide +kernel

theorem witness_ScalarAtomics : mem.me.pred 0 = true ∧ (mem.me.reg 1).kind = 1 ∧
    mem.checkAccess .amo 1 permLS 64 4 4 true (some 7) = .ok () ∧ mem.checkAccess .amo 1 permLS 64 8 8 true (some 7) = .ok () ∧
    bytesNat (mem.spBytes 64 8) = (mem.me.val 7).toNat % 2 ^ 64 ∧ bytesNat (mem.spBytes 64 8) ≠ (mem.me.val 2).toNat % 2 ^ 64 := by decide +kernel

/-- c1: an exclusive pan; c2: host memory; c3: a frozen pan. -/
def far : State :=
  oneOf [(1, cap 2 0x7FF 0x100000 0x101000 0x100000), (2, cap 0xB 0x403 0x100000 0x101000 0x100000),
    (3, cap 3 0x7FF 0x100000 0x101000 0x100000)]

theorem witness_FarAccesses : far.me.pred 0 = true ∧ far.replaying = false ∧ (far.me.reg 1).place = .pan ∧
    (far.me.reg 2).place = .host ∧ far.checkAccess .ld 1 permL 0x100FF8 8 8 false (some 7) = .ok () ∧
    far.checkAccess .st 1 permS 0x100000 8 8 true none = .ok () ∧
    far.checkAccess .ld 2 permL 0x100000 1 1 false (some 7) = .ok () ∧
    far.checkAccess .ldc 1 permL 0x100000 16 16 false (some 7) = .ok () ∧
    far.checkAccess .amo 1 permLS (((far.me.reg 1).val.toNat : Nat) : Int) 8 8 true (some 7) = .ok () := by decide +kernel

def farOf (n : Nat) : Far :=
  { id := n, relaxed := true, eas := [0], dest := .none, left := 1, data := 0#512, refused := none, landed := none }

/-- A strand with `n` relaxed accesses outstanding; `r`: it issues a relaxed pair. -/
def waiting (n : Nat) (r : Bool) : State :=
  let s := stateOf { strandOf [] with far := (List.range n).map farOf } id
  { s with cur := { s.cur with relaxed := r } }

theorem witness_FarGateAndFences : (waiting 1 false).me.pred 0 = true ∧
    ((waiting 1 false).cur.relaxed = false ∧ (waiting 1 false).me.relaxedOut ≠ []) ∧
    ((waiting 4 true).cur.relaxed = true ∧ 4 ≤ (waiting 4 true).me.relaxedOut.length) ∧
    ((waiting 0 false).cur.relaxed = false ∧ (waiting 0 false).me.relaxedOut = []) ∧
    ((waiting 3 true).cur.relaxed = true ∧ (waiting 3 true).me.relaxedOut.length < 4) := by decide +kernel

theorem witness_VectorFrameAndOperands : mem.MemoriesCanonical ∧ vectorDest (.vadd 0 1 0 2 3 0) = some 1 ∧
    (∃ t, exec (.vadd 0 1 0 2 3 0) mem = .next t) ∧ ∀ r ∈ [1#4, 2#4, 15#4], mem.me.stream r = none :=
  ⟨⟨by decide, by decide, by decide⟩, rfl, ⟨_, rfl⟩, by decide +kernel⟩

theorem witness_VectorFloatResults : mem.me.pred 0 = true ∧ mem.enabled.streamGate [1, 2] [3] = .ok none ∧
    mem.enabled.streamGate [1] [1] = .ok none ∧ mem.enabled.streamGate [1, 2, 13] [13] = .ok none :=
  ⟨by decide, rfl, rfl, rfl⟩

theorem witness_VectorIntegerResults : mem.me.pred 0 = true ∧ mem.enabled.streamGate [1, 2, 3] [3] = .ok none ∧
    mem.enabled.streamGate [] [3] = .ok none ∧ mem.enabled.streamGate [1] [] = .ok none ∧
    (mem.enabled.popAll [1]).mayWrite ((7#4).setWidth 5) ∧ (mem.enabled.popAll [1]).mayWrite ((0#4).setWidth 5) :=
  ⟨by decide, rfl, rfl, rfl, .inr (by decide +kernel), .inl rfl⟩

theorem witness_VectorReductionResults : mem.me.pred 0 = true ∧ isFloating 2 = true ∧ isFloating 5 = false ∧
    (0#3).toNat ≤ 5 ∧ (5#3).toNat ≤ 5 ∧
    (let o := mem.me.reg ((1#4).setWidth 5)
     o.tag = true ∧ o.kind = 1 ∧ o.has 0 = true ∧ o.has 1 = true ∧ o.inBounds o.val.toNat 48 = true ∧
      (∀ q ∈ granules o.val.toNat 48, mem.myCore.linearGranule q = false) ∧ o.val.toNat % 16 = 0 ∧
      xsReservedOk (mem.enabled.myCore.sp.readN o.val.toNat 48) = true) := by decide +kernel

theorem witness_VectorMemory : mem.me.pred 0 = true ∧ (mem.me.reg 1).place = .window ∧
    mem.enabled.checkAccess .vld 4 permL (effective (mem.me.reg 4) (0xFFF#9) 64 + 16) 64 64 false none = .ok () ∧
    mem.enabled.checkAccess .vst 1 permS 64 64 64 true none = .ok () ∧
    mem.enabled.checkElements .gather 1 permL ((List.range 16).map (fun i => 64 + (i : Int) * 16)) 4 false = .ok () ∧
    mem.enabled.checkElements .scatter 1 permS ((List.range 64).map (fun i => 64 + (i : Int) * 16)) 1 true = .ok () ∧
    mem.enabled.checkAccess .amo 1 permLS 64 32 32 true none = .ok () ∧ (far.me.reg 1).place = .pan ∧ far.replaying = false ∧
    far.enabled.checkAccess .vld 1 permL 0x100000 64 64 false none = .ok () ∧
    far.enabled.checkAccess .vst 1 permS 0x100FC0 64 64 true none = .ok () := by decide +kernel

/-- c1: an accumulate pan; e0 to e2: the descriptor of a stream of two elements; c2: the window; `bound`: v13 is bound. -/
def streaming (bound : Bool) : State :=
  stateOf { strandOf [(1, cap 5 0x860 0x100000 0x101000 0x100000), (2, win 0)] with
    e := [(0, 0x40#64), (1, 2#64), (2, 4#64)]
    streams := if bound then [(13, streamOf 0x40#64 2#64 4#64 false)] else [] } id

theorem witness_ContributionsAndStreams : (streaming false).me.pred 0 = true ∧
    checkPlace .acc 1 ((streaming false).me.reg 1) permA 0x100000 = .ok () ∧
    (streaming false).enabled.checkHome ((streaming false).me.reg 1) 0x100000 = .ok () ∧
    (((streaming false).me.reg 1).inBounds 0x100000 1536 = true ∧ 0x100000 % 16 = 0 ∧ 0x100000 % 2048 + 1536 ≤ 2048) ∧
    (((streaming false).me.reg 1).inBounds 0x100000 64 = true ∧ 0x100000 % 64 = 0) ∧
    (let s := streaming false
     let st := streamOf 0x40#64 2#64 4#64 false
     streamFieldsOk (s.me.ext 0) (s.me.ext 1) (s.me.ext 2) = true ∧ (s.me.reg 2).tag = true ∧ (s.me.reg 2).kind = 1 ∧
      (s.me.reg 2).has 0 = true ∧ (s.me.reg 2).has 1 = true ∧ validBounds (s.me.reg 2).bounds = true ∧
      (s.me.reg 2).bounds.1 ≤ st.extent.1 ∧ st.extent.2 ≤ (s.me.reg 2).bounds.2 ∧ s.enabled.myCore.generators < 4) ∧
    ((streaming true).me.streams.get? (13#5).toNat).isSome = true ∧ 13 ≤ (13#5).toNat ∧ (15#5).toNat ≤ 15 := by decide +kernel

def endOf (st : EndState) (dirIn : Bool) (psz : Nat) (x : Option Payload) : End :=
  { End.free with state := st, dirIn := dirIn, psz := psz, inbox := x }

/-- c1: a channel capability, an in-end; c2: an integer; c3: the window; c4: a linear capability; end 0 as given. -/
def ends (e : End) : State :=
  stateOf (strandOf [(1, cap 6 0 0 0 (2 ^ 25)), (2, CReg.int 7#64), (3, win 64), (4, cap 2 0x83B 0x100000 0x101000 0x100000)])
    (fun c => { c with ends := [(0, e)] })

theorem witness_ChannelResults_binding : (ends End.free).me.pred 0 = true ∧
    (((ends End.free).myCore.endAt 0).state = .free ∧ ((ends End.free).me.reg 1).tag = true ∧
      ((ends End.free).me.reg 1).kind = 6 ∧ (((ends End.free).me.reg 1).val.extractLsb' 26 2).toNat ≠ 3) ∧
    (let e := (ends (endOf .full true 0 none)).myCore.endAt 0
     e.state ≠ .free ∧ e.state ≠ .parked) ∧
    (let e := (ends (endOf .idle true 0 none)).myCore.endAt 0
     e.boundTo 0 = true ∧ e.state = .idle) ∧
    ((ends End.free).myCore.endAt 63).state = .free ∧ (ends End.free).mayWrite 7 := by
  and_intros <;> first | decide +kernel | exact .inr (by decide +kernel)

theorem witness_ChannelResults_words : (let s := ends (endOf .idle false 0 none)
     s.checkEnd 0 true 0 = .ok () ∧ checkPayload 2 (s.me.reg 2) = .ok () ∧ checkPayload 4 (s.me.reg 4) = .ok () ∧
      s.me.farOut = [] ∧ s.replayOf logSend 0 = none) ∧
    (let s := ends (endOf .full true 0 (some (.word (CReg.int 1#64))))
     s.checkEnd 0 false 0 = .ok () ∧ s.replayTaken 0 = none ∧ (s.myCore.endAt 0).state = .full ∧
      (s.myCore.endAt 0).inbox = some (.word (CReg.int 1#64))) ∧
    (let y := cap 2 0x83B 0x100000 0x101000 0x100000
     (y.tag && (y.kind == 2 || y.kind == 5)) = true ∧ y.linear = true ∧ (7#5 : BitVec 5) ≠ 0#5) ∧
    (let s := ends (endOf .idle true 0 none)
     s.checkEnd 0 false 0 = .ok () ∧ (s.myCore.endAt 0).state ≠ .full) := by decide +kernel

theorem witness_ChannelResults_vectors_and_bulk : (let v := (ends (endOf .idle false 1 none)).enabled
     v.checkEnd 0 true 1 = .ok () ∧ v.streamGate [1] [] = .ok none ∧ v.me.farOut = [] ∧ v.replayOf logSend 0 = none) ∧
    (let v := (ends (endOf .full true 1 (some (.vector 0#512)))).enabled
     v.checkEnd 0 false 1 = .ok () ∧ v.replayTaken 0 = none ∧ (v.myCore.endAt 0).inbox = some (.vector 0#512)) ∧
    (let s := ends (endOf .idle false 2 none)
     let r := s.me.reg 3
     s.checkEnd 0 true 2 = .ok () ∧ r.tag = true ∧ r.kind = 1 ∧ r.has 0 = true ∧ validBounds r.bounds = true ∧
      r.bounds.1 % 16 = 0 ∧ r.bounds.2 % 16 = 0 ∧ 16 ≤ r.bounds.2 - r.bounds.1) ∧
    (let s := ends (endOf .full true 2 (some (.offer 0 16)))
     let r := s.me.reg 3
     s.checkEnd 0 false 2 = .ok () ∧ r.has 1 = true ∧ s.replayTaken 0 = none ∧ (s.myCore.endAt 0).state = .full ∧
      (s.myCore.endAt 0).inbox = some (.offer 0 16) ∧ r.bounds.1 ≤ r.val.toNat ∧
      (r.val.toNat : Int) + (16 : Nat) ≤ r.bounds.2 ∧ r.val.toNat % 16 = 0) := by decide +kernel

/-- An `alt` mask of end 0 in entry 0, always live; a deadline in e1. -/
def selecting (full : Bool) (dl now : Nat) : State :=
  { stateOf { strandOf [] with e := [(0, 0x40#64), (1, BitVec.ofNat 64 dl)] }
      (fun c => { c with ends := [(0, endOf (if full then .full else .idle) true 0 none)] }) with now := now }

theorem witness_SelectionResults : (selecting true 5 5).me.pred 0 = true ∧ (selecting true 5 5).mayWrite 7 ∧
    (selecting true 5 5).checkAlt 0x40#64 = .ok () ∧ liveEntries (selecting true 5 5).me 0x40#64 ≠ [] ∧
    (selecting true 5 5).replayOf logAlt 0 = none ∧ altFires [0] [0] 0x40#64 (some 0) = some 0 ∧
    altFires [0] [0] 0x40#64 none = some 0 ∧ altFires [0] [] 0x40#64 (some 0) = none ∧ altFires [0] [] 0x40#64 none = none ∧
    ((selecting false 5 5).me.ext 1).toNat ≤ (selecting false 5 5).now ∧
    (selecting false 5 4).now < ((selecting false 5 4).me.ext 1).toNat := by
  and_intros <;> first | decide +kernel | exact .inr (by decide +kernel)

/-- c1: the MXE's engine capability; c2: the CPE's; c3: the window; e0: a matrix job of one tile; e1: a copy of 16 bytes. -/
def engines : State :=
  stateOf { strandOf [(1, cap 7 0x200 0 2 0), (2, cap 7 0x200 0 2 1), (3, win 0), (4, cap 2 0x7FF 0x100000 0x101000 0x100000)] with
    e := [(0, 0#64), (1, BitVec.ofNat 64 (15 * 2 ^ 22))] } id

theorem witness_EngineResults : engines.me.pred 0 = true ∧ engines.checkEngine 1 0 = .ok () ∧ engines.checkEngine 2 1 = .ok () ∧
    (let j := mxeJobOf (engines.me.ext 0) 0 0 0 0 0 0 0
     mxeFault (engines.me.ext 0) j = 0 ∧ j.op = 0 ∧ j.bsrc = false ∧ j.fwd = false ∧ (engines.me.reg 3).tag = true ∧
      (engines.me.reg 3).kind = 1 ∧ (engines.me.reg 3).has 0 = true ∧
      (engines.me.reg 3).inBounds 0 (operandBytes j.fmt ((j.mt + 1) * (j.kt + 1))) = true ∧ engines.me.farOut = []) ∧
    (let j := cpeJobOf (engines.me.ext 1) { kind := 2, addr := 0x100000 } { kind := 1, addr := 0 } 0 0 0
     cpeFault (engines.me.ext 1) j = 0 ∧ (engines.me.reg 4).tag = true ∧ (engines.me.reg 4).has 0 = true ∧
      (engines.me.reg 3).has 1 = true ∧ (engines.me.reg 4).inBounds 0x100000 j.srcBytes = true ∧
      (engines.me.reg 3).inBounds 0 j.dstBytes = true ∧ engines.replaying = false) ∧
    engines.checkHome (engines.me.reg 4) 0x100000 = .ok () ∧ engines.checkHome (engines.me.reg 3) 0 = .ok () := by decide +kernel

/-- MXE entry 0 of block 0 is lane 0's, first use, in state `st`. -/
def jobIn (st : EntryState) : Block :=
  { Block.reset 0xFF#8 with
    mxe := { (Block.reset 0xFF#8).mxe with
      entries := [(0, { state := st, code := 1, seen := false, uses := 0, ever := true, lane := 0, job := none })] } }

theorem witness_EngineResults_jobs : (jobIn .queued).jobState 0 0#64 = (1, 0) ∧ (jobIn .running).jobState 0 0#64 = (2, 0) ∧
    (jobIn .faulted).jobState 0 0#64 = (4, 1) ∧ (jobIn .free).jobState 0 1#64 = (3, 0) ∧
    (Block.reset 0xFF#8).jobState 0 0#64 = (0, 0) := by decide +kernel

/-- Members of w0, arrived or not; `blk`'s members are all of the block. -/
def barriers (arr : Bool) : State :=
  stateOf (strandOf [(1, CReg.int 2#64), (2, cap 2 0x7FF 0x100000 0x101000 0x100000)])
    (fun c => { c with bmem := 1#16, barr := if arr then 1#17 else 0#17 })

theorem witness_BarrierTimeAndStrands : (barriers false).me.pred 0 = true ∧ (barriers false).isMember 0 1 = false ∧
    (barriers false).isMember 0 0 = true ∧ (barriers false).replayBar 0 = none ∧
    (barriers false).myCore.barr.getLsbD 0 = false ∧ (barriers true).myCore.barr.getLsbD 0 = true ∧
    (barriers false).mayWrite 7 ∧ (barriers false).replayOf logRdt 0 = none ∧
    ((7#3).toNat ≠ (barriers false).cur.slot ∧ (barriers false).occupied 0 7 = false ∧
      ((barriers false).me.val 1).getLsbD 0 = false) ∧ (0#3).toNat = (barriers false).cur.slot ∧
    (barriers false).me.farOut = [] ∧ (∀ r, (ints.me.reg r).linear = false) ∧ ints.me.farOut = [] ∧
    (∃ x, (barriers false).myCore.slots.get? 0 = some x) :=
  ⟨by decide, by decide +kernel, by decide +kernel, by decide +kernel, by decide +kernel, by decide +kernel,
    .inr (by decide +kernel), by decide +kernel, by decide +kernel, by decide +kernel, by decide +kernel, by decide +kernel,
    by decide +kernel, ⟨_, rfl⟩⟩

theorem witness_ControlRegisters : (modes 0 0).me.pred 0 = true ∧ csrAccess 7 = none ∧ csrAccess 0x04D = none ∧
    csrAccess 0 = some .readAll ∧ CsrAccess.reads .partition 0 = false ∧ CsrAccess.reads .partition 1 = true ∧
    CsrAccess.writes .readAll 3 = false ∧ CsrAccess.writes .writePartition 0 = false ∧ CsrAccess.writes .all 0 = true ∧
    CsrAccess.reads .all 0 = true ∧ (modes 0 0).checkDmask 5 0#64 = .ok () ∧ (modes 0 0).checkDmask 4 (BitVec.allOnes 64) = .ok () ∧
    (modes 0 0).mayWrite 7 ∧ (modes 0 0).me.sst.extractLsb' 3 3 = 0#3 := by
  and_intros <;> first | decide +kernel | exact .inr (by decide +kernel)

/-- The panel with partition 0 as given; c1: a window with a `pmint` record at 64, c2: a frozen-to-be pan, c3 and c4: a
contributor and a master, c5: numbers. -/
def sys (mode : Nat) (x : Partition) (wait : Wait) : State :=
  let sp : Memory := [(66, 0x20#8), (74, 0x20#8), (80, 2#8), (83, 0x80#8), (88, 3#8)]
  let s := stateOf { strandOf [(1, win 64), (2, cap 2 0x83B 0x100000 0x101000 0x100000), (3, cap 4 0x840 0x100000 0x101000 0x100000),
      (4, cap 5 0x860 0x100000 0x101000 0x100000), (5, CReg.int 7#64), (6, CReg.int 0x7FFFF#64), (7, win 0x100)] with
    sst := BitVec.ofNat 13 mode, wait := wait } (fun c => { c with sp := sp })
  { s with parts := [(0, x)] }

theorem witness_SystemOperations : (sys 0 Partition.reset .ready).me.mode = 0 ∧
    (let s := sys 3 Partition.reset .ready
     s.me.pred 0 = true ∧ s.me.mode = 3 ∧ (s.me.val 5).toNat < 8 ∧ (s.me.val 6) >>> 19 = 0#64 ∧
      ((s.me.val 5).extractLsb' 0 16).toNat < 55296 ∧ (s.me.val 5) >>> 29 = 0#64 ∧ s.peerInside (s.me.val 5) = true ∧
      (s.me.reg 1).tag = true ∧ (s.me.reg 1).kind = 1 ∧ (s.me.reg 1).has 0 = true ∧ (s.me.reg 1).inBounds 64 32 = true ∧
      (s.me.reg 1).val.toNat % 16 = 0 ∧ s.replaying = false ∧ s.me.farOut = []) ∧
    (let s := sys 3 Partition.reset .ready
     let m := mintRecord (s.spBytes 64 32)
     m.sound = true ∧ (s.sliceOf s.mySp m.va).isSome = true ∧ m.kind = 2 ∧
      (narrowMeta (setPerm (setKind 0#64 m.kind) (m.perm &&& (mintMask m.kind).getD 0#12)) m.va m.size).isSome = true) ∧
    (let s := sys 3 Partition.reset .ready
     (s.me.reg 2).tag = true ∧ (s.me.reg 2).kind = 2 ∧ (s.me.reg 2).has 5 = true ∧ (s.sliceOf s.mySp 0x100000).isSome = true ∧
      (s.me.reg 3).kind = 4 ∧ (s.me.reg 3).has 6 = true ∧ (s.me.reg 4).kind = 5 ∧ (s.me.reg 4).has 5 = true) ∧
    (sys 3 Partition.reset .ready).mayMove 8 2 ∧ (sys 3 Partition.reset .ready).mayWrite 8 :=
  ⟨by decide, by decide +kernel, by decide +kernel, by decide +kernel, ⟨.inr (.inr (by decide +kernel)), by decide⟩,
    .inr (by decide +kernel)⟩

theorem witness_SystemOperations_ckpt_mig_rlx :
    (let s := sys 3 { Partition.reset with crystalMode := true } .ready
     s.crystalOn 0 = true ∧ (s.me.reg 7).has 0 = true ∧ (s.me.reg 7).inBounds 0x100 64 = true ∧
      (∃ c, crystalDesc (s.spBytes 0x100 64) = some c ∧ s.myCore.crystalBytes c ≤ 28672) ∧
      (s.buddyOf 0).isSome = true ∧ s.myCore.crystal.writing = none) ∧
    ((ints.me.val 1).extractLsb' 26 38 = 0#38 ∧ ints.me.streams = [] ∧
      ints.myCore.ends.find? (fun e => e.2.boundTo 0) = none ∧ ints.me.linearReg = none ∧ ints.me.stayingReg = none ∧
      ints.me.farOut = []) ∧
    pairLegal 0x1D0014#48 = false ∧ pairLegal (0x60189#32 ++ 0x0014#16) = true := by decide +kernel

/-! ### Events -/

/-- A strand that waits, in slot 0 of core 0, and the operands of an event. -/
def event (w : Wait) (o : Operands) : State :=
  { stateOf { strandOf [(1, CReg.int 5#64)] with wait := w, waitPc := 0x1000#64 } id with arg := o, now := 100 }

theorem witness_WaitsEndAndDebug :
    (let s := event (.fence .far []) (args 0 0)
     s.occupied 0 0 = true ∧ s.fenceHolds 0 0 = true) ∧
    (let s := event (.alt [0] (some 100)) (args 0 0)
     s.occupied 0 0 = true ∧ (s.strand 0 0).wait = .alt [0] (some 100) ∧ 100 ≤ s.now) ∧
    ((event (.time 100) (args 0 0)).strand 0 0).wait = .time 100 ∧
    ((event (.barrier 16 false true) (args 0 16)).strand 0 0).wait = .barrier 16 false true ∧
    (∀ j < 8, ∀ thr ∈ [true, false], ((event (.barrier 16 false true) (args 0 16)).strand 0 j).wait ≠ .barrier 16 true thr) := by
  decide +kernel

/-- The same with a packet for core 0, numbered 1, that leaves its final router. -/
def landing (dst : Dest) (st : Stage) (b : Body) (x : Strand) (f : Core → Core) : State :=
  { stateOf x f with
    packets := [(1, { mnet := false, srcLcn := 9, sp := 0, dst := dst, x := 0, y := 0, inPort := 0, units := 1,
                      stage := st, phys := 0, body := b })]
    arg := args 1, nextId := 5 }

def loading : Strand :=
  { strandOf [] with wait := .far 3, far := [{ farOf 3 with relaxed := false, dest := .scalar 7 64 true }] }

theorem witness_WaitsEndAndDebug_replies :
    (let s := landing (.lane 0) .leaving (.reply (.strand 0 0 3 0) (.ok (natBytes 8 7) false)) loading id
     ∃ q f, Table.get? s.packets s.arg.a = some q ∧ q.body = .reply (.strand 0 0 3 0) (.ok (natBytes 8 7) false) ∧
      s.occupied q.phys 0 = true ∧ (s.strand q.phys 0).far.find? (fun g => g.id == 3) = some f ∧ f.left = 1 ∧
      f.refused = none ∧ f.relaxed = false ∧ f.dest = .scalar 7 64 true ∧ (s.strand q.phys 0).wait = .far 3) ∧
    (let s := landing (.lane 0) .leaving (.reply (.icache 0 0) (.ok [] false)) { strandOf [] with wait := .fetch 0 } id
     ∃ q, Table.get? s.packets s.arg.a = some q ∧ q.body = .reply (.icache 0 0) (.ok [] false) ∧ s.occupied 0 0 = true ∧
      (s.strand 0 0).wait = .fetch 0) :=
  ⟨⟨_, _, rfl, rfl, by decide, rfl, rfl, rfl, rfl, rfl, rfl⟩, ⟨_, rfl, rfl, by decide, rfl⟩⟩

theorem witness_WaitsEndAndDebug_halted (n : Nat) (h : n ∈ [0, 31, 32, 47, 48, 55, 56, 64, 65, 67, 69]) :
    (let s := { stateOf { strandOf [] with halt := true } id with arg := args 0 0 n }
     s.occupied 0 0 = true ∧ (s.strand 0 0).halt = true ∧ s.arg.c = n ∧
      ((s.strand 0 0).reg (BitVec.ofNat 5 n)).linear = false) ∧
    (mem.strand 0 0).halt = false ∧ ((mem.strand 0 0).reg 3).linear = true := by
  revert n; decide +kernel

/-- An end bound to slot 0 whose peer is end 2 of LCN 9. -/
def bound (st : EndState) (dirIn : Bool) (x : Option Payload) (c : Option (BitVec 5)) : Core → Core :=
  fun k => { k with ends := [(0, { endOf st dirIn 0 x with plcn := 9, pend := 2, clear := c })] }

theorem witness_MessagesLand :
    (let s := landing (.lane 0) .leaving (.message 0 9 2 (.word CReg.zero)) { strandOf [] with wait := .recv 0 } (bound .recvWait true none none)
     ∃ q, Table.get? s.packets s.arg.a = some q ∧ q.dst = .lane 0 ∧ q.body = .message 0 9 2 (.word CReg.zero) ∧
      ((s.core 0).endAt 0).state = .recvWait ∧ ((s.core 0).endAt 0).dirIn = true ∧ ((s.core 0).endAt 0).plcn = 9 ∧
      ((s.core 0).endAt 0).pend = 2 ∧ ((s.core 0).endAt 0).psz = (Payload.word CReg.zero).size ∧
      (s.strand 0 0).wait = .recv 0 ∧ ((s.core 0).endAt 63).state = .free) ∧
    (((landing (.lane 0) .leaving (.ack 0) (strandOf []) (bound .full true none none)).core 0).endAt 0).state = .full ∧
    (let s := landing (.lane 0) .leaving (.ack 0) { strandOf [] with wait := .send 0 } (bound .sendWait false none (some 3))
     (s.core 0).run ≠ .saving ∧ ((s.core 0).endAt 0).state = .sendWait ∧ s.occupied 0 0 = true ∧
      (s.strand 0 0).wait = .send 0 ∧ (s.strand 0 0).inh = false ∧ (0 : Nat) ≠ 64) :=
  ⟨⟨_, rfl, rfl, rfl, by decide +kernel⟩, by decide +kernel, by decide +kernel⟩

/-- Block 0 with this copy engine and this matrix engine. -/
def blockWith (c : Cpe → Cpe) (m : Mxe → Mxe) (o : Operands) : State :=
  let b := Block.reset 0xFF#8
  { stateOf { strandOf [] with wait := .queue 1 } id with blocks := [(0, { b with cpe := c b.cpe, mxe := m b.mxe })], arg := o, nextId := 5 }

/-- A copy of one 16-byte row between windows; a transfer of it. -/
def copyJob (k : Nat) : CpeJob :=
  { op := 0, ew := 0, rows := 1, cols := 16, sstr := 0, pad := false, src := { kind := k, addr := 0x100000 }, dst := { kind := 1, addr := 64 },
    lane := 0, slot := 0, serial := 0 }

def transfer (w : CpeWork) (left : Nat) : Transfer :=
  { work := w, lane := 0, turn := 8, bytes := natBytes 16 1, addrs := [], left := left, lines := [], refused := false, chunks := 1,
    stopped := none, last := 0 }

def copying (k left : Nat) (cur : Option CpeWork) (o : Operands) : State :=
  blockWith (fun c => { c with
    entries := [(0, { state := .running, code := 0, seen := false, uses := 0, ever := true, lane := 0, job := some (copyJob k) })]
    work := [(0, [(0, .job 0)])], current := cur.map (fun w => transfer w left) }) id o

theorem witness_CopyEngine :
    (let c := ((copying 1 0 none (args 0)).block 0).cpe
     ∃ j, c.current = none ∧ (lanesAfter c.lastServed).find? (fun l => c.work.getD l [] != []) = some 0 ∧
      ((c.work.getD 0 []).head?).map (·.2) = some (.job 0) ∧ c.job 0 = some j ∧ j.dst.kind = 1 ∧ j.src.kind = 1) ∧
    (let s := copying 1 0 (some (.job 0)) (args 0 0 8)
     ∃ tr j, (s.block 0).cpe.current = some tr ∧ tr.turn = s.arg.c ∧ tr.work = .job 0 ∧ (s.block 0).cpe.job 0 = some j ∧
      s.arg.flag = false ∧ tr.stopped = none ∧ tr.refused = false ∧ (s.core 0).sp.wf = true ∧
      ∀ g ∈ granules 64 16, (s.core 0).linearGranule g = false) ∧
    (∃ tr, ((copying 2 1 (some (.job 0)) (args 0)).block 0).cpe.current = some tr ∧ tr.left = 1) ∧
    (∃ tr, ((copying 2 2 (some (.job 0)) (args 0)).block 0).cpe.current = some tr ∧ 1 < tr.left) ∧
    (let s := { copying 1 0 (some (.pull 0 9 0 16 64 0)) (args 0 0 8) with
        cores := [(0, { Core.reset 0 with slots := [(0, { strandOf [] with wait := .pull 0 })], ends := [(0, endOf .pull true 2 none)] })] }
     ∃ tr, (s.block (blockOf 0)).cpe.current = some tr ∧ tr.turn = s.arg.c ∧ tr.lane = s.laneOf 0 ∧
      tr.work = .pull 0 9 0 16 64 0 ∧ ((s.core 0).endAt 0).state = .pull ∧ s.occupied 0 0 = true ∧
      (s.strand 0 0).wait = .pull 0 ∧ (s.strand 0 0).inh = false) :=
  ⟨⟨_, rfl, by decide +kernel, rfl, rfl, rfl, rfl⟩, ⟨_, _, rfl, rfl, rfl, rfl, rfl, rfl, rfl, by decide +kernel, by decide +kernel⟩,
    ⟨_, rfl, rfl⟩, ⟨_, rfl, by decide⟩, ⟨_, rfl, rfl, rfl, rfl, rfl, by decide +kernel, rfl, rfl⟩⟩

def matrixJob : MxeJob := mxeJobOf 0#64 0 0 0 0 0 0 0

/-- One queued matrix job of lane 0, and a write of its tile. -/
def multiplying (o : Operands) : State :=
  blockWith (fun c => { c with waiting := [{ lane := 0, slot := 0, at_ := 0, d := 7, job := copyJob 1 }] }) (fun m => { m with
    entries := [(0, { state := .queued, code := 0, seen := false, uses := 0, ever := true, lane := 0, job := some matrixJob })]
    writes := [(3, { lane := 0, entry := 0, order := 0, tile := 0, addr := 64, elems := [1#32], bytes := natBytes 16 1 })] }) o

theorem witness_MatrixEngine :
    (let s := multiplying (args 0 1)
     let b := s.block 0
     let r := grantLanes (lanesAfter b.cpe.lastGranted) b.cpe.entries b.cpe.waiting b.cpe.lastGranted
     s.arg.flag = false ∧ s.arg.b = 1 ∧ r.1.length = 1 ∧ s.occupied 0 0 = true ∧ (s.strand 0 0).wait = .queue 1) ∧
    (let s := { multiplying (args 0) with now := 100 }
     let b := s.block 0
     b.mxe.freeAt ≤ s.countCore 0 ∧ (b.chooseStep (s.countCore 0) (s.laneStopped 0)).isSome = true ∧ matrixJob.op = 0 ∧ matrixJob.bsrc = false) ∧
    (let s := multiplying (args 0 3)
     (Table.get? (s.block 0).mxe.writes s.arg.b).isSome = true ∧ (s.core 0).sp.wf = true ∧
      ∀ g ∈ granules 64 16, (s.core 0).linearGranule g = false) ∧
    (Entry.unused (α := CpeJob)).state ≠ .done ∧
    (let s := landing (.lane 0) .leaving (.message 0 9 2 (.tile 0 2048)) (strandOf []) (bound .tile true none none)
     ((s.core 0).endAt 0).state = .tile ∧ ((s.core 0).endAt 0).dirIn = true ∧ ((s.core 0).endAt 0).plcn = 9 ∧
      ((s.core 0).endAt 0).pend = 2 ∧ ((s.block 0).mxeLane 0).latch.length + ((s.block 0).mxeLane 0).granted < 2) := by
  decide +kernel

/-- A read and a write at a slice. -/
def requestOf (k : ReqKind) (walking : Bool) : Request :=
  { id := 7, who := .strand 0 0 3 0, lcn := 0, slot := 0, part := 0, va := 0x100000, kind := k, arrived := 0, walking := walking, frame := 0x100000, host := false, unchecked := false }

def panOf (kind : Nat) : PanEntry :=
  { basep := 0, pages := 1, kind := kind, fmt := 0, tbl := true, isSealed := false, holder := 0, ncon := 1, done := 0, sealing := none }

/-- Slice 3 with one exclusive pan, page 0 in its TLB, one request in its queue and one placed. -/
def sliceWith (k : ReqKind) (tlb : Bool) (o : Operands) : State :=
  let x := Slice.reset
  { landing (.slice 3) .leaving (.request (requestOf k false)) (strandOf []) id with
    now := 128
    slices := [(3, { x with
      pans := [(0, panOf 2)], tlb := if tlb then [(tlbIndex 0x100000, (tlbTag 0x100000, 0))] else [], queue := [requestOf k false]
      placed := [(2, { req := requestOf k false, perform := 64, member := 0, width := 1 })], held := [(2, natBytes 8 1)] })]
    arg := o }

theorem witness_SliceRequests :
    (let s := sliceWith (.read 8 false false) true (args 1)
     ∃ q, Table.get? s.packets s.arg.a = some q ∧ q.dst = .slice 3 ∧ q.body = .request (requestOf (.read 8 false false) false) ∧
      (∀ e ∈ s.agenda, e.event ≠ .hostPanAccess) ∧ (s.slice 3).lastEntry ≠ s.count (s.sliceDom 3) + 1 ∧
      Table.get? (s.slice 3).tlb (tlbIndex 0x100000) = some (tlbTag 0x100000, 0) ∧
      (s.slice 3).refuses (requestOf (.read 8 false false) false) = none) ∧
    (sliceWith (.read 8 false false) true (args 1) |>.slice 3).refuses { requestOf (.read 8 false false) false with va := 0x200000 } = some 0x06#6 ∧
    Table.get? (sliceWith (.read 8 false false) false (args 1) |>.slice 3).tlb (tlbIndex 0x100000) = none ∧
    (let s := sliceWith (.read 8 false false) true (args 3)
     let x := s.slice 3
     let r := requestOf (.read 8 false false) false
     let k := s.count (s.sliceDom 3) / 64
     x.queue = [r] ∧ r.walking = false ∧ r.arrived < 64 * k ∧ (∀ e ∈ x.lines, e.1 ∉ r.lines) ∧ x.claimed k = false ∧
      (r.kind.reserves = true → x.claimed (k + 2) = false) ∧ x.tctl.getLsbD 0 = false ∧ ∀ e ∈ x.reserved, e.1 ≠ k) ∧
    (let s := sliceWith (.write [1#8] false) true (args 3 2)
     ∃ p, Table.get? (s.slice 3).placed s.arg.b = some p ∧ p.req.kind = .write [1#8] false ∧ s.hbm.wf = true ∧
      s.abandoned p.req = false ∧ Table.get? (s.slice 3).held s.arg.b = some (natBytes 8 1)) := by decide +kernel

/-- A pan-table request at slice 3, and a strand that waits for its reply. -/
def tabling (q : TableReq) (kind : Nat) : State :=
  let s := landing (.slice 3) .leaving (.table 0 4 q) (strandOf []) id
  { s with slices := [(3, { Slice.reset with pans := [(0, panOf kind)] })], sup := { s.sup with stepDone := 6 } }

theorem witness_PanTable :
    (∃ q, (tabling (.freeze 0 0x200000) 2).tableRequest 1 = some (q, 3, .freeze 0 0x200000)) ∧
    ((tabling (.freeze 0 0x200000) 2).slice 3).panAt 0 = some (0, panOf 2) ∧
    Table.get? ((tabling (.freeze 0 0x200000) 2).slice 3).pans 0 = some (panOf 2) ∧
    ((panOf 2).basep * 2 ^ 21 = 0 ∧ ((panOf 2).basep + (panOf 2).pages) * 2 ^ 21 = 0x200000 ∧ (panOf 2).kind = 2) ∧
    ((panOf 2).basep + (panOf 2).pages) * 2 ^ 21 ≠ 0x100000 ∧
    ((panOf 5).kind = 5 ∧ (panOf 5).done < (panOf 5).ncon ∧ ({ panOf 5 with done := 1 } : PanEntry).ncon ≤ 1 ∧
      (panOf 5).isSealed = false ∧ (panOf 5).fmt < 2) ∧
    ((tabling (.mint 0x200000 0x200000 2 0 0 0) 2).mintRefusal 3 0 0x200000 0x200000 = none ∧
      ((tabling (.mint 0x200000 0x200000 2 0 0 0) 2).slice 3).freePan = some 1 ∧
      ((tabling (.mint 0 0x200000 2 0 0 0) 2).mintRefusal 3 0 0 0x200000).isSome = true) ∧
    (tabling (.holder 0 9) 2 |>.slice 3).panAt 0x200000 = none :=
  ⟨⟨_, rfl⟩, by decide +kernel, by decide +kernel, by decide, by decide, by decide, by decide +kernel, by decide +kernel⟩

def tableWaits (w : Wait) (left : Nat) : State :=
  landing (.lane 0) .leaving (.tableReply 4 3 none) { strandOf [] with wait := w }
    (fun c => { c with tableOps := [(4, { slot := 0, left := left, refused := none, kind := 0, d := 7, a := 1, result := CReg.zero, h := 0, entered := [] })] })

theorem witness_PanTable_reply : (let s := tableWaits (.table 4) 1
     ∃ q op, Table.get? s.packets 1 = some q ∧ q.body = .tableReply 4 3 none ∧ Table.get? (s.core q.phys).tableOps 4 = some op ∧
      s.occupied q.phys op.slot = true ∧ (s.strand q.phys op.slot).wait = .table 4 ∧ op.left = 1 ∧ op.refused = none ∧
      (s.strand q.phys op.slot).inh = false) ∧
    (∃ op, Table.get? ((tableWaits (.table 4) 2).core 0).tableOps 4 = some op ∧ 1 < op.left) ∧
    ((tableWaits (.holder 0) 1).strand 0 0).wait = .holder 0 :=
  ⟨⟨_, _, rfl, rfl, rfl, by decide, rfl, rfl, rfl, rfl⟩, ⟨_, rfl, by decide⟩, rfl⟩

/-! ### The rake, the launch head, the fabric -/

def engaged (echoes confirms : Nat) : Engaged :=
  { id := { time := 1, lcn := 0, slot := 0 }, parent := none, wstart := 0, echoesLeft := echoes, anyNo := false, anyBusy := false,
    aborted := false, children := [], confirmsLeft := confirms, confirmBad := false, entries := [], grant := none }

/-- A blocked strand on core 0 with an engagement, and a rake packet. -/
def raking (b : Body) (w : Wait) (g : Option Engaged) : State :=
  landing (.lane 0) .leaving b { strandOf [] with wait := w, threshold := 0 }
    (fun c => { bound .idle false none none c with engaged := (g.map (fun x => (0, x))).toList })

theorem witness_RakeEvents_threshold :
    (let s := { raking (.ack 0) (.recv 0) none with arg := args 0 0 }
     s.occupied 0 0 = true ∧ (s.strand 0 0).wait = .recv 0 ∧
      s.countCore 0 = (s.strand 0 0).waitStart + (s.strand 0 0).threshold ∧ (s.strand 0 0).halt = false ∧
      (s.strand 0 0).reported = false ∧ (s.core 0).engagedIn 0 = none ∧
      (s.core 0).engagement 0 { time := 0, lcn := 0, slot := 0 } = none ∧ (s.core 0).record = none ∧ (s.core 0).run = .run ∧
      ((s.core 0).endAt 0).plcn < coreCount) := by decide +kernel

def probeId : ProbeId := { time := 1, lcn := 0, slot := 0 }

theorem witness_RakeEvents_probes :
    (let e : Edge := { lcn := 0, target := 0, barrier := false, send := false }
     let s := raking (.probe probeId 9 0 2 e) (.recv 0) none
     s.edgeValid 0 9 2 { e with target := 63 } = false ∧ s.edgeValid 0 9 2 e = true ∧ (s.strand 0 0).blocked = true ∧
      (s.strand 0 0).reported = false ∧ (s.core 0).engagedIn 0 = none ∧
      ((raking (.ack 0) .ready none).strand 0 0).blocked = false ∧
      ((raking (.ack 0) (.recv 0) (some (engaged 1 1))).core 0).engagedIn 0 = some (engaged 1 1) ∧
      (engaged 1 1).id = probeId ∧ (engaged 1 1).id.earlier { probeId with time := 2 } = true) := by decide +kernel

theorem witness_RakeEvents_answers :
    (let s := raking (.echo probeId 0 1 (some (9, 0))) (.recv 0) (some (engaged 2 2))
     (s.core 0).engagement 0 probeId = some (engaged 2 2) ∧ 1 < (engaged 2 2).echoesLeft ∧ 1 < (engaged 2 2).confirmsLeft ∧
      (engaged 2 2).confirmsLeft ≠ 0 ∧ (engaged 2 2).children = [] ∧ (0 : Nat) ≠ 8 ∧ ((9, 0) : Nat × Nat) ≠ (0, 8) ∧
      ((raking (.ack 0) (.recv 0) none).core 0).engagement 0 probeId = none) ∧
    ((State.reset.part 0).rake.tokenOut = false ∧ (State.reset.part 0).rake.waiting = [] ∧ (State.reset.part 0).rake.held = []) ∧
    ({ RakeHead.reset with tokenOut := true } : RakeHead).tokenOut = true := by decide +kernel

/-- Partition 0 delivers a record, its own or core 0's. -/
def delivering (own : Bool) : State :=
  let r : Record := { words := [1#64], next := 0 }
  let s := stateOf (strandOf []) (fun c => { c with record := if own then none else some r })
  { s with
    parts := [(0, { Partition.reset with evv := true, rake := { RakeHead.reset with current := if own then some r else none } })]
    arg := args 0 (if own then coreCount else 0) }

theorem witness_RakeEvents_records :
    (let s := delivering false
     s.arg.b ≠ coreCount ∧ (s.core 0).record = some { words := [1#64], next := 0 } ∧ s.partOf 0 = some 0 ∧ (s.part 0).evv = true) ∧
    (let s := delivering true
     s.arg.b = coreCount ∧ (s.part 0).rake.current = some { words := [1#64], next := 0 }) := by decide +kernel

/-- A job record of one block, fixed at the origin, with id 1, one page of code at 0. -/
def jobRecord : BitVec 512 := BitVec.ofNat 512 (2 ^ 160 + 2 ^ 256 + 2 ^ 265)

def jobOf1 (st : JobState) (ms : List Nat) : Job :=
  { id := 1, record := jobRecord, queue := 0, owner := 0, state := st, ox := 0, oy := 0, members := ms, left := ms, placeFrom := 0, save := 0,
    recallArea := 0, sent := [], kept := [], held := [], command := none, recalled := false }

def launching (recs : List (Nat × BitVec 512)) (jobs : Table Job) (o : Operands) : State :=
  { landing .head .leaving (.message 0 9 2 (.vector jobRecord)) (strandOf []) (fun c => { c with job := 1 }) with
    parts := [(0, { Partition.reset with
      queues := [(0, { LaunchQueue.reset with en := true, records := recs })], jobs := jobs })]
    arg := o }

theorem witness_LaunchEvents_queues :
    (let s := launching [] [] (args 1)
     ∃ q, Table.get? s.packets s.arg.a = some q ∧ q.body = .message 0 9 2 (.vector jobRecord) ∧
      ((s.part q.sp).queues.getD 0 LaunchQueue.reset).en = true ∧ ((s.part q.sp).queues.getD 15 LaunchQueue.reset).en = false ∧
      ((s.part q.sp).queues.getD 0 LaunchQueue.reset).records.length < 16) ∧
    16 ≤ ((launching ((List.range 16).map (fun i => (i, jobRecord))) [] (args 1)).part 0 |>.queues.getD 0 LaunchQueue.reset).records.length :=
  ⟨⟨_, rfl, rfl, by decide +kernel⟩, by decide +kernel⟩

theorem witness_LaunchEvents_jobs :
    (let s := launching [(0, jobRecord)] [] (args 0)
     let x := s.part 0
     x.busy ≤ s.count (some 0) ∧ x.pending = none ∧ x.nextOwner = some 0 ∧ x.nextRecord 0 = some (0, 0, 0, jobRecord) ∧
      (x.queues.getD 0 LaunchQueue.reset).waiting = [] ∧ (x.queues.getD 0 LaunchQueue.reset).hostWaiting = []) ∧
    ((launching [] [(1, jobOf1 .pending [])] (args 0)).part 0).pending = some (jobOf1 .pending []) ∧
    (((launching [] [(1, jobOf1 .pending [])] (args 0)).part 0).placeFor jobRecord).isSome = true ∧
    (launching [] [(1, jobOf1 .running [0])] (args 0 1)).jobOf 0 1 = some (0, jobOf1 .running [0]) ∧
    ((launching [] [(1, jobOf1 .running [0])] (args 0 1)).core 0).job = 1 ∧ jobNchan jobRecord = 0 ∧
    (let j := { jobOf1 .running [0] with left := [] }
     ((launching [] [(1, j)] (args 0 1)).part 0).jobs.get? 1 = some j ∧ j.id = 1 ∧ j.state = .running ∧ j.left = []) := by
  decide +kernel

/-- A device access in a packet. -/
def device (ea : Nat) (w : Option Word) : State := landing (.slice 0) .leaving (.device 0 0 3 ea 8 w) (strandOf []) id

theorem witness_DeviceEvents : (∃ q, (device (2 ^ 40) none).deviceAccess 1 = some (q, 2 ^ 40, 8, none)) ∧
    (∃ q, (device (2 ^ 40) (some 1#64)).deviceAccess 1 = some (q, 2 ^ 40, 8, some 1#64)) ∧
    ((device 0 none).deviceRead (3 * 2 ^ 40)).isSome = true ∧ (deviceFields (4 * 2 ^ 40 + 0x100)).2.2 = 0x100 ∧
    (deviceFields (4 * 2 ^ 40 + 0x308)).2.2 < 0x310 ∧ ((device 0 none).slice 0).tstat.getLsbD 0 = false ∧
    (device 0 none).badRoute false 0 0 1#64 = true ∧ (device 0 none).badRoute false 0 0 0#64 = false ∧
    (((Block.reset 0xFF#8).rsv = false ∧ (Block.reset 0xFF#8).reserveLane.isSome = true ∨
      { Block.reset 0xFF#8 with remap := [(7, 0#4)] }.reserveLane = some 7)) ∧
    ((0x10000#64).getLsbD 16 = true ∧ (0x10000#64).extractLsb' 8 8 = (Block.reset 0xFF#8).oos) ∧
    ({ Slice.reset with tstat := 1#64 } : Slice).tstat.getLsbD 0 = true ∧
    ({ Slice.reset with tctl := 1#64, pending := some (1#64, 0#64) } : Slice).tctl.getLsbD 0 = true ∧
    (∃ q, Table.get? (landing (.lane 0) .leaving (.remap 0 0 0 7 8) (strandOf []) id).packets 1 = some q ∧
      q.body = .remap 0 0 0 7 8) :=
  ⟨⟨_, rfl⟩, ⟨_, rfl⟩, by and_intros <;> first | exact ⟨_, rfl, rfl⟩ | decide +kernel⟩

/-- A packet at router (0, 0) for LCN 0 or 9. -/
def routed (lcn : Nat) (st : Stage) : State := landing (.lane lcn) st (.message 0 9 2 (.word CReg.zero)) (strandOf []) id

theorem witness_FabricEvents :
    (let s := routed 9 .moving
     ∃ q, Table.get? s.packets s.arg.a = some q ∧ q.stage ≠ .leaving ∧ s.routerOpen q.x q.y = true ∧ s.atFinal q = false ∧
      (∃ x y, stepTo q.x q.y (s.output q) = some (x, y) ∧ s.routerOpen x y = true ∧ unitOf x = unitOf q.x)) ∧
    (∃ q, Table.get? (routed 0 .held).packets 1 = some q ∧ q.stage = .held ∧ q.dst = .lane 0 ∧ (routed 0 .held).atFinal q = true ∧
      (routed 0 .held).remapOf 0 = (0, true) ∧ (routed 0 .held).unitClosed q = false ∧ (routed 0 .held).logFull 0 = false ∧
      (routed 0 .held).laneHeld 0 = false) ∧
    (let s := landing .host .leaving (.request (requestOf (.write [1#8] false) false)) (strandOf []) id
     ∃ q, Table.get? s.packets s.arg.a = some q ∧ q.stage = .leaving ∧ q.body = .request (requestOf (.write [1#8] false) false) ∧
      s.host.wf = true) :=
  ⟨⟨_, rfl, by decide +kernel, by decide +kernel, by decide +kernel, ⟨_, _, rfl, by decide +kernel, by decide +kernel⟩⟩,
    ⟨_, rfl, by decide +kernel⟩, ⟨_, rfl, rfl, rfl, by decide +kernel⟩⟩

/-- Core 0 in crystal mode with a descriptor of nothing at 0. -/
def crystals (r : RunState) (c : Crystal → Crystal) : State :=
  { stateOf { strandOf [] with wait := .ckpt } (fun k => { k with run := r, crystal := c { Crystal.none with desc := some 0 } }) with
    parts := [(0, { Partition.reset with crystalMode := true })], arg := args 0 }

theorem witness_CrystalEvents :
    (let s := crystals .run (fun c => { c with writing := some 0 })
     (s.core 0).crystal.writing = some 0 ∧ s.occupied 0 0 = true ∧ (s.strand 0 0).wait = .ckpt) ∧
    (let s := crystals .run (fun c => { c with current := some 1 })
     (s.core 0).crystal.desc = some 0 ∧ (crystalDesc ((s.core 0).sp.readN 0 64)).isSome = true ∧ s.crystalOn 0 = true ∧
      (s.core 0).run = .run ∧ (s.core 0).crystal.writing = none ∧ (s.core 0).crystal.current.isSome = true ∧
      (s.buddyOf 0).isSome = true ∧ (s.core 0).crystalBytes { rbase := 0, rlen := 0, pairs := [] } ≤ 28672) ∧
    ((crystals .contained id).core 0).run = .contained ∧
    (mem.remapOf 0 = (0, true) ∧ mem.crystalOn 0 = false ∧ (mem.core 0).run ≠ .contained ∧ (mem.core 0).run ≠ .doubleTrap) ∧
    ((Block.reset 0xFF#8).rav = false ∨ (Block.reset 0xFF#8).rav = true) ∧
    (let s := { crystals .restoring (fun c => { c with current := some 0 }) with
        cores := [(0, { Core.reset 0 with run := .restoring, replaces := some (1, false), crystal := { Crystal.none with current := some 0 } })] }
     (s.core 0).run = .restoring ∧ (s.core 0).replaces = some (1, false) ∧ (s.core 0).crystal.current = some 0 ∧
      (s.buddyOf 0).isSome = true) ∧
    (((crystals .restoring id).core 0).run = .restoring ∧ ((crystals .restoring id).core 0).crystal.current = none) ∧
    ((mem.buddyOf 0).isSome = true ∧ (mem.core ((mem.buddyOf 0).getD 0)).sp.wf = true) := by decide +kernel

/-- A command record: the job, the operation and the save area at 0. -/
def cmd (op : Nat) : BitVec 512 := BitVec.ofNat 512 (1 + op * 2 ^ 32)

def commanding (op : Nat) (st : JobState) : State :=
  let s := landing .head .leaving (.message 0 9 2 (.vector (cmd op))) (strandOf []) (fun c => { c with job := 1 })
  { s with
    parts := [(0, { Partition.reset with jobs := [(1, jobOf1 st (if st = .preempted then [] else [0]))] })]
    slices := [((State.reset.sliceOf 0 0).getD 0, { Slice.reset with pans := [(0, { panOf 9 with pages := 64 })] })] }

theorem witness_CommandEvents :
    (let s := commanding 1 .running
     s.command s.arg.a = some (0, 9, 2, cmd 1) ∧ s.arg.flag = false ∧ cmdJob (cmd 1) = 1 ∧ cmdOp (cmd 1) = 1 ∧
      cmdReserved (cmd 1) = false ∧ (s.part 0).jobs.get? 1 = some (jobOf1 .running [0]) ∧ (s.part 0).jobs.get? 2 = none ∧
      s.saveAreaAt 0 0 (saveSize jobRecord) = true ∧ s.saveAreaAt 0 0x200000 1 = false) ∧
    (cmdOp (cmd 2) = 2 ∧ cmdOp (cmd 3) = 3 ∧ cmdOp (cmd 4) = 4) ∧
    (let s := commanding 2 .preempted
     (s.part 0).jobs.get? 1 = some (jobOf1 .preempted []) ∧ (jobOf1 .preempted []).command = none ∧
      (s.part 0).canResume (jobOf1 .preempted []) = true) ∧
    (let s := { commanding 1 .saving with arg := args 0 1 }
     s.jobOf 0 1 = some (0, jobOf1 .saving [0]) ∧ (jobOf1 .saving [0]).left.contains 0 = true ∧ (s.core 0).run = .run ∧
      (s.core 0).crystal.writing = none ∧ ((s.block 0).mxeLane 0).out = none ∧ (s.block 0).mxe.laneJobs 0 = [] ∧
      s.quiet 0 = true) ∧
    ({ jobOf1 .saving [0] with left := [] } : Job).left = [] ∧ (jobOf1 .restoring [0]).state = .restoring := by decide +kernel

theorem witness_ClockTreeEvents : (mem.core 0).tree.state = .run ∧
    ({ Core.reset 0 with tree := { (Core.reset 0).tree with state := .hold } } : Core).tree.state ≠ .run ∧
    ({ Core.reset 0 with tree := { (Core.reset 0).tree with state := .adopt } } : Core).tree.state = .adopt := by decide +kernel

/-- After bring-up: partition 0 holds unit 0. -/
def parted (lent : Nat) : State :=
  { State.reset with sup := { State.reset.sup with boot := false }, parts := [(0, { Partition.reset with en := true, home := 1, lent := lent })] }

/-- A configuration word: enable, base, home. -/
def configWord (base home : Nat) : Word := BitVec.ofNat 64 (1 + base * 2 + home * 64)

theorem witness_PartitionEvents : State.reset.sup.boot = true ∧
    (let s := parted 0
     s.sup.boot = false ∧ s.configRefused 1 (configWord 0 1) = true ∧ s.configRefused 1 (configWord 1 23) = false ∧
      s.configRefused 19 (configWord 23 1) = false ∧ s.configRefused 19 (configWord 23 2) = true ∧ (s.part 1).en = false ∧
      (configWord 1 23).getLsbD 0 = true ∧ (configWord 1 23).getLsbD 16 = false ∧ (s.part 0).en = true ∧
      s.lendable 0 = some 1) ∧
    (let s := parted 1
     (s.part 0).lent ≠ 0 ∧ (s.part 0).recalling = 0 ∧ (s.part 0).jobs = [] ∧ s.packets = []) ∧
    ({ State.reset.sup with stepDone := 6 } : Supervisor).stepDone = 6 ∧ State.reset.sup.thermal = false ∧
    ({ State.reset.sup with thermal := true } : Supervisor).thermal = true := by decide +kernel

/-- A key pair's modulus; the digest that the fuses hold of it, and that of the body [7], were made outside the model, as the
signatures were, with a library's SHA-512 and the pair's private exponent. -/
def keyModulus : BitVec 4096 := 0xebcbd0f9b177cfe39357e3d5d50f1210867b53cd02236946e82d3c734a68fc86d6fe72e17ebc40720bd2981fa38e7990f50387fc1465def87f9042ab63a81c35b4450977c5fb232557c77656904907a87592caa890965775abef3fcc664ec40941925b736a3a4ead0608300108f8a76c65a4d88b76fdc031d2c148a68e0e1629d4b671e005daba557930651fa0f21f28296e405eaf5a97742b9aae6fc4d3bcd033d2d9964483040f97c1a2fc4987b1f057e811b81ca31488003779b4cd66705db9d57fb71fc9e8f35583cd0af29f1acf07c16145ba39687754ceb31519095a6aa5163ec1b0a16644645a7e8e157764be455f92131e2cc81fb2b6fbb3991d8c3be26f8a44e8825c588484d9ca74205b45b576eee167e0780d9291cb2db36d8550cc6e6374ae79e23511eda5ea50d077547a605177afdb5d9d6a8946c4a0c03592805247e87e7265093804cec262755693115ffedbaa7ac18e5166f0025d5b58ec31fa8e49f96a475bc7e2c971bf454e41c40a9e89cf7f3b4ad037f4a4970e744cc09d3daa1545d38d509101826cc35ba8b6d8ca43a8517fd53b6321a0bd2f45f013c6418260a56c34ad3953e20fadaaa1993b6d1aef07a10e269966a2e6061c2ca81e6e0d6ae7837e350a8fc05aae20cf98d7a63af287977349893dc8ea02b4da4eb0f38aa2441337a6af89ebc8aee3b889e4931548e8e78948a5102cec6a760f#4096

/-- The SHA-512 of the modulus and of the body [7], the first byte lowest. -/
def keyDigest : BitVec 512 := 0xf105947f43212334bc187b2544463723094cb6264669858782afb4b708ab951f9570cc14d2aedea3dbc34abe904bb00e995de0f33413df912cfdaadfb955969e#512
def bodyDigest : Nat := 0xc6518b26ee42e1bdb9aa167c2feb243584457d9629c444ee432ccb6e300f9bf5b92b705b00e6c50d85c26b8c5b71d2afb87ad3366199fa0eb610e6dfa1115d36

/-- An image of body [7] with a signature (R429). -/
def imageBytes (target version sig : Nat) : List Byte :=
  natBytes 4 target ++ natBytes 4 version ++ natBytes 8 1 ++ natBytes 64 bodyDigest ++ bigBytes 512 sig ++ [7#8]

/-- Images for the supervisor and for a slice controller, VERSION 5. -/
def image1 : Image := { key := keyModulus, bytes := imageBytes 1 5 0x5ff0326d473cdcc68eca6bd10723793beeed98c1c52114f6d598ceedcbaa5147fea01426b228b071685f4145090c68abe24a4847ae87c53ebd4b179e0684bad987f5e141b1c9777b5b5ea378fb3bdca7ec8bcd87e732f0c49103753ace31fe630a2658f840c09fa68104e8cf2687f19f9857b52b9e039b081c5769c1478bb824839e3bf3338fbae56da90a34eb8a2e19dff50b3a3eea5e3aef2976c135c84c9b093f77a1de7bdfbe8768c9bc60bf870388e661e17fcf2066868e5db9911335483919db4d51c8d4fcd8bba9b27e0f70d636782346b06fd5c34daf53fe2de9cafe9c62cd4c6a01b48103554e049a5cf448d1a3a2cc2f0287f130ebeae27fe8e63fa6288e87b2734c964ec10713f0cafe64f6f94ed5781218b3df96f2e214ca4a2c65e5ff269d205fc5f025bd4d870f46c625a9874fb2eb26fc9ad85d0421c9af4f03bae59bb0d29ecb1c9fc724c6c026f2e1dd41aef4c0e34ba290eca60d4282ff114e9cbc8a15010d3fa91d0ec2ffb8f79fea3c8790a5401d7f4653db98c2cdf9301fa68a7ab87a0a3e7f4541f1a8b634f56f4852831223fb334dc6092063a169a673998f570ee606eca49169a4e0a954b8106ac3add5e623f79031a4062d61899faf3e8c7ff49064920702d87da13cdf45e37f11f00d3751edff2be92a2c7fdcd1a4efd1b404d9fe1ea3f7ed72f058e744a04ef0501b3df2336cbb3aa5c1b0e6 }
def image3 : Image := { key := keyModulus, bytes := imageBytes 3 5 0x533708d3df02257aa69650ca902902aeee1dc4ec325f47283fa61f67b7044850444f78313ca3bfdb73bf81c0363d3d806884eccc8463896dbb2c5cb337b8db3c2851b863c2dcca3b65a7f81557e20ef3462fc273917470d9e93fd8db62a9b3675b558d037e569d52e86730c51dcbf579cb501841d80ba3f93b102137f73be95b5a05e2eb071e3d0ed9e4fd9b8a532408aefc1c3a21f793ad7b010c0ff865599da253ffb3a88608607d35692e477e08922ecb62344aa129ae956262eea86777554b6fa0f7a07b47977cd19b52196123153bb78c2aeabc7d38a169b5c97e0face1db7080c2cace9e2baae9cb80f7ba2ae60dab081dd2b3aff278ad3aedf43d841777e57fb8322dfb538dc189f88d0d033fb93b08498433812fbe5335cb28fc851cb856a0a9f6e31c8a4824a932ae4a2638162d247696df2be9800f59f67654f293a584e0af16a8a15c739c7d1b01f6d115d7f0cafbd8392a17523a3b591bf8bedf77175371bb5d69e716754800b6a62fc3caa85b3fc55d80e61747db03e686ba7d13bb9cf8cca26603d312e423140fbad930c2974945549b0e22f44f04c38a2f08f2d49219f93c3e674eb58ea4e1212081b635168998f62e527ec2848c1ad8c1bf513503c2edf3201ab246076f0ff4dc344e58a1f1b41d7b9f78d70cd07c7176975591ac3031ec7b0b1bea6f32416693d05b054d5936756b6b3b4450d325267fc }

/-- After the bring-up: an image that verifies and one that does not. -/
def supervised : Supervisor :=
  { State.reset.sup with
    key := some { modulus := keyModulus, exponent := 1 }, rootDigest := keyDigest, stepDone := 6
    images := [(1, image1), (2, { key := 0, bytes := [] }), (3, image3)] }

/-- The supervisor accepts an image that is signed as R428 says, and no other; the signature of image 1 is no image 3's. -/
theorem test_image_signature : supervised.rejects image1 = false ∧
    supervised.rejects { image1 with bytes := image1.bytes.set 4 6#8 } = true := by decide +kernel

theorem witness_SupervisorEvents_images : supervised.offered (args 3 (3 * 2 ^ 16 + 1535)) = some image3 ∧
    supervised.offered { args 9 with bytes := bigBytes 512 keyModulus.toNat ++ image1.bytes } = some image1 ∧
    supervised.offered (args 2) = none ∧ supervised.verified 1 = some image1 ∧ supervised.verified 2 = none := by
  decide +kernel

theorem witness_SupervisorEvents : supervised.key.isSome = true ∧ supervised.alarm = false ∧
    supervised.badImage = some 2 ∧ { supervised with images := [] }.badImage = none ∧
    State.reset.sup.key = none ∧ supervised.boot = true ∧ supervised.failedImage = none ∧ 442367 < coreCount ∧
    State.reset.occupied 442367 7 = false ∧ image1.target = 1 ∧ { supervised with alarm := true }.alarm = true ∧
    6 ≤ supervised.stepDone ∧ State.reset.sup.stepDone < 3 := by decide +kernel

def clocked : Supervisor :=
  { State.reset.sup with ptState := 2, ptpSeq := 7, ptpT1 := some 10, ptpT2 := some 20, ptpT3 := some 30, lastSync := 0 }

theorem witness_PtpEvents : clocked.source 0 = true ∧ clocked.source 1 = false ∧ clocked.ptpT2 = some 20 ∧ clocked.ptpSeq = 7 ∧
    clocked.ptState = 2 ∧ clocked.lastSync + 2 ^ 24 ≤ 2 ^ 24 ∧ 2 ^ 24 - 1 < clocked.lastSync + 2 ^ 24 ∧
    { clocked with gm := true }.gm = true := by decide +kernel

/-- A port in a state, with a message to send on virtual function 0. -/
def portIn (st : Nat) (control : List Item) : Port :=
  { Port.reset with
    state := st, control := control, frames := [(1, .marker)]
    vfs := [(0, { Vf.reset with w0 := 1#64, rate := 1, tokens := 1, queue := [.message 0 9 2 (.word CReg.zero)] })] }

theorem witness_OpticalEvents : (portIn 2 [.marker]).control = .marker :: [] ∧ (portIn 3 [.marker]).state = 3 ∧
    ((portIn 2 []).choose = some 0 ∧ ((portIn 2 []).vf 0).queue = [.message 0 9 2 (.word CReg.zero)] ∧
      (Item.message 0 9 2 (.word CReg.zero)).frames = 1 ∧ ((portIn 2 []).vf 0).sent = 0) ∧
    Table.get? (portIn 2 []).frames 1 = some .marker ∧ (portIn 0 []).state = 0 ∧ (portIn 1 []).state = 1 ∧ (portIn 4 []).state = 4 ∧
    ({ portIn 3 [] with markerSent := true, markerSeen := true } : Port).unacked = 0 ∧ (portIn 1 []).training = 0 := by
  decide +kernel

/-- The host holds the pan at 0. -/
def hosted (n : Nat) : State :=
  let s := landing .head .leaving (.message 0 9 2 (.word (cap 2 0x83B 0 0x100000 0))) (strandOf []) id
  { s with
    parts := [(0, { Partition.reset with
      queues := [(0, { LaunchQueue.reset with en := true, records := (List.range n).map (fun i => (i, jobRecord)) })]
      hostFn := { HostFunction.reset with held := [cap 2 0x83B 0 0x100000 0] } })]
    slices := [((State.reset.sliceOf 0 0).getD 0, { Slice.reset with pans := [(0, { panOf 2 with holder := hostLcn })] })]
    arg := args 0 0 }

theorem witness_HostAndMigration_host :
    (hosted 0).partActive 0 = true ∧ (((hosted 0).part 0).queues.getD 1 LaunchQueue.reset).en = false ∧
    (((hosted 0).part 0).queues.getD 0 LaunchQueue.reset).records.length < 16 ∧
    16 ≤ (((hosted 16).part 0).queues.getD 0 LaunchQueue.reset).records.length ∧
    ((cap 2 0x83B 0 0x100000 0).tag = true ∧ (cap 2 0x83B 0 0x100000 0).kind = 2) ∧
    (let s := hosted 0
     (s.sliceOf 0 0).isSome = true ∧ (∃ m i e, s.tableEntry 0 0 = some (m, i, e) ∧ e.holder = hostLcn) ∧
      (∀ d ∈ s.agenda, d.event ≠ .sliceRequestArrival) ∧
      (s.slice ((s.sliceOf 0 0).getD 0)).lastEntry ≠ s.count (s.sliceDom ((s.sliceOf 0 0).getD 0)) + 1) ∧
    ((hosted 0).part 0).hostFn.held.find? (fun r => r.bounds.1.toNat == 0) = some (cap 2 0x83B 0 0x100000 0) ∧
    ((hosted 0).part 0).hostFn.pst ≠ 1 ∧ (hosted 0).hostBusy 0 (cap 2 0x83B 0 0x100000 0) = false ∧
    ((hosted 0).part 0).hostFn.pdlcn < coreCount ∧ (hosted 0).unitPart (unitOf (coordX 0)) = some 0 :=
  ⟨by decide +kernel, by decide +kernel, by decide +kernel, by decide +kernel, by decide +kernel,
    ⟨by decide +kernel, ⟨_, _, _, rfl, by decide +kernel⟩, by decide +kernel, by decide +kernel⟩, by decide +kernel, by decide +kernel,
    by decide +kernel, by decide +kernel, by decide +kernel⟩

theorem witness_HostAndMigration_mig :
    (let s := landing (.lane 0) .leaving (.ship 0 9 0 (natBytes 1024 0) []) (strandOf []) id
     ∃ q, Table.get? s.packets s.arg.a = some q ∧ q.body = .ship 0 9 0 (natBytes 1024 0) [] ∧ 16 ≤ (natBytes 1024 0).length ∧
      (List.range 8).find? (fun j => !s.occupied q.phys j) = some 1) ∧
    (let s := landing (.lane 0) .leaving (.shipReply 0 0 false) { strandOf [] with wait := .mig 5#64 } id
     s.migWaits s.arg.a = some (0, 0, 5#64) ∧ (s.strand 0 0).inh = false) ∧
    ((List.range 8).find? (fun j => !({ mem with cores := [(0, { Core.reset 0 with slots := (List.range 8).map (fun k => (k, strandOf [])) })] } : State).occupied 0 j) = none) := by decide +kernel

/-! ### The step -/

/-- An `add` placed at the `pc`: the next step issues it, and the state has nothing else to do. -/
theorem witness_StepRunsDecoded :
    (let s := State.reset.withFetchWord 32 0x00208401
     ∃ t p k, s.nextAct = .issue t p k ∧ (s.strand p k).pendTrap = none ∧ (s.strand p k).rep = none ∧ (s.strand p k).far = [] ∧
      (∃ len bits, ({ s with now := t, cur := { core := p, slot := k, pc := (s.strand p k).pc, len := 4, bits := 0#48, relaxed := false } } : State).fetchInstr p
        (s.strand p k) (s.strand p k).pc = .ok (len, bits) ∧ isPair bits = false)) :=
  ⟨_, _, _, rfl, rfl, rfl, rfl, ⟨_, _, rfl, by decide +kernel⟩⟩

theorem witness_EncodeDecodeAgree : (Instr.bfx 7 31 31 63 0).wf = true ∧ (encode (.bfx 7 31 31 63 0)).isSome = true ∧
    (Instr.rcv16 15 15).wf = true ∧ (encode (.rcv16 15 15)).isSome = true := by decide

theorem witness_StepKeepsMemories : State.reset.MemoriesCanonical ∧ ∃ t, step State.reset = .next t :=
  ⟨⟨by decide, by decide, by decide⟩, ⟨_, rfl⟩⟩

theorem witness_TimeNeverFalls : (∀ d rest, State.reset.nextAct = .event d rest → d.event ≠ .moduleReset) ∧
    ∃ t, step State.reset = .next t :=
  ⟨(fun _ _ h => by cases h), ⟨_, rfl⟩⟩

/-- R424, R425: an instruction placed at the fetch address runs as the next step. -/
theorem test_step_runs : (match step (State.reset.withFetchWord 32 0x07F00405) with
    | .next t => (t.strand 0 0).pc == 4#64
    | _ => false) = true := by decide +kernel


/-- R164: log2 of 2^3 is 3 and sin of 1.5 half-turns is −1, both exact; 1 ÷ 0 is infinite with DZ. -/
theorem test_special_listed : specialLane 0 3 0x41000000 = (0x40400000, flagNone) ∧
    specialLane 0 5 0x3FC00000 = (0xBF800000, flagNone) ∧ (specialLane 0 0 0x80000000).1 = 0xFF800000 := by decide +kernel

/-! ### Further clauses: one state for each, at the ends of their ranges -/

/-- c1: the window at 64; c2: a device-register window of the routers, at a table entry. -/
def devices : State := oneOf [(1, win 64), (2, { tag := true, val := 0x10000000000#64, mt := BitVec.ofNat 64 (0x403 + 0xA * 2 ^ 12 + 30 * 2 ^ 16 + 2 ^ 32 + 2 ^ 54) })]

theorem witness_FarAccesses_more : (devices.me.reg 2).place = .device ∧
    devices.checkAccess .ld 2 permL 0x10000000000 8 8 false (some 7) = .ok () ∧
    devices.checkAccess .st 2 permS 0x10000000004 4 4 true none = .ok () ∧
    (far.checkAccess .stc 1 permS 0x100FF0 16 16 true none = .ok () ∧ (far.me.reg 31).linear = false ∧
      (far.me.reg 31).tag = false) ∧
    ((far.me.reg 3).tag = true ∧ (far.me.reg 3).linear = false ∧ (cap 2 0xFFF 0x100000 0x101000 0x100000).has 4 = true ∧
      (cap 2 0xFFF 0x100000 0x101000 0x100000).has 11 = true) ∧
    far.checkAccess .stc 2 permS 0x100000 16 16 true none = .ok () ∧
    far.checkAccess .ldc 2 permL 0x100FF0 16 16 false (some 0) = .ok () := by decide +kernel

/-- The strand of `ends` with one relaxed access outstanding. -/
def fencing (e : End) : State := (ends e).modMe (fun x => { x with far := [farOf 3] })

theorem witness_FarGateAndFences_first : (fencing (endOf .idle false 0 none)).me.farOut ≠ [] ∧
    (fencing (endOf .idle false 0 none)).checkEnd 0 true 0 = .ok () ∧
    checkPayload 2 ((fencing (endOf .idle false 0 none)).me.reg 2) = .ok () := by decide +kernel

theorem witness_CapabilityMemoryAndStack_bounds : ((31#5).toNat + 1 - (1#5).toNat = 31 ∧ 1 ≤ (1#5).toNat) ∧
    ((stack 0x1F0 0).me.hsl.toNat + 16 * 31 ≤ (stack 0x1F0 0).me.hsp.toNat) ∧
    ((stack 0x1E0 0).me.hsp.toNat < (stack 0x1E0 0).me.hsl.toNat + 16 * 31) ∧
    ((stack 0x3FE10 0).me.hsp.toNat + 16 * 31 ≤ 0x40000) ∧
    (∀ i < 31, loadable (granuleReg ((stack 0x3FE10 0).myCore.sp.readN (0x3FE10 + 16 * i) 16) false) = true) ∧
    (mem.checkAccess .ldc 1 permL 64 16 16 false (some 0)).toBool = true := by decide +kernel

theorem witness_VectorMemory_far : far.enabled.checkAccess .vld 2 permL 0x100FC0 64 64 false none = .ok () ∧
    far.enabled.checkAccess .vst 2 permS 0x100000 64 64 true none = .ok () ∧
    far.enabled.checkElements .gather 1 permL ((List.range 64).map (fun i => 0x100000 + (i : Int) * 64)) 1 false = .ok () ∧
    far.enabled.checkElements .gather 3 permL ((List.range 32).map (fun i => 0x100000 + (i : Int) * 2)) 2 false = .ok () ∧
    far.enabled.checkElements .scatter 1 permS ((List.range 16).map (fun i => 0x100000 + (i : Int) * 4)) 4 true = .ok () ∧
    far.enabled.checkAccess .amo 1 permLS 0x100000 32 32 true none = .ok () ∧
    far.enabled.streamGate [4, 5] [] = .ok none ∧ far.enabled.streamGate [5] [4] = .ok none := by decide +kernel

/-- c1: a channel capability with SD and RV, of value `v`; end 0 as given. -/
def binding (v : Nat) (e : End) : State := stateOf (strandOf [(1, cap 6 0x180 0 0 v)]) (fun c => { c with ends := [(0, e)] })

/-- A message of LCN 9, end 2, parked. -/
def parked (psz : Nat) (x : Option Payload) : End := { endOf .parked true psz x with plcn := 9, pend := 2 }

theorem witness_ChannelResults_rights : (((binding (2 ^ 25) End.free).me.reg 1).has 8 = true ∧
      (binding (2 ^ 25) End.free).myCore.crystal.back = []) ∧
    (((binding 0 End.free).me.reg 1).has 7 = true ∧ ((binding 0 End.free).me.reg 1).val.getLsbD 25 = false) ∧
    (((ends End.free).me.reg 1).has 8 = false ∧ ((ends End.free).me.reg 1).val.getLsbD 25 = true) ∧
    (let b (v : Nat) := bindingOf (BitVec.ofNat 64 v) 0 .idle
     let word := parked 0 (some (.word CReg.zero))
     let tile := parked 3 (some (.tile 0 2048))
     word.matchesParked (b (9 + 2 * 2 ^ 19 + 2 ^ 25)) = true ∧ word.matchesParked (b (9 + 3 * 2 ^ 19 + 2 ^ 25)) = false ∧
      tile.matchesParked (b (9 + 2 * 2 ^ 19 + 7 * 2 ^ 25)) = true ∧
      tile.matchesParked (b (8 + 2 * 2 ^ 19 + 7 * 2 ^ 25)) = false ∧
      ((binding (7 * 2 ^ 25) tile).myCore.endAt 0).state = .parked ∧ (binding (7 * 2 ^ 25) tile).myCore.hasTileIn = false) ∧
    (let s := binding 0 { endOf .tile true 3 none with slot := 0 }
     (s.myCore.endAt 0).boundTo 0 = true ∧ (s.myCore.endAt 0).state = .tile ∧ s.tileKept 0 0 = false) ∧
    ((ends (endOf .full true 0 none)).myCore.endAt 0).taken = false := by decide +kernel

theorem witness_SelectionResults_none : (selecting true 5 5).checkAlt 0#64 = .ok () ∧
    liveEntries (selecting true 5 5).me 0#64 = [] ∧ liveEntries (selecting true 5 5).me 0xC0#64 = [0] ∧
    altFires [0, 7] [0, 7] 0xC1000000000000C0#64 (some 7) = some 7 := by decide +kernel

theorem witness_EngineResults_more :
    (let j := mxeJobOf (2 ^ 38) 0 0 0 0 0 0 0
     mxeFault (2 ^ 38) j = 1) ∧
    (let j := mxeJobOf (BitVec.ofNat 64 (2 ^ 22)) 0 64 0 0 0 0 0
     mxeFault (BitVec.ofNat 64 (2 ^ 22)) j = 0 ∧ j.op = 1 ∧ engines.me.farOut = [] ∧
      (engines.me.reg 3).inBounds 0x3F000 ((j.mt + 1) * (j.nt + 1) * drainBytes j.op) = true) ∧
    (let w : Word := BitVec.ofNat 64 (2 ^ 24 + 2 ^ 25 + 5 * 2 ^ 26 + 6 * 2 ^ 32)
     let j := mxeJobOf w 0 0 0 0 0 0 0
     let c : Core := { Core.reset 0 with ends := [(5, endOf .tile true 3 none), (6, endOf .tile false 3 none)] }
     mxeFault w j = 0 ∧ j.bsrc = true ∧ j.fwd = true ∧ c.tileEnd j.rin true = true ∧ c.tileEnd j.rout false = true) ∧
    (let j := cpeJobOf 4#64 { kind := 1, addr := 0 } { kind := 1, addr := 0 } 0 0 0
     cpeFault 4#64 j = 1) := by decide +kernel

/-- A mint record: address, bytes, kind and format, home, contributors. -/
def mintBytes (va size kind home ncon : Nat) : List Byte :=
  natBytes 8 va ++ natBytes 8 size ++ natBytes 2 kind ++ natBytes 2 home ++ natBytes 4 ncon ++ natBytes 8 0xFFF

/-- `sys` in Machine mode with this record at 64. -/
def minter (r : List Byte) : State :=
  (sys 3 Partition.reset .ready).modMyCore (fun c => { c with sp := (r.zipIdx.filter (fun e => e.1 != 0#8)).map (fun e => (64 + e.2, e.1)) })

theorem witness_SystemOperations_minted :
    ∀ r ∈ [mintBytes 0x200000 0x200000 2 0x8000 0, mintBytes (2 ^ 47) 0x200000 9 0 0,
        mintBytes (2 ^ 48 - 2 ^ 21 - (2048 - 1536) * 2 ^ 36) 0x200000 5 1535 0xFFFFFF, mintBytes 0x400000 0x200000 4 0 0],
      (let s := minter r
       let m := mintRecord (s.spBytes 64 32)
       m.sound = true ∧ (isHomed m.va = true → (s.part s.mySp).homeSliceOf (homeSlice m.va) = true) ∧
        (narrowMeta (setPerm (setKind 0#64 m.kind) (m.perm &&& (mintMask m.kind).getD 0#12)) m.va m.size).isSome = true ∧
        (s.sliceOf s.mySp m.va).isSome = true ∧ s.replaying = false) := by decide +kernel

theorem witness_SystemOperations_host_and_debug :
    (let m := mintRecord ((minter (mintBytes 0x200000 0x200000 0xB 7 0)).spBytes 64 32)
     m.sound = true ∧ m.kind = 0xB ∧ isHomed m.va = false ∧
      (narrowMeta (setPerm (setKind 0#64 m.kind) (m.perm &&& (mintMask m.kind).getD 0#12)) m.va m.size).isSome = true) ∧
    (23#64).toNat = 7 + 16 * 1 ∧ (32#64).toNat = 0 + 16 * 2 := by decide +kernel

/-- A strand that waits to send the word of c2 at end 0; its instruction is `snd` of c2 at end 0. -/
def fenced (ids : List Nat) : State :=
  let w : BitVec 32 := ((encode (.snd 0 2 0)).map (·.2)).getD 0
  { stateOf { strandOf [(2, CReg.int 7#64)] with wait := .fenceFirst ids 4 (w.setWidth 48), waitPc := 0x1000#64 }
      (fun c => { c with ends := [(0, endOf .idle false 0 none)] }) with arg := args 0 0, now := 100 }

theorem witness_WaitsEndAndDebug_fences :
    ((fenced []).fenceHolds 0 0 = true ∧ (fenced []).occupied 0 0 = true ∧ ((fenced []).core 0).run = .run ∧
      (∃ ids len bits, ((fenced []).strand 0 0).wait = .fenceFirst ids len bits ∧ decodeFetched len bits = some (.snd 0 2 0)) ∧
      ∃ u, ({ fenced [] with cur := { core := 0, slot := 0, pc := 0x1000#64, len := 4, bits := 0#48, relaxed := false } } : State).actFenced
        (.snd 0 2 0) = .next u) ∧
    (((fenced []).modCore 0 (fun c => { c with run := .saving })).core 0).run ≠ .run ∧
    ((event .ready (args 0 0)).occupied 0 1 = false ∧ (event .ready (args 0 0)).fenceHolds 0 0 = false) ∧
    ({ event .ready { args 0 0 with flag := true } with now := 5 } : State).arg.flag = true ∧
    (mem.me.lowestLinear (((List.range 32).filter (8#64).getLsbD).map (BitVec.ofNat 5)) ≠ none ∧
      mem.me.lowestLinear (((List.range 32).filter (BitVec.ofNat 64 (2 ^ 31)).getLsbD).map (BitVec.ofNat 5)) = none) ∧
    (∃ ends, ((event (.alt [0, 63] none) (args 0 0)).strand 0 0).wait = .alt ends none ∧ ends.contains 63 = true) :=
  ⟨⟨by decide +kernel, by decide +kernel, by decide +kernel, ⟨_, _, _, rfl, by decide +kernel⟩, ⟨_, rfl⟩⟩, by decide +kernel,
    by decide +kernel, by decide +kernel, by decide +kernel, ⟨_, rfl, by decide +kernel⟩⟩

/-- A packet that comes for end `h` of core 0, the strand waiting to send at end 0. -/
def answering (b : Body) (st : EndState) : State :=
  landing (.lane 0) .leaving b { strandOf [] with wait := .send 0 } (bound st false none (some 3))

theorem witness_MessagesLand_more :
    (let s := landing (.lane 0) .leaving (.message 0 9 3 (.word CReg.zero)) (strandOf []) (bound .idle true none none)
     let e := (s.core 0).endAt 0
     e.state = .idle ∧ e.dirIn = true ∧ e.plcn = 9 ∧ e.pend ≠ 3) ∧
    (let s := landing (.lane 0) .leaving (.message 0 9 2 (.vector 0#512)) (strandOf []) (bound .idle true none none)
     ((s.core 0).endAt 0).state ≠ .free ∧ ((s.core 0).endAt 0).psz ≠ (Payload.vector 0#512).size) ∧
    (let s := landing (.lane 0) .leaving (.message 63 9 2 (.word CReg.zero)) (strandOf []) id
     ∃ q, Table.get? s.packets s.arg.a = some q ∧ q.body = .message 63 9 2 (.word CReg.zero) ∧ ((s.core 0).endAt 63).state = .free) ∧
    (∀ b ∈ [Body.release 0, Body.nack 0 true, Body.nack 0 false],
      let s := answering b .sendWait
      ((s.core 0).endAt 0).state = .sendWait ∧ (s.core 0).run ≠ .saving ∧ s.occupied 0 0 = true ∧
        (s.strand 0 0).wait = .send 0 ∧ (s.strand 0 0).inh = false) := by decide +kernel

theorem witness_CopyEngine_more :
    (∃ tr, ((copying 1 0 (some (.job 0)) (args 0 8)).block 0).cpe.current = some tr ∧ tr.turn = 8 ∧ tr.work = .job 0 ∧
      tr.stopped = none ∧ tr.refused = false) ∧
    (∀ n ∈ [1, 2], let s := { copying 2 n (some (.job 0)) (args 1) with packets := [(1,
        { mnet := true, srcLcn := 9, sp := 0, dst := .lane 0, x := 0, y := 0, inPort := 0, units := 1, stage := .leaving,
          phys := 0, body := .reply (.cpe 0 8 0) (.ok (natBytes 128 1) false) })] }
     (Table.get? s.packets s.arg.a).map (·.body) = some (.reply (.cpe 0 8 0) (.ok (natBytes 128 1) false)) ∧
      (s.block 0).cpe.current.map (fun t => (t.turn, t.left, t.refused)) = some (8, n, false) ∧
      ((s.block 0).cpe.job 0).map (fun x => x.dst.kind) = some 1) ∧
    ((copying 1 0 (some (.job 0)) (args 0)).block 0).cpe.current.isSome = true ∧
    (let e := ((copying 1 0 (some (.job 0)) (args 0 8)).block 0).cpe.entries.getD 0 Entry.unused
     ({ stateOf { strandOf [] with wait := .job (jobId 1 e.lane 0 e.uses) } id with now := 1 } : State).occupied 0 0 = true) := by
  refine ⟨⟨_, rfl, rfl, rfl, rfl, rfl⟩, by decide +kernel, by decide +kernel, by decide +kernel⟩

/-- Block 0 with matrix job `j` queued for lane 0, its lane as given. -/
def matrices (j : MxeJob) (x : MxeLane) (o : Operands) : State :=
  { blockWith id (fun m => { m with
      entries := [(0, { state := .queued, code := 0, seen := false, uses := 0, ever := true, lane := 0, job := some j }),
        (1, { state := .done, code := 0, seen := false, uses := 0, ever := true, lane := 0, job := none })]
      waiting := [{ lane := 7, slot := 0, at_ := 0, d := 7, job := j }]
      lanes := [(0, x)]
      writes := [(3, { lane := 0, entry := 0, order := 0, tile := 0, addr := 64, elems := [1#32], bytes := natBytes 16 1 })] }) o with
    now := 100 }

def latched (fmt : Nat) : MxeLane := { MxeLane.empty with latch := [{ fmt := fmt, bytes := List.replicate (tileSize fmt) 0#8, readyAt := 0 }] }

/-- A forwarding product from the latch, a drain, at step 0. -/
def forwarding : MxeJob := mxeJobOf (BitVec.ofNat 64 (2 ^ 24 + 2 ^ 25)) 0 0 0 0 0 0 0
def draining : MxeJob := mxeJobOf (BitVec.ofNat 64 (2 ^ 22)) 0 64 0 0 0 0 0

theorem witness_MatrixEngine_steps :
    ((matrices forwarding (latched 0) (args 0)).block 0).chooseStep 100 (fun _ => false) = some (0, 0, forwarding, true) ∧ forwarding.op = 0 ∧
    forwarding.fwd = true ∧ forwarding.product.1 = 0 ∧
    ((matrices forwarding (latched 1) (args 0)).block 0).chooseStep 100 (fun _ => false) = some (0, 0, forwarding, false) ∧
    ((matrices draining MxeLane.empty (args 0)).block 0).chooseStep 100 (fun _ => false) = some (0, 0, draining, true) ∧ draining.op ≠ 0 ∧
    (let s := matrices draining MxeLane.empty (args 0 3)
     s.countCore 0 = 100 ∧ (s.block 0).mxe.freeAt ≤ 100 ∧
      (∀ j < 8, (s.strand (s.lanePhys 0 0) j).wait ≠ .job (jobId 0 0 0 0)) ∧
      (s.block 0).mxe.findJob 0 = some (0, ((s.block 0).mxe.entries.getD 0 Entry.unused), draining) ∧
      ((s.modCore 0 (fun c => c.spPutReg 64 (cap 2 0x83B 0x100000 0x101000 0x100000))).core 0).linearGranule 4 = true ∧
      4 ∈ granules 64 16) := by decide +kernel

theorem witness_MatrixEngine_entries :
    (let s := matrices draining MxeLane.empty { args 0 0 1 with flag := true }
     s.arg.flag = true ∧ s.arg.b = 0 ∧ ((s.block 0).mxe.entries.getD s.arg.c Entry.unused).state = .done) ∧
    (let s := copying 1 0 none { args 0 1 1 with flag := true }
     let t := s.modBlock 0 (fun b => { b with cpe := { b.cpe with entries := b.cpe.entries.set 1 { (Entry.unused : Entry CpeJob) with state := .done } } })
     t.arg.flag = true ∧ t.arg.b ≠ 0 ∧ ((t.block 0).cpe.entries.getD t.arg.c Entry.unused).state = .done) ∧
    (let s := matrices draining MxeLane.empty (args 0 0)
     let m := (s.block 0).mxe
     (grantLanes (lanesToGrant m.lastGranted 100 m.grantedAt) m.entries m.waiting m.lastGranted).1.length = 1 ∧
      (grantLanes (lanesToGrant m.lastGranted 100 [(7, 100)]) m.entries m.waiting m.lastGranted).1 = []) ∧
    (let m := ((multiplying (args 0 1)).block 0).cpe
     (grantLanes (lanesToGrant m.lastGranted 0 m.grantedAt) m.entries m.waiting m.lastGranted).1.length = 1) := by decide +kernel

/-- A packet for core 0, tile end 0 in state `st`, its lane as given. -/
def tiling (b : Body) (st : EndState) (x : MxeLane) : State :=
  { landing (.lane 0) .leaving b (strandOf []) (bound st true none none) with
    blocks := [(0, { Block.reset 0xFF#8 with mxe := { (Block.reset 0xFF#8).mxe with lanes := [(0, x)] } })] }

theorem witness_MatrixEngine_tiles :
    (let s := tiling (.message 0 9 2 (.tile 0 2048)) .tile { MxeLane.empty with latch := (latched 0).latch, granted := 1 }
     ((s.core 0).endAt 0).state = .tile ∧ 2 ≤ ((s.block 0).mxeLane 0).latch.length + ((s.block 0).mxeLane 0).granted) ∧
    (((tiling (.message 63 9 2 (.tile 0 2048)) .tile MxeLane.empty).core 0).endAt 63).state = .free ∧
    (let e := ((tiling (.message 0 9 2 (.tile 0 2048)) .idle MxeLane.empty).core 0).endAt 0
     e.state = .idle ∧ e.psz ≠ 3) ∧
    (let x := { MxeLane.empty with out := (latched 0).latch.head?, granted := 1 }
     let s := tiling (.grant 0) .tile x
     ((s.block 0).mxeLane 0).out.isSome = true ∧ ((s.block 0).mxeLane 0).outEnd = 0 ∧ ((s.block 0).mxeLane 0).granted ≠ 0 ∧
      (Table.get? s.packets s.arg.a).map (·.body) = some (.grant 0)) := by decide +kernel

/-- Slice 3, changed: a write to 0x100000 is placed in it, and the packet brings the same request. -/
def slicing (k : ReqKind) (f : Slice → Slice) (o : Operands) : State :=
  (sliceWith k true o).modSlice 3 f

theorem witness_SliceRequests_entry :
    (let r := requestOf (.read 8 false false) false
     let s := slicing r.kind (fun x => { x with lastEntry := 129 }) (args 1)
     (Table.get? s.packets 1).map (fun q => (q.dst, q.body)) = some (.slice 3, .request r) ∧
      (s.slice 3).lastEntry = s.count (s.sliceDom 3) + 1) ∧
    (let s := slicing (.read 8 false false) (fun x => { x with tctl := 1#64 }) (args 1)
     (s.slice 3).tctl.getLsbD 0 = true ∧ (s.slice 3).lastEntry ≠ s.count (s.sliceDom 3) + 1 ∧ s.agenda = []) ∧
    (let s := slicing (.write [1#8] false) (fun x => { x with pans := [(0, panOf 3)] }) (args 1)
     (s.slice 3).refuses (requestOf (.write [1#8] false) false) = some 0x06#6 ∧ (s.slice 3).tctl.getLsbD 0 = false ∧
      Table.get? (s.slice 3).tlb (tlbIndex 0x100000) = some (tlbTag 0x100000, 0)) := by decide +kernel

/-- Slice 3 walks page 0 for partition 0 after bring-up, with this first level; one request waits for the walk. -/
def walking (f : Slice → Slice) (pt1 : Table Word) : State :=
  let s := slicing (.read 8 false false) (fun x => f { x with
    walks := [(0, 0)], queue := [requestOf (.read 8 false false) true] }) (args 3 0 0)
  { s with sup := { s.sup with boot := false }, parts := [(0, { Partition.reset with en := true, home := 1, pt1 := pt1 })] }

theorem witness_SliceRequests_walk :
    (∀ e ∈ [((1#64 : Word), 2, none), (3#64, 1, some 0), (0#64, 1, none)],
      (walking id [(0, e.1)]).walkPage 3 0 0 = (e.2.1, e.2.2)) ∧
    (let s := walking id [(0, 3#64)]
     ((s.slice 3).queue.map (·.id)).Nodup ∧ (s.slice 3).marks.length + (s.slice 3).queue.length ≤ 2 ^ 20 ∧
      (s.slice 3).tctl.getLsbD 0 = false ∧ (s.slice 3).refuses (requestOf (.read 8 false false) true) = none) ∧
    ((walking (fun x => { x with pans := [] }) [(0, 3#64)]).slice 3).refuses (requestOf (.read 8 false false) true) = some 0x06#6 ∧
    ((walking (fun x => { x with tctl := 1#64, queue := x.queue.map (fun r => { r with unchecked := true }) }) [(0, 3#64)]).slice 3).queue.all
      (fun r => r.unchecked) = true := by decide +kernel

/-- A contribution of one FP32 value and one of an MX block, with sequence number 2. -/
def adding : ReqKind := .contribute (.acc 0 0 1#512) 2#64
def addingMx : ReqKind := .contribute (.mx 1 127#8 0#512) 2#64

theorem witness_SliceRequests_perform :
    (∀ k ∈ [ReqKind.read 8 false false, .write [1#8] false, .amo 9 64 1#64 0#64, .amo 9 64 1#64 5#64, adding, addingMx],
      ((slicing k (fun x => { x with pans := [(0, panOf 5)] }) (args 3 2)).slice 3).placed.map (fun p => p.2.req.kind) = [k]) ∧
    (ReqKind.amo 9 64 1#64 0#64).writes (natBytes 8 0) = true ∧ (ReqKind.amo 9 64 1#64 5#64).writes (natBytes 8 0) = false ∧
    (let x := (slicing adding (fun x => { x with pans := [(0, panOf 5)], marks := [(0, 0, 2#64)] }) (args 3 2)).slice 3
     x.repeated (requestOf adding false) = true) ∧
    (let x := (slicing adding (fun x => { x with pans := [(0, panOf 5)], marks := [(0, 0, 1#64)] }) (args 3 2)).slice 3
     x.repeated (requestOf adding false) = false ∧ (reserveWrite adding (List.replicate 64 0#8)).isSome = true ∧
      x.panAt 0x100000 = some (0, panOf 5)) ∧
    (reserveWrite addingMx (List.replicate 33 0#8 ++ [4#8] ++ List.replicate 30 0#8) = none ∧
      (reserveWrite addingMx (List.replicate 64 0#8)).isSome = true) ∧
    (Table.get? ((slicing adding (fun x => { x with held := [] }) (args 3 2)).slice 3).held 2 = none ∧
      Table.get? ((slicing adding id (args 3 2)).slice 3).held 2 = some (natBytes 8 1)) ∧
    (let x := (slicing adding (fun x => { x with outs := [(2, { req := requestOf adding false, result := .ok [] false, placed := true })] }) (args 3 2)).slice 3
     (Table.get? x.outs 2).map (fun o => o.req.who) = some (.strand 0 0 3 0)) := by decide +kernel

/-- Slice 3 with this pan and this request, the slice changed. -/
def tabled (q : TableReq) (e : PanEntry) (f : Slice → Slice) : State :=
  (tabling q 2).modSlice 3 (fun x => f { x with pans := [(0, e)] })

theorem witness_PanTable_requests :
    (∀ q ∈ [TableReq.holder 0 9, .freeze 0 0x200000, .done 0, .mint 0x200000 0x200000 5 2 0xFFFFFF 0, .check 0 0x200000,
        .master 0 3 true 4], (tabled q (panOf 5) id).tableRequest 1 = some (((tabling q 5).packets.map (·.2)).headD
          { mnet := false, srcLcn := 0, sp := 0, dst := .head, x := 0, y := 0, inPort := 0, units := 1, stage := .moving, phys := 0, body := .ack 0 },
          3, q)) ∧
    ((tabled (.done 0) (panOf 5) (fun x => { x with failed := true })).slice 3).failed = true ∧
    ((tabled (.done 0) (panOf 5) id).slice 3).failed = false ∧
    ((tabled (.done 0) { panOf 5 with sealing := some 1 } id).slice 3).panAt 0x1FFFFF = some (0, { panOf 5 with sealing := some 1 }) ∧
    ((panOf 5).done + 1 = (panOf 5).ncon ∧ (panOf 5).ncon ≤ ({ panOf 5 with done := 1 } : PanEntry).done) ∧
    (let s := tabled (.mint 0x200000 0x200000 5 0 1 0) (panOf 2) id
     s.mintRefusal 3 0 0x200000 0x200000 = none ∧ (s.slice 3).freePan = some 1) ∧
    (let e := { panOf 5 with fmt := 3 }
     (e.fmt = 3 ∧ (0 : Nat) ≠ 2) ∧ ({ panOf 5 with fmt := 2 } : PanEntry).fmt = 2 ∧ isHomed 0 = false ∧
      ({ panOf 5 with isSealed := true } : PanEntry).isSealed = true) ∧
    ((tabled (.master 0 0 false 0) { panOf 5 with done := 1 } id).slice 3).contributing 0 = false ∧
    (let s := { tabled (.master 0 0 false 0) { panOf 5 with done := 1, sealing := some 1 } id with arg := args 3 0 1 }
     (s.tableRequest s.arg.c).isSome = true ∧ (s.slice 3).panAt 0 = some (0, { panOf 5 with done := 1, sealing := some 1 })) := by
  decide +kernel

/-- The reply of slice 3 to core 0's operation 4, which slices `l` have accepted and which slice 3 remembers. -/
def minted (left : Nat) (u v : Option Trap) : State :=
  let s := landing (.lane 0) .leaving (.tableReply 4 3 v) { strandOf [] with wait := .table 4 }
    (fun c => { c with tableOps := [(4, { slot := 0, left := left, refused := u, kind := 1, d := 7, a := 1, result := CReg.zero, h := 0, entered := [] })] })
  { s with slices := [(3, { Slice.reset with mints := [{ op := 4, entry := 0, pan := panOf 5 }] })], sup := { s.sup with stepDone := 6 } }

theorem witness_PanTable_mints :
    (((minted 1 none none).slice 3).mints.find? (fun y => y.op == 4) = some { op := 4, entry := 0, pan := panOf 5 }) ∧
    ((minted 1 none none).partOf 0 = some 0 ∧
      (let a := 2048 * 3
       (minted 1 none none).sliceOf 0 a = some 3 ∧ ((minted 1 none none).keyOf 0 a).isSome = true)) ∧
    (∀ u ∈ [(some (trapPermission 5#64), none), (none, some (trapPermission 5#64))],
      let s := minted 1 u.1 u.2
      (s.strand 0 0).inh = false ∧ (s.strand 0 0).wait = .table 4 ∧ s.occupied 0 0 = true) ∧
    ((minted 2 none none).core 0).tableOps.length = 1 := by decide +kernel

/-- An engagement of the strand in slot 0 of core 0 with the probe of `probeId`. -/
def engagedBy (parent : Option (Nat × Nat)) (echoes confirms : Nat) (kids : List (Nat × Nat)) (grant : Option Nat) : Engaged :=
  { engaged echoes confirms with parent := parent, children := kids, grant := grant }

theorem witness_RakeEvents_edges :
    (let s := { raking (.ack 0) (.recv 0) none with arg := args 0 0 }
     let u := s.modCore 0 (fun c => { c with ends := [(0, { endOf .idle false 0 none with plcn := 0x7F000 })] })
     ((s.edges 0 (s.strand 0 0)).filter (fun e => decide (e.2.lcn < coreCount))).length = 1 ∧
      (u.edges 0 (u.strand 0 0)).filter (fun e => decide (e.2.lcn < coreCount)) = []) ∧
    (let e : Edge := { lcn := 0, target := 16, barrier := true, send := false }
     let s := raking (.probe probeId 9 0 16 e) .ready none
     s.edgeValid 0 9 16 e = true ∧ (s.core 0).gathers = [] ∧ (∃ i < 8, s.occupied 0 i = true) ∧
      ∀ i < 8, s.occupied 0 i = true → (s.strand 0 i).blocked = false) ∧
    (((raking (.ack 0) (.recv 0) none).modStrand 0 0 (fun x => { x with reported := true })).strand 0 0).reported = true ∧
    ((engaged 1 1).id ≠ { probeId with time := 0 } ∧ (engaged 1 1).id.earlier { probeId with time := 0 } = false) := by
  decide +kernel

theorem witness_RakeEvents_engaged :
    (∀ g ∈ [engagedBy (some (9, 0)) 1 0 [] none, engagedBy none 1 0 [(9, 7)] none, engagedBy none 1 0 [] none,
        engagedBy (some (9, 7)) 0 1 [(9, 0)] none, engagedBy none 0 1 [(9, 0)] (some 5), engagedBy none 0 0 [(9, 0)] none,
        { engagedBy (some (9, 0)) 0 0 [(9, 0)] none with aborted := true }],
      let s := raking (.ack 0) (.recv 0) (some g)
      (s.core 0).engagement 0 probeId = some g ∧ s.stillBlocked 0 0 g.wstart = true ∧ s.partOf 0 ≠ none ∧ (s.core 0).gathers = []) ∧
    (∀ b ∈ [Body.echo probeId 0 0 none, .echo probeId 0 2 (some (9, 8)), .entry probeId (5, 7, 63, 2, 1#64), .confirm probeId 0 (9, 7),
        .confirm probeId 8 (9, 8), .confirmEcho probeId 0 true, .confirmEcho probeId 0 false, .fin probeId 0 true, .fin probeId 7 false,
        .seqReq probeId, .seqGrant probeId 5, .token true, .token false],
      (Table.get? (raking b (.recv 0) none).packets (raking b (.recv 0) none).arg.a).map (·.body) = some b) := by decide +kernel

/-- Partition 0 with its token out or a strand that waits for it; a record of core 0, no end for it. -/
def tokens (out : Bool) (w : List ProbeId) (own : Bool) : State :=
  { delivering own with parts := [(0, { Partition.reset with
      rake := { RakeHead.reset with tokenOut := out, waiting := w, current := if own then some { words := [1#64], next := 0 } else none } })] }

theorem witness_RakeEvents_tokens :
    ((tokens true [] true).part 0).rake.tokenOut = true ∧ ((tokens true [probeId] true).part 0).rake.waiting = probeId :: [] ∧
    (∀ own ∈ [true, false], ((tokens true [] own).part 0).evv = false) ∧
    ((tokens true [] true).part 0).rake.current = some { words := [1#64], next := 0 } ∧
    ((tokens true [] false).core 0).record = some { words := [1#64], next := 0 } ∧ (tokens true [] false).partOf 0 = some 0 := by
  decide +kernel

/-- A record of one page of code, with `n` entries of channels, noticed or not. -/
def sound (n : Nat) (note : Bool) : BitVec 512 :=
  BitVec.ofNat 512 (2 ^ 64 + 2 ^ 160 + 2 ^ 256 + 2 ^ 265 + n * 2 ^ 346 + if note then 2 ^ 377 else 0)

/-- `launching` with the frozen pan of the code, and the record's message to queue `q`. -/
def coded (q : Nat) (r : BitVec 512) (recs : List (Nat × BitVec 512)) (jobs : Table Job) (o : Operands) : State :=
  let s := launching recs jobs o
  { s with
    packets := s.packets.map (fun e => (e.1, { e.2 with body := .message q 9 2 (.vector r) }))
    slices := [((State.reset.sliceOf 0 0).getD 0, { Slice.reset with pans := [(0, panOf 3)] })] }

theorem witness_LaunchEvents_intake :
    (coded 0 (sound 0 true) [] [] (args 1)).recordStatus 0 0 (sound 0 true) = 0 ∧
    ((coded 15 jobRecord [] [] (args 1)).recordStatus 0 15 (sound 0 true ||| BitVec.ofNat 512 (2 ^ 378)) = 1 ∧
      jobNoteV (sound 0 true ||| BitVec.ofNat 512 (2 ^ 378)) = true) ∧
    (let x := ((coded 0 (sound 0 true) [] [] (args 1)).part 0).queues.getD 0 LaunchQueue.reset
     x.records.length < 16 ∧ x.waiting = [] ∧ { x with waiting := [(9, 2, jobRecord)] }.waiting ≠ [] ∧ x.hostWaiting = []) ∧
    ({ Partition.reset with busy := 1 } : Partition).busy = 1 ∧ (coded 0 jobRecord [] [] (args 0)).count (some 0) = 0 ∧
    ((coded 0 jobRecord [] [] (args 0)).part 0).pending = none ∧ ((coded 0 jobRecord [] [] (args 0)).part 0).nextOwner = none := by
  decide +kernel

/-- Job 1 with this record on core 0, running with these members, core 0 changed. -/
def placed (r : BitVec 512) (ms : List Nat) (f : Core → Core) : State :=
  (coded 0 r [] [(1, { jobOf1 .running ms with record := r })] (args 0 1)).modCore 0 f

theorem witness_LaunchEvents_wake :
    (∀ f ∈ [RunState.run, .doubleTrap, .restoring],
      let s := placed (sound 0 false) [0] (fun c => { c with run := f })
      s.jobOf 0 1 = some (0, { jobOf1 .running [0] with record := sound 0 false }) ∧ s.outOfService 0 = false ∧ (s.core 0).run = f) ∧
    ((placed (sound 0 false) [0] id).modBlock 0 (fun b => { b with oos := 1#8 })).outOfService 0 = true ∧
    (jobNchan (sound 0 false) = 0 ∧ jobNchan (sound 1 false) = 1 ∧ jobNchan (sound 63 false) = 63) ∧
    (let s := placed (sound 1 false) [0] id
     s.jobOf 0 (s.core 0).job = some (0, { jobOf1 .running [0] with record := sound 1 false }) ∧
      (s.bindEntry 0 [0] 0#64 0#64).2 = none ∧ (s.bindEntry 0 [] 0#64 0#64).2 = some 0 ∧
      (s.bindEntry 0 [0] (BitVec.ofNat 64 (2 ^ 48)) 0#64).2 = some 0) := by decide +kernel

theorem witness_LaunchEvents_ends :
    (let j := { jobOf1 .pending [] with placeFrom := 1 }
     let x := (coded 0 jobRecord [] [(1, j)] (args 0)).part 0
     x.pending = some j ∧ (coded 0 jobRecord [] [(1, j)] (args 0)).count (some 0) < j.placeFrom) ∧
    (let j := { jobOf1 .pending [] with record := jobRecord ||| BitVec.ofNat 512 (2 ^ 263 + 2 ^ 264 + 2 ^ 294) }
     ((coded 0 jobRecord [] [(1, j)] (args 0)).part 0).placeFor j.record = none) ∧
    (let j := { jobOf1 .running [0] with left := [] }
     let s := (coded 0 jobRecord [] [(1, j)] (args 0 1)).emptySlot 0 0
     (s.part 0).jobs.get? 1 = some j ∧ (∀ p ∈ j.members, s.finished p = true) ∧ j.state = .running ∧ j.left = []) ∧
    (∃ n, ({ Partition.reset with notices := [(5, { id := 5, queue := 0, lcn := 9, toEnd := 2, word := 1#64, sent := none })] } : Partition).notices.get? 5 =
      some n) := by
  refine ⟨by decide +kernel, by decide +kernel, by decide +kernel, ⟨_, rfl⟩⟩

/-- A store to slice 0's last delay register, the slice in training. -/
def testing (tstat : Word) : State :=
  (device (4 * 2 ^ 40 + 0x308) (some 0x80000000000000FF#64)).modSlice 0 (fun x => { x with tstat := tstat, tctl := 1#64 })

theorem witness_DeviceEvents_more :
    (∀ a ∈ [2 ^ 40 + 0x148, 2 ^ 40 + 0x80, 5 * 2 ^ 40], (device a none).deviceRead a = none) ∧
    ((deviceFields (3 * 2 ^ 40)).1 = 3 ∧ 0x10000 ≤ (deviceFields (4 * 2 ^ 40 + 0x10000)).2.2 ∧ (deviceFields (2 ^ 40)).1 = 1) ∧
    ((testing 0#64).deviceAccess 1).map (·.2) = some (4 * 2 ^ 40 + 0x308, 8, some 0x80000000000000FF#64) ∧
    ((testing 0#64).slice 0).tstat.getLsbD 0 = false ∧ ((testing 1#64).slice 0).tstat.getLsbD 0 = true ∧
    ((testing 0#64).slice 0).tctl.getLsbD 0 = true ∧
    ((0x20#64).getLsbD 6 = false ∧ ((0x60#64).getLsbD 6 = true ∧ 31 < ((0x60#64).extractLsb' 0 6).toNat) ∧
      ((0x5F00#64).getLsbD 14 = true ∧ ((0x5F00#64).extractLsb' 8 6).toNat < 32)) ∧
    ((Block.reset 0xFF#8).reserveLane = none ∧ (Block.reset 0xFF#8).rsv = false) ∧
    ({ Block.reset 0xFF#8 with rsv := true, oos := 3#8 } : Block).rsv = true ∧ (0x300#64).extractLsb' 8 8 = 3#8 ∧
    (0x300#64).getLsbD 16 = false := by decide +kernel

/-- A packet of partition `sp` for `d` at router (x, 0), with one entry in the router's table of its network. -/
def crossing (sp x : Nat) (d : Dest) (st : Stage) (b : Body) (w : Word) : State :=
  { stateOf (strandOf []) id with
    packets := [(1, { newPacket false 9 sp x 0 d 1 b with stage := st })], routesC := [(x, [(0, w)])], arg := args 1 }

theorem witness_FabricEvents_ways :
    (let s := crossing 1 31 (.lane 128) .moving (.ack 0) 0#64
     ∃ q, Table.get? s.packets 1 = some q ∧ s.atFinal q = false ∧ s.routerOpen q.x q.y = true ∧
      stepTo q.x q.y (s.output q) = some (32, 0) ∧ s.routerOpen 32 0 = true ∧ unitOf 32 ≠ unitOf q.x ∧
      s.unitPart (unitOf 32) ≠ some q.sp ∧ s.unitPart (unitOf 32) = some 0 ∧ (s.part 1).firstDrop = none) ∧
    (let s := crossing 0 0 (.lane 9) .moving (.ack 0) (BitVec.ofNat 64 (1 + 7 * 2 + 4 * 16 + 1023 * 2 ^ 17 + 1023 * 2 ^ 37))
     ∃ q, Table.get? s.packets 1 = some q ∧ s.atFinal q = false ∧ stepTo q.x q.y (s.output q) = none) ∧
    (let s := (crossing 0 0 (.lane 9) .held (.ack 0) 0#64).modBlock 0 (fun b => { b with oos := 1#8 })
     s.routerOpen 0 0 = false) ∧
    (let s := crossing 0 0 (.lane 0) .moving (.leg .pullCompletion (args 9 1 2)) 0#64
     ∃ q, Table.get? s.packets 1 = some q ∧ s.atFinal q = true ∧ q.body = .leg .pullCompletion (args 9 1 2) ∧ s.remapOf 0 = (0, true) ∧
      s.clockHeld 0 = false ∧ s.outOfService 0 = false) ∧
    (let s := (crossing 0 0 (.lane 0) .moving (.ack 0) 0#64).modCore 0 (fun c => { c with run := .contained })
     s.laneHeld 0 = true ∧ s.logFull 0 = false ∧ ∃ q, Table.get? s.packets 1 = some q ∧ s.atFinal q = true) ∧
    (let s := (crossing 0 0 (.lane 0) .moving (.message 3 9 2 (.word CReg.zero)) 0#64).modBlock 0 (fun b => { b with remap := b.remap.set 0 0#4 })
     s.remapOf 0 = (0, false) ∧ (9 : Nat) ≠ 0 ∧ 9 < coreCount ∧ ∃ q, Table.get? s.packets 1 = some q ∧ s.atFinal q = true) ∧
    (let s := crossing 0 (sliceX 3) (.slice 3) .moving (.request (requestOf (.read 8 false false) false)) 0#64
     ∃ q, Table.get? s.packets 1 = some q ∧ q.dst = .slice 3 ∧ s.atFinal q = true ∧ s.routerOpen q.x q.y = true) := by decide +kernel

theorem witness_CrystalEvents_more :
    ({ crystals .run (fun c => { c with writing := some 0 }) with arg := { args 0 1 with flag := true } } : State).arg.flag = true ∧
    (let s := crystals .run (fun c => { c with current := some 0, writing := some 1 })
     (s.core 0).crystal.writing ≠ none ∧ (s.core 0).crystal.current.isSome = true ∧ (s.buddyOf 0).isSome = true ∧
      (s.core 0).crystalBytes { rbase := 0, rlen := 0, pairs := [] } ≤ 28672 ∧ s.crystalOn 0 = true) ∧
    ({ crystals .run id with arg := { args 0 with flag := true } } : State).arg.flag = true ∧
    ((crystals .run (fun c => { c with desc := none })).core 0).crystal.desc = none ∧
    (∀ r ∈ [RunState.run, .saving],
      let s := (crystals r (fun c => { c with current := some 1 })).modBlock 0 (fun b => { b with rsv := true, rav := true, rlane := 7 })
      s.remapOf (8 * 0 + (s.core 0).lcn % 8) = (0, true) ∧ (s.block 0).rav = true ∧ (s.block 0).rlane ≠ 0 ∧ (s.core 0).run = r ∧
        s.crystalOn 0 = true ∧ (s.core 0).crystal.current ≠ none) ∧
    (let s := { crystals .restoring id with arg := args 7 }
     let s := s.modCore 7 (fun c => { c with run := .restoring, lcn := 0, replaces := some (0, false), crystal := { Crystal.none with current := some 1 } })
     (s.core 7).run = .restoring ∧ (s.core 7).replaces = some (0, false) ∧ (s.core 7).crystal.current = some 1 ∧
      s.buddyOf 7 = some 1 ∧ (s.core 1).crystalSound 1 = true ∧
      ((s.modCore 1 (fun c => c.spWrite (crystalBase 1 + 88) [2#8])).core 1).crystalSound 1 = false) := by decide +kernel

/-- Job 1 on core 0, pre-empted at block 0 or in another state; a frozen core with its strand. -/
def commanded (op : Nat) (st : JobState) (f : Core → Core) (o : Operands) : State :=
  { (commanding op st).modCore 0 f with arg := o }

theorem witness_CommandEvents_more :
    (cmdReserved (cmd 1 ||| BitVec.ofNat 512 (2 ^ 40)) = true ∧ cmdReserved (cmd 1 ||| BitVec.ofNat 512 (2 ^ 511)) = true ∧
      cmdJob (cmd 1 ||| BitVec.ofNat 512 (2 ^ 31)) = 1 + 2 ^ 31) ∧
    (let s := commanded 3 .running (fun c => { c with run := .doubleTrap, slots := [(0, { strandOf [] with job := 1 })] }) (args 1)
     (s.core 0).frozenBy 1 = true ∧ s.command 1 = some (0, 9, 2, cmd 3) ∧
      0 ∈ s.memberCores 0 (jobOf1 .preempted []).ox (jobOf1 .preempted []).oy (jobBw jobRecord) (jobBh jobRecord)) ∧
    (let s := commanded 4 .running id (args 1)
     s.saveAreaAt 0 0 (saveSize jobRecord) = true ∧ s.saveAreaAt 0 0x8000000 1 = false) ∧
    (let j := { jobOf1 .preempted [] with command := some (9, 2) }
     let s := { commanding 2 .preempted with parts := [(0, { Partition.reset with jobs := [(1, j)] })], arg := { args 0 1 with flag := true } }
     (s.part 0).jobs.get? 1 = some j ∧ (s.part 0).canResume j = true ∧ j.command ≠ none ∧
      ({ Partition.reset with jobs := [(1, j), (2, { jobOf1 .running [0] with id := 2 })] } : Partition).canResume j = false) ∧
    (∀ r ∈ [RunState.restoring, .contained, .doubleTrap, .saving],
      let s := commanded 1 .saving (fun c => { c with run := r }) (args 0 1)
      (s.core 0).run = r ∧ s.jobOf 0 1 = some (0, jobOf1 .saving [0])) ∧
    ((commanded 1 .saving (fun c => { c with crystal := { c.crystal with writing := some 0 } }) (args 0 1)).core 0).crystal.writing ≠ none ∧
    (let op : TableOp := { slot := 0, left := 1, refused := none, kind := 0, d := 7, a := 1, result := CReg.zero, h := 0, entered := [] }
     (commanded 1 .saving (fun c => { c with tableOps := [(4, op)] }) (args 0 1)).quiet 0 = false) ∧
    (let s := commanded 2 .restoring (fun c => { c with run := .restoring }) { args 0 1 with flag := true }
     s.jobOf 0 1 = some (0, jobOf1 .restoring [0]) ∧ (s.core 0).run = .restoring ∧ s.imageSound 0 (s.imageAddr 0 (jobOf1 .restoring [0]) 0) = false) ∧
    headerSound (fun i => if i = 11 then 1 else 0) = true := by decide +kernel
/-- Core 0 holds since its forwarder failed; its die's manager knows two orphans, one of which has the clock again. -/
def orphaned : State :=
  { stateOf (strandOf []) (fun c => { c with tree := { c.tree with state := .adopt } }) with
    dcms := [(0, { Dcm.reset with orphans := [0, 1] })], arg := args 0 1 5 }

theorem witness_ClockTreeEvents_orphans : 0 ∈ (orphaned.dcm 0).orphans ∧ (orphaned.core 0).tree.state = .adopt ∧
    (orphaned.core 1).tree.state ≠ .adopt ∧ (orphaned.core 1).tree.state = .run := by decide +kernel

/-- Partition 0 with units lent, and a running job over the highest of them with this recall area. -/
def recalled (area width : Nat) : State :=
  let j := { jobOf1 .running [0] with record := BitVec.ofNat 512 (2 ^ 160 + width * 2 ^ 256 + 2 ^ 265), recallArea := area }
  { parted 1 with
    parts := [(0, { Partition.reset with en := true, home := 1, lent := 1, jobs := [(1, j)], pt1 := [(0, 3#64)] })]
    slices := [(((parted 1).sliceOf 0 0x200000).getD 0, { Slice.reset with pans := [(0, { panOf 9 with basep := 1, pages := 511 })] })] }

theorem witness_PartitionEvents_recall :
    (let s := recalled 0x200000 17
     (s.part 0).jobs.map (fun e => (s.part 0).touches e.2) = [true] ∧ s.sup.boot = false ∧ (s.part 0).recalling = 0 ∧
      s.saveAreaAt 0 0x200000 (saveSize (BitVec.ofNat 512 (2 ^ 160 + 17 * 2 ^ 256 + 2 ^ 265))) = true) ∧
    ((recalled 0 17).part 0).jobs.map (fun e => e.2.recallArea) = [0] ∧
    ((recalled 0 16).part 0).jobs.map (fun e => ((recalled 0 16).part 0).touches e.2) = [false] := by decide +kernel

theorem witness_PartitionEvents_words : (parted 0).lendable 1 = none ∧ (State.reset.sup.stepDone ≠ 6) ∧
    ({ parted 0 with arg := { args 0 with flag := true } } : State).arg.flag = true ∧
    ((3#64).extractLsb' 0 2 = 3#2 ∧ (2#64).extractLsb' 0 2 ≠ 3#2) ∧
    (let x := { Partition.reset with wanted := 1, cap := true }
     x.cap = true ∧ (if x.cap then 2 else x.wanted) ≠ x.mode) ∧
    (let x := { Partition.reset with wanted := 1 }
     x.cap = false ∧ (if x.cap then 2 else x.wanted) ≠ x.mode) ∧
    ((parted 0).part 1).en ≠ (configWord 1 23).getLsbD 0 ∧ ((parted 0).part 0).en = true ∧
    unitOf (coordX 0) ∈ ((parted 0).part 0).units := by decide +kernel

/-- The bring-up at a step, with a boot strand that runs or with none. -/
def bringing (n : Nat) (busy : Bool) : State :=
  { (if busy then stateOf (strandOf []) id else State.reset) with
    sup := { State.reset.sup with stepDone := n }, arg := { args 0 with flag := true } }

theorem witness_SupervisorEvents_more :
    (∀ n ∈ [3, 4], (bringing n true).bootBusy = true ∧ (bringing n false).bootBusy = false ∧ (bringing n false).sup.stepDone = n) ∧
    (bringing 5 false).sup.boot = true ∧ (bringing 5 false).sup.stepDone = 5 ∧ 6 ≤ (bringing 6 false).sup.stepDone ∧
    image1.target = (2 ^ 16 + 65535) / 2 ^ 16 ∧ image1.target ≠ 0 ∧ image3.target ≠ 1 ∧
    image3.target = (3 * 2 ^ 16 + 1535) / 2 ^ 16 ∧ 1535 < targetParts image3.target ∧ 65535 ≥ targetParts image1.target ∧
    ((State.reset.modSlice 1535 (fun x => { x with tctl := 1#64 })).slice 1535).tctl.getLsbD 0 = true ∧
    ((State.reset).slice 1535).tctl.getLsbD 0 = false ∧
    (let w : Switch := { id := 8, part := 2 ^ 16, image := 1 }
     let u := { supervised with switching := [w] }
     u.switching.find? (fun w => w.id == 8) = some w ∧ u.switching.find? (fun w => w.id == 9) = none) ∧
    (let s := parted 0
     s.partActive 0 = true ∧ (({ s with ports := [(71, portIn 2 []), (0, portIn 1 [])] } : State).port 71).state = 2 ∧
      (({ s with ports := [(71, portIn 2 []), (0, portIn 1 [])] } : State).port 0).state = 1) ∧
    ({ State.reset with sup := { supervised with failedImage := some 2 } } : State).dead = true ∧ State.reset.dead = false ∧
    ({ supervised with boot := false } : Supervisor).boot = false := by decide +kernel

theorem witness_PtpEvents_more : clocked.takes 0 0 = true ∧ clocked.takes 0 1 = false ∧ clocked.takes 1 0 = false ∧
    (clocked.ptpT1 = some 10 ∧ clocked.ptpT2 = some 20 ∧ clocked.ptpT3 = some 30) ∧ clocked.ptpSeq ≠ 8 ∧
    (let s := { State.reset with sup := { clocked with boot := false, ptState := 0 } }
     s.offsetOf 0 0 < 0 ∨ s.offsetOf 0 0 = 0 ∧ s.noPartition = true) ∧
    (let s := { State.reset with sup := { clocked with boot := false, ptState := 0, ptpMean := some 16 } }
     s.offsetOf 0 0 = -16 ∧ s.noPartition = true) ∧
    (let s := { State.reset with sup := { clocked with ptState := 3, good := 15 } }
     s.offsetOf 4 0 ≤ 32 ∧ (-32 : Int) ≤ s.offsetOf 4 0 ∧ 32 < s.offsetOf 0 5) ∧ clocked.domain.toNat = 0 ∧ clocked.gm = false := by
  decide +kernel

theorem witness_OpticalEvents_more : (portIn 2 [.ptp 0 0 7 0, .marker]).control = .ptp 0 0 7 0 :: [.marker] ∧
    (∀ st < 5, (portIn st []).state = st) ∧ ({ portIn 1 [] with training := 3 } : Port).training = 3 ∧
    (portIn 3 []).markerSent = false ∧ ((portIn 2 []).vf 15) = Vf.reset ∧
    ({ (State.reset) with ports := [(71, portIn 4 [])] } : State).dead = false := by decide +kernel

/-- The host function of partition 0 answers to an LCN outside the partition; a write of the host waits at the pan's slice. -/
def returning (lcn : Nat) : State :=
  let s := hosted 0
  (s.modPart 0 (fun x => { x with hostFn := { x.hostFn with pdlcn := lcn } })).modSlice ((State.reset.sliceOf 0 0).getD 0)
    (fun x => { x with queue := [{ requestOf (.write [1#8] false) false with who := .host, va := 0 }] })

theorem witness_HostAndMigration_more :
    (returning 0).hostBusy 0 (cap 2 0x83B 0 0x100000 0) = true ∧ ¬ (((returning 442368).part 0).hostFn.pdlcn < coreCount) ∧
    (returning 0).hostBehind { args 0 0 with flag := true } (panOf 2) = true ∧
    (returning 0).hostBehind (args 0 0) (panOf 2) = false ∧
    ({ hosted 0 with sup := { State.reset.sup with failedImage := some 1 } } : State).dead = true ∧ (hosted 0).partActive 1 = false ∧
    ((hosted 0).part 0).hostFn.held.find? (fun r => r.bounds.1.toNat == (0x200000#64).toNat % 2 ^ 48) = none ∧
    (let s := (hosted 0).modSlice ((State.reset.sliceOf 0 0).getD 0) (fun x => { x with lastEntry := 1 })
     (s.slice ((s.sliceOf 0 0).getD 0)).lastEntry = s.count (s.sliceDom ((s.sliceOf 0 0).getD 0)) + 1) ∧
    ((hosted 0).recordStatus 0 0 (sound 0 false) ≠ 0 ∧ (coded 0 jobRecord [] [] (args 0)).recordStatus 0 0 (sound 0 false) = 0 ∧
      (cap 2 0x83B 0 0x100000 0).kind = 2 ∧ (cap 3 0x83B 0 0x100000 0).kind ≠ 2) ∧
    ((hosted 0).tableSlice 0 0).isSome = true := by decide +kernel

/-- A far load after `rlx`, an `add` after `rlx`, bits that name no instruction, and a due event. -/
theorem witness_StepRunsDecoded_pairs :
    (∀ e ∈ [(0x601890014, 6, true, true), (0x002084010014, 6, true, false)],
      let s := State.reset.withFetchWord 48 e.1
      (match s.nextAct with
        | .issue _ p k =>
          let u : State := { s with cur := { core := p, slot := k, pc := 0, len := 4, bits := 0#48, relaxed := false } }
          (u.fetchInstr p (s.strand p k) (s.strand p k).pc).toOption.map (fun r => (r.1, isPair r.2, pairLegal r.2))
        | _ => none) = some e.2) ∧
    (decodeBits 4 0xFFFFFFFF#32).toOption = none ∧ (decode32 ((0x601890014#48).extractLsb' 16 32)).toOption.isSome = true ∧
    (let d : Due := { time := 0, phase := 1, dom := none, event := .jobSelection, arg := args 0 }
     let s := { State.reset with agenda := [d] }
     s.nextAct = .event d [] ∧ s.stopped d = false ∧ s.strayed d = false) := by decide +kernel

/-! ### More witnesses -/

/-- An odd granule of the window holds a linear pan capability; no unit is in a partition. -/
theorem witness_AccessChecks_more :
    (let s := oneOf [(1, win 64)] |>.modCore 0 (fun c =>
      { c with sp := c.sp.writeN 0x3FFF0 (natBytes 8 0 ++ natBytes 8 (cap 2 0x7FF 0x100000 0x101000 0x100000).mt.toNat)
               spTags := NatSet.insert c.spTags 16383 })
     (checkPlace .st 1 (win 64) permS 0x3FFFF).toBool = true ∧ (win 64).inBounds 0x3FFFF 1 = true ∧ (win 64).place = .window ∧
      granules 0x3FFFF 1 = [16383] ∧ s.myCore.linearGranule 16383 = true) ∧
    (∀ e ∈ [((0x10000000000 : Int), 2), (0x10000000001, 8)],
      (checkPlace .ld 2 (devices.me.reg 2) permL e.1).toBool = true ∧ (devices.me.reg 2).inBounds e.1 e.2 = true ∧
      (devices.checkLinearity (devices.me.reg 2) e.1 e.2 false none).toBool = true ∧ (devices.me.reg 2).place = .device) ∧
    (let r := cap 2 0x7FF 0x100000 0x101000 0x100000
     let s := { oneOf [(1, r)] with sup := { State.reset.sup with boot := false } }
     (checkPlace .ld 1 r permL 0x100000).toBool = true ∧ r.inBounds 0x100000 8 = true ∧
      (s.checkLinearity r 0x100000 8 false none).toBool = true ∧ r.place = .pan ∧ s.sliceOf s.mySp 0x100000 = none) := by
  decide +kernel

theorem witness_RoundedResults :
    (∀ e ∈ [(fp32, 0x3F800000, 0xBF800000, 0x80000000), (bf16, 0x3F80, 0xBF80, 0x8000), (fp16, 0x3C00, 0xBC00, 0x8000)],
      (match e.1.decode e.2.1, e.1.decode e.2.2.1, e.1.decode e.2.2.2 with
       | .fin n1 m1 e1, .fin n2 m2 e2, .fin n3 m3 _ =>
         !n1 && n2 && m1 == m2 && m1 != 0 && e1 == e2 && n3 && m3 == 0
       | _, _, _ => false) = true) ∧
    ((sumTree fp32 .rne 1 [0x3F800000, 0x3F800000]).1 = [0x40000000] ∧ (sumTree fp32 .rne 0 [0x3F800000]).1 = [0x3F800000]) ∧
    (cvtFmt 0 = some fp32 ∧ cvtFmt 3 = some e4m3 ∧ narrows fp32 e4m3 = false ∧ narrows e4m3 fp32 = true ∧
      e4m3.decode 0x38 = .fin false 8 (-3) ∧ e4m3.decode 0x80 = .fin true 0 (-9)) ∧
    (fp32.decode 0x7FC00000 = .nan ∧ (∀ n, fp32.decode (if n then 0xFF800000 else 0x7F800000) = .inf n)) ∧
    (fp32.decode 0x80000000 = .fin true 0 (-149) ∧ fp32.decode 0xBF800000 = .fin true (2 ^ 23) (-23) ∧
      fp32.decode 0x00000001 = .fin false (2 ^ 0) (-149) ∧ fp32.decode 0x4B800000 = .fin false (2 ^ 23) 1 ∧
      fp32.decode 0xBF000000 = .fin true (2 ^ 23) (-24) ∧ 2 * 2 ^ 23 = 1 * 2 ^ (-(-24 : Int)).toNat) ∧
    (specialListed 0 0x40400000 = none ∧ fp32.decode 0x40400000 = .fin false (3 * 2 ^ 22) (-22) ∧
      let v := specialValue 0 false (3 * 2 ^ 22) (-22)
      (fp32.roundVal .rne (.fin (decide (v < 0)) v.natAbs (-320)) 0).2 &&& flagOF = 0#5) := by decide +kernel

/-- The terms of a sum of products: 1.5 × 2 − 1. -/
theorem witness_RoundedResults_dot :
    let ps := [((false, 3, (-1 : Int)), (false, 1, (1 : Int)))]
    let v := (ps.map (fun p => scaled (p.1.1 != p.2.1) (p.1.2.1 * p.2.2.1) (p.1.2.2 + p.2.2.2) (-4))).sum + scaled true 1 0 (-4)
    (∀ p ∈ ps, (-4 : Int) ≤ p.1.2.2 + p.2.2.2) ∧ v = 32 := by decide +kernel

theorem witness_SystemOperations_ckpt :
    (let s := crystals .run (fun c => { c with writing := some 1 })
     (s.core 0).crystal.writing ≠ none) ∧
    (let s := (crystals .run (fun c => { c with writing := none })).modStrand 0 0 (fun x => { x with wait := .ckptFirst 4 0b000001000000_00110_00000_111101_101_1#48 })
     s.fenceHolds 0 0 = true ∧ s.occupied 0 0 = true ∧ (s.core 0).run = .run) ∧
    decodeFetched 4 0b000001000000_00110_00000_111101_101_1#48 = some (.ckpt 5#3 6#5) := by decide +kernel

/-- A request from the edge and an access of the host are at the same slice's link. -/
def contested (last : Bool) : State :=
  let n := (State.reset.sliceOf 0 0).getD 0
  { (hosted 0).modSlice n (fun x => { x with lastHost := last }) with
    packets := (landing (.slice n) .leaving (.request (requestOf (.read 8 false false) false)) (strandOf []) id).packets
    agenda := [{ time := 0, phase := 11, dom := none, event := .hostPanAccess, arg := args 0 0 }], arg := args 1 }

theorem witness_SliceRequests_more :
    (∀ l : Bool, let s := contested l
      let n := (State.reset.sliceOf 0 0).getD 0
      s.hostAtLink n = true ∧ (s.slice n).lastEntry ≠ s.count (s.sliceDom n) + 1 ∧
      (s.slice n).contest ≠ s.count (s.sliceDom n) + 1 ∧ (s.slice n).lastHost = l ∧
      (Table.get? s.packets 1).map (fun q => q.dst) = some (.slice n)) ∧
    (let s := sliceWith (.read 8 false false) true (args 3)
     let x := s.slice 3
     x.waits = false ∧ { x with serving := true }.waits = true ∧ { x with tctl := 1#64 }.waits = true ∧
      ∀ p ∈ x.placed, p.2.perform / 64 ≠ s.count (s.sliceDom 3) / 64) ∧
    (∀ k ∈ [ReqKind.write [1#8] false, .amo 9 64 1#64 0#64],
      let x := (slicing k (fun x => { x with pans := [(0, panOf 3)] }) (args 3 2)).slice 3
      (Table.get? x.placed 2).map (fun p => x.frozen p.req) = some true ∧
      (Table.get? { x with pans := [(0, panOf 2)] }.placed 2).map (fun p => { x with pans := [(0, panOf 2)] }.frozen p.req) = some false) := by
  decide +kernel

/-- The flood of the wake of a job in partition 0, whose members are cores 0 and `p`, at router (x, 0). -/
def flooding (p x port : Nat) (st : Stage) : State :=
  let s := launching [] [(1, jobOf1 .running [0, p])] (args 1)
  { s with packets := [(1, { newPacket false 0x7F000 0 x 0 .head 1 (.leg .wake { args 0 1 with flag := true }) with
      inPort := port, stage := st })] }

theorem witness_FabricEvents_flood :
    (∀ e ∈ [(4, Stage.moving), (0, .held)], let s := flooding 8 0 e.1 e.2
      ∃ q a, Table.get? s.packets s.arg.a = some q ∧ q.body = .leg .wake a ∧ a.flag = true ∧ s.routerOpen q.x q.y = true ∧
        (s.part q.sp).jobs.get? a.b = some (jobOf1 .running [0, 8]) ∧ q.inPort = e.1 ∧ q.stage = e.2) ∧
    ([0, 8].filter (fun p => coordY p / 4 * 4 == 0 && dieAt (coordX p) 0 == dieAt 0 0) = [0, 8] ∧ coordX 0 = 0 ∧ 0 < coordX 8) ∧
    ((flooding 8 0 4 .moving).routerOpen 1 0 = true ∧
      ((flooding 8 0 4 .moving).modBlock 0 (fun b => { b with oos := 2#8 })).routerOpen 1 0 = false) := by
  and_intros
  · intro e he
    simp only [List.mem_cons, List.not_mem_nil, or_false] at he
    rcases he with rfl | rfl <;> exact ⟨_, _, rfl, rfl, rfl, by decide +kernel⟩
  all_goals decide +kernel

/-- Parts of transfers for lane 0, which is absent or whose core is contained. -/
theorem witness_FabricEvents_legs :
    (∀ e ∈ [(Instr.pullCompletion, { args 0 1 2 with d := 9, w := 1#64 }), (.crystalCurrent, { args 0 9 with flag := true }),
        (.preemptionMessage, args 0 1)],
      let s := (crossing 0 0 (.lane 0) .moving (.leg e.1 e.2) 0#64).modBlock 0 (fun b => { b with remap := b.remap.set 0 0#4 })
      s.routerOpen 0 0 = true ∧ (s.remapOf 0).2 = false ∧ (Table.get? s.packets 1).map (fun q => (q.body, s.atFinal q)) =
        some (.leg e.1 e.2, true)) ∧
    (let s := (crossing 0 0 (.lane 0) .moving (.leg .pullCompletion (args 9 1 2)) 0#64).modCore 0 (fun c => { c with run := .contained })
     s.legHeld 0 .pullCompletion = true ∧ s.legHeld 0 .preemptionMessage = false ∧ s.legHeld 0 .resumeRelease = false ∧
      (s.remapOf 0).2 = true) := by decide +kernel

theorem witness_CrystalEvents_absent :
    (let s := { crystals .run (fun c => { c with writing := some 0 }) with arg := args 0 0 1 }
     s.arg.flag = false ∧ s.arg.c = 1 ∧ s.occupied 0 0 = true ∧ (s.strand 0 0).wait = .ckpt) ∧
    (let s := crystals .saving (fun c => { c with current := some 1 })
     s.crystalOn 0 = true ∧ (s.core 0).crystal.current ≠ none ∧ (s.core 0).run = .saving ∧ s.remapOf 0 = (0, true)) := by
  decide +kernel

/-- A job that resumes, with core 0's lane kept for its crystal, and its buddy still to take its image or not. -/
def keeping (buddy : RunState) : State :=
  let e : KeptLane := { lcn := 0, old := 1, hidden := false, crystal := { Crystal.none with current := some 1 } }
  let s := launching [] [(1, { jobOf1 .restoring [0] with kept := [e] })] { args 0 1 with flag := true }
  let b := (s.buddyOf 0).getD 0
  (s.modCore 0 (fun c => { c with run := .restoring })).modCore b (fun c => { c with run := buddy, job := 1 })

theorem witness_CommandEvents_kept :
    (∀ r ∈ [RunState.restoring, .run], let s := keeping r
      (s.jobOf 0 1).isSome = true ∧ (s.core 0).run = .restoring ∧ (s.buddyOf 0).isSome = true ∧ s.buddyOf 0 ≠ some 0 ∧
      ((s.part 0).jobs.map (fun j => (j.2.kept.find? (fun e => e.lcn == (s.core 0).lcn)).isSome)) = [true] ∧
      (s.core ((s.buddyOf 0).getD 0)).run = r ∧ (s.core ((s.buddyOf 0).getD 0)).job = 1) ∧
    (let s := { commanding 1 .saving with arg := { args 0 1 with flag := true } }
     s.jobOf 0 1 = some (0, jobOf1 .saving [0]) ∧ (jobOf1 .saving [0]).left.contains 0 = true) := by decide +kernel

theorem witness_OpticalEvents_resend :
    (∀ st ∈ [2, 3], ({ portIn st [] with resend := [.marker] } : Port).resend = .marker :: [] ∧ (portIn st []).state = st) ∧
    (portIn 2 [.marker]).resend = [] := by decide +kernel

theorem witness_HostAndMigration_found :
    ((hosted 0).part 0).hostFn.held.find? (fun r => r.bounds.1.toNat == 0 || ((hosted 0).panOf 0 r).1 == 0) =
      some (cap 2 0x83B 0 0x100000 0) ∧
    ((hosted 0).part 0).hostFn.held.find? (fun r => r.bounds.1.toNat == 0x200000 || ((hosted 0).panOf 0 r).1 == 0x200000) = none := by
  decide +kernel

/-- R164: `vsin` at 0.5, 1.5, 2.5 and −0.5 half-turns. -/
theorem test_vsin_halves : ([0x3F000000, 0x3FC00000, 0x40200000, 0xBF000000].map (fun x => (specialLane 0#3 5 x).1)) =
    [0x3F800000, 0xBF800000, 0x3F800000, 0xBF800000] := by decide +kernel

/-- R428: SHA-512 of the three letters abc, the example of the standard that the rule names. -/
theorem test_sha512 : bigNat (sha512 [0x61#8, 0x62#8, 0x63#8]) =
    0xddaf35a193617abacc417349ae20413112e6fa4e89a97ea20a9eeee64b55d39a2192992a274fc1a836ba3c23a3feebbd454d4423643ce80e2a9ac94fa54ca49f := by
  decide +kernel

/-- R327, R326: the remap write of block 5's lane 3, whose entry in the table of R327 is 0xC, gives physical lane 4 the LCN
5 × 8 + 3. -/
theorem test_remap_entry :
    (match execRemapWrite (landing (.lane 43) .leaving (.remap 0 0 5 3 0xC) (strandOf []) id) with
     | .next t => (t.remapOf 43, (t.core 44).lcn)
     | _ => ((0, false), 0)) = ((44, true), 43) := by decide +kernel


/-! ### Witnesses of value laws, refusals and waits -/

theorem witness_MemoryFrame_tags :
    memoryEffect mem (.st 0 2 1 0 3) = some ([], 64, 8) ∧ memoryEffect mem (.st 0 2 3 0 3) = some ([], 0, 0) ∧
    takenGranules mem (.ldc 0 7 1 1) = [5] ∧ takenGranules mem (.popm 0 4 5) = [0, 1] := by decide +kernel

/-- R134: a store clears the tag of the granule it touches and no other; R43: full/empty bits stay. -/
theorem test_store_clears_tag :
    (match exec (.st 0 2 1 1 3) (mem.modCore 0 (fun c => { c with spTags := [3, 4, 5], fe := [4] })) with
     | .next t => (t.myCore.spTags, t.myCore.fe)
     | _ => ([], [])) = ([3, 5], [4]) := by decide +kernel

theorem witness_VectorFloatResults_values :
    (fp32.decode 0x40000000 = .fin false (2 ^ 23) (-22) ∧ bf16.decode 0x4000 = .fin false (2 ^ 7) (-6) ∧
      fp16.decode 0x4000 = .fin false (2 ^ 10) (-9)) ∧
    (∀ t ∈ [5#3, 6#3, 7#3], isInteger t = true ∧ 2 ^ (laneWidth t - 1) < 2 ^ laneWidth t) ∧
    (∀ t ∈ [0#3, 1#3, 2#3], isFloating t = true ∧ (vfmt t).decode 0 ≠ .nan ∧ (vfmt t).decode (2 ^ (laneWidth t - 1)) ≠ .nan ∧
      (vfmt t).decode (2 ^ (laneWidth t - 1) - 1) = .nan) := by decide +kernel

/-- R161: the smaller of −0 and +0 is −0; R53, R161: √2 rounds to 0x3FB504F3. -/
theorem test_min_and_sqrt : minMaxLane 0#3 0#1 false 0 0x80000000 = 0x80000000 ∧
    fp32.sqrt .rne (fp32.decode 0x40000000) = (0x3FB504F3, flagNX) := by decide +kernel

/-- 1 × 1 − 1 is an exact zero, and so is 0 × 1 + 0. -/
theorem witness_RoundedResults_zero :
    scaled false (1 * 1) 0 0 + scaled true 1 0 0 = 0 ∧ scaled false (0 * 1) 0 0 + scaled false 0 0 0 = 0 := by decide

theorem witness_VectorReductionResults_values :
    (isInteger 7#3 = true ∧ isInteger 1#3 = false) ∧
    (let ps := [((.inf true, .fin false 0 0) : FVal × FVal)]
     ∃ p ∈ ps, ∃ x y e, p = (.inf x, .fin y 0 e) ∨ p = (.fin y 0 e, .inf x)) ∧
    (let ps := [((.inf false, .fin true 3 0) : FVal × FVal)]
     ¬(∃ p ∈ ps, ∃ x y e, p = (.inf x, .fin y 0 e) ∨ p = (.fin y 0 e, .inf x)) ∧
     ∃ p ∈ ps, ∃ x y, true = (x != y) ∧
       (p = (.inf x, .inf y) ∨ ∃ m e, m ≠ 0 ∧ (p = (.inf x, .fin y m e) ∨ p = (.fin x m e, .inf y)))) ∧
    ((∃ i < 32, (vfmt 2#3).decode (lane 16 0x7E00#512 i) = .nan) ∧ ∀ i < 32, (vfmt 2#3).decode (lane 16 0#512 i) ≠ .nan) :=
  ⟨by decide, ⟨_, .head _, true, false, 0, .inl rfl⟩,
    ⟨by simp, ⟨_, .head _, false, true, rfl, .inr ⟨3, 0, by decide, .inl rfl⟩⟩⟩, ⟨⟨0, by decide, by decide +kernel⟩, by decide +kernel⟩⟩

/-- R123: equal zeros, and a NaN. -/
theorem test_compare : compareFloat 0 (fp32.decode 0) (fp32.decode 0x80000000) = (true, flagNone) ∧
    compareFloat 2 .nan (.inf true) = (false, flagNV) ∧ compareFloat 6 .nan (.inf true) = (true, flagNone) := by decide +kernel

/-- A matrix enqueue of slot 1, and slot 0's `mxq` that waits for its fence or not. -/
def enqueued (fenced : Bool) : State :=
  let s := blockWith id (fun m => { m with waiting := [{ lane := 0, slot := 1, at_ := 2, d := 7, job := matrixJob }] }) (args 0)
  let s := s.modCore 0 (fun c => { c with slots := c.slots.set 1 { strandOf [] with wait := .queue 0 } })
  if fenced then s.modStrand 0 0 (fun x => { x with wait := .fenceFirst [] 4 ((0b0000_101_10000_10100_11001_111010_101_1#32).setWidth 48) }) else s

theorem witness_MatrixEngine_fenced :
    (∀ f : Bool, let s := enqueued f
      s.arg.flag = false ∧ s.arg.b = 0 ∧ ((s.block 0).mxe.waiting.map (fun w => s.behindFence 0 w)) = [f] ∧
      s.laneStopped 0 0 = false ∧ s.occupied 0 1 = true ∧ (s.strand 0 1).wait = .queue 0) ∧
    (let b := (enqueued false).block 0
     (grantLanes (lanesToGrant b.mxe.lastGranted 0 b.mxe.grantedAt) b.mxe.entries b.mxe.waiting b.mxe.lastGranted).1.length = 1) := by
  decide +kernel

theorem witness_SliceRequests_test :
    let s := (sliceWith (.read 8 false false) true (args 3)).modSlice 3 (fun x => { x with
      tctl := 1#64, tstat := 1#64, placed := [], failed := true })
    (s.slice 3).claimed (s.count (s.sliceDom 3) / 64) = false ∧ (s.slice 3).testDue = true ∧ (s.slice 3).isHeld = true := by
  decide +kernel

theorem witness_LaunchEvents_absent :
    (let s := (placed (sound 0 false) [0] id).modBlock 0 (fun b => { b with remap := b.remap.set 0 0#4 })
     (s.jobOf 0 1).isSome = true ∧ (s.core 0).run ≠ .doubleTrap ∧ (s.remapOf (s.core 0).lcn).2 = false ∧ s.arg.c ≠ 1) ∧
    ((placed (sound 0 false) [0] id).remapOf ((placed (sound 0 false) [0] id).core 0).lcn).2 = true := by decide +kernel

theorem witness_FabricEvents_kept :
    (∀ e ∈ [(Instr.resumeRelease, { args 0 1 with flag := true }), (.wake, args 0 1)],
      let s := (crossing 0 0 (.lane 0) .moving (.leg e.1 e.2) 0#64).modBlock 0 (fun b => { b with remap := b.remap.set 0 0#4 })
      s.routerOpen 0 0 = true ∧ (s.remapOf 0).2 = false ∧
      (Table.get? s.packets 1).map (fun q => (q.body, s.atFinal q)) = some (.leg e.1 e.2, true)) ∧
    (let s := { crossing 0 0 (.lane 0) .moving (.ack 0) 0#64 with
        parts := [(0, { Partition.reset with jobs := [(1, { jobOf1 .preempted [] with held := [1] })] })] }
     (Table.get? s.packets 1).map (fun q => (s.keptBack 1 q, s.keptBack 2 q, s.atFinal q)) = some (true, false, true) ∧
      (s.remapOf 0).2 = true ∧ s.laneHeld 0 = false) := by decide +kernel

theorem witness_CrystalEvents_due :
    (∀ e ∈ [(RunState.saving, (none : Option Nat)), (.restoring, none), (.run, some 1)],
      let s := crystals e.1 (fun c => { c with writing := e.2, current := some 0 })
      (s.core 0).crystal.desc.isSome = true ∧ s.crystalOn 0 = true ∧ (s.core 0).crystal.current.isSome = true ∧
      (s.buddyOf 0).isSome = true ∧ (s.core 0).run = e.1 ∧ (s.core 0).crystal.writing = e.2) ∧
    (let s := { crystals .run id with arg := { args 0 with d := 2 } }
     (s.buddyOf 0).isSome = true ∧ ((s.buddyOf 0).map (fun d => (s.core d).sp.wf)) = some true ∧ s.arg.d = 2) ∧
    (let s := crystals .run id
     (s.block 0).rlane = 0 ∧ s.remapOf 0 = (0, true) ∧ (s.core 0).run = .run) := by decide +kernel

theorem witness_CommandEvents_absent :
    let s := { keeping .run with arg := { args 0 1 1 with flag := true } }
    (s.jobOf 0 1).isSome = true ∧ s.arg.flag = true ∧ s.arg.c = 1 ∧ headerSound (fun _ => 0) = true := by decide +kernel

/-- R428: a signature of a generated key is one that its modulus verifies. -/
theorem test_key_verifies (n : Nat) (m : List Byte) :
    verifies (storedKey (generatedKey n)).modulus m ((storedKey (generatedKey n)).sign m) = true :=
  verifies_sign _ _
end Sys2Proof.Tests
end

section
/-! THEOREM. The decoder on the words that the encoding tables give field by field (O55). -/

namespace Sys2Proof.Machine

/-- Settles O55, by running the decoder on each word. -/
theorem decodesSpecWords : Obligations.DecodesSpecWords := by
  unfold Obligations.DecodesSpecWords
  decide

end Sys2Proof.Machine
end

section
/-! THEOREM. What taking a trap leaves (O11): the entered handler where INH is 0, the contained core where it is 1. -/

namespace Sys2Proof.Machine

/-! ## The status in the handler -/

/-- The status that a strand enters its handler with (R368). -/
def Strand.handlerStatus (x : Strand) : BitVec 13 :=
  (x.sst &&& 0x0FFC#13) ||| (if x.mode = 3 then 3#13 else 1#13) ||| 0x1000#13

theorem Strand.sst_enter (x : Strand) (e : Trap) (pc tvec : Word) (rep : Option Rep) :
    (x.enter e pc rep tvec).sst = x.handlerStatus := rfl

theorem Strand.handlerStatus_inh (x : Strand) : x.handlerStatus.getLsbD 12 = true := by
  simp [Strand.handlerStatus]

theorem Strand.handlerStatus_mode (x : Strand) :
    (x.handlerStatus.extractLsb' 0 2).toNat = if x.mode = 3 then 3 else 1 := by
  have low (m : BitVec 13) : ((x.sst &&& 0x0FFC#13) ||| m ||| 0x1000#13).extractLsb' 0 2 = m.extractLsb' 0 2 := by
    simp [BitVec.extractLsb'_or, BitVec.extractLsb'_and]
  rw [Strand.handlerStatus, low]
  split <;> rfl

/-- Bits 2 to 11 of the status stay: VE, the stream bits and ALTP. -/
theorem Strand.handlerStatus_getLsbD (x : Strand) {i : Nat} (h2 : 2 ≤ i) (h12 : i < 12) :
    x.handlerStatus.getLsbD i = x.sst.getLsbD i := by
  have masks : ∀ i < 12, 2 ≤ i → (0x0FFC#13).getLsbD i = true ∧ (0x1000#13).getLsbD i = false ∧
      (3#13).getLsbD i = false ∧ (1#13).getLsbD i = false := by decide
  obtain ⟨hkeep, hinh, hmachine, hpartition⟩ := masks i h12 h2
  have hmode : (if x.mode = 3 then 3#13 else 1#13).getLsbD i = false := by split <;> assumption
  rw [Strand.handlerStatus, BitVec.getLsbD_or, BitVec.getLsbD_or, BitVec.getLsbD_and, hkeep, hinh, hmode]
  simp

/-! ## A trap with INH = 0 -/

theorem State.onlyStrand_takeTrap {s : State} {e : Trap} (h : s.me.inh = false) : s.OnlyStrand (s.takeTrap e) := by
  rw [State.takeTrap_eq h]
  exact s.onlyStrand_setMe _

theorem State.me_takeTrap {s : State} {e : Trap} (h : s.me.inh = false) :
    (s.takeTrap e).me = { s.me.enter e s.cur.pc s.me.rep s.myCore.tvec with readyAt := s.k + 8 } := by
  rw [State.takeTrap_eq h, State.me_setMe]

/-! ## A double trap -/

/-- A double trap changes one field of the cores: its own core runs no more (R370). -/
theorem State.cores_takeTrap_double {s : State} {e : Trap} (h : s.me.inh = true) :
    (s.takeTrap e).cores = (s.modCore s.cur.core fun c => { c with run := .doubleTrap }).cores := by
  simp [State.takeTrap_double h, State.postRecord, State.containAs, State.discardJobs]

theorem State.core_takeTrap_double {s : State} {e : Trap} (h : s.me.inh = true) :
    (s.takeTrap e).core s.cur.core = { s.myCore with run := .doubleTrap } := by
  rw [State.core, State.cores_takeTrap_double h]
  exact s.core_modCore_self _ _

/-- Settles O11: with INH = 0 only the strand changes, as its entry into the handler says; with INH = 1 its core is
contained and keeps all else. -/
theorem trapEntry : Obligations.TrapEntry := by
  refine ⟨fun s e h => ?_, fun s e h => ?_⟩
  · dsimp only
    rw [State.me_takeTrap h]
    exact ⟨State.onlyStrand_takeTrap h, rfl, rfl, rfl, rfl, rfl, s.me.handlerStatus_inh, s.me.handlerStatus_mode,
      fun _ => s.me.handlerStatus_getLsbD, rfl, rfl, rfl, fun _ => rfl, rfl, rfl, rfl, rfl, rfl, rfl, rfl, rfl, rfl⟩
  · dsimp only
    rw [State.strand, State.core_takeTrap_double h]
    exact ⟨rfl, rfl, rfl, rfl⟩

end Sys2Proof.Machine
end

section
/-! THEOREM. Every step keeps the canonical form of the memories (O58): a rule for each function of the model that
makes a state, in the order of the model, and each instruction and event by those rules. -/

namespace Sys2Proof.Machine

/-- A canonical memory without some of its entries. -/
theorem Memory.wf_filter {m : Memory} {q : Host.Cell → Bool} (h : m.wf = true) : Memory.wf (m.filter q) = true := by
  suffices H : ∀ lo, Memory.wfFrom lo m = true → Memory.wfFrom lo (m.filter q) = true from H 0 h
  clear h
  induction m with
  | nil => exact fun _ h => h
  | cons e rest ih =>
    intro lo h
    simp only [Memory.wfFrom, Bool.and_eq_true, decide_eq_true_eq] at h
    obtain ⟨⟨hlo, hx⟩, hr⟩ := h
    rw [List.filter_cons]
    split
    · simp [Memory.wfFrom, hlo, ih _ hr, by simpa using hx]
    · exact Memory.wfFrom_mono (by omega) _ (ih _ hr)

theorem Memory.wf_hostPerform {m : Memory} {r} (h : m.wf = true) : (hostPerform m r).2.wf = true := by
  unfold hostPerform
  split
  · exact h
  · exact Memory.wf_writeN _ _ h
  · exact h

variable {s : State}

/-! ## The canonical form of the memories: the state's tables -/

/-- The scratchpad is canonical. -/
def Core.Canonical (c : Core) : Prop := c.sp.wf = true

theorem Core.Canonical.reset {p : Nat} : (Core.reset p).Canonical := rfl

theorem Core.Canonical.spWrite {c : Core} {a b} (h : c.Canonical) : (c.spWrite a b).Canonical :=
  Core.wf_spWrite a b h

theorem Core.Canonical.spPutReg {c : Core} {a r} (h : c.Canonical) : (c.spPutReg a r).Canonical :=
  Core.wf_spPutReg a r h

/-- A core with the scratchpad of a canonical one. -/
theorem Core.Canonical.update {c : Core}
    {slots vacated cseq lcn grank gsize gorg clat clatOf tvec rakeT pcid toff tscale spTags fe engineOld ends
    bmem barr dirty cleanref phase runs replaces tree record gathers engaged crystal tableOps job invalid
    wakeLeft meterFrom}
    (h : c.Canonical) : Core.Canonical
      ⟨slots, vacated, cseq, lcn, grank, gsize, gorg, clat, clatOf, tvec, rakeT, pcid, toff, tscale, c.sp,
      spTags, fe, engineOld, ends, bmem, barr, dirty, cleanref, phase, runs, replaces, tree, record, gathers,
      engaged, crystal, tableOps, job, invalid, wakeLeft, meterFrom⟩ := h

theorem Core.Canonical.ite {c d : Core} {q : Prop} [Decidable q] (hc : c.Canonical) (hd : d.Canonical) :
    Core.Canonical (if q then c else d) := by
  split <;> assumption

theorem Core.Canonical.iteSnd {α : Type} {x : α} {c : Core} {e : α × Core} {q : Prop} [Decidable q] (hc : c.Canonical)
    (he : e.2.Canonical) : Core.Canonical (if q then (x, c) else e).2 := by
  split <;> assumption

theorem Core.Canonical.foldl {α : Type} {f : Core → α → Core} {l : List α} {c : Core} (h : c.Canonical)
    (hf : ∀ c x, c.Canonical → (f c x).Canonical) : (l.foldl f c).Canonical := by
  induction l generalizing c with
  | nil => exact h
  | cons x l ih => exact ih (hf c x h)

/-- The scratchpad of every core, listed or not, is canonical. -/
theorem State.MemoriesCanonical.core {p : Nat} (h : s.MemoriesCanonical) : (s.core p).Canonical := by
  unfold State.core Table.getD
  cases hp : Table.get? s.cores p with
  | none => rfl
  | some c => exact h.1 _ (Table.mem_of_get? hp)

theorem State.MemoriesCanonical.hbm (h : s.MemoriesCanonical) : s.hbm.wf = true := h.2.1

theorem State.MemoriesCanonical.host (h : s.MemoriesCanonical) : s.host.wf = true := h.2.2

theorem State.MemoriesCanonical.setCore {p : Nat} {c : Core} (h : s.MemoriesCanonical) (hc : c.Canonical) :
    (s.setCore p c).MemoriesCanonical := by
  refine ⟨fun e he => ?_, h.hbm, h.host⟩
  rcases Table.mem_set he with rfl | he
  · exact hc
  · exact h.1 e he

/-- A change of a core that keeps its scratchpad canonical. -/
theorem State.MemoriesCanonical.modCoreBy {p : Nat} {f : Core → Core} (h : s.MemoriesCanonical)
    (hf : ∀ c, c.Canonical → (f c).Canonical) : (s.modCore p f).MemoriesCanonical :=
  h.setCore (hf _ h.core)

/-- A change of a core that leaves its scratchpad. -/
theorem State.MemoriesCanonical.modCore {p : Nat}
    {slots vacated cseq lcn grank gsize gorg clat clatOf tvec rakeT pcid toff tscale spTags fe engineOld ends
    bmem barr dirty cleanref phase runs replaces tree record gathers engaged crystal tableOps job invalid
    wakeLeft meterFrom : Core → _} (h : s.MemoriesCanonical) :
    (s.modCore p fun c =>
      ⟨slots c, vacated c, cseq c, lcn c, grank c, gsize c, gorg c, clat c, clatOf c, tvec c, rakeT c, pcid c, toff c,
      tscale c, c.sp, spTags c, fe c, engineOld c, ends c, bmem c, barr c, dirty c, cleanref c, phase c, runs c,
      replaces c, tree c, record c, gathers c, engaged c, crystal c, tableOps c, job c, invalid c, wakeLeft c,
      meterFrom c⟩).MemoriesCanonical :=
  h.modCoreBy fun _ hc => hc.update

/-- A state with the cores, HBM and host memory of a canonical one. -/
theorem State.MemoriesCanonical.update {now blocks slices parts ports dcms routesC routesM hbmTags fuses sup packets
    agenda parked cur arg nextId freeCtr} (h : s.MemoriesCanonical) :
    State.MemoriesCanonical ⟨now, s.cores, blocks, slices, parts, ports, dcms, routesC, routesM, s.hbm, hbmTags, s.host,
      fuses, sup, packets, agenda, parked, cur, arg, nextId, freeCtr⟩ := h

theorem State.MemoriesCanonical.updateHbm {now blocks slices parts ports dcms routesC routesM m hbmTags fuses sup packets
    agenda parked cur arg nextId freeCtr} (h : s.MemoriesCanonical) (hm : Memory.wf m = true) :
    State.MemoriesCanonical ⟨now, s.cores, blocks, slices, parts, ports, dcms, routesC, routesM, m, hbmTags, s.host,
      fuses, sup, packets, agenda, parked, cur, arg, nextId, freeCtr⟩ := ⟨h.1, hm, h.host⟩

theorem State.MemoriesCanonical.updateHost {now blocks slices parts ports dcms routesC routesM m hbmTags fuses sup packets
    agenda parked cur arg nextId freeCtr} (h : s.MemoriesCanonical) (hm : Memory.wf m = true) :
    State.MemoriesCanonical ⟨now, s.cores, blocks, slices, parts, ports, dcms, routesC, routesM, s.hbm, hbmTags, m,
      fuses, sup, packets, agenda, parked, cur, arg, nextId, freeCtr⟩ := ⟨h.1, h.hbm, hm⟩

theorem State.MemoriesCanonical.updateCores {now blocks slices parts ports dcms routesC routesM hbmTags fuses sup packets
    agenda parked cur arg nextId freeCtr} {f : Nat × Core → Nat × Core} (h : s.MemoriesCanonical)
    (hf : ∀ e, e.2.Canonical → (f e).2.Canonical) :
    State.MemoriesCanonical ⟨now, s.cores.map f, blocks, slices, parts, ports, dcms, routesC, routesM, s.hbm, hbmTags,
      s.host, fuses, sup, packets, agenda, parked, cur, arg, nextId, freeCtr⟩ := by
  refine ⟨fun e he => ?_, h.hbm, h.host⟩
  obtain ⟨d, hd, rfl⟩ := List.mem_map.1 he
  exact hf d (h.1 d hd)

theorem State.MemoriesCanonical.ite {t : State} {c : Prop} [Decidable c] (hs : s.MemoriesCanonical)
    (ht : t.MemoriesCanonical) : State.MemoriesCanonical (if c then s else t) := by
  split <;> assumption

theorem State.MemoriesCanonical.foldl {α : Type} {f : State → α → State} {l : List α} (h : s.MemoriesCanonical)
    (hf : ∀ t x, t.MemoriesCanonical → (f t x).MemoriesCanonical) : (l.foldl f s).MemoriesCanonical := by
  induction l generalizing s with
  | nil => exact h
  | cons x l ih => exact ih (hf s x h)

/-- The state of a pair of which more is known. -/
theorem State.MemoriesCanonical.fst {β : Type} {x : State × β} {b : β} (h : x.1.MemoriesCanonical) (hx : x = (s, b)) :
    s.MemoriesCanonical := by
  rw [hx] at h
  exact h

/-- A fold that carries a value beside the state. -/
theorem State.MemoriesCanonical.foldlFst {α β : Type} {f : State × β → α → State × β} {l : List α} {b : β}
    (h : s.MemoriesCanonical) (hf : ∀ t x, t.1.MemoriesCanonical → (f t x).1.MemoriesCanonical) :
    (l.foldl f (s, b)).1.MemoriesCanonical := by
  induction l generalizing s b with
  | nil => exact h
  | cons x l ih => exact ih (b := (f (s, b) x).2) (hf (s, b) x h)

/-! ## Acts and outcomes -/

/-- Where the act succeeds, it leaves a state with property `P`. -/
def Act.Ensures (P : State → Prop) (a : Act) : Prop := ∀ t, a = .ok t → P t

section
variable {P : State → Prop}

theorem Act.Ensures.ok {t : State} (h : P t) : Act.Ensures P (.ok t) := by
  rintro u ⟨⟩
  exact h

theorem Act.Ensures.pure {t : State} (h : P t) : Act.Ensures P (Pure.pure t) := Act.Ensures.ok h

theorem Act.Ensures.error {e : Trap} : Act.Ensures P (.error e) := by
  rintro t ⟨⟩

theorem Act.Ensures.bind {α : Type} {x : Except Trap α} {f : α → Act} (hf : ∀ a, Act.Ensures P (f a)) :
    Act.Ensures P (x >>= f) := by
  cases x with
  | error e => exact Act.Ensures.error
  | ok a => exact hf a

/-- An act after an act. -/
theorem Act.Ensures.seq {x : Act} {f : State → Act} (hx : Act.Ensures P x) (hf : ∀ t, P t → Act.Ensures P (f t)) :
    Act.Ensures P (x >>= f) := by
  cases x with
  | error e => exact Act.Ensures.error
  | ok a => exact hf a (hx a rfl)

theorem Act.Ensures.seqRight {α : Type} {x : Except Trap α} {y : Act} (hy : Act.Ensures P y) :
    Act.Ensures P (x *> y) := by
  cases x with
  | error e => exact Act.Ensures.error
  | ok a => exact hy

theorem Act.Ensures.ite {x y : Act} {c : Prop} [Decidable c] (hx : Act.Ensures P x) (hy : Act.Ensures P y) :
    Act.Ensures P (if c then x else y) := by
  split <;> assumption

/-- An act before which something is checked under a condition. -/
theorem Act.Ensures.when {x : Except Trap Unit} {f : Unit → Act} {c : Prop} [Decidable c]
    (hf : ∀ a, Act.Ensures P (f a)) : Act.Ensures P (if c then x >>= f else f ()) :=
  .ite (.bind hf) (hf ())

end

/-- Where the act succeeds, it leaves canonical memories. -/
abbrev Act.Canonical (a : Act) : Prop := a.Ensures State.MemoriesCanonical

/-- Where there is a state, its memories are canonical. -/
def Answer.Canonical (o : Option State) : Prop := ∀ t, o = some t → t.MemoriesCanonical

theorem Answer.Canonical.some (h : s.MemoriesCanonical) : Answer.Canonical (some s) := by
  rintro t ⟨⟩
  exact h

theorem Answer.Canonical.none : Answer.Canonical none := by
  rintro t ⟨⟩

theorem Answer.Canonical.ite {x y : Option State} {c : Prop} [Decidable c] (hx : Answer.Canonical x)
    (hy : Answer.Canonical y) : Answer.Canonical (if c then x else y) := by
  split <;> assumption

/-- Where the outcome is a next state, its memories are canonical. -/
def Outcome.Canonical (o : Host.Outcome State Fault Refusal) : Prop := ∀ t, o = .next t → t.MemoriesCanonical

theorem Outcome.Canonical.next (h : s.MemoriesCanonical) : Outcome.Canonical (.next s) := by
  rintro t ⟨⟩
  exact h

/-! ## What changes a core -/

section
variable {c : Core} (h : c.Canonical)
include h

theorem Core.Canonical.setFe {gs b} : (c.setFe gs b).Canonical := h.update

theorem Core.Canonical.keepOld {k gs} : (c.keepOld k gs).Canonical := h.update

theorem Core.Canonical.putGranules {a g} : (c.putGranules a g).Canonical :=
  h.update.foldl fun _ _ h => Memory.wf_writeN _ _ h

theorem Core.Canonical.noted {buf j sts x} : (c.noted buf j sts x).Canonical := by
  unfold Core.noted
  dsimp only
  split
  · exact Memory.wf_write _ _ h
  · exact h

theorem Core.Canonical.writeCsr {n w} : (c.writeCsr n w).Canonical := by
  unfold Core.writeCsr
  split
  · exact h.update
  · exact h.update
  · exact h.update
  · exact h.update
  · exact h.update
  · exact h

theorem Core.Canonical.fromHeader {w barriers} : (c.fromHeader w barriers).Canonical :=
  h.update.update.ite h.update

theorem Core.Canonical.afterHold {j} : (Core.afterHold j c).Canonical := h.update

theorem Core.Canonical.scrub {d : Core} : (d.scrub c).Canonical := h

theorem Core.Canonical.jump {j} : (Core.jump j c).Canonical := h.update

theorem Core.Canonical.heldUntil {mode m now} : (c.heldUntil mode m now).Canonical := h.update.ite h

end

section
variable (h : s.MemoriesCanonical)
include h

/-! ## Machine/Clock -/

theorem State.MemoriesCanonical.setBlock {b x} : (s.setBlock b x).MemoriesCanonical := h.update

theorem State.MemoriesCanonical.modBlock {b f} : (s.modBlock b f).MemoriesCanonical := h.setBlock

theorem State.MemoriesCanonical.setSlice {n x} : (s.setSlice n x).MemoriesCanonical := h.update

theorem State.MemoriesCanonical.modSlice {n f} : (s.modSlice n f).MemoriesCanonical := h.setSlice

theorem State.MemoriesCanonical.setPart {sp x} : (s.setPart sp x).MemoriesCanonical := h.update

theorem State.MemoriesCanonical.modPart {sp f} : (s.modPart sp f).MemoriesCanonical := h.setPart

theorem State.MemoriesCanonical.modPort {k f} : (s.modPort k f).MemoriesCanonical := h.update

theorem State.MemoriesCanonical.modDcm {die f} : (s.modDcm die f).MemoriesCanonical := h.update

theorem State.MemoriesCanonical.postAt {dom t i o} : (s.postAt dom t i o).MemoriesCanonical :=
  h.update

theorem State.MemoriesCanonical.postDelayed {dom i o} : (s.postDelayed dom i o).MemoriesCanonical :=
  h.update

theorem State.MemoriesCanonical.post {dom n i o} : (s.post dom n i o).MemoriesCanonical := h.postAt

theorem State.MemoriesCanonical.postCore {p n i o} : (s.postCore p n i o).MemoriesCanonical :=
  h.post

theorem State.MemoriesCanonical.fresh : s.fresh.2.MemoriesCanonical := h.update

theorem State.MemoriesCanonical.free : s.free.2.MemoriesCanonical := h.update

/-! ## Machine/Meter -/

theorem State.MemoriesCanonical.chargeOwner {owner k n} : (s.chargeOwner owner k n).MemoriesCanonical := by
  unfold State.chargeOwner
  split
  · exact h.update
  · exact h

theorem State.MemoriesCanonical.chargeCore {p k n} : (s.chargeCore p k n).MemoriesCanonical :=
  h.chargeOwner

theorem State.MemoriesCanonical.meterStop {p} : (s.meterStop p).MemoriesCanonical := by
  unfold State.meterStop
  split
  · exact h.chargeCore.modCore
  · exact h

theorem State.MemoriesCanonical.meterStart {p} : (s.meterStart p).MemoriesCanonical := h.modCore

/-! ## Machine/Ops -/

theorem State.MemoriesCanonical.setStrand {p k x} : (s.setStrand p k x).MemoriesCanonical :=
  h.modCore

theorem State.MemoriesCanonical.modStrand {p k f} : (s.modStrand p k f).MemoriesCanonical :=
  h.setStrand

theorem State.MemoriesCanonical.setMe {x} : (s.setMe x).MemoriesCanonical := h.setStrand

theorem State.MemoriesCanonical.modMe {f} : (s.modMe f).MemoriesCanonical := h.setMe

theorem State.MemoriesCanonical.advanceBy {n} : (s.advanceBy n).MemoriesCanonical := h.modMe

theorem State.MemoriesCanonical.advance : s.advance.MemoriesCanonical := h.advanceBy

theorem State.MemoriesCanonical.waitNext {w} : (s.waitNext w).MemoriesCanonical :=
  h.modMe.postCore.ite h.modMe

theorem State.MemoriesCanonical.waitAgain {w} : (s.waitAgain w).MemoriesCanonical :=
  h.modMe.postCore.ite h.modMe

theorem State.MemoriesCanonical.wake {p k} : (s.wake p k).MemoriesCanonical := h.modStrand

theorem State.MemoriesCanonical.discardJobs {p n} : (s.discardJobs p n).MemoriesCanonical :=
  h.modBlock.postCore.postCore.postCore.postCore

theorem State.MemoriesCanonical.containAs {p how} : (s.containAs p how).MemoriesCanonical :=
  h.modCore.discardJobs

theorem State.MemoriesCanonical.postRecord {sp typ entry} : (s.postRecord sp typ entry).MemoriesCanonical :=
  h.post

theorem State.MemoriesCanonical.trapAt {p k t at_ rep ready} : (s.trapAt p k t at_ rep ready).MemoriesCanonical :=
  h.containAs.postRecord.ite h.setStrand

theorem State.MemoriesCanonical.takeTrap {t} : (s.takeTrap t).MemoriesCanonical := h.trapAt

theorem State.MemoriesCanonical.settle {a} (ha : Act.Canonical a) : (s.settle a).MemoriesCanonical := by
  cases a with
  | ok t => exact ha t rfl
  | error e => exact h.takeTrap

theorem State.MemoriesCanonical.act {g f} (hf : ∀ t, t.MemoriesCanonical → Act.Canonical (f t)) :
    Outcome.Canonical (s.act g f) :=
  .next ((h.settle (hf s h)).ite h.advance)

theorem State.MemoriesCanonical.actV {g f} (hf : ∀ t, t.MemoriesCanonical → Act.Canonical (f t)) :
    Outcome.Canonical (s.actV g f) :=
  h.modMe.act hf

theorem State.MemoriesCanonical.putIntBy {d w n} : Act.Canonical (s.putIntBy d w n) :=
  .bind fun _ => .pure h.modMe.advanceBy

theorem State.MemoriesCanonical.putInt {d w} : Act.Canonical (s.putInt d w) := h.putIntBy

theorem State.MemoriesCanonical.moveCap {d a r} : Act.Canonical (s.moveCap d a r) :=
  .bind fun _ => .ite (.pure h.modMe.advance) (.bind fun _ => .pure h.modMe.advance)

theorem State.MemoriesCanonical.wakeFullEmpty {p} : (s.wakeFullEmpty p).MemoriesCanonical := by
  unfold State.wakeFullEmpty
  refine h.foldl fun _ _ h => ?_
  split
  · dsimp only
    split
    · exact (h.postCore.ite h).wake.ite (h.postCore.ite h)
    · exact h.postCore.ite h
  · exact h

theorem State.MemoriesCanonical.engineWrite {p a b} : (s.engineWrite p a b).1.MemoriesCanonical := by
  unfold State.engineWrite
  dsimp only
  split
  · dsimp only
    exact (h.setCore h.core.keepOld.spWrite.setFe).wakeFullEmpty
  · dsimp only
    exact (h.setCore h.core.keepOld.spWrite.setFe).wakeFullEmpty

/-! ## Machine/Net -/

theorem State.MemoriesCanonical.inject {k after} : (s.inject k after).MemoriesCanonical :=
  h.update.update.post

theorem State.MemoriesCanonical.sendFrom {p mnet dst units body after} :
    (s.sendFrom p mnet dst units body after).MemoriesCanonical :=
  h.inject

theorem State.MemoriesCanonical.sendSlice {n mnet sp lcn units body after} :
    (s.sendSlice n mnet sp lcn units body after).MemoriesCanonical :=
  h.inject

theorem State.MemoriesCanonical.sendAt {x y sp srcLcn dst units body after} :
    (s.sendAt x y sp srcLcn dst units body after).MemoriesCanonical :=
  h.inject

theorem State.MemoriesCanonical.dropPacket {id} : (s.dropPacket id).MemoriesCanonical := h.update

theorem State.MemoriesCanonical.rescan : s.rescan.MemoriesCanonical :=
  h.foldl fun _ _ h => h.post.ite h

/-! ## Machine/Log -/

theorem State.MemoriesCanonical.shiftLog {p n} : (s.shiftLog p n).MemoriesCanonical := h.update

theorem State.MemoriesCanonical.logAppend {p kind st slot endNo r x} :
    (s.logAppend p kind st slot endNo r x).MemoriesCanonical :=
  (h.modCore.shiftLog.postCore.postCore.ite h.modCore.shiftLog.postCore).ite h

theorem State.MemoriesCanonical.askCrystal {p} : (s.askCrystal p).MemoriesCanonical :=
  h.postCore.ite (h.postCore.ite h)

theorem State.MemoriesCanonical.askBuddies {p} : (s.askBuddies p).MemoriesCanonical :=
  h.foldl fun _ _ h => h.postCore

theorem State.MemoriesCanonical.logArrival {p k j x} : (s.logArrival p k j x).MemoriesCanonical := by
  unfold State.logArrival
  split
  · exact h.logAppend
  · exact h.logAppend
  · exact h.logAppend
  · exact h.logAppend

theorem State.MemoriesCanonical.logSet {p n st} : (s.logSet p n st).MemoriesCanonical := by
  unfold State.logSet
  dsimp only
  split
  · exact h.modCore
  · exact h.modCore.postCore

theorem State.MemoriesCanonical.logSettle {p kind endNo st} : (s.logSettle p kind endNo st).MemoriesCanonical := by
  unfold State.logSettle
  dsimp only
  split
  · exact h.logSet
  · exact h

theorem State.MemoriesCanonical.putBack {p n} : (s.putBack p n).MemoriesCanonical := h.modCore

theorem State.MemoriesCanonical.logClaim {p n slot} : (s.logClaim p n slot).MemoriesCanonical := by
  unfold State.logClaim
  dsimp only
  split
  · exact h.modCore
  · exact h.modCore.postCore

theorem State.MemoriesCanonical.logForget {p n} : (s.logForget p n).MemoriesCanonical := h.modCore

theorem State.MemoriesCanonical.rearrive {p j} : (s.rearrive p j).MemoriesCanonical := by
  unfold State.rearrive
  dsimp only
  split
  · exact h
  · exact (h.modCore.putBack.ite h).ite (h.modCore.putBack.ite h)

theorem State.MemoriesCanonical.replayed {n} : (s.replayed n).MemoriesCanonical :=
  (h.modCore.askCrystal.foldl fun _ _ h => h.rearrive).ite h.modCore

theorem State.MemoriesCanonical.crystalNote {p j sts x} : (s.crystalNote p j sts x).MemoriesCanonical := by
  unfold State.crystalNote
  dsimp only
  split
  · exact h
  · exact h.foldl fun _ _ h => h.modCore.ite ((h.foldl fun _ _ h => h.postCore).ite (h.setCore h.core.noted))

theorem State.MemoriesCanonical.crystalReply {p j nack} : (s.crystalReply p j nack).MemoriesCanonical :=
  h.crystalNote

theorem State.MemoriesCanonical.crystalTaken {p j} : (s.crystalTaken p j).MemoriesCanonical :=
  h.crystalNote

theorem State.MemoriesCanonical.crystalBound {p j} : (s.crystalBound p j).MemoriesCanonical :=
  h.crystalNote

theorem State.MemoriesCanonical.execLogWrite : Outcome.Canonical (execLogWrite s) := by
  unfold Machine.execLogWrite
  refine .next ?_
  split
  · exact h
  · exact h.modCoreBy fun _ h => h.spWrite.ite (h.noted.ite h.spWrite.spPutReg.spWrite)

/-! ## Machine/Flags -/

theorem State.MemoriesCanonical.compare {g p q t c flags} : Outcome.Canonical (s.compare g p q t c flags) :=
  .next (h.modMe.advance.ite (h.modMe.advance.ite h.advance))

/-! ## Machine/StreamOps -/

theorem State.MemoriesCanonical.popOne {d} : (s.popOne d).MemoriesCanonical := by
  unfold State.popOne
  split
  · exact h
  · exact (h.modMe.modCoreBy fun _ h => h.setFe).wakeFullEmpty.ite h.modMe

theorem State.MemoriesCanonical.popAll {reads} : (s.popAll reads).MemoriesCanonical :=
  h.foldl fun _ _ h => h.popOne

theorem State.MemoriesCanonical.unpop {p k} : (s.unpop p k).MemoriesCanonical := by
  unfold State.unpop
  refine (h.foldl fun _ _ h => ?_).modStrand
  split
  · exact h
  · exact (h.modStrand.modCoreBy fun _ h => h.setFe).wakeFullEmpty.ite h.modStrand

theorem State.MemoriesCanonical.writeVec {d w} : (s.writeVec d w).MemoriesCanonical := by
  unfold State.writeVec
  split
  · exact h.modMe
  · exact ((h.modMe.modCoreBy fun _ h => h.spWrite).modCoreBy fun _ h => h.setFe).wakeFullEmpty.ite
      (h.modMe.modCoreBy fun _ h => h.spWrite)

theorem State.MemoriesCanonical.vector {g reads d n f} : Outcome.Canonical (s.vector g reads d n f) := by
  unfold State.vector
  refine h.actV fun _ h => .bind fun _ => ?_
  split
  · exact .pure h.waitAgain
  · exact .pure h.popAll.modMe.writeVec.advanceBy

/-! ## Machine/Access -/

theorem State.MemoriesCanonical.fenceFirst {f} (hf : ∀ t, t.MemoriesCanonical → Act.Canonical (f t)) :
    Act.Canonical (s.fenceFirst f) :=
  .ite (hf _ h) (.ok h.waitAgain)

theorem State.MemoriesCanonical.sendParts {id host after i parts} :
    (s.sendParts id host after i parts).MemoriesCanonical := by
  induction parts generalizing s i with
  | nil => exact h
  | cons p rest ih => exact ih h.sendFrom

theorem State.MemoriesCanonical.holdFar {id eas dest} : (s.holdFar id eas dest).MemoriesCanonical :=
  h.modMe.advance.ite h.modMe.waitNext

theorem State.MemoriesCanonical.sendInOrder {id host parts} : (s.sendInOrder id host parts).MemoriesCanonical :=
  h.sendParts.modMe

theorem State.MemoriesCanonical.sendFar {dest parts host before} (hf : ∀ t, t.MemoriesCanonical → (before
    t).MemoriesCanonical) :
    (s.sendFar dest parts host before).MemoriesCanonical := by
  unfold State.sendFar
  split
  · exact h.waitAgain
  · exact (hf _ h).update.sendInOrder.holdFar

theorem State.MemoriesCanonical.sendDevice {dest ea size write} :
    (s.sendDevice dest ea size write).MemoriesCanonical :=
  h.waitAgain.ite h.update.sendFrom.modMe.waitNext

theorem State.MemoriesCanonical.spStore {ea b} : (s.spStore ea b).MemoriesCanonical :=
  h.modCoreBy fun _ h => h.spWrite

/-! ## Machine/Ends -/

theorem State.MemoriesCanonical.setEnd {p j e} : (s.setEnd p j e).MemoriesCanonical := h.modCore

theorem State.MemoriesCanonical.sendToEnd {p plcn pend flits mk after} :
    (s.sendToEnd p plcn pend flits mk after).MemoriesCanonical :=
  h.sendFrom

theorem State.MemoriesCanonical.answerEnd {p j plcn pend x taken} :
    (s.answerEnd p j plcn pend x taken).MemoriesCanonical := by
  unfold State.answerEnd
  dsimp only
  split
  · split
    · exact h.sendFrom
    · exact h
  · exact h.sendFrom.ite h.sendToEnd

theorem State.MemoriesCanonical.nackEnd {p j plcn pend x} : (s.nackEnd p j plcn pend x).MemoriesCanonical :=
  h.answerEnd

theorem State.MemoriesCanonical.sendMessage {j x clear} : (s.sendMessage j x clear).MemoriesCanonical :=
  h.setEnd.sendToEnd.logAppend.waitNext

theorem State.MemoriesCanonical.latchGrant {p} : (s.latchGrant p).MemoriesCanonical := by
  unfold State.latchGrant
  dsimp only
  split
  · exact h
  · exact h.modBlock.sendToEnd.ite h

theorem State.MemoriesCanonical.latchOffer {p lcn endNo fmt size} :
    (s.latchOffer p lcn endNo fmt size).MemoriesCanonical :=
  h.modBlock.latchGrant

theorem State.MemoriesCanonical.mxeKick {blk n} : (s.mxeKick blk n).MemoriesCanonical := h.postCore

theorem State.MemoriesCanonical.mxeNext {blk} : (s.mxeNext blk).MemoriesCanonical := h.mxeKick

theorem State.MemoriesCanonical.cpeKick {blk} : (s.cpeKick blk).MemoriesCanonical := h.postCore

theorem State.MemoriesCanonical.cpeWorkOf {p k w} : (s.cpeWorkOf p k w).MemoriesCanonical :=
  h.modBlock.cpeKick

theorem State.MemoriesCanonical.cpeWork {p w} : (s.cpeWork p w).MemoriesCanonical := h.cpeWorkOf

/-! ## Machine/Channel -/

theorem State.MemoriesCanonical.rebound {p j slot b} : (s.rebound p j slot b).MemoriesCanonical := by
  unfold State.rebound
  dsimp only
  split
  · exact h.rearrive
  · split
    · exact h.putBack.logForget.latchOffer
    · exact h.logClaim.rearrive

theorem State.MemoriesCanonical.logBound {p slot j x} : (s.logBound p slot j x).MemoriesCanonical := by
  unfold State.logBound
  split
  · exact h.logClaim
  · exact h.logArrival

theorem State.MemoriesCanonical.logUnparked {p j} : (s.logUnparked p j).MemoriesCanonical := by
  unfold State.logUnparked
  split
  · exact h.logForget
  · exact h

theorem State.MemoriesCanonical.bindEnd {p j slot v} : (s.bindEnd p j slot v).MemoriesCanonical := by
  unfold State.bindEnd
  dsimp only
  split
  · split
    · split
      · split
        · exact h.crystalBound.setEnd.logUnparked.latchOffer
        · exact h.crystalBound.setEnd.logBound
        · exact h.crystalBound.setEnd
      · exact h.crystalBound.nackEnd.setEnd.logUnparked.rearrive
    · split
      · split
        · exact h.crystalBound.setEnd.logUnparked.latchOffer
        · exact h.crystalBound.setEnd.logBound
        · exact h.crystalBound.setEnd
      · exact h.crystalBound.nackEnd.setEnd.logUnparked.rearrive
  · exact h.setEnd.rebound

theorem State.MemoriesCanonical.replaySend {j row clear before} (hf : ∀ t, t.MemoriesCanonical → (before
    t).MemoriesCanonical) :
    (s.replaySend j row clear before).MemoriesCanonical :=
  (hf _ h.replayed).modMe.advance.ite (h.replayed.takeTrap.ite (hf _ h.replayed).setEnd.waitNext)

theorem State.MemoriesCanonical.sendOrReplay {j x clear before} (hf : ∀ t, t.MemoriesCanonical → (before
    t).MemoriesCanonical) :
    Act.Canonical (s.sendOrReplay j x clear before) := by
  unfold State.sendOrReplay
  split
  · exact .ok (h.replaySend hf)
  · exact .ok (hf _ h).sendMessage

theorem State.MemoriesCanonical.sendWord {a j} : Act.Canonical (s.sendWord a j) :=
  .bind fun _ => .bind fun _ => h.fenceFirst fun _ h => h.sendOrReplay fun _ h => h

theorem State.MemoriesCanonical.execSnd {g a j} : Outcome.Canonical (execSnd g a j s) :=
  h.act fun _ h => h.sendWord

theorem State.MemoriesCanonical.execSnd16 {d a} : Outcome.Canonical (execSnd16 d a s) :=
  h.act fun _ h => h.sendWord

theorem State.MemoriesCanonical.execSndv {g a j} : Outcome.Canonical (execSndv g a j s) := by
  unfold Machine.execSndv
  refine h.actV fun _ h => .bind fun _ => .bind fun _ => ?_
  split
  · exact .pure h.waitAgain
  · exact h.fenceFirst fun _ h => h.sendOrReplay fun _ h => h.popAll

theorem State.MemoriesCanonical.execBsnd {g a j} : Outcome.Canonical (execBsnd g a j s) :=
  h.act fun _ h => .bind fun _ => .bind fun _ => .bind fun _ => .bind fun _ => h.fenceFirst fun _ h => h.sendOrReplay
    fun _ h => h

theorem State.MemoriesCanonical.receiveWait {j} : (s.receiveWait j).MemoriesCanonical :=
  h.setEnd.waitAgain

theorem State.MemoriesCanonical.takeMessage {p j} : (s.takeMessage p j).MemoriesCanonical :=
  h.crystalTaken.setEnd.answerEnd.logSettle

theorem State.MemoriesCanonical.holderUpdate {d j r} : (s.holderUpdate d j r).MemoriesCanonical := by
  unfold State.holderUpdate
  dsimp only
  split
  · exact h.modMe.takeMessage.advance
  · exact h.fresh.modCore.sendFrom.waitNext

theorem State.MemoriesCanonical.retake {p j} : (s.retake p j).MemoriesCanonical := h.setEnd.rearrive

/-- What taking a message does keeps the memories canonical. -/
theorem State.MemoriesCanonical.taken {j x live take} {t : State} (hr : t.received j = some (x, live, take)) :
    (take s).MemoriesCanonical := by
  simp only [State.received] at hr
  split at hr
  · obtain ⟨_, _, he⟩ := Option.map_eq_some_iff.1 hr
    cases he
    exact h.retake
  · split at hr
    · cases hr
      exact h.replayed.rearrive
    · split at hr
      · obtain ⟨_, _, he⟩ := Option.map_eq_some_iff.1 hr
        cases he
        exact h.takeMessage
      · cases hr

theorem State.MemoriesCanonical.receiveWord {d j} : Act.Canonical (s.receiveWord d j) := by
  refine .bind fun _ => ?_
  split
  · rename_i hr
    exact .bind fun _ => .bind fun _ => .ite (.pure h.holderUpdate) (.pure (h.modMe.taken hr).advance)
  · exact .pure h.receiveWait

theorem State.MemoriesCanonical.execRcvv {g d j} : Outcome.Canonical (execRcvv g d j s) := by
  refine h.actV fun _ h => .bind fun _ => ?_
  split
  · rename_i hr
    refine .bind fun _ => ?_
    split
    · exact .pure h.waitAgain
    · exact .pure (h.writeVec.taken hr).advance
  · exact .pure h.receiveWait

theorem State.MemoriesCanonical.execBrcv {g a j} : Outcome.Canonical (execBrcv g a j s) := by
  refine h.act fun _ h => .bind fun _ => .bind fun _ => .bind fun _ => ?_
  dsimp only
  split
  · rename_i hr
    exact .pure (h.taken hr).advance
  · exact .bind fun _ => .bind fun _ => .pure h.setEnd.waitNext.cpeWork
  · exact .pure h.receiveWait

theorem State.MemoriesCanonical.select {d a rotate dl} : Act.Canonical (s.select d a rotate dl) := by
  unfold State.select
  refine .bind fun _ => .bind fun _ => .bind fun _ => ?_
  split
  · exact .pure (h.replayed.modMe.ite h.replayed).modMe.advance
  · dsimp only
    split
    · exact .pure (h.logAppend.modMe.ite h.logAppend).modMe.advance
    · exact .ite (.pure (h.logAppend.modMe.ite h.logAppend).modMe.advance) (.pure h.waitAgain.postAt)
    · exact .pure h.waitAgain

/-! ## Machine/Control -/

theorem State.MemoriesCanonical.jump {t} : (s.jump t).MemoriesCanonical := h.modMe

theorem State.MemoriesCanonical.markDead {d} : Act.Canonical (s.markDead d) := by
  unfold State.markDead
  split
  · exact .error
  · exact .ok h.modMe

theorem State.MemoriesCanonical.call {d t} : Act.Canonical (s.call d t) :=
  .seq h.markDead fun _ h => .bind fun _ => .pure h.modMe.jump

/-! ## Machine/Jobs -/

theorem State.MemoriesCanonical.finishCheck {p} : (s.finishCheck p).MemoriesCanonical := by
  unfold State.finishCheck
  dsimp only
  split
  · exact h
  · split
    · exact h
    · split
      · exact h
      · exact (h.meterStop.modPart.free.post.ite h.meterStop.modPart).ite h

theorem State.MemoriesCanonical.startStrand {p k x n} : (s.startStrand p k x n).MemoriesCanonical :=
  h.update.setStrand

theorem State.MemoriesCanonical.rejoin {p} : (s.rejoin p).MemoriesCanonical := by
  unfold State.rejoin
  dsimp only
  split
  · exact h
  · split
    · exact h.modPart.meterStart.ite h
    · exact h

theorem State.MemoriesCanonical.emptySlot {p k} : (s.emptySlot p k).MemoriesCanonical := h.modCore

theorem State.MemoriesCanonical.shippedSlot {p k} : (s.shippedSlot p k).MemoriesCanonical :=
  h.modCore

/-! ## Machine/System -/

theorem State.MemoriesCanonical.arrive {p slot b} : (s.arrive p slot b).MemoriesCanonical :=
  (h.modCore.logAppend.foldl fun _ _ h => h.postCore).ite h.modCore.logAppend

theorem State.MemoriesCanonical.execBarr {g b} : Outcome.Canonical (execBarr g b s) := by
  unfold Machine.execBarr
  refine h.act fun _ h => .bind fun _ => ?_
  split
  · exact .pure h.replayed.advance
  · exact .ite (.pure h.waitNext) (.pure h.arrive.advance)

theorem State.MemoriesCanonical.execBar {g b} : Outcome.Canonical (execBar g b s) := by
  unfold Machine.execBar
  refine h.act fun _ h => .bind fun _ => ?_
  split
  · exact .ite (.pure h.replayed.advance) (.pure h.replayed.waitNext)
  · exact .ite (.pure h.waitNext) (.pure h.arrive.waitNext)

theorem State.MemoriesCanonical.meetRelease {p b k} : (s.meetRelease p b k).MemoriesCanonical := by
  unfold State.meetRelease
  split
  · exact h
  · split
    · exact h.ite (h.wake.ite (h.ite (h.arrive.modStrand.ite h.arrive.wake)))
    · exact h

theorem State.MemoriesCanonical.execWtuTargetReached : Outcome.Canonical (execWtuTargetReached s) := by
  unfold Machine.execWtuTargetReached
  refine .next ?_
  split
  · split
    · exact h.setStrand.ite h
    · exact h
  · exact h

theorem State.MemoriesCanonical.execRdt {g d} : Outcome.Canonical (execRdt g d s) := by
  unfold Machine.execRdt
  refine h.act fun _ h => .bind fun _ => ?_
  split
  · exact h.replayed.putInt
  · exact h.logAppend.putInt

theorem State.MemoriesCanonical.execHlt {g} : Outcome.Canonical (execHlt g s) := by
  unfold Machine.execHlt
  refine h.act fun _ h => h.fenceFirst fun _ h => ?_
  split
  · exact .error
  · exact .ok h.emptySlot.finishCheck

theorem State.MemoriesCanonical.writeCsr {n w} : (s.writeCsr n w).MemoriesCanonical :=
  h.modMe.modCoreBy fun _ h => h.writeCsr

theorem State.MemoriesCanonical.execDbg {g a} : Outcome.Canonical (execDbg g a s) :=
  h.act fun _ h => .bind fun _ => .bind fun _ => .ite (.pure h.advance.postCore) (.ite (.pure h.advance.modStrand)
    (.pure h.advance))

theorem State.MemoriesCanonical.execDebugRegisterWrite : Outcome.Canonical (execDebugRegisterWrite s) :=
  .next (((h.ite h.modStrand).ite (h.modStrand.ite (h.modStrand.ite (h.modStrand.ite (h.modStrand.ite (h.ite
    h.modStrand)))))).ite h)

/-! ## Machine/Fetch -/

theorem State.MemoriesCanonical.refusedRelaxed : Answer.Canonical s.refusedRelaxed := by
  unfold State.refusedRelaxed
  dsimp only
  split
  · exact .none
  · exact .ite (.some h.waitAgain) (.some h.modMe.takeTrap)

theorem State.MemoriesCanonical.fetchMiss {line} : (s.fetchMiss line).MemoriesCanonical := by
  unfold State.fetchMiss
  dsimp only
  split
  · exact h.waitAgain
  · split
    · exact h.takeTrap
    · exact h.modBlock.sendFrom.waitAgain

theorem State.MemoriesCanonical.present {len bits} : (s.present len bits).1.MemoriesCanonical := by
  unfold State.present
  dsimp only
  split
  · dsimp only
    exact h.update.takeTrap
  · split
    · dsimp only
      exact h.update.takeTrap
    · split
      · dsimp only
        exact h.update.takeTrap
      · split
        · split
          · exact h.update.advance
          · split
            · split
              · exact h.update.waitAgain
              · exact h.update
            · split
              · exact h.update.waitAgain
              · exact h.update
        · split
          · exact h.update.advance
          · split
            · split
              · exact h.update.waitAgain
              · exact h.update
            · split
              · exact h.update.waitAgain
              · exact h.update

theorem State.MemoriesCanonical.issue {t p k} : (s.issue t p k).1.MemoriesCanonical := by
  unfold State.issue
  dsimp only
  split
  · exact h.update.modMe.takeTrap
  · split
    · rename_i ht
      exact h.update.modMe.refusedRelaxed _ ht
    · split
      · exact h.update.modMe.present
      · split
        · exact h.update.modMe.takeTrap
        · exact h.update.modMe.fetchMiss
        · exact h.update.modMe.modMe.present

theorem State.MemoriesCanonical.afterIssue : s.afterIssue.MemoriesCanonical := h.modStrand.ite h

theorem State.MemoriesCanonical.atEvent {d rest} : (s.atEvent d rest).MemoriesCanonical := h.update

/-! ## Machine/MemoryOps -/

theorem State.MemoriesCanonical.load {d a ea n signed} : Act.Canonical (s.load d a ea n signed) := by
  unfold State.load
  refine .bind fun _ => ?_
  split
  · exact .pure h.modMe.advance
  · exact .pure h.sendDevice
  · exact .pure (h.sendFar fun _ h => h)
  · exact .pure (h.sendFar fun _ h => h)

theorem State.MemoriesCanonical.store {d a ea n} : Act.Canonical (s.store d a ea n) := by
  unfold State.store
  refine .bind fun _ => ?_
  split
  · exact .pure h.spStore.advance
  · exact .pure h.sendDevice
  · exact .pure (h.advance.ite (h.sendFar fun _ h => h))
  · exact .pure (h.advance.ite (h.sendFar fun _ h => h))

theorem State.MemoriesCanonical.loadFull {d a o sz clear} : Act.Canonical (s.loadFull d a o sz clear) :=
  .bind fun _ => .bind fun _ => .bind fun _ => .bind fun _ => .ite (.pure ((((h.modMe.modCoreBy fun _ h =>
    h.setFe).wakeFullEmpty).ite h.modMe).advance)) (.pure h.waitAgain)

theorem State.MemoriesCanonical.execStE {g d a o sz} : Outcome.Canonical (execStE g d a o sz s) :=
  h.act fun _ h => .bind fun _ => .bind fun _ => .bind fun _ => .bind fun _ => .ite (.pure h.waitAgain) (.pure
    (h.spStore.modCoreBy fun _ h => h.setFe).wakeFullEmpty.advance)

theorem State.MemoriesCanonical.execLdc {g d a o} : Outcome.Canonical (execLdc g d a o s) := by
  unfold Machine.execLdc
  refine h.act fun _ h => .bind fun _ => ?_
  split
  · exact .bind fun _ => .bind fun _ => .pure (h.modMe.modCore.ite h.modMe).advance
  · exact .pure (h.sendFar fun _ h => h)
  · exact .pure (h.sendFar fun _ h => h)

theorem State.MemoriesCanonical.execStc {g d a o} : Outcome.Canonical (execStc g d a o s) := by
  unfold Machine.execStc
  refine h.act fun _ h => .bind fun _ => .bind fun _ => .bind fun _ => .bind fun _ => .bind fun _ => .bind fun _ =>
    .bind fun _ => ?_
  split
  · exact .pure ((h.modCoreBy fun _ h => h.spPutReg).modMe.ite (h.modCoreBy fun _ h => h.spPutReg)).advance
  · exact .pure (h.advance.ite (h.sendFar fun _ h => h))

theorem State.MemoriesCanonical.execVld {g d a o} : Outcome.Canonical (execVld g d a o s) := by
  unfold Machine.execVld
  refine h.actV fun _ h => .bind fun _ => ?_
  split
  · exact .pure h.waitAgain
  · refine .bind fun _ => ?_
    split
    · exact .pure h.writeVec.advance
    · exact .pure (h.sendFar fun _ h => h)

theorem State.MemoriesCanonical.execVst {g d a o} : Outcome.Canonical (execVst g d a o s) := by
  unfold Machine.execVst
  refine h.actV fun _ h => .bind fun _ => ?_
  split
  · exact .pure h.waitAgain
  · refine .bind fun _ => ?_
    split
    · exact .pure h.popAll.spStore.advance
    · exact .pure (h.popAll.advance.ite (h.sendFar fun _ h => h.popAll))

theorem State.MemoriesCanonical.loadElements {d a reads w addrs} :
    Act.Canonical (s.loadElements d a reads w addrs) := by
  unfold State.loadElements
  refine .bind fun _ => ?_
  split
  · exact .pure h.waitAgain
  · refine .bind fun _ => ?_
    split
    · exact .pure h.popAll.writeVec.advanceBy
    · exact .pure (h.sendFar fun _ h => h.popAll)

theorem State.MemoriesCanonical.storeElements {d a reads w addrs} :
    Act.Canonical (s.storeElements d a reads w addrs) := by
  unfold State.storeElements
  refine .bind fun _ => ?_
  split
  · exact .pure h.waitAgain
  · refine .bind fun _ => ?_
    split
    · exact .pure (h.popAll.foldl fun _ _ h => h.spStore).advanceBy
    · exact .pure (h.popAll.advance.ite (h.sendFar fun _ h => h.popAll))

theorem State.MemoriesCanonical.execPushm {g d a} : Outcome.Canonical (execPushm g d a s) :=
  h.act fun _ h => .bind fun _ => .bind fun _ => .pure (((h.foldl fun _ _ h => h.modCoreBy fun _ h =>
    h.spPutReg).modMe).advanceBy)

theorem State.MemoriesCanonical.execPopm {g d a} : Outcome.Canonical (execPopm g d a s) := by
  refine h.act fun _ h => .bind fun _ => ?_
  split
  · exact .error
  · dsimp only
    split
    · exact .error
    · exact .pure h.modMe.modCore.advanceBy

theorem State.MemoriesCanonical.amo {d a b w op} : Act.Canonical (s.amo d a b w op) := by
  refine .bind fun _ => ?_
  cases (s.me.reg a).place with
  | window => exact .pure (.advance (.modMe (h.spStore.ite h)))
  | _ => exact .pure (h.sendFar fun _ h => h)

theorem State.MemoriesCanonical.vamo {d a b w op} : Act.Canonical (s.vamo d a b w op) := by
  unfold State.vamo
  refine .bind fun _ => ?_
  split
  · exact .pure h.waitAgain
  · refine .bind fun _ => ?_
    split
    · exact .pure h.popAll.spStore.writeVec.advance
    · exact .pure (h.sendFar fun _ h => h.popAll)

theorem State.MemoriesCanonical.contribute {a reads x} : Act.Canonical (s.contribute a reads x) :=
  .pure (h.sendFar fun _ h => h.popAll.modCore)

theorem State.MemoriesCanonical.execAcc {g a b l f} : Outcome.Canonical (execAcc g a b l f s) := by
  unfold Machine.execAcc
  refine h.actV fun _ h => .bind fun _ => ?_
  split
  · exact .pure h.waitAgain
  · exact .bind fun _ => .bind fun _ => .bind fun _ => .bind fun _ => .bind fun _ => h.contribute

theorem State.MemoriesCanonical.maccMx {d a b fmt} : Act.Canonical (s.maccMx d a b fmt) := by
  unfold State.maccMx
  refine .bind fun _ => ?_
  split
  · exact .pure h.waitAgain
  · exact .bind fun _ => .bind fun _ => .bind fun _ => .bind fun _ => h.contribute

theorem State.MemoriesCanonical.feRange {a b v} : Act.Canonical (s.feRange a b v) :=
  .bind fun _ => .bind fun _ => .bind fun _ => .pure (h.modCoreBy fun _ h => h.setFe).wakeFullEmpty.advance

/-! ## Machine/Arrivals -/

theorem State.MemoriesCanonical.checkWaits {p} : (s.checkWaits p).MemoriesCanonical := by
  unfold State.checkWaits
  refine h.foldl fun _ _ h => ?_
  split
  · split
    · exact h.wake.ite h
    · exact h.postCore.ite h
    · exact h.postCore.ite h
    · exact h
  · exact h

theorem State.MemoriesCanonical.trapWait {p k t} : (s.trapWait p k t).MemoriesCanonical :=
  h.unpop.trapAt

theorem State.MemoriesCanonical.farWrite {p k f b tag} : Act.Canonical (s.farWrite p k f b tag) := by
  unfold State.farWrite
  dsimp only
  split
  · exact .ok h
  · exact .ok h.modStrand
  · exact .ite .error (.ite .error (.ok h.modStrand))
  · exact .ok h.update.writeVec.update
  · exact .ok h.update.writeVec.update
  · exact .ok h.modStrand
  · exact .ok h.update.writeVec.update

theorem State.MemoriesCanonical.farDone {p k f b tag} : (s.farDone p k f b tag).MemoriesCanonical := by
  have refused (t : Trap) : State.MemoriesCanonical
      (if f.relaxed then
        s.modStrand p k (fun x =>
          { x with far := x.far.map (fun g => if g.id = f.id then { f with refused := some (0, t) } else g) })
      else if (s.strand p k).wait == .far f.id then
        (s.modStrand p k fun x => { x with far := x.far.filter (fun g => g.id != f.id) }).trapWait p k t
      else s.modStrand p k fun x => { x with far := x.far.filter (fun g => g.id != f.id) }) :=
    h.modStrand.ite (h.modStrand.trapWait.ite h.modStrand)
  refine .checkWaits ?_
  split
  · exact refused _
  · split
    · exact refused _
    · rename_i hw
      exact (h.farWrite.seqRight _ hw).modStrand.wake.ite (h.farWrite.seqRight _ hw).modStrand

theorem State.MemoriesCanonical.farReply {p k id j x} : (s.farReply p k id j x).MemoriesCanonical := by
  unfold State.farReply
  split
  · dsimp only
    split
    · exact (h.modStrand.ite h.farDone).ite h.modStrand
    · exact h.farDone.ite h.modStrand
  · exact h

theorem State.MemoriesCanonical.pushLanded {p k} : (s.pushLanded p k).MemoriesCanonical := by
  unfold State.pushLanded
  split
  · refine h.foldl fun _ _ h => ?_
    split
    · exact h.ite h.farDone
    · exact h
  · exact h

theorem State.MemoriesCanonical.wakeLine {p} : (s.wakeLine p).MemoriesCanonical :=
  h.modCore.postCore.ite h.modCore

theorem State.MemoriesCanonical.execFarReplyArrival : Outcome.Canonical (execFarReplyArrival s) := by
  unfold Machine.execFarReplyArrival
  refine .next ?_
  split
  · exact h
  · dsimp only
    split
    · exact h.dropPacket.wakeLine.ite h.dropPacket.farReply
    · exact h.dropPacket.farReply
    · exact h.dropPacket.farReply
    · exact h.dropPacket.wake.ite h.dropPacket
    · exact h.dropPacket

theorem State.MemoriesCanonical.execIcacheLineFill : Outcome.Canonical (execIcacheLineFill s) := by
  unfold Machine.execIcacheLineFill
  refine .next ?_
  split
  · exact h
  · dsimp only
    split
    · refine h.dropPacket.modBlock.foldl fun _ _ h => ?_
      split
      · split
        · exact h.wake
        · exact h.trapWait
      · exact h
    · exact h.dropPacket

theorem State.MemoriesCanonical.wakeEnd {p k j} : (s.wakeEnd p k j).MemoriesCanonical := by
  unfold State.wakeEnd
  split
  · split
    · exact h.wake.ite h
    · exact h.wake.ite h
    · exact h
  · exact h

theorem State.MemoriesCanonical.arriveAt {p j fromLcn fromEnd x} :
    (s.arriveAt p j fromLcn fromEnd x).1.MemoriesCanonical := by
  unfold State.arriveAt
  dsimp only
  split
  · dsimp only
    exact h.setEnd.logArrival
  · split
    · dsimp only
      exact h.setEnd.logArrival.wakeEnd
    · dsimp only
      exact h

theorem State.MemoriesCanonical.laneMessage {p j fromLcn fromEnd x} :
    (s.laneMessage p j fromLcn fromEnd x).MemoriesCanonical := by
  unfold State.laneMessage
  split
  · rename_i ha
    exact h.arriveAt.fst ha
  · rename_i ha
    exact (h.arriveAt.fst ha).nackEnd

theorem State.MemoriesCanonical.noteClat {p e} : (s.noteClat p e).MemoriesCanonical :=
  h.modCoreBy fun _ h => h.ite h.update

theorem State.MemoriesCanonical.laneAck {p j} : (s.laneAck p j).MemoriesCanonical := by
  unfold State.laneAck
  dsimp only
  split
  · exact h.logSettle.crystalReply.noteClat.setEnd
  · split
    · split
      · refine .wake ?_
        split
        · exact h.logSettle.crystalReply.noteClat.setEnd.modStrand
        · exact h.logSettle.crystalReply.noteClat.setEnd
      · exact h.logSettle.crystalReply.noteClat.setEnd
    · exact h.logSettle.crystalReply

theorem State.MemoriesCanonical.laneNack {p j absent} : (s.laneNack p j absent).MemoriesCanonical :=
  h.logSettle.crystalReply.setEnd.ite ((h.logSettle.crystalReply.setEnd.trapWait.ite
    h.logSettle.crystalReply.setEnd).ite h.logSettle.crystalReply)

theorem State.MemoriesCanonical.execAltDeadline : Outcome.Canonical (execAltDeadline s) := by
  unfold Machine.execAltDeadline
  refine .next ?_
  split
  · split
    · exact h.wake.ite h
    · exact h
  · exact h

/-! ## Machine/Engine -/

theorem State.MemoriesCanonical.queueKick {blk eng} : (s.queueKick blk eng).MemoriesCanonical :=
  h.postCore

theorem State.MemoriesCanonical.awaitEntry {eng} : (s.awaitEntry eng).MemoriesCanonical :=
  h.waitNext.queueKick

theorem State.MemoriesCanonical.execMxq {g d a b e} : Outcome.Canonical (execMxq g d a b e s) :=
  h.act fun _ h => .bind fun _ => .bind fun _ => .when fun _ => .when fun _ => .when fun _ => .when fun _ => .when fun
    _ => .when fun _ => .when fun _ => .when fun _ => .bind fun _ => h.fenceFirst fun _ h => .ok h.modBlock.awaitEntry

theorem State.MemoriesCanonical.execCpq {g d a b m} : Outcome.Canonical (execCpq g d a b m s) := by
  unfold Machine.execCpq
  refine h.act fun _ h => .bind fun _ => .bind fun _ => .bind fun _ => .bind fun _ => .bind fun _ => .bind fun _ =>
    .bind fun _ => .bind fun _ => .bind fun _ => .bind fun _ => h.fenceFirst fun _ h => ?_
  split
  · refine .ok (.advance (.modMe ?_))
    split
    · exact h.modBlock
    · exact h
  · exact .ok h.modBlock.awaitEntry

/-! ## Machine/Vector -/

theorem State.MemoriesCanonical.vecArith {g d t a b r n f} : Outcome.Canonical (s.vecArith g d t a b r n f) :=
  h.vector

theorem State.MemoriesCanonical.vecMinMax {g d t a b u larger} : Outcome.Canonical (s.vecMinMax g d t a b u larger) :=
  h.vector

theorem State.MemoriesCanonical.vecUnary {g d t a f} : Outcome.Canonical (s.vecUnary g d t a f) :=
  h.vector

theorem State.MemoriesCanonical.vecFma {g d t a b r negProd negAdd} :
    Outcome.Canonical (s.vecFma g d t a b r negProd negAdd) :=
  h.vector

theorem State.MemoriesCanonical.vecSpecial {g d t a code} : Outcome.Canonical (s.vecSpecial g d t a code) :=
  h.vector

theorem State.MemoriesCanonical.execVcvt {g d a e c r} : Outcome.Canonical (execVcvt g d a e c r s) := by
  unfold Machine.execVcvt
  refine h.actV fun _ h => .bind fun _ => ?_
  split
  · exact .pure h.waitAgain
  · exact .pure h.popAll.modMe.writeVec.advance

theorem State.MemoriesCanonical.execVredx {g t a b} : Outcome.Canonical (execVredx g t a b s) := by
  unfold Machine.execVredx
  refine h.actV fun _ h => .bind fun _ => ?_
  split
  · exact .pure h.waitAgain
  · exact .bind fun _ => .bind fun _ => .bind fun _ => .bind fun _ => .bind fun _ => .pure ((h.popAll.modCoreBy fun _
      h => h.spWrite).advanceBy)

theorem State.MemoriesCanonical.vecBits {g d a b f} : Outcome.Canonical (s.vecBits g d a b f) :=
  h.vector

theorem State.MemoriesCanonical.vecInt {g d t a b f} : Outcome.Canonical (s.vecInt g d t a b f) :=
  h.vector

theorem State.MemoriesCanonical.vecPick {g d t reads a f} : Outcome.Canonical (s.vecPick g d t reads a f) :=
  h.vector

theorem State.MemoriesCanonical.execVext {g d t a idx} : Outcome.Canonical (execVext g d t a idx s) := by
  unfold Machine.execVext
  refine h.actV fun _ h => .bind fun _ => ?_
  split
  · exact .pure h.waitAgain
  · exact h.popAll.putInt

/-! ## Machine/Matrix -/

theorem State.MemoriesCanonical.granted {blk eng i lane slot uses d} :
    (s.granted blk eng i lane slot uses d).MemoriesCanonical :=
  h.modStrand.wake.ite h

theorem State.MemoriesCanonical.onceNow {i} : (s.onceNow i).MemoriesCanonical := h.update

theorem State.MemoriesCanonical.execQueueEntryGrant : Outcome.Canonical (execQueueEntryGrant s) := by
  refine .next (h.modBlock.queueKick.ite (.ite ?_ ?_))
  · refine .ite (.postCore ?_) ?_
    all_goals refine .ite ?_ (.mxeKick (.mxeKick ?_))
    all_goals exact h.onceNow.setBlock.foldl fun _ _ h => h.granted
  · refine .ite (.postCore ?_) ?_
    all_goals exact h.onceNow.setBlock.foldl fun _ _ h => h.granted.cpeWorkOf

theorem State.MemoriesCanonical.jobWaiters {blk eng i lane uses code} :
    (s.jobWaiters blk eng i lane uses code).MemoriesCanonical := by
  unfold State.jobWaiters
  refine h.foldlFst fun _ _ h => ?_
  dsimp only
  split
  · split
    · split
      · split
        · dsimp only
          exact h.modBlock.trapWait.queueKick
        · dsimp only
          exact h.wake
      · exact h
    · exact h
  · exact h

theorem State.MemoriesCanonical.jobEnded {blk eng i code} : (s.jobEnded blk eng i code).MemoriesCanonical := by
  unfold State.jobEnded
  refine .ite ?_ (.ite (.mxeKick ?_) (.mxeNext ?_))
  all_goals exact .finishCheck (.checkWaits (.ite h.setBlock.jobWaiters.postCore h.setBlock.jobWaiters))

theorem State.MemoriesCanonical.modJob {blk i f} : (s.modJob blk i f).MemoriesCanonical :=
  h.modBlock

theorem State.MemoriesCanonical.mxeJobFault {blk order code} : (s.mxeJobFault blk order code).MemoriesCanonical := by
  unfold State.mxeJobFault
  split
  · exact h.jobEnded
  · exact h

theorem State.MemoriesCanonical.mxeMayComplete {blk order} : (s.mxeMayComplete blk order).MemoriesCanonical := by
  unfold State.mxeMayComplete
  split
  · exact h.postCore.ite h
  · exact h

theorem State.MemoriesCanonical.execMxeJobCompletion : Outcome.Canonical (execMxeJobCompletion s) := by
  unfold Machine.execMxeJobCompletion
  refine .next ?_
  split
  · exact h.jobEnded.ite h
  · exact h

theorem State.MemoriesCanonical.arrayBusy {blk l n} : (s.arrayBusy blk l n).MemoriesCanonical :=
  h.modBlock.mxeKick

theorem State.MemoriesCanonical.beginProduct {blk l i j} : (s.beginProduct blk l i j).MemoriesCanonical := by
  unfold State.beginProduct
  refine .arrayBusy (.chargeCore (.ite (.latchGrant (.modBlock ?_)) ?_))
  all_goals refine .ite (.sendToEnd (.modBlock ?_)) ?_
  all_goals exact .modJob (.postCore (.update (.ite h.modBlock h)))

theorem State.MemoriesCanonical.beginDrain {blk l i j} : (s.beginDrain blk l i j).MemoriesCanonical :=
  (h.foldl fun _ _ h => h.update.modBlock.postCore).modJob.chargeCore.arrayBusy

theorem State.MemoriesCanonical.execMxeStepBegin : Outcome.Canonical (execMxeStepBegin s) := by
  unfold Machine.execMxeStepBegin
  refine .next ?_
  split
  · exact h.onceNow
  · split
    · exact h.onceNow
    · exact h.onceNow.jobEnded
    · exact h.onceNow.modBlock.beginProduct.ite h.onceNow.modBlock.beginDrain

theorem State.MemoriesCanonical.writeMade {blk w order} : (s.writeMade blk w order).MemoriesCanonical := by
  unfold State.writeMade
  dsimp only
  split
  · exact h.modBlock.modJob.mxeMayComplete
  · exact h.modBlock

theorem State.MemoriesCanonical.execAccumulatorWrite : Outcome.Canonical (execAccumulatorWrite s) := by
  unfold Machine.execAccumulatorWrite
  refine .next ?_
  split
  · exact h
  · exact h.modBlock.writeMade

theorem State.MemoriesCanonical.execDrainGranuleWrite : Outcome.Canonical (execDrainGranuleWrite s) := by
  unfold Machine.execDrainGranuleWrite
  refine .next ?_
  split
  · exact h
  · dsimp only
    split
    · exact h.engineWrite.writeMade
    · exact h.engineWrite.modBlock.mxeJobFault

theorem State.MemoriesCanonical.execTileOffer : Outcome.Canonical (execTileOffer s) := by
  unfold Machine.execTileOffer
  refine .next ?_
  split
  · exact h
  · dsimp only
    split
    · exact h.dropPacket.setEnd.latchOffer.ite h.dropPacket.laneMessage
    · exact h.dropPacket

theorem State.MemoriesCanonical.execTileGrant : Outcome.Canonical (execTileGrant s) := by
  unfold Machine.execTileGrant
  refine .next ?_
  split
  · exact h
  · dsimp only
    split
    · exact h.dropPacket.modBlock.sendFrom.postCore.ite h.dropPacket
    · exact h.dropPacket

theorem State.MemoriesCanonical.execTileLands : Outcome.Canonical (execTileLands s) := by
  unfold Machine.execTileLands
  refine .next ?_
  split
  · exact h
  · dsimp only
    split
    · exact h.dropPacket.ite h.dropPacket.modBlock.mxeKick
    · exact h.dropPacket

theorem State.MemoriesCanonical.execOutBufferFree : Outcome.Canonical (execOutBufferFree s) := by
  unfold Machine.execOutBufferFree
  refine .next ?_
  split
  · exact h.modBlock.modJob.mxeMayComplete.mxeKick
  · exact h.modBlock.mxeKick

theorem State.MemoriesCanonical.tileOfferRefused {p j} : (s.tileOfferRefused p j).MemoriesCanonical :=
  h.modBlock.mxeJobFault.mxeNext.ite h

theorem State.MemoriesCanonical.execTileOfferNack : Outcome.Canonical (execTileOfferNack s) := by
  unfold Machine.execTileOfferNack
  refine .next ?_
  split
  · exact h
  · split
    · exact h.dropPacket.tileOfferRefused
    · exact h.dropPacket

/-! ## Machine/Slice -/

theorem State.MemoriesCanonical.hbmWrite {k b} : (s.hbmWrite k b).MemoriesCanonical :=
  h.updateHbm (Memory.wf_writeN b k h.hbm)

theorem State.MemoriesCanonical.panWrite {sp va b} : (s.panWrite sp va b).MemoriesCanonical := by
  unfold State.panWrite
  refine h.foldlFst fun _ _ h => ?_
  split
  · exact h.hbmWrite
  · exact h

theorem State.MemoriesCanonical.panSetTag {sp va} : (s.panSetTag sp va).MemoriesCanonical := by
  unfold State.panSetTag
  split
  · exact h.update
  · exact h

theorem State.MemoriesCanonical.modPan {n i f} : (s.modPan n i f).MemoriesCanonical := h.modSlice

theorem State.MemoriesCanonical.armSlice {n} : (s.armSlice n).MemoriesCanonical :=
  h.ite h.modSlice.postAt

theorem State.MemoriesCanonical.claim {n base bytes free i o} : (s.claim n base bytes free i o).MemoriesCanonical :=
  h.post.ite h.modSlice.postAt

theorem State.MemoriesCanonical.unclaim {n base} : (s.unclaim n base).MemoriesCanonical :=
  h.modSlice

theorem State.MemoriesCanonical.noteRefusal {r c} : (s.noteRefusal r c).MemoriesCanonical := by
  unfold State.noteRefusal
  split
  · exact h
  · exact h.modStrand

theorem State.MemoriesCanonical.sliceAnswer {n placed r x after} :
    (s.sliceAnswer n placed r x after).MemoriesCanonical := by
  unfold State.sliceAnswer
  refine .post (.modSlice (.update ?_))
  split
  · exact h.noteRefusal
  · exact h

theorem State.MemoriesCanonical.check {n r} : (s.check n r).1.MemoriesCanonical := by
  unfold State.check
  split
  · dsimp only
    exact h.sliceAnswer
  · dsimp only
    exact h.modSlice

theorem State.MemoriesCanonical.letIn {n r} : (s.letIn n r).MemoriesCanonical :=
  h.modSlice.armSlice.ite (h.check.modSlice.armSlice.ite h.check)

theorem State.MemoriesCanonical.checkQueue {n due} : (s.checkQueue n due).MemoriesCanonical :=
  h.foldl fun _ _ h => h.check.modSlice.ite h

theorem State.MemoriesCanonical.missSlice {n r} : (s.missSlice n r).MemoriesCanonical :=
  h.modSlice.ite (h.modSlice.modSlice.ite h.modSlice.modSlice.post)

theorem State.MemoriesCanonical.startWalks {n} : (s.startWalks n).MemoriesCanonical := by
  refine h.foldl fun _ _ h => ?_
  dsimp only
  split
  · exact h.ite h.post
  · exact h

theorem State.MemoriesCanonical.enterSlice {n r} : (s.enterSlice n r).MemoriesCanonical := by
  unfold State.enterSlice
  dsimp only
  split
  · exact h.modSlice.fresh.letIn.ite h.modSlice.fresh.missSlice
  · exact h.modSlice.fresh.missSlice

theorem State.MemoriesCanonical.atLink {n host rival i enter} (hf : ∀ t, t.MemoriesCanonical → (enter
    t).MemoriesCanonical) :
    (s.atLink n host rival i enter).MemoriesCanonical :=
  h.postDelayed.ite ((h.modSlice.ite h).postDelayed.ite (hf _ (h.modSlice.ite h)))

theorem State.MemoriesCanonical.execSliceRequestArrival : Outcome.Canonical (execSliceRequestArrival s) := by
  unfold Machine.execSliceRequestArrival
  refine .next ?_
  split
  · exact h
  · split
    · exact h.atLink fun _ h => h.dropPacket.enterSlice
    · exact h.dropPacket

theorem State.MemoriesCanonical.walkFails {n page} : (s.walkFails n page).MemoriesCanonical :=
  h.modSlice.foldl fun _ _ h => h.sliceAnswer

theorem State.MemoriesCanonical.walkFills {n page frame} : (s.walkFills n page frame).MemoriesCanonical :=
  h.modSlice.checkQueue.armSlice

theorem State.MemoriesCanonical.execTlbWalkEnd : Outcome.Canonical (execTlbWalkEnd s) := by
  unfold Machine.execTlbWalkEnd
  refine .next ?_
  split
  · exact h.modSlice.ite h.modSlice.post
  · split
    · exact h.walkFails
    · exact h.walkFills

theorem State.MemoriesCanonical.placeGroup {n k j group} : (s.placeGroup n k j group).MemoriesCanonical :=
  h.foldlFst fun _ _ h => h.update.modSlice.postAt

theorem State.MemoriesCanonical.placeAll {n k fuel used kept rest} :
    (s.placeAll n k fuel used kept rest).MemoriesCanonical := by
  induction fuel generalizing s used kept rest with
  | zero => exact h.modSlice
  | succ fuel ih =>
    cases rest with
    | nil => exact h.modSlice
    | cons r rest =>
      unfold State.placeAll
      refine (ih h).ite ?_
      split
      · exact h.modSlice
      · exact (h.modSlice.ite (ih h.placeGroup)).ite (ih h.placeGroup)

theorem State.MemoriesCanonical.rearm {n} : (s.rearm n).MemoriesCanonical :=
  h.modSlice.ite h.modSlice.armSlice

theorem State.MemoriesCanonical.resumeSlice {n} : (s.resumeSlice n).MemoriesCanonical :=
  h.checkQueue.startWalks.modSlice.ite h.checkQueue.startWalks.modSlice.armSlice

theorem State.MemoriesCanonical.startTest {n k} : (s.startTest n k).MemoriesCanonical :=
  h.modSlice.postAt

theorem State.MemoriesCanonical.sealWaits {n} : (s.sealWaits n).MemoriesCanonical := by
  unfold State.sealWaits
  refine h.foldl fun _ _ h => ?_
  split
  · exact h.post.ite h
  · exact h

theorem State.MemoriesCanonical.flushHeld {n basep} : (s.flushHeld n basep).MemoriesCanonical := by
  unfold State.flushHeld
  refine h.foldl fun _ _ h => ?_
  split
  · exact h.hbmWrite.modSlice.ite h
  · exact h

theorem State.MemoriesCanonical.chargeLines {r} : (s.chargeLines r).MemoriesCanonical :=
  h.chargeOwner

theorem State.MemoriesCanonical.execSlotPerform : Outcome.Canonical (execSlotPerform s) := by
  unfold Machine.execSlotPerform
  refine .next ?_
  split
  · exact h
  · dsimp only
    split
    · exact (h.update.ite h).chargeLines.modSlice.sliceAnswer
    · exact h.modSlice.sliceAnswer.ite (((h.ite ((h.hbmWrite.update.ite
        h.hbmWrite).chargeLines)).modSlice).sliceAnswer)
    · refine .post ?_
      split
      · exact h.chargeLines.sliceAnswer
      · split
        · exact h.chargeLines.sliceAnswer
        · split
          · exact h.chargeLines.modSlice.sliceAnswer
          · exact h.chargeLines.modSlice.sliceAnswer

theorem State.MemoriesCanonical.execReservedWrite : Outcome.Canonical (execReservedWrite s) := by
  unfold Machine.execReservedWrite
  refine .next ?_
  split
  · exact h
  · dsimp only
    split
    · exact h.modSlice
    · exact h.modSlice.hbmWrite

theorem State.MemoriesCanonical.execSliceReply : Outcome.Canonical (execSliceReply s) := by
  unfold Machine.execSliceReply
  refine .next ?_
  split
  · exact h
  · dsimp only
    split
    · exact h.modSlice
    · exact h.modSlice.sendSlice

theorem State.MemoriesCanonical.convert {n sp e res mode} : (s.convert n sp e res mode).MemoriesCanonical := by
  refine h.foldl fun _ _ h => h.foldl fun _ _ h => ?_
  split
  · exact h
  · exact h.updateHbm (Memory.wf_writeN _ _ h.hbm)

theorem State.MemoriesCanonical.zeroPan {n sp e} : (s.zeroPan n sp e).MemoriesCanonical := by
  refine h.foldl fun _ _ h => ?_
  split
  · exact h
  · exact h.updateHbm (Memory.wf_filter h.hbm)

theorem State.MemoriesCanonical.clearPanTags {n sp e} : (s.clearPanTags n sp e).MemoriesCanonical := by
  unfold State.clearPanTags
  refine h.foldl fun _ _ h => ?_
  split
  · exact h
  · exact h.update

theorem State.MemoriesCanonical.enterMint {n sp op} : (s.enterMint n sp op).MemoriesCanonical := by
  unfold State.enterMint
  split
  · exact h
  · exact h.modSlice.clearPanTags.zeroPan.ite h.modSlice.clearPanTags

/-! ## Machine/Copy -/

theorem State.MemoriesCanonical.modTransfer {blk f} : (s.modTransfer blk f).MemoriesCanonical :=
  h.modBlock

theorem State.MemoriesCanonical.postChunks {blk turn first chunks} :
    (s.postChunks blk turn first chunks).MemoriesCanonical :=
  h.foldl fun _ _ h => h.postCore

theorem State.MemoriesCanonical.cpeRequest {blk lane turn j va kind host after} :
    (s.cpeRequest blk lane turn j va kind host after).MemoriesCanonical :=
  h.sendFrom

theorem State.MemoriesCanonical.beginCopy {blk lane i j} : (s.beginCopy blk lane i j).MemoriesCanonical :=
  (h.modBlock.modBlock.foldl fun _ _ h => h.postCore).ite (h.modBlock.modBlock.postChunks.postCore.ite
    (h.modBlock.modBlock.foldl fun _ _ h => h.cpeRequest))

theorem State.MemoriesCanonical.beginPull {blk lane w j src n} : (s.beginPull blk lane w j src n).MemoriesCanonical :=
  h.modBlock.sendFrom

theorem State.MemoriesCanonical.beginCrystal {blk lane} : (s.beginCrystal blk lane).MemoriesCanonical := by
  unfold State.beginCrystal
  dsimp only
  split
  · exact h.modBlock.postCore.postCore
  · exact h.modBlock.postCore.sendFrom

theorem State.MemoriesCanonical.beginReload {blk lane pairs} : (s.beginReload blk lane pairs).MemoriesCanonical :=
  h.modBlock.postCore.ite (h.modBlock.foldl fun _ _ h => h.cpeRequest)

theorem State.MemoriesCanonical.startEmpty {p} : (s.startEmpty p).MemoriesCanonical := by
  unfold State.startEmpty
  refine .askBuddies (.finishCheck (.rescan ?_))
  split
  · exact (h.setCore h.core.update).postRecord
  · exact h.setCore h.core.update

theorem State.MemoriesCanonical.execCpeTurn : Outcome.Canonical (execCpeTurn s) := by
  unfold Machine.execCpeTurn
  refine .next ?_
  split
  · exact h
  · split
    · exact h
    · dsimp only
      split
      · split
        · exact h.setBlock.beginCopy
        · exact h.setBlock.cpeKick
      · exact h.setBlock.beginPull
      · exact h.setBlock.beginCrystal
      · exact h.setBlock.beginReload
      · exact h.setBlock

theorem State.MemoriesCanonical.execCpeLineReply : Outcome.Canonical (execCpeLineReply s) := by
  unfold Machine.execCpeLineReply
  refine .next ?_
  split
  · exact h
  · replace h := h.dropPacket (id := s.arg.a)
    dsimp only
    split
    · split
      · exact h
      · refine h.ite (.ite h.modBlock ?_)
        split
        · exact .ite h.modBlock.startEmpty.cpeKick h.modBlock.postChunks.postCore
        · split
          · exact h.modBlock
          · exact .ite h.modBlock.postCore (.ite h.modBlock.postCore h.modBlock.postChunks.postCore)
    · exact h

theorem State.MemoriesCanonical.reloadWrite {p t a o n} : (s.reloadWrite p t a o n).MemoriesCanonical :=
  (h.setCore h.core.keepOld.putGranules.setFe).wakeFullEmpty

theorem State.MemoriesCanonical.execCpeChunkWrite : Outcome.Canonical (execCpeChunkWrite s) := by
  unfold Machine.execCpeChunkWrite
  refine .next ?_
  split
  · exact h
  · dsimp only
    split
    · split
      · exact h
      · split
        · split
          · exact h
          · exact h.cpeRequest
        · split
          · exact h
          · split
            · exact h.engineWrite
            · exact h.engineWrite.modTransfer
    · split
      · exact h
      · split
        · exact h.engineWrite
        · exact h.engineWrite.modTransfer
    · split
      · exact h.reloadWrite
      · exact h
    · exact h

theorem State.MemoriesCanonical.cpeFree {blk} : (s.cpeFree blk).MemoriesCanonical :=
  h.modBlock.cpeKick

theorem State.MemoriesCanonical.execCpeJobCompletion : Outcome.Canonical (execCpeJobCompletion s) := by
  unfold Machine.execCpeJobCompletion
  refine .next ?_
  split
  · exact h
  · split
    · exact h.modCore.cpeFree
    · exact h.cpeFree.postCore
    · exact h.cpeFree.jobEnded
    · exact h

theorem State.MemoriesCanonical.pullRefused {p j turn} : (s.pullRefused p j turn).MemoriesCanonical := by
  unfold State.pullRefused
  dsimp only
  split
  · exact h
  · exact (h.cpeFree.crystalTaken.setEnd.logSettle.trapWait.ite h.cpeFree.crystalTaken.setEnd.logSettle).ite h.cpeFree

theorem State.MemoriesCanonical.pullLeg {o} : (s.pullLeg o).MemoriesCanonical := by
  unfold State.pullLeg
  split
  · exact h.sendFrom
  · split
    · exact h.pullRefused
    · split
      · exact h
      · exact h.postChunks.postCore

theorem State.MemoriesCanonical.execPullCompletion : Outcome.Canonical (execPullCompletion s) := by
  unfold Machine.execPullCompletion
  refine .next ?_
  split
  · exact h.pullLeg
  · split
    · exact h
    · dsimp only
      split
      · split
        · split
          · exact h.cpeFree.crystalTaken.setEnd.sendToEnd.logSettle.trapWait
          · exact h.cpeFree.crystalTaken.setEnd.sendToEnd.logSettle.wake.postCore.ite
              h.cpeFree.crystalTaken.setEnd.sendToEnd.logSettle.wake
        · exact h.cpeFree.crystalTaken.setEnd.sendToEnd.logSettle
      · exact h.cpeFree

/-! ## Machine/Capability -/

theorem State.MemoriesCanonical.moveAddress {d a off} : Act.Canonical (s.moveAddress d a off) :=
  .ite h.putInt (.bind fun _ => .ite h.moveCap (.ite .error h.putInt))

/-! ## Machine/Rake -/

theorem State.MemoriesCanonical.modEngaged {p k id f} : (s.modEngaged p k id f).MemoriesCanonical :=
  h.modCore

theorem State.MemoriesCanonical.abortEngaged {p k id} : (s.abortEngaged p k id).MemoriesCanonical :=
  h.modCore

theorem State.MemoriesCanonical.disengage {p k id} : (s.disengage p k id).MemoriesCanonical :=
  h.modCore

theorem State.MemoriesCanonical.sendRake {p q b} : (s.sendRake p q b).MemoriesCanonical :=
  h.sendFrom

theorem State.MemoriesCanonical.sendRecordWord {p} : (s.sendRecordWord p).MemoriesCanonical := by
  unfold State.sendRecordWord
  dsimp only
  split
  · split
    · exact h.modCore.sendFrom
    · exact h.sendFrom.ite h.postCore
  · exact h

theorem State.MemoriesCanonical.sendHead {sp dst b after} : (s.sendHead sp dst b after).MemoriesCanonical :=
  h.sendAt

theorem State.MemoriesCanonical.sendHeadWord {sp} : (s.sendHeadWord sp).MemoriesCanonical := by
  unfold State.sendHeadWord
  dsimp only
  split
  · exact h
  · split
    · exact h
    · exact h.sendHead.ite h.post

theorem State.MemoriesCanonical.giveToken {sp} : (s.giveToken sp).MemoriesCanonical := by
  unfold State.giveToken
  dsimp only
  split
  · exact h
  · split
    · exact h.modPart.sendHead
    · exact h.modPart.sendHeadWord
    · exact h

theorem State.MemoriesCanonical.recordAck {p} : (s.recordAck p).MemoriesCanonical :=
  h.modCore.sendRecordWord

theorem State.MemoriesCanonical.recordNack {p} : (s.recordNack p).MemoriesCanonical := by
  unfold State.recordNack
  split
  · exact h.postCore
  · exact h

theorem State.MemoriesCanonical.headRecordAck {sp} : (s.headRecordAck sp).MemoriesCanonical := by
  unfold State.headRecordAck
  split
  · exact h
  · exact h.modPart.sendHeadWord.ite h.modPart.giveToken

theorem State.MemoriesCanonical.headRecordNack {sp} : (s.headRecordNack sp).MemoriesCanonical :=
  h.post

theorem State.MemoriesCanonical.execSeqReq : Outcome.Canonical (execSeqReq s) := by
  unfold Machine.execSeqReq
  refine .next ?_
  split
  · split
    · exact h.dropPacket.modPart.giveToken
    · exact h.dropPacket
  · exact h

theorem State.MemoriesCanonical.execDeliveryTokenReturn : Outcome.Canonical (execDeliveryTokenReturn s) := by
  unfold Machine.execDeliveryTokenReturn
  refine .next ?_
  split
  · split
    · exact h.dropPacket.modPart.giveToken
    · exact h.dropPacket
  · exact h

theorem State.MemoriesCanonical.endChildren {p g success} : (s.endChildren p g success).MemoriesCanonical :=
  h.foldl fun _ _ h => h.sendRake

theorem State.MemoriesCanonical.endProbe {p k g success} : (s.endProbe p k g success).MemoriesCanonical := by
  unfold State.endProbe
  dsimp only
  split
  · exact h.endChildren.disengage.modStrand.ite h.endChildren.disengage
  · split
    · exact (h.endChildren.disengage.modStrand.ite h.endChildren.disengage).sendFrom
    · exact h.endChildren.disengage.modStrand.ite h.endChildren.disengage

theorem State.MemoriesCanonical.writeRecord {p k g seq} : (s.writeRecord p k g seq).MemoriesCanonical :=
  h.endProbe.modCore.sendRecordWord

theorem State.MemoriesCanonical.settleProbe {p k id} : (s.settleProbe p k id).MemoriesCanonical := by
  unfold State.settleProbe
  split
  · exact h
  · split
    · exact h
    · split
      · exact h.endProbe
      · split
        · exact h.writeRecord
        · exact h

theorem State.MemoriesCanonical.gatherAnswer {p k answer id parent engaged} :
    (s.gatherAnswer p k answer id parent engaged).MemoriesCanonical := by
  unfold State.gatherAnswer
  split
  · exact h
  · exact h.modCore.sendRake.ite h.modCore

theorem State.MemoriesCanonical.echoesIn {p k id} : (s.echoesIn p k id).MemoriesCanonical := by
  unfold State.echoesIn
  split
  · exact h
  · split
    · exact h
    · dsimp only
      split
      · split
        · exact h.gatherAnswer.ite h
        · exact h
      · exact h.sendRake
      · exact (h.modEngaged.foldl fun _ _ h => h.sendRake).sendFrom.settleProbe.ite h.endProbe

theorem State.MemoriesCanonical.engage {p k id parent} : (s.engage p k id parent).MemoriesCanonical :=
  ((h.modCore.ite (h.modCore.foldl fun _ _ h => h.sendFrom)).foldl fun _ _ h => h.sendFrom).echoesIn

theorem State.MemoriesCanonical.probeStrand {p k id parent} : (s.probeStrand p k id parent).1.MemoriesCanonical := by
  unfold State.probeStrand
  dsimp only
  split
  · dsimp only
    exact h
  · split
    · dsimp only
      exact h.engage
    · split
      · dsimp only
        exact h
      · split
        · dsimp only
          exact h
        · dsimp only
          exact h.abortEngaged.engage

theorem State.MemoriesCanonical.execRakeProbe : Outcome.Canonical (execRakeProbe s) := by
  refine .next ?_
  split
  · exact h
  · split
    · refine h.dropPacket.sendRake.ite (.ite (.foldl h.dropPacket.modCore fun _ _ h => ?_) ?_)
      · split
        · rename_i he
          exact (h.probeStrand.fst he).gatherAnswer
        · rename_i he
          exact h.probeStrand.fst he
      · split
        · rename_i he
          exact (h.dropPacket.probeStrand.fst he).sendRake
        · rename_i he
          exact h.dropPacket.probeStrand.fst he
    · exact h.dropPacket

theorem State.MemoriesCanonical.execRakeEcho : Outcome.Canonical (execRakeEcho s) := by
  unfold Machine.execRakeEcho
  refine .next ?_
  split
  · exact h
  · dsimp only
    split
    · split
      · split
        · exact h.dropPacket.sendRake
        · exact h.dropPacket
      · exact h.dropPacket.modEngaged.echoesIn
    · exact h.dropPacket

theorem State.MemoriesCanonical.execRakeEntry : Outcome.Canonical (execRakeEntry s) := by
  unfold Machine.execRakeEntry
  refine .next ?_
  split
  · exact h
  · dsimp only
    split
    · exact h.dropPacket.modEngaged
    · exact h.dropPacket

theorem State.MemoriesCanonical.gatherConfirm {p k id ok} : (s.gatherConfirm p k id ok).MemoriesCanonical := by
  unfold State.gatherConfirm
  split
  · exact h
  · exact h.modCore.sendRake.ite h.modCore

theorem State.MemoriesCanonical.confirmUp {p k id parent ok} : (s.confirmUp p k id parent ok).MemoriesCanonical :=
  h.gatherConfirm.ite h.sendRake

theorem State.MemoriesCanonical.confirmAnswer {p k g parent} : (s.confirmAnswer p k g parent).MemoriesCanonical :=
  h.confirmUp

theorem State.MemoriesCanonical.confirmStrand {p k id parent} :
    (s.confirmStrand p k id parent).MemoriesCanonical := by
  unfold State.confirmStrand
  split
  · exact h.confirmUp
  · exact h.confirmAnswer.ite (h.modEngaged.foldl fun _ _ h => h.sendRake)

theorem State.MemoriesCanonical.execRakeConfirm : Outcome.Canonical (execRakeConfirm s) := by
  unfold Machine.execRakeConfirm
  refine .next ?_
  split
  · exact h
  · dsimp only
    split
    · split
      · split
        · exact h.dropPacket.sendRake
        · exact h.dropPacket.modCore.foldl fun _ _ h => h.confirmStrand
      · exact h.dropPacket.confirmStrand
    · exact h.dropPacket

theorem State.MemoriesCanonical.execRakeConfirmEcho : Outcome.Canonical (execRakeConfirmEcho s) := by
  unfold Machine.execRakeConfirmEcho
  refine .next ?_
  split
  · exact h
  · dsimp only
    split
    · split
      · exact h.dropPacket.gatherConfirm
      · split
        · exact h.dropPacket.modEngaged
        · split
          · exact h.dropPacket.modEngaged
          · split
            · exact h.dropPacket.modEngaged.settleProbe
            · exact h.dropPacket.modEngaged.confirmAnswer
    · exact h.dropPacket

theorem State.MemoriesCanonical.endStrand {p k id success} : (s.endStrand p k id success).MemoriesCanonical := by
  unfold State.endStrand
  split
  · exact h
  · exact h.endChildren.disengage.modStrand.ite h.endChildren.disengage

theorem State.MemoriesCanonical.execRakeEnd : Outcome.Canonical (execRakeEnd s) := by
  unfold Machine.execRakeEnd
  refine .next ?_
  split
  · exact h
  · dsimp only
    split
    · exact (h.dropPacket.modCore.foldl fun _ _ h => h.foldl fun _ _ h => h.endStrand).ite h.dropPacket.endStrand
    · exact h.dropPacket

theorem State.MemoriesCanonical.execSeqGrant : Outcome.Canonical (execSeqGrant s) := by
  unfold Machine.execSeqGrant
  refine .next ?_
  split
  · exact h
  · dsimp only
    split
    · split
      · exact h.dropPacket.sendFrom
      · exact h.dropPacket.modEngaged.settleProbe
    · exact h.dropPacket

theorem State.MemoriesCanonical.rakeRefuse {q} : (s.rakeRefuse q).MemoriesCanonical := by
  unfold State.rakeRefuse
  split
  · exact h.sendAt
  · exact h.sendAt
  · exact h

/-! ## Machine/Launch -/

theorem State.MemoriesCanonical.sendNotice {sp id} : (s.sendNotice sp id).MemoriesCanonical := by
  unfold State.sendNotice
  split
  · exact h
  · exact h.update.modPart.sendHead

theorem State.MemoriesCanonical.notify {sp q r status} : (s.notify sp q r status).MemoriesCanonical :=
  h.update.modPart.sendNotice.ite h

theorem State.MemoriesCanonical.noticeAck {sp q lcn j w} : (s.noticeAck sp q lcn j w).MemoriesCanonical := by
  unfold State.noticeAck
  split
  · exact h.modPart
  · exact h

theorem State.MemoriesCanonical.noticeNack {sp q lcn j w} : (s.noticeNack sp q lcn j w).MemoriesCanonical := by
  unfold State.noticeNack
  split
  · exact h.modPart.post
  · exact h

theorem State.MemoriesCanonical.modReady {sp f} : (s.modReady sp f).MemoriesCanonical := h.modPart

theorem State.MemoriesCanonical.noteDue {sp before} : (s.noteDue sp before).MemoriesCanonical :=
  h.modPart

theorem State.MemoriesCanonical.headLooks {sp} : (s.headLooks sp).MemoriesCanonical := h.post

theorem State.MemoriesCanonical.headWork {sp} : (s.headWork sp).MemoriesCanonical :=
  h.modPart.headLooks

theorem State.MemoriesCanonical.headAck {sp lcn endNo} : (s.headAck sp lcn endNo).MemoriesCanonical :=
  h.sendHead

theorem State.MemoriesCanonical.takeRecord {sp q r} : (s.takeRecord sp q r).MemoriesCanonical :=
  (h.modReady.noteDue.ite h.notify).headWork

theorem State.MemoriesCanonical.takeHostRecord {sp q r} : (s.takeHostRecord sp q r).MemoriesCanonical :=
  h.modPart.takeRecord

theorem State.MemoriesCanonical.offerRecord {sp q w} : (s.offerRecord sp q w).MemoriesCanonical :=
  h.sendHead.ite (h.takeRecord.headAck.ite h.modPart)

theorem State.MemoriesCanonical.offerHost {sp q r} : (s.offerHost sp q r).MemoriesCanonical :=
  h.modPart.ite (h.takeHostRecord.ite h.modPart)

theorem State.MemoriesCanonical.takeWaiting {sp q} : (s.takeWaiting sp q).MemoriesCanonical :=
  (h.modPart.foldl fun _ _ h => h.offerRecord).foldl fun _ _ h => h.offerHost

theorem State.MemoriesCanonical.execJobRecordIntake : Outcome.Canonical (execJobRecordIntake s) := by
  unfold Machine.execJobRecordIntake
  refine .next ?_
  split
  · exact h
  · dsimp only
    split
    · exact h.dropPacket.sendHead.ite h.dropPacket.offerRecord
    · exact h.dropPacket.sendHead
    · exact h.dropPacket

theorem State.MemoriesCanonical.execJobSelection : Outcome.Canonical (execJobSelection s) := by
  unfold Machine.execJobSelection
  refine .next ?_
  split
  · exact h
  · split
    · exact h
    · split
      · exact h
      · exact h.modPart.takeWaiting.post

theorem State.MemoriesCanonical.kickResumes {sp} : (s.kickResumes sp).MemoriesCanonical :=
  h.foldl fun _ _ h => h.post.ite h

theorem State.MemoriesCanonical.sendWake {sp ox id p} : (s.sendWake sp ox id p).MemoriesCanonical :=
  h.update.update.post

theorem State.MemoriesCanonical.execJobPlacement : Outcome.Canonical (execJobPlacement s) := by
  refine .next ?_
  split
  · exact h
  · split
    · exact h
    · refine .kickResumes (.headLooks (.ite (.noteDue ?_) ?_))
      all_goals exact .foldl (h.modPart.foldl fun _ _ h => h.modCore) fun _ _ h => h.sendWake

theorem State.MemoriesCanonical.holdWake {sp p id} : (s.holdWake sp p id).MemoriesCanonical :=
  h.update.update

theorem State.MemoriesCanonical.memberAbsent {p id} : (s.memberAbsent p id).MemoriesCanonical :=
  h.modCore.meterStop.finishCheck

theorem State.MemoriesCanonical.execWake : Outcome.Canonical (execWake s) := by
  unfold Machine.execWake
  refine .next ?_
  split
  · exact h
  · exact h.ite (h.memberAbsent.ite (h.holdWake.ite (h.postCore.ite (h.modCore.meterStart.startStrand.ite
      (h.modCore.meterStart.modCore.foldl fun _ _ h => h.sendFrom)))))

theorem State.MemoriesCanonical.bindEntry {p lcns w hi} : (s.bindEntry p lcns w hi).1.MemoriesCanonical := by
  unfold State.bindEntry
  dsimp only
  split
  · split
    · dsimp only
      exact h
    · dsimp only
      exact h.bindEnd
  · split
    · dsimp only
      exact h
    · dsimp only
      exact h.bindEnd

theorem State.MemoriesCanonical.execWakeChannelBind : Outcome.Canonical (execWakeChannelBind s) := by
  refine .next ?_
  split
  · exact h
  · dsimp only
    split
    · refine .startStrand ?_
      exact h.foldlFst fun _ _ h => h.bindEntry
    · refine .startStrand ?_
      exact h.foldlFst fun _ _ h => h.bindEntry

theorem State.MemoriesCanonical.freeEnds {p} : (s.freeEnds p).MemoriesCanonical :=
  (h.foldl fun _ _ h => h.nackEnd.ite h).modCore

theorem State.MemoriesCanonical.leaveGang {p wmask} : (s.leaveGang p wmask).MemoriesCanonical :=
  h.modCore

theorem State.MemoriesCanonical.completeJob {sp j status} : (s.completeJob sp j status).MemoriesCanonical :=
  (h.foldl fun _ _ h => h.freeEnds.leaveGang).modReady.noteDue.notify.headWork.post.kickResumes

theorem State.MemoriesCanonical.execJobCompletion : Outcome.Canonical (execJobCompletion s) := by
  unfold Machine.execJobCompletion
  refine .next ?_
  split
  · exact h.completeJob.ite h
  · exact h

/-! ## Machine/Streams -/

theorem State.MemoriesCanonical.bindStream {d a b out} : Act.Canonical (s.bindStream d a b out) :=
  .bind fun _ => .bind fun _ => .bind fun _ => .bind fun _ => .bind fun _ => .pure h.modMe.advance

/-! ## Machine/Context -/

theorem State.MemoriesCanonical.panPutGranules {sp va g} : (s.panPutGranules sp va g).MemoriesCanonical :=
  h.foldl fun _ _ h => h.panWrite.panSetTag.ite h.panWrite

theorem State.MemoriesCanonical.rewait {p k g n} : (s.rewait p k g n).MemoriesCanonical := by
  unfold State.rewait
  refine .ite h.modStrand.unpop (.ite (.ite ?_ (.ite h.modStrand.setEnd.unpop.modStrand h.modStrand.setEnd.modStrand))
    (.ite (.ite ?_ h.modStrand.modStrand) (.ite (.modStrand ?_) (.postAt ?_))))
  · exact .ite h.modStrand.setEnd.modStrand.postCore h.modStrand.setEnd.modStrand
  all_goals exact .ite h.modStrand.modStrand.postCore h.modStrand.modStrand

/-! ## Machine/Crystal -/

theorem State.MemoriesCanonical.takeCrystal {p slot at_ desc d} :
    (s.takeCrystal p slot at_ desc d).MemoriesCanonical := by
  unfold State.takeCrystal
  refine .cpeWork (.modCore ?_)
  split
  · split
    · dsimp only
      exact h
    · dsimp only
      exact h.modCoreBy fun _ h => h.putGranules
  · dsimp only
    exact h

theorem State.MemoriesCanonical.execCkpt {g a} : Outcome.Canonical (execCkpt g a s) := by
  refine h.act fun _ h => .bind fun _ => .bind fun _ => .bind fun _ => .bind fun _ => .bind fun _ => ?_
  dsimp only
  split
  · exact .error
  · exact .bind fun _ => .bind fun _ => .ite (.pure h.waitAgain) (.pure h.waitNext.takeCrystal)

theorem State.MemoriesCanonical.wakeCkpt {p} : (s.wakeCkpt p).MemoriesCanonical := by
  unfold State.wakeCkpt
  refine h.foldl fun _ _ h => ?_
  split
  · split
    · exact h.wake
    · exact h.postCore
    · exact h
  · exact h

theorem State.MemoriesCanonical.landCrystal {p b} : (s.landCrystal p b).MemoriesCanonical := by
  unfold State.landCrystal
  dsimp only
  split
  · exact h
  · exact h
  · exact (h.modCoreBy fun _ h => h.putGranules).modCore

theorem State.MemoriesCanonical.execCrystalCurrent : Outcome.Canonical (execCrystalCurrent s) := by
  unfold Machine.execCrystalCurrent
  refine .next ?_
  split
  · exact h.landCrystal.sendFrom
  · refine .rescan (.wakeCkpt ?_)
    split
    · exact h.modCore.askCrystal.ite h
    · exact h.modCore.askCrystal

theorem State.MemoriesCanonical.execSelfCrystal : Outcome.Canonical (execSelfCrystal s) := by
  unfold Machine.execSelfCrystal
  refine .next ?_
  split
  · exact h
  · split
    · split
      · exact h.modCore
      · split
        · exact h
        · dsimp only
          split
          · exact h.modCore
          · exact h.takeCrystal.ite h.modCore
    · exact h

theorem State.MemoriesCanonical.loseCrystals {p} : (s.loseCrystals p).MemoriesCanonical :=
  h.foldl fun _ _ h => h.modCore

theorem State.MemoriesCanonical.releaseBlock {p} : (s.releaseBlock p).MemoriesCanonical :=
  (h.foldl fun _ _ h => h.postCore).ite h

theorem State.MemoriesCanonical.blockShort {p k} : (s.blockShort p k).MemoriesCanonical :=
  h.modBlock.postRecord.releaseBlock.rescan

theorem State.MemoriesCanonical.redirect {p q} : (s.redirect p q).MemoriesCanonical := h.update

theorem State.MemoriesCanonical.replaceMember {sp p q} : (s.replaceMember sp p q).MemoriesCanonical :=
  h.modPart

theorem State.MemoriesCanonical.substitute {p k hidden} : (s.substitute p k hidden).MemoriesCanonical := by
  unfold State.substitute
  refine .ite (.modCore ?_) (.ite (.cpeWork (.modCore ?_)) (.ite (.modCore (.startEmpty ?_)) (.startEmpty ?_)))
  all_goals exact h.modBlock.modCore.modCore.redirect.replaceMember

theorem State.MemoriesCanonical.contain {p hidden} : (s.contain p hidden).MemoriesCanonical := by
  unfold State.contain
  refine h.ite ?_
  extract_lets _ _ _ t₁ t₂ t₃ t₄
  have h₁ : t₁.MemoriesCanonical := h.containAs.loseCrystals
  have h₂ : t₂.MemoriesCanonical := h₁.modCore.ite h₁
  have h₃ : t₃.MemoriesCanonical := h₂.modBlock.ite h₂
  have h₄ : t₄.MemoriesCanonical := h₃.ite (h₃.substitute.ite h₃.blockShort)
  exact h₄.modCore.finishCheck

theorem State.MemoriesCanonical.restoreSlot {p from_ k g f} : (s.restoreSlot p from_ k g f).MemoriesCanonical :=
  h.update.modCore

theorem State.MemoriesCanonical.execSubstitutionRestoreDone : Outcome.Canonical (execSubstitutionRestoreDone s) := by
  refine .next (h.ite ?_)
  split
  · refine h.startEmpty.ite ?_
    extract_lets _ _ _ _ _ _ _ _ t₁ _ t₂ _ t₃ t₄ t₅ t₆
    have h₁ : t₁.MemoriesCanonical := h.setCore (.update h.core.fromHeader)
    have h₂ : t₂.MemoriesCanonical := h₁.modCoreBy fun _ h => h.putGranules.setFe
    have h₃ : t₃.MemoriesCanonical := h₂.foldl fun _ _ h => h.restoreSlot
    have h₄ : t₄.MemoriesCanonical := h₃.foldl fun _ _ h => h.rearrive
    have h₅ : t₅.MemoriesCanonical := h₄.foldl fun _ _ h => h.rewait
    have h₆ : t₆.MemoriesCanonical := h₅.ite h₅.postRecord
    exact h₆.rescan.wakeFullEmpty.finishCheck.askBuddies.askCrystal
  · exact h.startEmpty

/-! ## Machine/Device -/

theorem State.MemoriesCanonical.deviceAnswer {pkt x} : (s.deviceAnswer pkt x).MemoriesCanonical := by
  unfold State.deviceAnswer
  split
  · dsimp only
    split
    · split
      · exact h.dropPacket.sendSlice
      · exact h.dropPacket.sendAt
    · exact h.dropPacket
  · exact h

theorem State.MemoriesCanonical.deviceStore {pkt f} (hf : ∀ k ea w, Answer.Canonical (f k ea w)) :
    (s.deviceStore pkt f).MemoriesCanonical := by
  unfold State.deviceStore
  split
  · split
    · rename_i ht
      exact (hf _ _ _ _ ht).deviceAnswer
    · exact h.deviceAnswer
  · exact h.deviceAnswer

theorem State.MemoriesCanonical.setRoute {mnet x y i w} : (s.setRoute mnet x y i w).MemoriesCanonical :=
  h.update.ite h.update

theorem State.MemoriesCanonical.turnOff {p} : (s.turnOff p).MemoriesCanonical :=
  (h.modCore.modBlock.contain.ite h.modCore.modBlock).releaseBlock

theorem State.MemoriesCanonical.writeBcfg {blk w} : (s.writeBcfg blk w).MemoriesCanonical := by
  unfold State.writeBcfg
  refine .rescan ?_
  split
  · split
    · exact (h.modBlock.foldl fun _ _ h => h.turnOff).modBlock
    · exact h.modBlock.foldl fun _ _ h => h.turnOff
  · exact (h.modBlock.foldl fun _ _ h => h.turnOff).modBlock.ite (h.modBlock.foldl fun _ _ h => h.turnOff)

theorem State.MemoriesCanonical.bcfgStore : s.bcfgStore.MemoriesCanonical :=
  h.deviceStore fun _ _ _ => .some h.writeBcfg

theorem State.MemoriesCanonical.execRemapWrite : Outcome.Canonical (execRemapWrite s) := by
  unfold Machine.execRemapWrite
  refine .next ?_
  split
  · exact h
  · dsimp only
    split
    · refine .rescan (.releaseBlock (.sendAt (.modBlock ?_)))
      split
      · exact h.dropPacket.modBlock.modCore
      · exact h.dropPacket.modBlock
    · exact h.dropPacket

theorem State.MemoriesCanonical.plainStore {ea w} : Answer.Canonical (s.plainStore ea w) :=
  .ite .none (.ite .none (.ite (.ite .none (.some h.modSlice)) (.some h)))

theorem State.MemoriesCanonical.execDeviceWindowAccess : Outcome.Canonical (execDeviceWindowAccess s) := by
  refine .next ?_
  split
  · exact h.dropPacket
  · split
    · exact h.deviceAnswer
    · split
      · exact h.deviceAnswer
      · split
        · rename_i ht
          exact (h.plainStore _ ht).deviceAnswer
        · exact h.deviceAnswer

/-! ## Machine/Preempt -/

theorem State.MemoriesCanonical.writeImage {sp p va} : (s.writeImage sp p va).MemoriesCanonical :=
  h.panWrite.ite ((((h.panWrite.panWrite.foldl fun _ _ h => h.panPutGranules).foldl fun _ _ h =>
    h.panPutGranules).panWrite).foldl fun _ _ h => h.panPutGranules)

theorem State.MemoriesCanonical.readImage {sp p va sent} : (s.readImage sp p va sent).MemoriesCanonical := by
  refine .ite (h.setCore h.core.update) (.wakeFullEmpty (.foldl (.foldl (.modBlock (h.setCore ?_))
    fun _ _ h => h.restoreSlot) fun _ _ h => h.rewait))
  exact .update (.foldl (.update h.core.fromHeader) fun _ _ h => h.putGranules)

theorem State.MemoriesCanonical.refuseCommand {sp lcn j r} : (s.refuseCommand sp lcn j r).MemoriesCanonical := by
  unfold State.refuseCommand
  refine .headAck ?_
  split
  · exact h.notify
  · exact h

theorem State.MemoriesCanonical.modJobRec {sp id f} : (s.modJobRec sp id f).MemoriesCanonical :=
  h.modPart

theorem State.MemoriesCanonical.startPreempt {sp j save command recalled} :
    (s.startPreempt sp j save command recalled).MemoriesCanonical :=
  h.modJobRec.foldl fun _ _ h => h.sendHead

theorem State.MemoriesCanonical.execPreempt : Outcome.Canonical (execPreempt s) := by
  unfold Machine.execPreempt
  refine .next ?_
  split
  · exact h.dropPacket
  · dsimp only
    split
    · exact h.dropPacket.startPreempt.ite h.dropPacket.refuseCommand
    · exact h.dropPacket.refuseCommand

theorem State.MemoriesCanonical.faultTileWaits {p} : (s.faultTileWaits p).MemoriesCanonical :=
  (h.modBlock.ite h).foldl fun _ _ h => h.mxeJobFault

theorem State.MemoriesCanonical.memberSaved {sp p id} : (s.memberSaved sp p id).MemoriesCanonical := by
  unfold State.memberSaved
  split
  · exact h
  · exact h.modJobRec.update.post.ite h.modJobRec

theorem State.MemoriesCanonical.execPreemptionMessage : Outcome.Canonical (execPreemptionMessage s) := by
  unfold Machine.execPreemptionMessage
  refine .next ?_
  split
  · exact h
  · exact h.ite (h.modCore.memberSaved.ite (h.postCore.ite (h.modCore.memberSaved.ite (h.postCore.ite
      (h.modCore.faultTileWaits.memberSaved.ite h.modCore.faultTileWaits.postCore)))))

theorem State.MemoriesCanonical.leaveSaved {p va wmask} : (s.leaveSaved p va wmask).MemoriesCanonical :=
  h.modCore.leaveGang

theorem State.MemoriesCanonical.letGo {sp id p} : (s.letGo sp id p).MemoriesCanonical := h.modJobRec

theorem State.MemoriesCanonical.execPreemptSaveComplete : Outcome.Canonical (execPreemptSaveComplete s) := by
  unfold Machine.execPreemptSaveComplete
  refine .next ?_
  split
  · exact h
  · split
    · exact h
    · refine .kickResumes (.post ?_)
      split
      · refine .post ?_
        split
        · exact ((((h.foldl fun _ _ h => h.meterStop.writeImage).foldl fun _ _ h =>
            h.leaveSaved).modJobRec).notify).headAck
        · exact ((h.foldl fun _ _ h => h.meterStop.writeImage).foldl fun _ _ h => h.leaveSaved).modJobRec.notify
      · split
        · exact ((((h.foldl fun _ _ h => h.meterStop.writeImage).foldl fun _ _ h =>
            h.leaveSaved).modJobRec).notify).headAck
        · exact ((h.foldl fun _ _ h => h.meterStop.writeImage).foldl fun _ _ h => h.leaveSaved).modJobRec.notify

theorem State.MemoriesCanonical.startResume {sp j} : (s.startResume sp j).MemoriesCanonical :=
  (h.modJobRec.foldl fun _ _ h => h.modCoreBy fun _ h => h.update.ite h.update).update.post

theorem State.MemoriesCanonical.execResume : Outcome.Canonical (execResume s) := by
  unfold Machine.execResume
  refine .next ?_
  split
  · split
    · exact h.startResume.ite h
    · exact h
  · split
    · exact h.dropPacket
    · dsimp only
      split
      · exact (h.dropPacket.modJobRec.startResume.ite h.dropPacket.modJobRec).ite h.dropPacket.refuseCommand
      · exact h.dropPacket.refuseCommand

theorem State.MemoriesCanonical.resumeKept {sp p va e} : (s.resumeKept sp p va e).MemoriesCanonical :=
  .cpeWork (h.modCoreBy fun _ h => .update (.ite (.update h.fromHeader) h))

theorem State.MemoriesCanonical.resumeCore {sp p j} : (s.resumeCore sp p j).MemoriesCanonical := by
  unfold State.resumeCore
  split
  · exact h.postCore.ite h.letGo.resumeKept.meterStart
  · exact h.letGo.readImage.rescan.meterStart.finishCheck.askCrystal

theorem State.MemoriesCanonical.readBarriers {sp p va} : (s.readBarriers sp p va).MemoriesCanonical :=
  h.modCore.ite h

theorem State.MemoriesCanonical.execResumeRelease : Outcome.Canonical (execResumeRelease s) := by
  unfold Machine.execResumeRelease
  refine .next ?_
  split
  · split
    · exact h.memberAbsent.ite (h.resumeCore.ite h)
    · exact h
  · split
    · split
      · dsimp only
        split
        · exact ((((h.foldl fun _ _ h => h.readBarriers.ite h).foldl fun _ _ h =>
            h.sendHead).modJobRec).notify).headAck
        · exact ((h.foldl fun _ _ h => h.readBarriers.ite h).foldl fun _ _ h => h.sendHead).modJobRec.notify
      · exact h
    · exact h

theorem State.MemoriesCanonical.freeMember {id p} : (s.freeMember id p).MemoriesCanonical :=
  h.ite h.modCore.discardJobs

theorem State.MemoriesCanonical.abortJob {sp j} : (s.abortJob sp j).MemoriesCanonical :=
  (h.foldl fun _ _ h => h.meterStop.freeMember).completeJob.rescan

theorem State.MemoriesCanonical.abortSaved {sp j} : (s.abortSaved sp j).MemoriesCanonical := by
  unfold State.abortSaved
  dsimp only
  split
  · exact (h.foldl fun _ _ h => h.freeEnds.freeMember).completeJob.rescan.headAck
  · exact (h.foldl fun _ _ h => h.freeEnds.freeMember).completeJob.rescan

theorem State.MemoriesCanonical.execAbort : Outcome.Canonical (execAbort s) := by
  unfold Machine.execAbort
  refine .next ?_
  split
  · exact h.dropPacket
  · dsimp only
    split
    · exact (h.dropPacket.abortJob.ite h.dropPacket.abortSaved).headAck.ite h.dropPacket.refuseCommand
    · exact h.dropPacket.refuseCommand

theorem State.MemoriesCanonical.execRegisterRecallSaveArea : Outcome.Canonical (execRegisterRecallSaveArea s) := by
  unfold Machine.execRegisterRecallSaveArea
  refine .next ?_
  split
  · exact h.dropPacket
  · dsimp only
    split
    · exact h.dropPacket.modJobRec.headAck.ite h.dropPacket.refuseCommand
    · exact h.dropPacket.refuseCommand

/-! ## Machine/Fabric -/

theorem State.MemoriesCanonical.hold {id k} : (s.hold id k).MemoriesCanonical := h.update

theorem State.MemoriesCanonical.firewallDrop {id k} : (s.firewallDrop id k).MemoriesCanonical :=
  h.dropPacket.modPart

theorem State.MemoriesCanonical.sendRouter {k lcn dst b} : (s.sendRouter k lcn dst b).MemoriesCanonical :=
  h.inject

theorem State.MemoriesCanonical.leave {id k p i after} : (s.leave id k p i after).MemoriesCanonical :=
  h.update.post

theorem State.MemoriesCanonical.await {id k} : (s.await id k).MemoriesCanonical :=
  h.dropPacket.ite h.hold

theorem State.MemoriesCanonical.refuseLeg {id k lcn i o} : (s.refuseLeg id k lcn i o).MemoriesCanonical := by
  unfold State.refuseLeg
  split
  · exact h.dropPacket.sendRouter.ite h.await
  · exact h.dropPacket.sendRouter.ite h.await
  · exact h.dropPacket.post
  · exact h.dropPacket.post
  · exact h.dropPacket.post
  · exact h.await

theorem State.MemoriesCanonical.absentLane {id k lcn} : (s.absentLane id k lcn).MemoriesCanonical := by
  unfold State.absentLane
  split
  · dsimp only
    split
    · split
      · exact h.dropPacket.sendRouter
      · exact h.dropPacket
    · exact h.dropPacket.sendRouter
  · exact h.dropPacket.sendRouter
  · exact h.refuseLeg
  · exact h.await

theorem State.MemoriesCanonical.steerLeg {id k p i o} : (s.steerLeg id k p i o).MemoriesCanonical :=
  h.hold.ite h.dropPacket.post

theorem State.MemoriesCanonical.steer {id k lcn} : (s.steer id k lcn).MemoriesCanonical := by
  unfold State.steer
  split
  · exact h.leave
  · exact h.absentLane.ite h.steerLeg
  · exact h.leave.ite (h.dropPacket.rakeRefuse.ite (h.absentLane.ite (h.hold.ite h.leave)))

theorem State.MemoriesCanonical.hostReply {id k} : (s.hostReply id k).MemoriesCanonical := by
  unfold State.hostReply
  split
  · exact .inject (h.dropPacket.updateHost (Memory.wf_hostPerform h.host))
  · exact h.dropPacket

theorem State.MemoriesCanonical.finish {id k} : (s.finish id k).MemoriesCanonical := by
  unfold State.finish
  split
  · exact h.steer
  · exact h.leave
  · split
    · exact h.leave
    · exact h.leave
  · exact h.leave
  · exact h.leave
  · dsimp only
    split
    · exact h.leave
    · exact h.leave
    · exact h.leave
  · split
    · exact h.update.update.postAt
    · exact h.leave
    · exact h.leave
    · exact h.leave

theorem State.MemoriesCanonical.hop {id k} : (s.hop id k).MemoriesCanonical := by
  unfold State.hop
  split
  · exact h.hold
  · split
    · exact h.finish
    · dsimp only
      split
      · exact h.hold
      · exact h.hold.ite (h.firewallDrop.ite h.update.post)

theorem State.MemoriesCanonical.wakeFlood {id k job} : (s.wakeFlood id k job).MemoriesCanonical := by
  refine h.hold.ite ?_
  split
  · exact h.dropPacket
  · refine .ite (.dropPacket ?_) (.ite (.hold ?_) (.post (.update ?_)))
    all_goals exact .ite (h.foldl fun _ _ h => h.post) h

theorem State.MemoriesCanonical.hopOrFlood {id k} : (s.hopOrFlood id k).MemoriesCanonical := by
  unfold State.hopOrFlood
  split
  · exact h.wakeFlood.ite h.hop
  · exact h.hop

theorem State.MemoriesCanonical.execPacketHop : Outcome.Canonical (execPacketHop s) := by
  unfold Machine.execPacketHop
  refine .next ?_
  split
  · exact h
  · exact h.hostReply.ite h.hopOrFlood

theorem State.MemoriesCanonical.execHeldPacketRelease : Outcome.Canonical (execHeldPacketRelease s) := by
  unfold Machine.execHeldPacketRelease
  refine .next ?_
  split
  · exact h
  · exact h.hopOrFlood.ite h

/-! ## Machine/Service -/

theorem State.MemoriesCanonical.endWaits : s.endWaits.MemoriesCanonical :=
  h.update.foldl fun _ _ h => h.update.postAt.ite h.postAt

/-! ## Machine/ClockTree -/

theorem State.MemoriesCanonical.park {d rest} : (s.park d rest).MemoriesCanonical := h.update

theorem State.MemoriesCanonical.takeBack {d rest} : (s.takeBack d rest).MemoriesCanonical := by
  unfold State.takeBack
  dsimp only
  split
  · exact h.update.hold.post
  · exact h.update

theorem State.MemoriesCanonical.setChild {p port b} : (s.setChild p port b).MemoriesCanonical :=
  h.modCore

theorem State.MemoriesCanonical.leaveParent {p} : (s.leaveParent p).MemoriesCanonical := by
  unfold State.leaveParent
  dsimp only
  split
  · exact h.ite h.setChild
  · exact h

theorem State.MemoriesCanonical.execReroot : Outcome.Canonical (execReroot s) := by
  unfold Machine.execReroot
  refine .next (((((((h.leaveParent.turnOff.modDcm.foldl fun _ _ h => h.leaveParent).foldl fun _ _ h => ?_).foldl fun
    _ _ h => ?_).update).update).modDcm).postAt)
  · split
    · exact h.modCore
    · exact h.turnOff
  · split
    · exact h.setChild
    · exact h

theorem State.MemoriesCanonical.enginesLook {blk} : (s.enginesLook blk).MemoriesCanonical :=
  h.queueKick.queueKick.mxeKick.cpeKick

theorem State.MemoriesCanonical.execRerootRelease : Outcome.Canonical (execRerootRelease s) :=
  .next (.rescan (.modDcm (.foldl (h.updateCores fun _ he => .iteSnd he.afterHold he) fun _ _ h => h.enginesLook)))

/-! ## Machine/Optics -/

theorem State.MemoriesCanonical.sendTap {k lcn units b} : (s.sendTap k lcn units b).MemoriesCanonical :=
  h.inject

theorem State.MemoriesCanonical.modVf {k v f} : (s.modVf k v f).MemoriesCanonical := h.modPort

theorem State.MemoriesCanonical.armPort {k} : (s.armPort k).MemoriesCanonical :=
  h.ite h.modPort.postAt

theorem State.MemoriesCanonical.portKick {k} : (s.portKick k).MemoriesCanonical :=
  (h.postAt.ite h).armPort

theorem State.MemoriesCanonical.queueControl {k i} : (s.queueControl k i).MemoriesCanonical :=
  h.modPort.portKick

theorem State.MemoriesCanonical.queueData {k v i payer} : (s.queueData k v i payer).MemoriesCanonical :=
  h.modVf.portKick

theorem State.MemoriesCanonical.armRefill {k} : (s.armRefill k).MemoriesCanonical :=
  h.ite h.modPort.postAt

theorem State.MemoriesCanonical.sendFrame {k i new} : (s.sendFrame k i new).MemoriesCanonical := by
  unfold State.sendFrame
  dsimp only
  split
  · exact h.fresh.modPort.postAt.modPort
  · exact h.fresh.modPort.postAt.update
  · exact h.fresh.modPort.postAt

theorem State.MemoriesCanonical.sendData {k v} : (s.sendData k v).MemoriesCanonical := by
  unfold State.sendData
  dsimp only
  split
  · exact h
  · exact h.modPort.modVf.chargeOwner.sendFrame.armRefill

theorem State.MemoriesCanonical.execFrameSlot : Outcome.Canonical (execFrameSlot s) := by
  unfold Machine.execFrameSlot
  refine .next ?_
  split
  · exact h.modPort
  · split
    · exact h.modPort.modPort.sendFrame.armPort
    · exact h.modPort.modPort.sendFrame.armPort
    · split
      · split
        · exact h.modPort.sendData.armPort
        · exact h.modPort
      · exact h.modPort

theorem State.MemoriesCanonical.drainCheck {k} : (s.drainCheck k).MemoriesCanonical :=
  h.postAt.ite h

theorem State.MemoriesCanonical.portAnswer {k v nack} : (s.portAnswer k v nack).MemoriesCanonical := by
  unfold State.portAnswer
  split
  · exact h.modVf.sendTap
  · exact h

theorem State.MemoriesCanonical.deliver {k i} : (s.deliver k i).MemoriesCanonical := by
  unfold State.deliver
  split
  · exact h.sendTap.ite h.queueControl
  · exact h.portAnswer
  · exact h.portAnswer
  · exact h.sendTap.ite h.queueControl
  · exact h.sendTap
  · exact h.postAt
  · exact h.postAt

theorem State.MemoriesCanonical.execFrameArrival : Outcome.Canonical (execFrameArrival s) := by
  unfold Machine.execFrameArrival
  refine .next ?_
  split
  · exact h
  · exact (h.modPort.modPort.drainCheck.ite h.modPort.modPort.armPort).ite (h.modPort.deliver.ite h.modPort)

theorem State.MemoriesCanonical.refuseItem {k i} : (s.refuseItem k i).MemoriesCanonical := by
  unfold State.refuseItem
  split
  · exact h.sendTap
  · exact h.sendTap
  · exact h

theorem State.MemoriesCanonical.startDrain {k} : (s.startDrain k).MemoriesCanonical :=
  (h.modPort.update.ite h.modPort).armPort

theorem State.MemoriesCanonical.startTraining {k} : (s.startTraining k).MemoriesCanonical :=
  h.modPort.postAt.ite h

/-! ## Machine/Delivery -/

theorem State.MemoriesCanonical.takePacket {k t} (ht : s.takePacket = some (k, t)) : t.MemoriesCanonical := by
  obtain ⟨_, _, he⟩ := Option.map_eq_some_iff.1 ht
  cases he
  exact h.dropPacket

theorem State.MemoriesCanonical.portMessage {k n} : (s.portMessage k n).MemoriesCanonical := by
  unfold State.portMessage
  split
  · exact h.queueData.ite h.sendTap
  · split
    · exact h.queueData
    · exact h.sendTap
  · exact h.queueControl
  · exact h

theorem State.MemoriesCanonical.execMessageArrival : Outcome.Canonical (execMessageArrival s) := by
  refine .next ?_
  split
  · exact h
  · rename_i ht
    replace h := h.takePacket ht
    split
    · exact h.laneMessage
    · exact h.portMessage
    · exact h

theorem State.MemoriesCanonical.hostAnswer {sp taken} : (s.hostAnswer sp taken).MemoriesCanonical :=
  h.modPart

theorem State.MemoriesCanonical.execAcknowledgementArrival : Outcome.Canonical (execAcknowledgementArrival s) := by
  refine .next ?_
  split
  · exact h
  · rename_i ht
    replace h := h.takePacket ht
    split
    · exact h.recordAck.ite h.laneAck
    · exact h.headRecordAck
    · exact h.noticeAck
    · exact h.queueControl
    · exact h.hostAnswer
    · exact h

theorem State.MemoriesCanonical.execReleaseArrival : Outcome.Canonical (execReleaseArrival s) := by
  refine .next ?_
  split
  · exact h
  · rename_i ht
    replace h := h.takePacket ht
    split
    · exact h.laneAck
    · exact h

theorem State.MemoriesCanonical.execNackArrival : Outcome.Canonical (execNackArrival s) := by
  refine .next ?_
  split
  · exact h
  · rename_i ht
    replace h := h.takePacket ht
    split
    · exact h.recordNack.ite h.laneNack
    · exact h.headRecordNack
    · exact h.noticeNack
    · exact h.queueControl
    · exact h.hostAnswer
    · exact h

/-! ## Machine/Migrate -/

theorem State.MemoriesCanonical.execMig {g a} : Outcome.Canonical (execMig g a s) := by
  unfold Machine.execMig
  refine h.act fun _ h => ?_
  split
  · exact .error
  · refine .bind fun _ => .bind fun _ => ?_
    split
    · exact .error
    · exact .error
    · exact h.fenceFirst fun _ h => .ok h.sendFrom.waitNext

theorem State.MemoriesCanonical.execMigRecordArrival : Outcome.Canonical (execMigRecordArrival s) := by
  unfold Machine.execMigRecordArrival
  refine .next ?_
  split
  · exact h
  · dsimp only
    split
    · split
      · exact h.dropPacket.sendFrom
      · exact h.dropPacket.startStrand.rejoin.sendFrom
    · exact h.dropPacket

theorem State.MemoriesCanonical.execMigAccept : Outcome.Canonical (execMigAccept s) := by
  unfold Machine.execMigAccept
  refine .next ?_
  split
  · exact h.dropPacket.shippedSlot.finishCheck
  · exact h.dropPacket

theorem State.MemoriesCanonical.execMigRefusal : Outcome.Canonical (execMigRefusal s) := by
  unfold Machine.execMigRefusal
  refine .next ?_
  split
  · exact h.dropPacket.trapWait
  · exact h.dropPacket

/-! ## Machine/PanOps -/

theorem State.MemoriesCanonical.startTable {op set req} : (s.startTable op set req).MemoriesCanonical :=
  (h.update.modCore.foldl fun _ _ h => h.sendFrom).waitNext

theorem State.MemoriesCanonical.execCfrz {g d a} : Outcome.Canonical (execCfrz g d a s) :=
  h.act fun _ h => .bind fun _ => .bind fun _ => .bind fun _ => .when fun _ => .bind fun _ => h.fenceFirst fun _ h =>
    .ok (h.modMe.advance.ite h.startTable)

theorem State.MemoriesCanonical.execPmint {g d a} : Outcome.Canonical (execPmint g d a s) := by
  refine h.act fun _ h => .bind fun _ => .bind fun _ => .bind fun _ => .bind fun _ => .bind fun _ => .bind fun _ =>
    .bind fun _ => .bind fun _ => .bind fun _ => ?_
  dsimp only
  split
  · exact .error
  · exact .ite (.pure h.modMe.advance) (.ite (.pure h.startTable) (.pure h.startTable))

theorem State.MemoriesCanonical.execSeal {g a k f} : Outcome.Canonical (execSeal g a k f s) :=
  h.act fun _ h => .bind fun _ => .bind fun _ => .bind fun _ => h.fenceFirst fun _ h => .ok (h.modMe.advance.ite
    h.startTable)

theorem State.MemoriesCanonical.tableAnswer {id refused after} :
    (s.tableAnswer id refused after).MemoriesCanonical := by
  unfold State.tableAnswer
  split
  · split
    · exact h.dropPacket.sendSlice
    · exact h.dropPacket
  · exact h

theorem State.MemoriesCanonical.atSlice {id after f} (hf : ∀ k n q, (f k n q).MemoriesCanonical) :
    (s.atSlice id after f).MemoriesCanonical := by
  unfold State.atSlice
  split
  · exact h.tableAnswer.ite (hf _ _ _)
  · exact h.dropPacket

theorem State.MemoriesCanonical.execHolderUpdate : Outcome.Canonical (execHolderUpdate s) := by
  unfold Machine.execHolderUpdate
  refine .next ?_
  split
  · refine .tableAnswer ?_
    split
    · exact h.modPan
    · exact h
  · exact h.dropPacket

theorem State.MemoriesCanonical.execFreezeRequest : Outcome.Canonical (execFreezeRequest s) := by
  unfold Machine.execFreezeRequest
  refine .next (h.atSlice fun _ _ _ => ?_)
  split
  · split
    · exact h.tableAnswer
    · exact h.tableAnswer.ite (h.tableAnswer.ite h.flushHeld.modPan.tableAnswer)
  · exact h.dropPacket

theorem State.MemoriesCanonical.sealCheck {n i} : (s.sealCheck n i).MemoriesCanonical := by
  unfold State.sealCheck
  split
  · split
    · exact h.post.ite h
    · exact h
  · exact h

theorem State.MemoriesCanonical.execDoneMessage : Outcome.Canonical (execDoneMessage s) := by
  unfold Machine.execDoneMessage
  refine .next (h.atSlice fun _ _ _ => ?_)
  split
  · split
    · exact h.tableAnswer.ite h.modPan.tableAnswer.sealCheck
    · exact h.tableAnswer
  · exact h.dropPacket

theorem State.MemoriesCanonical.chargeTable {k n e} : (s.chargeTable k n e).MemoriesCanonical :=
  h.chargeOwner

theorem State.MemoriesCanonical.execPanMintRequest : Outcome.Canonical (execPanMintRequest s) := by
  unfold Machine.execPanMintRequest
  refine .next (h.atSlice fun _ _ _ => ?_)
  split
  · split
    · exact h.tableAnswer
    · exact h.modSlice.chargeTable.claim.ite h.modSlice.tableAnswer
  · exact h.dropPacket

theorem State.MemoriesCanonical.execContributorMintCheck : Outcome.Canonical (execContributorMintCheck s) := by
  unfold Machine.execContributorMintCheck
  refine .next (h.atSlice fun _ _ _ => ?_)
  split
  · exact h.tableAnswer
  · exact h.dropPacket

theorem State.MemoriesCanonical.execMasterSealRequest : Outcome.Canonical (execMasterSealRequest s) := by
  unfold Machine.execMasterSealRequest
  refine .next (h.atSlice fun _ _ _ => ?_)
  split
  · split
    · exact h.tableAnswer.ite h.modPan.sealCheck
    · exact h.tableAnswer
  · exact h.dropPacket

theorem State.MemoriesCanonical.execSealBegin : Outcome.Canonical (execSealBegin s) := by
  unfold Machine.execSealBegin
  refine .next ?_
  split
  · exact h.modPan.ite h.modPan.chargeTable.claim
  · exact h

theorem State.MemoriesCanonical.execPanConversionDone : Outcome.Canonical (execPanConversionDone s) := by
  unfold Machine.execPanConversionDone
  refine .next ?_
  split
  · exact h.flushHeld.convert.modPan.modSlice.unclaim.tableAnswer
  · exact h.unclaim.tableAnswer

theorem State.MemoriesCanonical.settleMint {p id op} : (s.settleMint p id op).MemoriesCanonical :=
  h.foldl fun _ _ h => h.enterMint.ite h.modSlice

theorem State.MemoriesCanonical.finishTable {p id op} : (s.finishTable p id op).MemoriesCanonical := by
  unfold State.finishTable
  dsimp only
  split
  · split
    · exact h.modCore.settleMint.modStrand.wake
    · exact h.modCore.settleMint.trapAt
  · exact h.modCore.settleMint

theorem State.MemoriesCanonical.execPanTableReply : Outcome.Canonical (execPanTableReply s) := by
  unfold Machine.execPanTableReply
  refine .next ?_
  split
  · dsimp only
    split
    · split
      · exact h.dropPacket.modSlice
      · exact h.dropPacket.finishTable.ite h.dropPacket.modCore
    · exact h.dropPacket
  · exact h

theorem State.MemoriesCanonical.execHolderUpdateReply : Outcome.Canonical (execHolderUpdateReply s) := by
  unfold Machine.execHolderUpdateReply
  refine .next ?_
  split
  · dsimp only
    split
    · split
      · exact h.dropPacket
      · exact h.dropPacket.modCore.modStrand.takeMessage.wake.ite h.dropPacket.modCore
    · exact h.dropPacket
  · exact h

/-! ## Machine/Fence -/

theorem State.MemoriesCanonical.actFenced {i} : Outcome.Canonical (s.actFenced i) := by
  unfold State.actFenced
  split
  · exact h.execSnd
  · exact h.execSnd16
  · exact h.execSndv
  · exact h.execBsnd
  · exact h.execCfrz
  · exact h.execSeal
  · exact h.execMxq
  · exact h.execCpq
  · exact h.execMig
  · exact h.execCkpt
  · split
    · rename_i ht
      exact .next (h.refusedRelaxed _ ht)
    · exact h.execHlt
  · exact .next h

theorem State.MemoriesCanonical.queueLooks {blk} : (s.queueLooks blk).MemoriesCanonical :=
  h.ite h.queueKick

theorem State.MemoriesCanonical.afterFenced {p k since} : (s.afterFenced p k since).MemoriesCanonical := by
  unfold State.afterFenced
  dsimp only
  split
  · split
    · exact h.afterIssue.queueLooks.modStrand
    · exact h.afterIssue.queueLooks.setEnd
    · exact h.afterIssue.queueLooks.modBlock
    · exact h.afterIssue.queueLooks.modBlock
    · exact h.afterIssue.queueLooks
  · exact h.afterIssue.queueLooks

theorem State.MemoriesCanonical.execFenceConditionMet : Outcome.Canonical (execFenceConditionMet s) := by
  unfold Machine.execFenceConditionMet
  dsimp only
  split
  · exact .next h.pushLanded
  · split
    · split
      · split
        · exact .next h.queueLooks
        · split
          · exact .next h.wake
          · split
            · rename_i hu
              exact .next (State.MemoriesCanonical.actFenced (.modMe h.update) _ hu).afterFenced.update
            · exact .actFenced (.modMe h.update)
      · exact .next h.wake
    · exact .next h

/-! ## Machine/Host -/

theorem State.MemoriesCanonical.modHost {sp f} : (s.modHost sp f).MemoriesCanonical := h.modPart

theorem State.MemoriesCanonical.execHostPanTake : Outcome.Canonical (execHostPanTake s) := by
  unfold Machine.execHostPanTake
  refine .next ?_
  split
  · exact h
  · dsimp only
    split
    · split
      · refine .sendAt (.modHost ?_)
        split
        · split
          · exact h.dropPacket.modPan
          · exact h.dropPacket
        · exact h.dropPacket
      · exact h.dropPacket.sendAt
    · exact h.dropPacket.sendAt
    · exact h.dropPacket

theorem State.MemoriesCanonical.execHostPanAccess : Outcome.Canonical (execHostPanAccess s) := by
  unfold Machine.execHostPanAccess
  refine .next ?_
  split
  · exact h.ite (h.postDelayed.ite (h.atLink fun _ h => h.enterSlice))
  · exact h

theorem State.MemoriesCanonical.execPret : Outcome.Canonical (execPret s) := by
  unfold Machine.execPret
  refine .next ?_
  split
  · exact h
  · exact h.ite (h.post.ite (h.modHost.sendAt.ite h.modHost.modHost))

/-! ## Machine/Partition -/

theorem State.MemoriesCanonical.scrub {us} : (s.scrub us).MemoriesCanonical :=
  h.updateCores fun _ he => .iteSnd (.scrub .reset) he

theorem State.MemoriesCanonical.resetPart {sp} : (s.resetPart sp).MemoriesCanonical := by
  unfold State.resetPart
  extract_lets _ _ _ t₁ _ _ t₂ t₃ t₄ t₅
  have h₁ : t₁.MemoriesCanonical := h.foldl fun _ _ h => h.meterStop.ite h
  have h₂ : t₂.MemoriesCanonical := h₁.update
  have h₃ : t₃.MemoriesCanonical := h₂.modPart.scrub
  have h₄ : t₄.MemoriesCanonical := h₃.foldl fun _ _ h => h.armSlice.ite h
  have h₅ : t₅.MemoriesCanonical := h₄.foldl fun _ _ h => h.drainCheck
  exact h₅.post.ite h₅

theorem State.MemoriesCanonical.configure {sp w} : (s.configure sp w).MemoriesCanonical := by
  unfold State.configure
  refine h.ite (.ite (.resetPart ?_) ?_)
  all_goals refine .ite (.modPart (.scrub ?_)) ?_
  all_goals exact .modPart (.ite h.resetPart h)

theorem State.MemoriesCanonical.endBoot : s.endBoot.MemoriesCanonical :=
  h.resetPart.update.foldl fun _ _ h => h.configure

theorem State.MemoriesCanonical.clearRoutes {u} : (s.clearRoutes u).MemoriesCanonical := h.update

theorem State.MemoriesCanonical.execUnitLend : Outcome.Canonical (execUnitLend s) := by
  unfold Machine.execUnitLend
  refine .next ?_
  split
  · exact h
  · split
    · exact h
    · exact h.clearRoutes.modPart.post.ite h.update.scrub.post

theorem State.MemoriesCanonical.recallJob {sp j} : (s.recallJob sp j).MemoriesCanonical :=
  h.startPreempt.ite h.abortJob

theorem State.MemoriesCanonical.recallJobs {sp} : (s.recallJobs sp).MemoriesCanonical :=
  h.foldl fun _ _ h => h.recallJob

theorem State.MemoriesCanonical.recall {sp} : (s.recall sp).MemoriesCanonical := by
  have h₁ : State.MemoriesCanonical (if (s.part sp).recalling = 1 then s.recallJobs sp else s) := h.recallJobs.ite h
  unfold State.recall
  refine (h₁.post.ite h₁).ite (.ite (.post ?_) (.modPart (.scrub ?_)))
  all_goals exact .ite h₁.modPart.rescan h₁

/-! ## Machine/Ptp -/

theorem State.MemoriesCanonical.modSup {f} : (s.modSup f).MemoriesCanonical := h.update

theorem State.MemoriesCanonical.stepForward {n} : (s.stepForward n).MemoriesCanonical := h.update

theorem State.MemoriesCanonical.discipline {off} : (s.discipline off).MemoriesCanonical :=
  h.modSup.stepForward.ite h.modSup

theorem State.MemoriesCanonical.execPtpFollowUp : Outcome.Canonical (execPtpFollowUp s) := by
  unfold Machine.execPtpFollowUp
  refine .next ?_
  split
  · exact h.modSup.discipline.ite h
  · exact h

theorem State.MemoriesCanonical.execPtpDelayResp : Outcome.Canonical (execPtpDelayResp s) := by
  unfold Machine.execPtpDelayResp
  refine .next ?_
  split
  · exact h.modSup.ite h
  · exact h

/-! ## Machine/Platform -/

theorem State.MemoriesCanonical.postBringUp : s.postBringUp.MemoriesCanonical := h.update.postAt

theorem State.MemoriesCanonical.reboot : s.reboot.MemoriesCanonical := by
  have blank {blocks slices parts ports dcms routesC routesM hbmTags fuses sup packets agenda parked cur arg nextId
      freeCtr now} : State.MemoriesCanonical ⟨now, [], blocks, slices, parts, ports, dcms, routesC, routesM, s.hbm,
        hbmTags,
        s.host, fuses, sup, packets, agenda, parked, cur, arg, nextId, freeCtr⟩ := ⟨by simp, h.hbm, h.host⟩
  unfold State.reboot
  dsimp only
  split
  · exact blank
  · exact blank.postBringUp

theorem State.MemoriesCanonical.markChannels : s.markChannels.MemoriesCanonical :=
  h.foldl fun _ _ h => h.modSlice.resumeSlice

theorem State.MemoriesCanonical.newKey : s.newKey.MemoriesCanonical := h.update.modSup

theorem State.MemoriesCanonical.bringUp : s.bringUp.MemoriesCanonical :=
  h.ite ((h.newKey.ite h).update.ite (h.postBringUp.ite (h.markChannels.ite h).update.postBringUp))

theorem State.MemoriesCanonical.refuseMail : s.refuseMail.MemoriesCanonical := h.modSup

theorem State.MemoriesCanonical.answerMail {b} : (s.answerMail b).MemoriesCanonical := h.modSup

theorem State.MemoriesCanonical.execQuote : Outcome.Canonical (execQuote s) := by
  unfold Machine.execQuote
  refine .next ?_
  split
  · exact h.answerMail
  · exact h.refuseMail

theorem State.MemoriesCanonical.execMeterReadout : Outcome.Canonical (execMeterReadout s) := by
  unfold Machine.execMeterReadout
  refine .next ?_
  split
  · exact h.modSup.answerMail
  · exact h.refuseMail

theorem State.MemoriesCanonical.execRaiseFusedMinimum : Outcome.Canonical (execRaiseFusedMinimum s) := by
  unfold Machine.execRaiseFusedMinimum
  refine .next ?_
  split
  · exact h.modSup.answerMail.ite h.refuseMail
  · exact h.refuseMail

theorem State.MemoriesCanonical.setServing {part b} : (s.setServing part b).MemoriesCanonical :=
  h.modSlice.ite h

theorem State.MemoriesCanonical.beginSwitch {i image part} : (s.beginSwitch i image part).MemoriesCanonical :=
  h.update.update.modSup.setServing.answerMail.postAt

theorem State.MemoriesCanonical.leaveSwitch {w} : (s.leaveSwitch w).MemoriesCanonical :=
  (h.modSup.setServing.resumeSlice.ite h.modSup.setServing).endWaits

theorem State.MemoriesCanonical.execFirmwareImageSwitch : Outcome.Canonical (execFirmwareImageSwitch s) := by
  unfold Machine.execFirmwareImageSwitch
  refine .next ?_
  split
  · split
    · exact h.modSup.leaveSwitch
    · exact h
  · split
    · exact h.beginSwitch.ite h.refuseMail
    · exact h.refuseMail

theorem State.MemoriesCanonical.endTraining {n} : (s.endTraining n).MemoriesCanonical :=
  h.modSlice.unclaim.resumeSlice

theorem State.MemoriesCanonical.endServices : s.endServices.MemoriesCanonical :=
  ((h.foldl fun _ _ h => h.leaveSwitch).update.foldl fun _ _ h => h.endTraining.ite h).foldl fun _ _ h =>
    h.modPort.ite h

theorem State.MemoriesCanonical.execTamperAlarm : Outcome.Canonical (execTamperAlarm s) :=
  .next (h.modSup.ite ((((h.modSup.foldl fun _ _ h => h.resetPart.ite h).foldl fun _ _ h => h.startDrain.ite
    h).endServices).modSup))

theorem State.MemoriesCanonical.execAlarmExit : Outcome.Canonical (execAlarmExit s) := by
  unfold Machine.execAlarmExit
  refine .next ?_
  split
  · exact h.newKey.modSup.answerMail.ite h.refuseMail
  · exact h.refuseMail

/-! ## Machine/Power -/

theorem State.MemoriesCanonical.changeMode {sp mode} : (s.changeMode sp mode).MemoriesCanonical :=
  .foldl (.modPart (h.updateCores fun _ he => .iteSnd he.heldUntil.jump he)) fun _ _ h => h.modSlice.postAt.ite h

theorem State.MemoriesCanonical.scheduleModes : s.scheduleModes.MemoriesCanonical :=
  h.foldl fun _ _ h => h.postAt

/-! ## Machine/Scalar -/

theorem State.MemoriesCanonical.binary {g d a b f} : Outcome.Canonical (s.binary g d a b f) :=
  h.act fun _ h => h.putInt

theorem State.MemoriesCanonical.divide {g d a b f} : Outcome.Canonical (s.divide g d a b f) :=
  h.act fun _ h => h.putIntBy

theorem State.MemoriesCanonical.unary {g d a f} : Outcome.Canonical (s.unary g d a f) :=
  h.act fun _ h => h.putInt

theorem State.MemoriesCanonical.putExt {k w} : (s.putExt k w).MemoriesCanonical := h.modMe.advance

end

/-! ## Every instruction and every event -/

theorem State.MemoriesCanonical.exec (h : s.MemoriesCanonical) (i : Instr) : Outcome.Canonical (Machine.exec i s) := by
  unfold Machine.exec
  cases i <;> simp only
  case add | sub | and | or | xor | shl | shr | sar | mul | mulh | mulhz | min | max | minz | maxz | clm | clmh |
       add16 => exact h.binary
  case div | divz | rem | remz => exact h.divide
  case clz | ctz | pcnt | bswp | mov | sext8 | sext16 | sext32 | zext8 | zext16 | zext32 | shli | shri | sari |
       addi | andi | ori | xori | bfx | mov16 | addi16 => exact h.unary
  case sel | lhi | bfi | cget | ctst | mvxFromE | chst | sstat => exact h.act fun _ h => h.putInt
  case nop | nop16 => exact .next h.advance
  case cbnd => exact h.act fun _ h => .bind fun _ => .bind fun _ => h.moveCap
  case cprm => exact h.act fun _ h => .bind fun _ => h.moveCap
  case cfrz => exact h.execCfrz
  case cmv => exact h.act fun _ h => .ite (.ok h.advance) h.moveCap
  case cadd | caddImm => exact h.act fun _ h => h.moveAddress
  case cmint => exact h.act fun _ h => .bind fun _ => .bind fun _ => .bind fun _ => .pure h.modMe.advance
  case cmp | cmpi | fcmp | pcmb => exact h.compare
  case br | j | br16 | j16 => exact h.act fun _ h => .bind fun _ => .pure h.jump
  case jal => exact h.act fun _ h => h.call
  case jr => exact h.act fun _ h => .ite (.bind fun _ => .pure h.jump) h.call
  case ret => exact h.act fun _ h => .seq h.markDead fun _ h => .bind fun _ => .pure h.jump
  case rep => exact h.act fun _ h => .ok h.advance.modMe
  case lxi | lxiZ | mvxToE => exact h.act fun _ h => .ok h.putExt
  case ld => exact h.act fun _ h => h.load
  case st => exact h.act fun _ h => h.store
  case ldF | ldFc => exact h.act fun _ h => h.loadFull
  case stE => exact h.execStE
  case ldc => exact h.execLdc
  case stc => exact h.execStc
  case vld => exact h.execVld
  case vst => exact h.execVst
  case vlds | vldg => exact h.actV fun _ h => h.loadElements
  case vsts | vstx => exact h.actV fun _ h => h.storeElements
  case pushm => exact h.execPushm
  case popm => exact h.execPopm
  case fenceFar | fenceCore => exact h.act fun _ h => .ok (h.advance.ite h.waitNext)
  case fenceEng => exact h.act fun _ h => .ok (h.waitNext.ite h.advance)
  case amoAdd | amoAnd | amoOr | amoXor | amoMin | amoMax | amoMinz | amoMaxz | amoSwp | amoCas =>
    exact h.act fun _ h => h.amo
  case vamoAdd | vamoAnd | vamoOr | vamoXor | vamoMin | vamoMax | vamoMinz | vamoMaxz | vamoSwp =>
    exact h.actV fun _ h => h.vamo
  case acc => exact h.execAcc
  case maccMx8 | maccMx4 => exact h.actV fun _ h => h.maccMx
  case feSet | feClr => exact h.act fun _ h => h.feRange
  case vadd | vsub | vmul | vdiv => exact h.vecArith
  case vmin | vmax => exact h.vecMinMax
  case vabs | vneg | vpcnt => exact h.vecUnary
  case vsqrt | vdot | vredsum | vredmax | vredmin | vcmp | vsel | vsplat | vins | vmov => exact h.vector
  case vfma | vfms | vfnma | vfnms => exact h.vecFma
  case vrcp | vrsq | vex2 | vlg2 | vtanh | vsin => exact h.vecSpecial
  case vcvt => exact h.execVcvt
  case vredx => exact h.execVredx
  case vand | vor | vxor => exact h.vecBits
  case viadd | visub | vimul | vshl | vshr | vsar | vclm => exact h.vecInt
  case vperm | vshuf | vslideUp | vslideDn => exact h.vecPick
  case vext => exact h.execVext
  case sbindIn | sbindOut => exact h.actV fun _ h => h.bindStream
  case sfree | sskip => exact h.actV fun _ h => .ok h.modMe.advance
  case chset =>
    exact h.act fun _ h => .bind fun _ => .bind fun _ => .bind fun _ => .bind fun _ => .pure h.bindEnd.modMe.advance
  case chclr => exact h.act fun _ h => .bind fun _ => .bind fun _ => .pure h.setEnd.rearrive.advance
  case snd => exact h.execSnd
  case sndv => exact h.execSndv
  case bsnd => exact h.execBsnd
  case rcv | rcv16 => exact h.act fun _ h => h.receiveWord
  case rcvv => exact h.execRcvv
  case brcv => exact h.execBrcv
  case alt | altP | altD | altPD => exact h.act fun _ h => h.select
  case mxq => exact h.execMxq
  case cpq => exact h.execCpq
  case jwait =>
    exact h.act fun _ h => .ite (.ok h.waitNext) (.ite (.ok h.modBlock.queueKick.takeTrap) (.ok h.advance))
  case jst => exact h.act fun _ h => .bind fun _ => ((h.modBlock.ite h).queueKick.ite (h.modBlock.ite h)).putInt
  case mxf => exact h.act fun _ h => .ok h.modBlock.advance
  case barr => exact h.execBarr
  case barw => exact h.act fun _ h => .bind fun _ => .ite (.pure h.waitNext) (.pure h.advance)
  case bar => exact h.execBar
  case wtu => exact h.act fun _ h => .ite (.ok h.advance) (.ok h.waitNext.postAt)
  case rdt => exact h.execRdt
  case spwn => exact h.act fun _ h => .bind fun _ => .bind fun _ => .pure h.startStrand.modMe.advance
  case hlt => exact h.execHlt
  case ckpt => exact h.execCkpt
  case mig => exact h.execMig
  case csrr => exact h.act fun _ h => .bind fun _ => h.putInt
  case csrw => exact h.act fun _ h => .bind fun _ => .bind fun _ => .pure h.writeCsr.advance
  case csrx => exact h.act fun _ h => .bind fun _ => .bind fun _ => .bind fun _ => .pure h.writeCsr.modMe.advance
  case trap => exact h.act fun _ h => .error
  case eret => exact h.act fun _ h => .bind fun _ => .pure h.modMe
  case dbg => exact h.execDbg
  case rmap => exact h.act fun _ h => .bind fun _ => .bind fun _ => .pure h.sendFrom.waitNext
  case chmint =>
    exact h.act fun _ h => .bind fun _ => .bind fun _ => .bind fun _ => .bind fun _ => .pure h.modMe.advance
  case pmint => exact h.execPmint
  case ld16 => exact h.act fun _ h => .bind fun _ => h.load
  case st16 => exact h.act fun _ h => .bind fun _ => h.store
  case snd16 => exact h.execSnd16
  case rlx => exact .next (h.update.ite h.takeTrap)
  case farReplyArrival => exact h.execFarReplyArrival
  case fenceConditionMet => exact h.execFenceConditionMet
  case icacheLineFill => exact h.execIcacheLineFill
  case wtuTargetReached => exact h.execWtuTargetReached
  case altDeadline => exact h.execAltDeadline
  case messageArrival => exact h.execMessageArrival
  case acknowledgementArrival => exact h.execAcknowledgementArrival
  case releaseArrival => exact h.execReleaseArrival
  case nackArrival => exact h.execNackArrival
  case pullCompletion => exact h.execPullCompletion
  case holderUpdate => exact h.execHolderUpdate
  case holderUpdateReply => exact h.execHolderUpdateReply
  case barrierRelease => exact .next (h.modCore.logSettle.foldl fun _ _ h => h.meetRelease)
  case queueEntryGrant => exact h.execQueueEntryGrant
  case mxeStepBegin => exact h.execMxeStepBegin
  case accumulatorWrite => exact h.execAccumulatorWrite
  case drainGranuleWrite => exact h.execDrainGranuleWrite
  case mxeJobCompletion => exact h.execMxeJobCompletion
  case tileOffer => exact h.execTileOffer
  case tileGrant => exact h.execTileGrant
  case tileLands => exact h.execTileLands
  case outBufferFree => exact h.execOutBufferFree
  case tileOfferNack => exact h.execTileOfferNack
  case cpeTurn => exact h.execCpeTurn
  case cpeLineReply => exact h.execCpeLineReply
  case cpeChunkWrite => exact h.execCpeChunkWrite
  case cpeJobCompletion => exact h.execCpeJobCompletion
  case sliceRequestArrival => exact h.execSliceRequestArrival
  case tlbWalkEnd => exact h.execTlbWalkEnd
  case activeRoundStart => exact .next (h.ite (h.startTest.ite (h.ite h.placeAll.sealWaits))).rearm
  case fallowRound | refreshRound => exact .next h.rearm
  case slotPerform => exact h.execSlotPerform
  case reservedWrite => exact h.execReservedWrite
  case sliceReply => exact h.execSliceReply
  case freezeRequest => exact h.execFreezeRequest
  case doneMessage => exact h.execDoneMessage
  case panMintRequest => exact h.execPanMintRequest
  case contributorMintCheck => exact h.execContributorMintCheck
  case masterSealRequest => exact h.execMasterSealRequest
  case sealBegin => exact h.execSealBegin
  case panConversionDone => exact h.execPanConversionDone
  case panZeroingDone => exact .next h.unclaim.tableAnswer
  case panTableReply => exact h.execPanTableReply
  case rakeThreshold => exact .next ((h.modStrand.postCore.engage.ite h.modStrand.postCore).ite h)
  case rakeProbe => exact h.execRakeProbe
  case rakeEcho => exact h.execRakeEcho
  case rakeEntry => exact h.execRakeEntry
  case rakeConfirm => exact h.execRakeConfirm
  case rakeConfirmEcho => exact h.execRakeConfirmEcho
  case rakeEnd => exact h.execRakeEnd
  case seqReq => exact h.execSeqReq
  case seqGrant => exact h.execSeqGrant
  case recordWordResend => exact .next (h.sendHeadWord.ite h.sendRecordWord)
  case supervisorRecord => exact .next h.modPart.giveToken
  case jobRecordIntake => exact h.execJobRecordIntake
  case hostRecordWrite => exact .next (h.ite h.offerHost)
  case jobSelection => exact h.execJobSelection
  case jobPlacement => exact h.execJobPlacement
  case wake => exact h.execWake
  case wakeChannelBind => exact h.execWakeChannelBind
  case jobCompletion => exact h.execJobCompletion
  case noticeResend => exact .next h.sendNotice
  case qcfgWrite => exact .next h.modReady.takeWaiting.headLooks
  case preempt => exact h.execPreempt
  case preemptionMessage => exact h.execPreemptionMessage
  case preemptSaveComplete => exact h.execPreemptSaveComplete
  case resume => exact h.execResume
  case resumeRelease => exact h.execResumeRelease
  case abort => exact h.execAbort
  case registerRecallSaveArea => exact h.execRegisterRecallSaveArea
  case crystalCurrent => exact h.execCrystalCurrent
  case selfCrystal => exact h.execSelfCrystal
  case logWrite => exact h.execLogWrite
  case uncorrectableSoftError | coreRetirement => exact .next h.contain
  case softErrorCorrected => exact .next h.update
  case substitutionRestoreDone => exact h.execSubstitutionRestoreDone
  case debugHalt => exact .next (h.modStrand.ite h)
  case debugRegisterWrite => exact h.execDebugRegisterWrite
  case packetHop => exact h.execPacketHop
  case heldPacketRelease => exact h.execHeldPacketRelease
  case remapWrite => exact h.execRemapWrite
  case routeTableWrite => exact .next (h.deviceStore fun _ _ _ => .ite .none (.some h.setRoute.rescan))
  case bcfgOosWrite | reserveTake | reserveRelease => exact .next h.bcfgStore
  case deviceWindowAccess => exact h.execDeviceWindowAccess
  case parentClockStop => exact .next (h.ite (h.foldl fun _ _ h => h.modCore).modDcm.update.postAt)
  case lostClockReport => exact .next h.modDcm.update.postAt
  case reroot => exact h.execReroot
  case rerootRelease => exact h.execRerootRelease
  case moduleReset => exact .next (h.bringUp.ite h.reboot)
  case bootStrandStart => exact .next (h.startStrand.ite h)
  case partitionConfigWrite => exact .next (h.ite (h.update.ite h.configure))
  case partitionReset => exact .next ((h.endBoot.ite h).ite (h.resetPart.ite h))
  case unitLend => exact h.execUnitLend
  case unitRecall => exact .next ((h.ite h.recall).ite (h.ite h.modPart.recall))
  case pageTableWrite => exact .next h.modPart.update
  case panEntryRemoval => exact .next (h.foldl fun _ _ h => h.modSlice.foldl fun _ _ h => h.tableAnswer)
  case ppwrWrite => exact .next (h.ite (h.modPart.ite h.modPart.postAt))
  case modeChange => exact .next ((h.ite h.changeMode).ite (h.ite h.changeMode).modPart)
  case thermalLimit =>
    exact .next (h.ite (h.update.foldl fun _ _ h => h.modPart.postRecord.ite h.modPart).scheduleModes)
  case thermalClear => exact .next ((h.update.foldl fun _ _ h => h.modPart).scheduleModes.ite h)
  case ptpSync => exact .next (h.modSup.postAt.ite h)
  case ptpFollowUp => exact h.execPtpFollowUp
  case ptpDelayReq => exact .next (h.queueControl.ite h)
  case ptpDelayResp => exact h.execPtpDelayResp
  case syncTimeout => exact .next (h.modSup.ite h)
  case frameSlot => exact h.execFrameSlot
  case frameArrival => exact h.execFrameArrival
  case tokenRefill => exact .next (h.modPort.modPort.postAt.ite h.modPort).armRefill
  case vfConfigWrite =>
    exact .next (h.modVf.armPort.ite (h.modVf.armRefill.armPort.postAt.ite h.modVf.armRefill.armPort))
  case vfFlush => exact .next (h.modVf.foldl fun _ _ h => h.refuseItem)
  case sluiceClose => exact .next (h.startDrain.ite h)
  case sluiceOpen | wakeHint => exact .next h.startTraining
  case lowPowerEnter | drainComplete | trainingTimeout => exact .next (h.modPort.ite h)
  case closeMarker => exact .next ((h.startDrain.ite h).modPort.drainCheck.ite (h.startDrain.ite h))
  case trainingSuccess => exact .next (h.modPort.armPort.ite h)
  case migRecordArrival => exact h.execMigRecordArrival
  case migAccept => exact h.execMigAccept
  case migRefusal => exact h.execMigRefusal
  case hostPanTake => exact h.execHostPanTake
  case hostPanAccess => exact h.execHostPanAccess
  case pret => exact h.execPret
  case tctlWrite =>
    exact .next (h.deviceStore fun _ _ _ => .ite .none (.some (h.modSlice.ite h.modSlice.resumeSlice)))
  case trunGo => exact .next (h.deviceStore fun _ _ _ => .ite (.some h) (.ite .none (.some h.modSlice.armSlice)))
  case patternTestResult => exact .next h.modSlice.unclaim
  case repairWrite | seedWrite => exact .next (h.deviceStore fun _ _ _ => .ite .none (.some h.modSlice))
  case quote => exact h.execQuote
  case meterReadout => exact h.execMeterReadout
  case raiseFusedMinimum => exact h.execRaiseFusedMinimum
  case firmwareImageSwitch => exact h.execFirmwareImageSwitch
  case tamperAlarm => exact h.execTamperAlarm
  case alarmExit => exact h.execAlarmExit
  case registerWrite =>
    exact .next (h.ite (h.modSup.ite (h.modHost.ite (h.modPart.ite (h.modSup.ite (h.modSup.ite h))))))
  case deliveryTokenReturn => exact h.execDeliveryTokenReturn
  case ptpTimerDue => exact .next (h.modSup.ite h).queueControl
  -- what is left is the capability seal, whose constructor is named by a keyword
  exact h.execSeal

theorem State.MemoriesCanonical.runIssued (h : s.MemoriesCanonical) (i : Instr) :
    Outcome.Canonical (Machine.runIssued s i) := by
  unfold Machine.runIssued
  split
  next t hi =>
    have ht : t.MemoriesCanonical := h.exec i t hi
    split
    next j _ _ =>
      split
      next u hj => exact .next (ht.exec j u hj).afterIssue
      next o ho => exact fun u hu => absurd hu (ho u)
    next => exact .next ht.afterIssue
  next o ho => exact fun t ht => absurd ht (ho t)

theorem State.MemoriesCanonical.step (h : s.MemoriesCanonical) : Outcome.Canonical (Machine.step s) := by
  unfold Machine.step
  split
  case h_1 => exact .next h.update
  case h_2 d rest _ =>
    split
    · exact .next h.park
    · split
      · exact .next h.takeBack
      · exact h.atEvent.exec d.event
  case h_3 t p k _ =>
    have hs : (s.issue t p k).1.MemoriesCanonical := h.issue
    split
    next s' hi => exact .next (hs.fst hi).afterIssue
    next s' i hi => exact (hs.fst hi).runIssued i

/-- Settles O58: the canonical form is kept by everything that a step is made of. -/
theorem stepKeepsMemories : Obligations.StepKeepsMemories :=
  fun _ t h hs => h.step t hs

end Sys2Proof.Machine
end

section
/-! THEOREM. The frame of the instructions that write c registers only (O6): what each leaves of its strand, and that
nothing but the strand changes. -/

namespace Sys2Proof.Machine

/-! ## The frame of a strand -/

/-- `y` is strand `x` with nothing changed but the c registers `ds`, its place in the program and its next issue. -/
def Strand.Frame (ds : List (BitVec 5)) (x y : Strand) : Prop := x.OnlyRegisters y ∧ ∀ r, r ∉ ds → y.reg r = x.reg r

theorem Strand.onlyRegisters_iff {x y : Strand} :
    x.OnlyRegisters y ↔ ∃ c m pc rep k, y = { x with c := c, dmask := m, pc := pc, rep := rep, readyAt := k } := by
  constructor
  · exact fun h => ⟨_, _, _, _, _, h⟩
  · rintro ⟨c, m, pc, rep, k, rfl⟩
    rfl

variable {ds : List (BitVec 5)} {x y : Strand}

theorem Strand.Frame.refl : x.Frame ds x := ⟨rfl, fun _ _ => rfl⟩

theorem Strand.Frame.setReg {d : BitVec 5} {v : CReg} (h : x.Frame ds y) (hd : d ∈ ds) : x.Frame ds (y.setReg d v) := by
  obtain ⟨hx, hr⟩ := h
  refine ⟨?_, fun r hn => ?_⟩
  · obtain ⟨c, m, pc, rep, k, rfl⟩ := Strand.onlyRegisters_iff.1 hx
    unfold Strand.setReg
    split
    · exact hx
    · exact Strand.onlyRegisters_iff.2 ⟨_, _, _, _, _, rfl⟩
  · have hrd : r ≠ d := fun e => hn (e ▸ hd)
    rw [Strand.reg_setReg, if_neg (fun e => hrd e.1), hr r hn]

theorem Strand.Frame.ite {c : Prop} [Decidable c] {z : Strand} (hy : x.Frame ds y) (hz : x.Frame ds z) :
    x.Frame ds (if c then y else z) := by
  split <;> assumption

/-- Passing an instruction changes the place in the program only. -/
theorem Strand.past_eq (x : Strand) (n : Nat) : x.past n = { x with pc := (x.past n).pc, rep := (x.past n).rep } := by
  unfold Strand.past
  split
  · rfl
  · split
    · rfl
    · split <;> rfl

theorem Strand.Frame.past {n k : Nat} (h : x.Frame ds y) : x.Frame ds { y.past n with readyAt := k } := by
  obtain ⟨hx, hr⟩ := h
  obtain ⟨c, m, pc, rep, j, rfl⟩ := Strand.onlyRegisters_iff.1 hx
  rw [Strand.past_eq]
  exact ⟨Strand.onlyRegisters_iff.2 ⟨_, _, _, _, _, rfl⟩, hr⟩

/-! ## The frame of a state -/

/-- `t` is `s` with nothing changed but the executing strand, and of it the c registers `ds`, its place in the program and
its next issue. -/
def State.Frame (ds : List (BitVec 5)) (s t : State) : Prop := s.OnlyStrand t ∧ s.me.Frame ds t.me

variable {s t : State}

theorem State.Frame.modMe {f : Strand → Strand} (hf : s.me.Frame ds (f s.me)) : s.Frame ds (s.modMe f) :=
  ⟨s.onlyStrand_modMe f, by rwa [State.me_modMe]⟩

theorem State.Frame.advanceBy {n : Nat} (h : s.Frame ds t) : s.Frame ds (t.advanceBy n) :=
  ⟨h.1.setMe _, by rw [State.advanceBy, State.me_modMe]; exact h.2.past⟩

theorem State.Frame.advance (h : s.Frame ds t) : s.Frame ds t.advance := h.advanceBy

theorem State.Frame.self : s.Frame ds s.advance :=
  State.Frame.modMe (f := fun x => { x.past s.cur.len with readyAt := s.k + 8 }) (.past .refl)

/-! ## What an act leaves of the registers -/

theorem State.frame_putIntBy {d : BitVec 5} {w : Word} {n : Nat} (hd : d ∈ ds) :
    (s.putIntBy d w n).Ensures (s.Frame ds) :=
  .bind fun _ => .pure (.advanceBy (.modMe (.setReg .refl hd)))

theorem State.frame_putInt {d : BitVec 5} {w : Word} (hd : d ∈ ds) : (s.putInt d w).Ensures (s.Frame ds) :=
  State.frame_putIntBy hd

theorem State.frame_moveCap {d a : BitVec 5} {r : CReg} (hd : d ∈ ds) (ha : a ∈ ds) :
    (s.moveCap d a r).Ensures (s.Frame ds) :=
  .bind fun _ => .ite (.pure (.advance (.modMe (.setReg .refl hd))))
    (.bind fun _ => .pure (.advance (.modMe (.setReg (.ite (.setReg .refl ha) .refl) hd))))

theorem State.frame_moveAddress {d a : BitVec 5} {off : Word} (hd : d ∈ ds) (ha : a ∈ ds) :
    (s.moveAddress d a off).Ensures (s.Frame ds) :=
  .ite (State.frame_putInt hd)
    (.bind fun _ => .ite (State.frame_moveCap hd ha) (.ite .error (State.frame_putInt hd)))

/-! ## What an instruction leaves of the registers -/

/-- The outcome is a precise trap of the state `s`, or stays in the frame of registers `ds`. -/
def State.TrapsOrFrames (s : State) (ds : List (BitVec 5)) (o : Host.Outcome State Fault Refusal) : Prop :=
  ∀ t, o = .next t → (∃ e, t = s.takeTrap e) ∨ s.Frame ds t

theorem State.TrapsOrFrames.advance : s.TrapsOrFrames ds (.next s.advance) := by
  rintro t ⟨⟩
  exact .inr .self

theorem State.TrapsOrFrames.act {g : BitVec 3} {f : State → Act} (hf : ∀ u, (f u).Ensures (u.Frame ds)) :
    s.TrapsOrFrames ds (s.act g f) := by
  cases hg : s.me.pred g with
  | false =>
    rw [State.act_off f hg]
    exact .advance
  | true =>
    rw [State.act_on f hg]
    rintro t ⟨⟩
    cases ha : f s with
    | ok u => exact .inr (hf s u ha)
    | error e => exact .inl ⟨e, rfl⟩

theorem State.TrapsOrFrames.binary {g : BitVec 3} {d a b : BitVec 5} {f : Word → Word → Word} (hd : d ∈ ds) :
    s.TrapsOrFrames ds (s.binary g d a b f) :=
  .act fun _ => State.frame_putInt hd

theorem State.TrapsOrFrames.divide {g : BitVec 3} {d a b : BitVec 5} {f : Word → Word → Word} (hd : d ∈ ds) :
    s.TrapsOrFrames ds (s.divide g d a b f) :=
  .act fun _ => State.frame_putIntBy hd

theorem State.TrapsOrFrames.unary {g : BitVec 3} {d a : BitVec 5} {f : Word → Word} (hd : d ∈ ds) :
    s.TrapsOrFrames ds (s.unary g d a f) :=
  .act fun _ => State.frame_putInt hd

theorem State.trapsOrFrames_exec {i : Instr} (h : writesOnly i = some ds) : s.TrapsOrFrames ds (exec i s) := by
  unfold exec
  cases i <;> cases h
  all_goals simp only
  case nop | nop16 => exact .advance
  case cbnd => exact .act fun _ => .bind fun _ => .bind fun _ => State.frame_moveCap (.head _) (.tail _ (.head _))
  case cprm => exact .act fun _ => .bind fun _ => State.frame_moveCap (.head _) (.tail _ (.head _))
  case cmv => exact .act fun _ => .ite (.ok .self) (State.frame_moveCap (.head _) (.tail _ (.head _)))
  case cadd | caddImm => exact .act fun _ => State.frame_moveAddress (.head _) (.tail _ (.head _))
  case cmint =>
    exact .act fun _ => .bind fun _ => .bind fun _ => .bind fun _ => .pure (.advance (.modMe (.setReg .refl (.head _))))
  case chmint =>
    exact .act fun _ => .bind fun _ => .bind fun _ => .bind fun _ => .bind fun _ =>
      .pure (.advance (.modMe (.setReg .refl (.head _))))
  case csrr => exact .act fun _ => .bind fun _ => State.frame_putInt (.head _)
  case div | divz | rem | remz => exact .divide (.head _)
  case add | sub | and | or | xor | shl | shr | sar | mul | mulh | mulhz | min | max | minz | maxz | clm | clmh |
      add16 => exact .binary (.head _)
  case clz | ctz | pcnt | bswp | mov | sext8 | sext16 | sext32 | zext8 | zext16 | zext32 | shli | shri | sari |
      addi | andi | ori | xori | bfx | mov16 | addi16 => exact .unary (.head _)
  case sel | lhi | bfi | cget | ctst | mvxFromE | chst | sstat => exact .act fun _ => State.frame_putInt (.head _)

/-- Settles O6: every such instruction is an act that fails with a trap or writes the registers named. -/
theorem registerFrame : Obligations.RegisterFrame :=
  fun _ _ _ t h ht => (State.trapsOrFrames_exec h t ht).imp_right fun ⟨hs, hr, hd⟩ => ⟨hs, hr, hd⟩

end Sys2Proof.Machine
end

section
/-! SUPPORT. What a guarded instruction answers, for one whose meaning unfolds to `act` or `actV`: the outcome named by
the act's answer. What a change of the executing strand leaves of the scratchpads, and a change of its core of the strand. -/

namespace Sys2Proof.Machine

section
variable {s t : State} {g : BitVec 3} {a : Act} {e : Trap}

/-- With the guard 1 an act that succeeds gives the next state (R62). -/
theorem State.next_ok (hg : s.me.pred g = true) (h : a = .ok t) :
    (Host.Outcome.next (if s.me.pred g then s.settle a else s.advance) : Host.Outcome State Fault Refusal) = .next t := by
  rw [if_pos hg, h, State.settle_ok]

/-- With the guard 1 an act that fails takes its trap (R20, R62). -/
theorem State.next_error (hg : s.me.pred g = true) (h : a = .error e) :
    (Host.Outcome.next (if s.me.pred g then s.settle a else s.advance) : Host.Outcome State Fault Refusal) =
      .next (s.takeTrap e) := by
  rw [if_pos hg, h, State.settle_error]

/-- The same of an instruction that names a v register: it acts on the state with VE set (R31). -/
theorem State.nextV_ok (hg : s.me.pred g = true) (h : a = .ok t) :
    (Host.Outcome.next (if s.enabled.me.pred g then s.enabled.settle a else s.enabled.advance) :
      Host.Outcome State Fault Refusal) = .next t :=
  State.next_ok ((s.pred_enabled g).trans hg) h

/-- The guard of the short forms, p0, holds 1 (R33, R67). -/
theorem Strand.pred_p0 (x : Strand) : x.pred 0#3 = true := rfl

/-- What follows a check that passes. -/
theorem act_after {α : Type} {x : Except Trap α} {f : α → Act} {v : α} (h : x = .ok v) : (x >>= f) = f v := by
  rw [h]
  rfl

end

/-! ## The executing strand and the scratchpads -/

section
variable (s : State) (f : Strand → Strand) (n p : Nat)

theorem State.core_modMe :
    (s.modMe f).core p = if p = s.cur.core then { s.myCore with slots := s.myCore.slots.set s.cur.slot (f s.me) }
      else s.core p :=
  State.core_setStrand ..

@[simp] theorem State.sp_modMe : ((s.modMe f).core p).sp = (s.core p).sp := by
  rw [State.core_modMe]
  split
  · rename_i h
    rw [h]
    rfl
  · rfl

@[simp] theorem State.spTags_modMe : ((s.modMe f).core p).spTags = (s.core p).spTags := by
  rw [State.core_modMe]
  split
  · rename_i h
    rw [h]
    rfl
  · rfl

@[simp] theorem State.fe_modMe : ((s.modMe f).core p).fe = (s.core p).fe := by
  rw [State.core_modMe]
  split
  · rename_i h
    rw [h]
    rfl
  · rfl

@[simp] theorem State.sp_advanceBy : ((s.advanceBy n).core p).sp = (s.core p).sp := s.sp_modMe _ p
@[simp] theorem State.spTags_advanceBy : ((s.advanceBy n).core p).spTags = (s.core p).spTags := s.spTags_modMe _ p
@[simp] theorem State.fe_advanceBy : ((s.advanceBy n).core p).fe = (s.core p).fe := s.fe_modMe _ p

theorem State.me_advanceBy : (s.advanceBy n).me = { s.me.past s.cur.len with readyAt := s.k + n } := State.me_modMe ..

theorem State.me_advance : s.advance.me = { s.me.past s.cur.len with readyAt := s.k + 8 } := s.me_advanceBy 8

end

section
variable {s : State} {f : Core → Core}

theorem State.core_modMyCore (s : State) (f : Core → Core) (p : Nat) :
    (s.modMyCore f).core p = if p = s.cur.core then f s.myCore else s.core p :=
  State.core_modCore ..

@[simp] theorem State.core_modMyCore_self (s : State) (f : Core → Core) : (s.modMyCore f).core s.cur.core = f s.myCore :=
  State.core_modCore_self ..

/-- A change of the core that is none of its slots leaves the executing strand. -/
theorem State.me_modMyCore (hs : (f s.myCore).slots = s.myCore.slots) (hv : (f s.myCore).vacated = s.myCore.vacated) :
    (s.modMyCore f).me = s.me := by
  rw [State.me, State.strand, State.modMyCore_cur, State.core_modMyCore_self, hs, Core.vacant, hv]
  rfl

@[simp] theorem State.me_spStore (s : State) (ea : Int) (b : List Byte) : (s.spStore ea b).me = s.me :=
  State.me_modMyCore rfl rfl

end

end Sys2Proof.Machine
end

section
/-! THEOREM. What module reset leaves (O57). -/

namespace Sys2Proof.Machine

theorem State.core_reset (p : Nat) : State.reset.core p = Core.reset p := rfl

/-- The boot partition holds every unit (R425). -/
theorem State.unitPart_reset {u : Nat} (h : u < 24) : State.reset.unitPart u = some 0 := by
  revert u
  decide

/-- `pcid` packs lane, block and die without loss: the panel has 72 dies (R36). -/
theorem Core.pcid_reset {p : Nat} (h : p < coreCount) :
    (Core.reset p).pcid.toNat = p % 8 + p / 8 % 768 * 8 + p / 6144 * 2 ^ 13 := by
  simp only [coreCount] at h
  simp only [Core.reset, BitVec.toNat_ofNat]
  omega

/-- The depth of a core in the default tree is its distance from the die's root (R348). -/
theorem defaultTree_depth (p : Nat) :
    (defaultTree p).depth = ((coordX p % 64 : Int) - 32).natAbs + ((coordY p % 96 : Int) - 48).natAbs := by
  simp only [defaultTree]
  split <;> split <;> omega

/-- No core of a die is so deep as to stand in class C or D (R350). -/
theorem defaultTree_cls (p : Nat) : (defaultTree p).cls = if (defaultTree p).depth ≤ 63 then 0 else 1 := by
  have hdeep : (defaultTree p).depth ≤ 95 := by
    rw [defaultTree_depth]
    omega
  simp only [TreeNode.cls, hdeep, if_true]

/-- Settles O57: the panel lists no core at reset, so each core is `Core.reset`. -/
theorem resetState : Obligations.ResetState := by
  refine ⟨rfl, rfl, ⟨by simp [State.reset], rfl, rfl⟩, fun u => State.unitPart_reset, fun p hp => ?_⟩
  rw [State.core_reset]
  exact ⟨rfl, rfl, rfl, rfl, rfl, rfl, rfl, rfl, rfl, rfl, Core.pcid_reset hp,
    ⟨defaultTree_depth p, by rw [← defaultTree_depth]; exact defaultTree_cls p⟩, rfl, fun _ _ => rfl, rfl, rfl, rfl⟩

end Sys2Proof.Machine
end

section
/-! THEOREM. What an integer write and a capability move leave, register by register (O5). -/

namespace Sys2Proof.Machine

theorem State.me_wrote (s : State) (d : BitVec 5) (w : Word) (n : Nat) :
    (s.wrote d w n).me = { (s.me.setReg d (CReg.int w)).past s.cur.len with readyAt := s.k + n } := by
  simp [State.wrote, State.advanceBy]

theorem State.me_moved (s : State) (d a : BitVec 5) (r : CReg) :
    (s.moved d a r).me = { ((if (s.me.reg a).linear && a != d then s.me.setReg a CReg.zero else s.me).setReg d r).past
      s.cur.len with readyAt := s.k + 8 } := by
  simp [State.moved, State.advance, State.advanceBy]

@[simp] theorem Strand.reg_past (x : Strand) (n : Nat) (r : BitVec 5) : (x.past n).reg r = x.reg r := by
  rw [Strand.past_eq]
  rfl

/-- Where a strand goes on does not depend on its registers. -/
theorem Strand.past_setReg (x : Strand) (d : BitVec 5) (v : CReg) (n : Nat) :
    ((x.setReg d v).past n).pc = (x.past n).pc ∧ ((x.setReg d v).past n).rep = (x.past n).rep := by
  unfold Strand.setReg
  split
  · exact ⟨rfl, rfl⟩
  · unfold Strand.past
    dsimp only
    split
    · exact ⟨rfl, rfl⟩
    · split
      · exact ⟨rfl, rfl⟩
      · split <;> exact ⟨rfl, rfl⟩

/-- Settles O5, by the rule of a register write. -/
theorem resultWritesAndMoves : Obligations.ResultWritesAndMoves := by
  refine ⟨fun s d w n => ?_, fun s d a r => ?_⟩
  · dsimp only
    obtain ⟨hpc, hrep⟩ := s.me.past_setReg d (CReg.int w) s.cur.len
    have hframe : s.me.Frame [d] (s.wrote d w n).me := by
      rw [State.me_wrote]
      exact .past (.setReg .refl (.head _))
    refine ⟨s.onlyStrand_wrote d w n, hframe.1, fun q => ?_, ?_⟩
    · rw [State.me_wrote, ← Strand.reg_setReg]
      exact Strand.reg_past ..
    · rw [State.me_wrote]
      exact ⟨hpc, hrep, rfl⟩
  · dsimp only
    have hframe : s.me.Frame [d, a] (s.moved d a r).me := by
      rw [State.me_moved]
      exact .past (.setReg (.ite (.setReg .refl (.tail _ (.head _))) .refl) (.head _))
    refine ⟨(s.onlyStrand_modMe _).setMe _, hframe.1, by rw [State.me_moved], fun q => ?_⟩
    rw [State.me_moved]
    refine (Strand.reg_past ..).trans ?_
    rw [Strand.reg_setReg]
    split
    · rfl
    · by_cases hl : (s.me.reg a).linear = true
      · by_cases hd : a = d
        · simp [hd]
        · by_cases hq : q = a
          · subst hq
            by_cases hz : q = 0#5 <;> simp [hl, hd, Strand.reg_setReg, hz, Strand.reg_zero]
          · simp [hl, hd, Strand.reg_setReg, hq]
      · simp [hl]

end Sys2Proof.Machine
end

section
/-! THEOREM. An integer result is not written over a linear capability; a guard of 0 only advances (O7). -/

namespace Sys2Proof.Machine

variable {s : State} {g : BitVec 3} {d : BitVec 5}

/-- With the guard 0 an instruction that names no v register only advances (R62). -/
theorem exec_unguarded {i : Instr} (hi : actsUnder i = some (g, false)) (hg : s.me.pred g = false) :
    exec i s = .next s.advance := by
  have hoff : ¬ s.me.pred g = true := by simp [hg]
  cases i <;> cases hi
  all_goals exact congrArg Host.Outcome.next (if_neg hoff)

/-- With the guard 0 an instruction that names a v register sets VE and advances (R31, R62). -/
theorem exec_unguarded_vector {i : Instr} (hi : actsUnder i = some (g, true)) (hg : s.me.pred g = false) :
    exec i s = .next s.enabled.advance := by
  have hoff : ¬ s.enabled.me.pred g = true := by simp [hg]
  cases i <;> cases hi
  all_goals exact congrArg Host.Outcome.next (if_neg hoff)

/-- An instruction that only writes an integer to c`d` takes the linearity trap where c`d` may not be written (R102). -/
theorem State.guarded_putIntBy_trap (w : Word) (n : Nat) (hg : s.me.pred g = true) (hd : ¬ s.mayWrite d) :
    (if s.me.pred g then s.settle (s.putIntBy d w n) else s.advance) = s.takeTrap (trapLinearity (d.setWidth 64)) := by
  rw [if_pos hg, State.putIntBy_error w n hd, State.settle_error]

/-- Settles O7: each of the instructions is one write of an integer, and every guarded one is an `act`. -/
theorem linearDestinationsAndGuards : Obligations.LinearDestinationsAndGuards := by
  refine ⟨fun s g p e d a b f m l i k hg hz hl => ?_, fun i g v s hi hg => ?_⟩
  · have hd : ¬ s.mayWrite d := by simp [State.mayWrite, hz, hl]
    simp only [List.forall_mem_cons, List.not_mem_nil, false_imp_iff, implies_true, and_true]
    refine ⟨?_, ?_, fun _ => ?_⟩
    all_goals
      and_intros
      all_goals exact congrArg Host.Outcome.next (State.guarded_putIntBy_trap _ _ hg hd)
  · cases v with
    | false => exact exec_unguarded hi hg
    | true => exact exec_unguarded_vector hi hg

end Sys2Proof.Machine
end

section
/-! THEOREM. Bounds decode alike over a representable region; narrowing is exact and grants nothing new (O13). -/

namespace Sys2Proof.Machine

/-! ## Decoding -/

/-- Bounds in units of 2^ex: with the base field `bm` in [0, 2^21) and the high part `bh`, an address decodes to the high part
`bh` where its distance from the base is less than 2^21 units. -/
theorem decodeBounds_of_near {val mt : Word} {bh : Int}
    (hlo : bh * 2 ^ 21 + (mt.extractLsb' 22 21).toNat ≤ (val.toNat / 2 ^ (mt.extractLsb' 16 6).toNat : Nat))
    (hhi : (val.toNat / 2 ^ (mt.extractLsb' 16 6).toNat : Nat) < bh * 2 ^ 21 + (mt.extractLsb' 22 21).toNat + 2 ^ 21) :
    decodeBounds val mt =
      let ex := (mt.extractLsb' 16 6).toNat
      let bm := (mt.extractLsb' 22 21).toNat
      let tm := (mt.extractLsb' 43 21).toNat
      ((bh * 2 ^ 21 + bm) * 2 ^ ex, ((bh + if tm < bm then 1 else 0) * 2 ^ 21 + tm) * 2 ^ ex) := by
  have hbm : (mt.extractLsb' 22 21).toNat < 2 ^ 21 := (mt.extractLsb' 22 21).isLt
  have hsplit : val.toNat / 2 ^ ((mt.extractLsb' 16 6).toNat + 21) = val.toNat / 2 ^ (mt.extractLsb' 16 6).toNat / 2 ^ 21 := by
    rw [pow_add, Nat.div_div_eq_div_mul]
  unfold decodeBounds
  dsimp only
  rw [hsplit]
  generalize val.toNat / 2 ^ (mt.extractLsb' 16 6).toNat = q at hlo hhi ⊢
  have hbh : ((q / 2 ^ 21 : Nat) : Int) - (if q % 2 ^ 21 < (mt.extractLsb' 22 21).toNat then 1 else 0) = bh := by
    split <;> omega
  rw [hbh, pow_add]
  ext <;> simp only <;> ring

/-- Every decoding has this form: its base is `bh` × 2^21 + BM units. -/
theorem decodeBounds_high (val mt : Word) : ∃ bh : Int,
    bh * 2 ^ 21 + (mt.extractLsb' 22 21).toNat ≤ (val.toNat / 2 ^ (mt.extractLsb' 16 6).toNat : Nat) ∧
    ((val.toNat / 2 ^ (mt.extractLsb' 16 6).toNat : Nat) : Int) < bh * 2 ^ 21 + (mt.extractLsb' 22 21).toNat + 2 ^ 21 := by
  have hbm : (mt.extractLsb' 22 21).toNat < 2 ^ 21 := (mt.extractLsb' 22 21).isLt
  generalize val.toNat / 2 ^ (mt.extractLsb' 16 6).toNat = q
  exact ⟨((q : Int) - (mt.extractLsb' 22 21).toNat) / 2 ^ 21, by omega, by omega⟩

/-- An address between a multiple of the unit and 2^21 units above it, in units. -/
theorem div_near {v ex : Nat} {b : Int} (hlo : b * 2 ^ ex ≤ v) (hhi : (v : Int) < b * 2 ^ ex + 2 ^ (ex + 21)) :
    b ≤ (v / 2 ^ ex : Nat) ∧ ((v / 2 ^ ex : Nat) : Int) < b + 2 ^ 21 := by
  have hpos : (0 : Int) < 2 ^ ex := by positivity
  push_cast
  constructor
  · exact (Int.le_ediv_iff_mul_le hpos).2 hlo
  · refine Int.ediv_lt_of_lt_mul hpos ?_
    have hexpand : (b + 2 ^ 21) * 2 ^ ex = b * 2 ^ ex + 2 ^ (ex + 21) := by ring
    exact hhi.trans_eq hexpand.symm

theorem CReg.bounds_of_representable {r : CReg} {a : Word} (h : r.representable a = true) :
    ({ r with val := a } : CReg).bounds = r.bounds := by
  obtain ⟨bh, hlo, hhi⟩ := decodeBounds_high r.val r.mt
  have hr : r.bounds = _ := decodeBounds_of_near hlo hhi
  simp only [CReg.representable, CReg.bexp, Bool.and_eq_true, decide_eq_true_eq, hr] at h
  obtain ⟨⟨-, hbase⟩, htop⟩ := h
  obtain ⟨hlo', hhi'⟩ := div_near hbase htop
  rw [hr]
  exact decodeBounds_of_near hlo' hhi'

/-! ## Narrowing -/

/-- The exponent that is found holds the length, and is no larger than 43 (R114). -/
theorem boundsExponent_some {len ex : Nat} : ∀ {fuel e : Nat}, boundsExponent len fuel e = some ex →
    len ≤ 2 ^ (ex + 21) - 2 ^ ex ∧ ex < e + fuel
  | 0, _, h => by simp [boundsExponent] at h
  | fuel + 1, e, h => by
    unfold boundsExponent at h
    split at h
    · cases h
      exact ⟨‹_›, by omega⟩
    · have := boundsExponent_some h
      exact ⟨this.1, by omega⟩

/-- The value of a `meta` whose bounds were replaced: its fields side by side (R24). -/
theorem toNat_setBoundsFields (m : Word) {ex bm tm : Nat} (he : ex < 2 ^ 6) (hb : bm < 2 ^ 21) (ht : tm < 2 ^ 21) :
    (setBoundsFields m ex bm tm).toNat = m.toNat % 2 ^ 16 + ex * 2 ^ 16 + bm * 2 ^ 22 + tm * 2 ^ 43 := by
  have place {x a i k : Nat} (hx : x < 2 ^ i) (ha : a < 2 ^ k) (hi : i + k ≤ 64) :
      x ||| (BitVec.ofNat 64 a <<< i).toNat = x + a * 2 ^ i := by
    have hai : a * 2 ^ i < 2 ^ 64 :=
      calc a * 2 ^ i < 2 ^ k * 2 ^ i := Nat.mul_lt_mul_of_pos_right ha (by positivity)
        _ = 2 ^ (i + k) := by rw [← pow_add, Nat.add_comm]
        _ ≤ 2 ^ 64 := Nat.pow_le_pow_right (by decide) hi
    have ha64 : a < 2 ^ 64 := lt_of_le_of_lt (Nat.le_mul_of_pos_right a (by positivity)) hai
    rw [BitVec.toNat_shiftLeft, BitVec.toNat_ofNat, Nat.mod_eq_of_lt ha64, Nat.shiftLeft_eq, Nat.mod_eq_of_lt hai,
      ← Nat.shiftLeft_eq, Nat.or_comm, ← Nat.shiftLeft_add_eq_or_of_lt hx, Nat.add_comm]
  have hlow : (m &&& 0xFFFF#64).toNat = m.toNat % 2 ^ 16 := by
    rw [BitVec.toNat_and]
    exact Nat.and_two_pow_sub_one_eq_mod m.toNat 16
  unfold setBoundsFields
  rw [BitVec.toNat_or, BitVec.toNat_or, BitVec.toNat_or, hlow, Nat.mod_eq_of_lt (a := ex) (by omega),
    Nat.mod_eq_of_lt hb, Nat.mod_eq_of_lt ht, place (k := 6) (by omega) he (by decide),
    place (k := 21) (by omega) hb (by decide), place (k := 21) (by omega) ht (by decide)]

theorem setBoundsFields_fields (m : Word) {ex bm tm : Nat} (he : ex < 2 ^ 6) (hb : bm < 2 ^ 21) (ht : tm < 2 ^ 21) :
    ((setBoundsFields m ex bm tm).extractLsb' 16 6).toNat = ex ∧
    ((setBoundsFields m ex bm tm).extractLsb' 22 21).toNat = bm ∧
    ((setBoundsFields m ex bm tm).extractLsb' 43 21).toNat = tm ∧
    (setBoundsFields m ex bm tm).extractLsb' 0 12 = m.extractLsb' 0 12 ∧
    (setBoundsFields m ex bm tm).extractLsb' 12 4 = m.extractLsb' 12 4 := by
  have hval := toNat_setBoundsFields m he hb ht
  refine ⟨?_, ?_, ?_, BitVec.eq_of_toNat_eq ?_, BitVec.eq_of_toNat_eq ?_⟩
  all_goals
    simp only [BitVec.extractLsb'_toNat, Nat.shiftRight_eq_div_pow, hval]
    omega

/-- Bounds that are multiples of 2^ex, whose length in units fits 21 bits, are what their own fields decode to (R114). -/
theorem decodeBounds_setBoundsFields {val m : Word} {len ex b l : Nat} (he : ex < 44) (hb : val.toNat = b * 2 ^ ex)
    (hl : len = l * 2 ^ ex) (hshort : l < 2 ^ 21) :
    decodeBounds val (setBoundsFields m ex (val.toNat / 2 ^ ex % 2 ^ 21) ((val.toNat + len) % 2 ^ 64 / 2 ^ ex % 2 ^ 21)) =
      ((val.toNat : Int), (val.toNat : Int) + len) := by
  have hpos : 0 < 2 ^ ex := by positivity
  have hq : val.toNat / 2 ^ ex = b := by rw [hb, Nat.mul_div_cancel _ hpos]
  have htm : (val.toNat + len) % 2 ^ 64 / 2 ^ ex % 2 ^ 21 = (b + l) % 2 ^ 21 := by
    have hsplit : 2 ^ 64 = 2 ^ ex * (2 ^ 21 * 2 ^ (43 - ex)) := by
      rw [← pow_add, ← pow_add]
      congr 1
      omega
    rw [hb, hl, ← Nat.add_mul, hsplit, Nat.mul_comm, Nat.mul_mod_mul_left, Nat.mul_div_cancel_left _ hpos,
      Nat.mod_mul_right_mod]
  obtain ⟨hex, hbm, htm', -, -⟩ := setBoundsFields_fields m (ex := ex) (bm := b % 2 ^ 21) (tm := (b + l) % 2 ^ 21)
    (by omega) (Nat.mod_lt _ (by decide)) (Nat.mod_lt _ (by decide))
  rw [hq, htm, decodeBounds_of_near (bh := (b / 2 ^ 21 : Nat)) (by rw [hex, hbm, hq]; omega)
    (by rw [hex, hbm, hq]; omega)]
  dsimp only
  rw [hex, hbm, htm']
  have hbase : (((b / 2 ^ 21 : Nat) : Int) * 2 ^ 21 + (b % 2 ^ 21 : Nat)) = b := by omega
  have htopUnits : (((b / 2 ^ 21 : Nat) : Int) + if (b + l) % 2 ^ 21 < b % 2 ^ 21 then 1 else 0) * 2 ^ 21 +
      ((b + l) % 2 ^ 21 : Nat) = b + l := by
    split <;> omega
  rw [hbase, htopUnits, hb, hl]
  push_cast
  ext <;> simp only
  ring

/-- What a narrowing that succeeds has found (R114). -/
theorem narrowReg_ok {r m : CReg} {n : Nat} (h : narrowReg r n = .ok m) :
    ∃ ex < 44, r.bounds.1 ≤ r.val.toNat ∧ (r.val.toNat : Int) + n ≤ r.bounds.2 ∧
      n ≤ 2 ^ (ex + 21) - 2 ^ ex ∧ 2 ^ ex ∣ r.val.toNat ∧ 2 ^ ex ∣ n ∧
      m = ⟨true, r.val, setBoundsFields r.mt ex (r.val.toNat / 2 ^ ex % 2 ^ 21)
        ((r.val.toNat + n) % 2 ^ 64 / 2 ^ ex % 2 ^ 21)⟩ := by
  unfold narrowReg at h
  dsimp only at h
  cases hin : validBounds r.bounds && decide (r.bounds.1 ≤ r.val.toNat) && decide ((r.val.toNat : Int) + n ≤ r.bounds.2) with
  | false => simp [hin, bind, Except.bind] at h
  | true =>
    simp only [Bool.and_eq_true, decide_eq_true_eq] at hin
    obtain ⟨⟨hvalid, hlo⟩, hhi⟩ := hin
    simp only [hvalid, hlo, hhi, decide_true, Bool.and_self, need_true, bind, Except.bind, narrowMeta] at h
    cases hex : boundsExponent n 44 0 with
    | none => simp [hex] at h
    | some ex =>
      obtain ⟨hlen, hlt⟩ := boundsExponent_some hex
      simp only [hex] at h
      by_cases hmul : r.val.toNat % 2 ^ ex ≠ 0 ∨ n % 2 ^ ex ≠ 0
      · simp [if_pos hmul] at h
      · rw [if_neg hmul] at h
        simp only [not_or, not_not] at hmul
        cases h
        exact ⟨ex, by omega, hlo, hhi, hlen, Nat.dvd_of_mod_eq_zero hmul.1, Nat.dvd_of_mod_eq_zero hmul.2, rfl⟩

/-- Settles O13: the high part of the base is that of every address near it, and a narrowing is accepted where its fields
hold the bounds exactly. -/
theorem boundsAndNarrowing : Obligations.BoundsAndNarrowing := by
  refine ⟨fun r a h => CReg.bounds_of_representable h, fun r m n h => ?_⟩
  obtain ⟨ex, hex, hlo, hhi, hlen, ⟨b, hb⟩, ⟨l, hl⟩, rfl⟩ := narrowReg_ok h
  have hshort : l < 2 ^ 21 := by
    have hpos : 0 < 2 ^ ex := by positivity
    rw [hl, pow_add, ← Nat.mul_sub_one] at hlen
    have := Nat.le_of_mul_le_mul_left hlen hpos
    omega
  have hbounds := decodeBounds_setBoundsFields (m := r.mt) hex (hb.trans (Nat.mul_comm ..)) (hl.trans (Nat.mul_comm ..))
    hshort
  obtain ⟨-, -, -, hperm, hkind⟩ := setBoundsFields_fields r.mt (ex := ex) (bm := r.val.toNat / 2 ^ ex % 2 ^ 21)
    (tm := (r.val.toNat + n) % 2 ^ 64 / 2 ^ ex % 2 ^ 21) (by omega) (Nat.mod_lt _ (by decide)) (Nat.mod_lt _ (by decide))
  exact ⟨rfl, rfl, hbounds, hlo.trans_eq (congrArg Prod.fst hbounds).symm, (congrArg Prod.snd hbounds).trans_le hhi, hperm,
    congrArg BitVec.toNat hkind⟩

end Sys2Proof.Machine
end

section
/-! THEOREM. Reading and writing control registers by mode, and the values their writes leave (O34). -/

namespace Sys2Proof.Machine

/-! ## The access checks -/

section
variable {s : State} {n : Nat} {x : CsrAccess}

theorem State.checkCsr_unlisted (h : csrAccess n = none) (rd wr : Bool) :
    s.checkCsr n rd wr = .error (trapIllegal s.instrBits) := by
  rw [State.checkCsr, h]

theorem State.checkCsr_listed (h : csrAccess n = some x) (rd wr : Bool) :
    s.checkCsr n rd wr = need ((!rd || x.reads s.me.mode) && (!wr || x.writes s.me.mode)) (trapPrivileged s.instrBits) := by
  rw [State.checkCsr, h]

end

/-! ## The instructions -/

section
variable {s : State} {g : BitVec 3} {d a : BitVec 5} {c : BitVec 12} {e : Trap}

theorem exec_csrr_error (hg : s.me.pred g = true) (h : s.checkCsr c.toNat true false = .error e) :
    exec (.csrr g d c) s = .next (s.takeTrap e) :=
  State.next_error hg (by beta_reduce; rw [h]; rfl)

theorem exec_csrw_error (hg : s.me.pred g = true) (h : s.checkCsr c.toNat false true = .error e) :
    exec (.csrw g c a) s = .next (s.takeTrap e) :=
  State.next_error hg (by beta_reduce; rw [h]; rfl)

theorem exec_csrx_error (hg : s.me.pred g = true) (h : s.checkCsr c.toNat true true = .error e) :
    exec (.csrx g d c a) s = .next (s.takeTrap e) :=
  State.next_error hg (by beta_reduce; rw [h]; rfl)

theorem exec_csrr_ok (hg : s.me.pred g = true) (h : s.checkCsr c.toNat true false = .ok ()) (hd : s.mayWrite d) :
    exec (.csrr g d c) s = .next (s.wrote d (s.csrValue c.toNat) 8) :=
  State.next_ok hg (by beta_reduce; rw [h]; exact State.putInt_ok _ hd)

theorem exec_csrw_ok (hg : s.me.pred g = true) (h : s.checkCsr c.toNat false true = .ok ())
    (hm : s.checkDmask c.toNat (s.me.val a) = .ok ()) :
    exec (.csrw g c a) s = .next ((s.writeCsr c.toNat (s.me.val a)).advance) :=
  State.next_ok hg (by simp only [h, hm]; rfl)

theorem exec_csrx_ok (hg : s.me.pred g = true) (h : s.checkCsr c.toNat true true = .ok ()) (hd : s.mayWrite d)
    (hm : s.checkDmask c.toNat (s.me.val a) = .ok ()) :
    exec (.csrx g d c a) s = .next ((s.writeCsr c.toNat (s.me.val a)).wrote d (s.csrValue c.toNat) 8) :=
  State.next_ok hg (by simp only [h, hm, (s.writable_iff d).2 hd]; rfl)

end

/-! ## What a write leaves -/

/-- A control register of the core is none of its slots. -/
theorem Core.slots_writeCsr (c : Core) (n : Nat) (w : Word) :
    (c.writeCsr n w).slots = c.slots ∧ (c.writeCsr n w).vacated = c.vacated := by
  unfold Core.writeCsr
  split <;> exact ⟨rfl, rfl⟩

@[simp] theorem State.me_writeCsr (s : State) (n : Nat) (w : Word) : (s.writeCsr n w).me = s.me.writeCsr n w := by
  obtain ⟨hs, hv⟩ := Core.slots_writeCsr (s.modMe (fun x => x.writeCsr n w)).myCore n w
  rw [State.writeCsr, State.me_modMyCore hs hv, State.me_modMe]

theorem State.myCore_writeCsr (s : State) (n : Nat) (w : Word) :
    (s.writeCsr n w).myCore = (s.modMe (fun x => x.writeCsr n w)).myCore.writeCsr n w := by
  simp [State.writeCsr, State.modMyCore, State.myCore]

/-- A register that `dmask` marks reads as an untagged zero (R39). -/
theorem Strand.reg_kill {x : Strand} {m : BitVec 32} {r : BitVec 5} (h : m.getLsbD r.toNat = true) :
    (x.kill m).reg r = CReg.zero := by
  simp [Strand.reg, Strand.kill, h]

/-- A write of `dmask` marks every register that it names, but for c0, which reads zero (R23, R39). -/
theorem Strand.reg_writeCsr_dmask (x : Strand) {w : Word} {r : BitVec 5} (h : w.getLsbD r.toNat = true) :
    (x.writeCsr 0x004 w).reg r = CReg.zero := by
  by_cases hr : r = 0#5
  · rw [hr, Strand.reg_zero]
  · refine Strand.reg_kill ?_
    have hbit : ∀ r : BitVec 5, r ≠ 0#5 → (0xFFFFFFFE#32).getLsbD r.toNat = true := by decide
    simp [h, hbit r hr, r.isLt]

theorem Strand.setVe_ve (x : Strand) : x.setVe.ve = true := by simp [Strand.setVe, Strand.ve]

/-- `vtime` is the middle of the product of the elapsed time and the scale (R41). -/
theorem vtimeOf_eq (now toff tscale : Word) :
    vtimeOf now toff tscale = ((now - toff).setWidth 128 * tscale.setWidth 128).extractLsb' 32 64 := by
  apply BitVec.eq_of_toNat_eq
  have hx : (now - toff).toNat < 2 ^ 64 := (now - toff).isLt
  have hy : tscale.toNat < 2 ^ 64 := tscale.isLt
  have hxy : (now - toff).toNat * tscale.toNat < 2 ^ 128 := by
    calc (now - toff).toNat * tscale.toNat < 2 ^ 64 * 2 ^ 64 := Nat.mul_lt_mul'' hx hy
      _ = 2 ^ 128 := by norm_num
  rw [vtimeOf, BitVec.extractLsb'_toNat, BitVec.toNat_mul, BitVec.toNat_setWidth, BitVec.toNat_setWidth,
    Nat.mod_eq_of_lt (hx.trans (by decide)), Nat.mod_eq_of_lt (hy.trans (by decide)), Nat.mod_eq_of_lt hxy,
    Nat.shiftRight_eq_div_pow, BitVec.toNat_ofNat]

/-- With 1 in bit 2 a write of `sst` sets VE; with 0 it clears VE and the v registers, unless a stream is bound (R31, R37). -/
theorem Strand.writeSst_set {x : Strand} {w : Word} (h : w.getLsbD 2 = true) : (x.writeSst w).ve = true := by
  rw [Strand.writeSst, if_pos h, Strand.setVe_ve]

theorem Strand.writeSst_clear {x : Strand} {w : Word} (h : w.getLsbD 2 = false) (hs : x.sst.extractLsb' 3 3 = 0#3) :
    (x.writeSst w).ve = false ∧ ∀ q, (x.writeSst w).vec q = 0#512 := by
  have hve : (x.writeSst w).ve = false := by
    rw [Strand.writeSst, if_neg (ne_true_of_eq_false h), if_pos hs]
    simp [Strand.ve]
  exact ⟨hve, fun q => by simp [Strand.vec, hve]⟩

theorem Strand.writeSst_other (x : Strand) (w : Word) {i : Nat} (h : i ≠ 2) :
    (x.writeSst w).sst.getLsbD i = x.sst.getLsbD i := by
  have hbit : ∀ i < 13, i ≠ 2 → (4#13).getLsbD i = false ∧ (~~~4#13).getLsbD i = true := by decide
  by_cases hi : i < 13
  · obtain ⟨hset, hclear⟩ := hbit i hi h
    unfold Strand.writeSst
    split
    · simp only [Strand.setVe, BitVec.getLsbD_or, hset, Bool.or_false]
    · split
      · simp only [BitVec.getLsbD_and, hclear, Bool.and_true]
      · rfl
  · rw [BitVec.getLsbD_of_ge _ _ (by omega), BitVec.getLsbD_of_ge _ _ (by omega)]

/-- A write of `fmode` clears the flags where it has 1 (R38). -/
theorem writeFmode_flag (old w : BitVec 8) {i : Nat} (h : i < 5) :
    (writeFmode old w).getLsbD (3 + i) = (old.getLsbD (3 + i) && !w.getLsbD (3 + i)) := by
  have happ (x : BitVec 5) (y : BitVec 3) : (x ++ y).getLsbD (3 + i) = x.getLsbD i := by
    rw [BitVec.getLsbD_append]
    simp
  exact (happ _ _).trans (by simp [h])

/-- Settles O34: the access check, then the value or the write of the one register that the number names. -/
theorem controlRegisters : Obligations.ControlRegisters := by
  refine ⟨fun s g d a c hg => ⟨fun hn i hi => ?_, fun x hx => ⟨fun hr => ?_, fun hw => ?_, fun hr hd => ?_, fun hw hm =>
    ⟨?_, fun hr hd => ?_⟩⟩⟩, fun s => ?_, fun s w => ?_⟩
  · simp only [List.mem_cons, List.not_mem_nil, or_false] at hi
    rcases hi with rfl | rfl | rfl
    · exact exec_csrr_error hg (State.checkCsr_unlisted hn ..)
    · exact exec_csrw_error hg (State.checkCsr_unlisted hn ..)
    · exact exec_csrx_error hg (State.checkCsr_unlisted hn ..)
  · exact exec_csrr_error hg (by simp [State.checkCsr_listed hx, hr])
  · exact exec_csrw_error hg (by simp [State.checkCsr_listed hx, hw])
  · exact exec_csrr_ok hg (by simp [State.checkCsr_listed hx, hr]) hd
  · exact exec_csrw_ok hg (by simp [State.checkCsr_listed hx, hw]) hm
  · exact exec_csrx_ok hg (by simp [State.checkCsr_listed hx, hr, hw]) hd hm
  · exact ⟨rfl, rfl, rfl, rfl, rfl, vtimeOf_eq .., rfl, rfl⟩
  · simp only [State.me_writeCsr, State.myCore_writeCsr]
    exact ⟨rfl, rfl, rfl, fun _ => s.me.reg_writeCsr_dmask, rfl, rfl, rfl, rfl, rfl, rfl, rfl, rfl, rfl, rfl,
      Strand.writeSst_set, Strand.writeSst_clear, fun _ => s.me.writeSst_other w,
      fun i hi => (writeFmode_flag _ _ hi).trans (by simp [show 3 + i < 8 by omega])⟩

end Sys2Proof.Machine
end

section
/-! THEOREM. Scalar loads and stores of a scratchpad window (O17): the access checks taken apart, and what a store of
bytes leaves of the scratchpad. -/

namespace Sys2Proof.Machine

/-! ## The access checks -/

/-- A check and what follows it both pass. -/
theorem check_bind_ok_iff {x : Except Trap Unit} {f : Unit → Except Trap Unit} :
    (x >>= f) = .ok () ↔ x = .ok () ∧ f () = .ok () := by
  cases x with
  | ok u => exact ⟨fun h => ⟨rfl, h⟩, fun h => h.2⟩
  | error e => exact ⟨nofun, fun h => nomatch h.1⟩

section
variable {s : State} {u : BaseUse} {a : BitVec 5} {bits : BitVec 12} {ea : Int} {n al : Nat} {st : Bool}
  {d : Option (BitVec 5)}

/-- An access passes its checks where it passes each stage of R104. -/
theorem State.checkAccess_ok_iff : s.checkAccess u a bits ea n al st d = .ok () ↔
    checkPlace u a (s.me.reg a) bits ea = .ok () ∧ checkBounds (s.me.reg a) ea n = .ok () ∧
      s.checkLinearity (s.me.reg a) ea n st d = .ok () ∧ checkAlignment (s.me.reg a) ea n al = .ok () ∧
      s.checkHome (s.me.reg a) ea = .ok () := by
  simp only [State.checkAccess, check_bind_ok_iff]

/-- The base of an access that passes its checks is tagged (R103). -/
theorem State.tag_of_checkAccess (h : s.checkAccess u a bits ea n al st d = .ok ()) : (s.me.reg a).tag = true := by
  obtain ⟨hplace, -⟩ := State.checkAccess_ok_iff.1 h
  rw [checkPlace, check_bind_ok_iff, checkBase, check_bind_ok_iff, need_ok_iff] at hplace
  exact hplace.1.1

theorem CReg.place_window {r : CReg} (h : r.kind = 1) : r.place = .window := if_pos h

theorem State.shortBase_ok (htag : (s.me.reg a).tag = true) (hk : (s.me.reg a).kind = 1) : s.shortBase a = .ok () := by
  rw [State.shortBase, htag, hk]
  rfl

end

/-! ## Loads and stores of a window -/

section
variable {s : State} {d a : BitVec 5} {ea : Int} {n : Nat} {sg : Bool}

theorem State.load_window (hk : (s.me.reg a).kind = 1) (h : s.checkAccess .ld a permL ea n n false (some d) = .ok ()) :
    s.load d a ea n sg = .ok (s.wrote d (loadValue n sg (s.spBytes ea n)) 8) := by
  rw [State.load, h, CReg.place_window hk]
  rfl

theorem State.store_window (hk : (s.me.reg a).kind = 1) (h : s.checkAccess .st a permS ea n n true none = .ok ()) :
    s.store d a ea n = .ok (s.spStore ea (natBytes n (s.me.val d).toNat)).advance := by
  rw [State.store, h, CReg.place_window hk]
  rfl

end

/-! ## What a store leaves -/

section
variable {s : State} (ea : Int) (b : List Byte)

theorem State.holds_spStore (hs : s.MemoriesCanonical) :
    (s.spStore ea b).advance.Holds s.cur.core (ea.toNat % 2 ^ 18) b := by
  rw [State.Holds, State.advance, State.sp_advanceBy, State.spStore, State.core_modMyCore_self]
  exact Memory.readN_writeN _ b hs.core

theorem State.sameOutside_spStore (hs : s.MemoriesCanonical) :
    s.SameOutside (s.spStore ea b).advance s.cur.core (ea.toNat % 2 ^ 18) b.length := by
  intro i hi
  have hread := Core.read_spWrite (ea.toNat % 2 ^ 18) i b (hs.core (p := s.cur.core))
  rw [State.advance, State.sp_advanceBy, State.spStore, State.core_modMyCore_self]
  exact hread.trans (if_neg (by omega))

/-- A store clears the tags of the granules that it touches and leaves the others (R134). -/
theorem State.has_spTags_spStore (q : Nat) :
    NatSet.has ((s.spStore ea b).advance.core s.cur.core).spTags q =
      (decide (q ∉ granules (ea.toNat % 2 ^ 18) b.length) && NatSet.has s.myCore.spTags q) := by
  rw [State.advance, State.spTags_advanceBy, State.spStore, State.core_modMyCore_self, Core.has_spTags_spWrite]

theorem State.sameTags_spStore :
    s.SameTags (s.spStore ea b).advance s.cur.core (granules (ea.toNat % 2 ^ 18) b.length) := by
  intro q hq
  rw [State.has_spTags_spStore, decide_eq_true hq, Bool.true_and]
  rfl

theorem State.sameFull_spStore : s.SameFull (s.spStore ea b).advance s.cur.core := by
  intro q
  rw [Core.full, State.advance, State.fe_advanceBy, State.spStore, State.core_modMyCore_self]
  rfl

theorem Strand.onlyMoved_past (x : Strand) (n k : Nat) : x.OnlyMoved { x.past n with readyAt := k } := by
  rw [Strand.past_eq]
  rfl

/-- What a store of bytes to a window leaves: the bytes, the cleared tags, and everything else as it was (R134, R135). -/
theorem State.stored (hs : s.MemoriesCanonical) {n : Nat} (hn : b.length = n) :
    let t := (s.spStore ea b).advance
    t.Holds s.cur.core (ea.toNat % 2 ^ 18) b ∧ s.SameOutside t s.cur.core (ea.toNat % 2 ^ 18) n ∧
      s.me.OnlyMoved t.me ∧ t.me.readyAt = s.k + 8 ∧
      (∀ h ∈ granules (ea.toNat % 2 ^ 18) n, NatSet.has (t.core s.cur.core).spTags h = false) ∧
      s.SameTags t s.cur.core (granules (ea.toNat % 2 ^ 18) n) ∧ s.SameFull t s.cur.core := by
  subst hn
  refine ⟨State.holds_spStore ea b hs, State.sameOutside_spStore ea b hs, ?_, ?_, fun q hq => ?_,
    State.sameTags_spStore ea b, State.sameFull_spStore ea b⟩
  · rw [State.me_advance, State.me_spStore]
    exact Strand.onlyMoved_past ..
  · rw [State.me_advance]
    rfl
  · rw [State.has_spTags_spStore, decide_eq_false (not_not_intro hq), Bool.false_and]

end

/-- Settles O17: the checks pass, the place is the window, and the access is the read or the write of its bytes. -/
theorem windowLoadsAndStores : Obligations.WindowLoadsAndStores := by
  refine ⟨fun s g z d a o hg hk => ⟨fun h => ?_, fun e b i hkb hb => ?_⟩,
    fun s g z d a o hs hg hk => ⟨fun h => ?_, fun e b i hkb hb => ?_⟩⟩
  · exact State.next_ok hg (State.load_window hk h)
  · refine State.next_ok (Strand.pred_p0 _) ?_
    exact (act_after (State.shortBase_ok (State.tag_of_checkAccess hb) hkb)).trans (State.load_window hkb hb)
  · exact ⟨_, State.next_ok hg (State.store_window hk h), State.stored _ _ hs (length_natBytes ..)⟩
  · obtain ⟨hholds, hout, hmoved, -, htags⟩ := State.stored (((s.me.val (b.setWidth 5)).toNat : Int) + 8 * i.toNat)
      (natBytes 8 (s.me.val (e.setWidth 5)).toNat) hs (length_natBytes ..)
    refine ⟨_, State.next_ok (Strand.pred_p0 _) ?_, hholds, hout, hmoved, htags⟩
    exact (act_after (State.shortBase_ok (State.tag_of_checkAccess hb) hkb)).trans (State.store_window hkb hb)

end Sys2Proof.Machine
end

section
/-! THEOREM. The full/empty forms (O19): their checks pass, and the full/empty bit of the granule says what they do. -/

namespace Sys2Proof.Machine

/-! ## The checks -/

section
variable {s : State} {a : BitVec 5} {r : CReg} {bits : BitVec 12} {ea : Int} {n : Nat}

/-- A capability with each permission of a mask carries the mask (R26). -/
theorem CReg.perm_and_eq (h : ∀ i < 12, bits.getLsbD i = true → r.has i = true) : r.perm &&& bits = bits := by
  refine BitVec.eq_of_getLsbD_eq fun i hi => ?_
  rw [BitVec.getLsbD_and]
  cases hb : bits.getLsbD i with
  | false => exact Bool.and_false _
  | true =>
    have hr : r.mt.getLsbD i = true := h i hi hb
    simp [CReg.perm, hi, hr]

theorem CReg.perm_and_permL (h : r.has 0 = true) : r.perm &&& permL = permL := by
  have hbit : ∀ i < 12, permL.getLsbD i = true → i = 0 := by decide
  exact CReg.perm_and_eq fun i hi hb => by rw [hbit i hi hb, h]

theorem CReg.perm_and_permS (h : r.has 1 = true) : r.perm &&& permS = permS := by
  have hbit : ∀ i < 12, permS.getLsbD i = true → i = 1 := by decide
  exact CReg.perm_and_eq fun i hi hb => by rw [hbit i hi hb, h]

theorem CReg.perm_and_permLS (h0 : r.has 0 = true) (h1 : r.has 1 = true) : r.perm &&& permLS = permLS := by
  have hbit : ∀ i < 12, permLS.getLsbD i = true → i = 0 ∨ i = 1 := by decide
  refine CReg.perm_and_eq fun i hi hb => ?_
  rcases hbit i hi hb with rfl | rfl
  · exact h0
  · exact h1

theorem checkWindow_ok (ht : r.tag = true) (hk : r.kind = 1) (hp : r.perm &&& bits = bits) :
    checkWindow a r bits ea = .ok () := by
  rw [checkWindow, check_bind_ok_iff]
  exact ⟨(need_ok_iff ..).2 (by rw [ht, hk]; rfl), (need_ok_iff ..).2 (by rw [hp]; exact beq_self_eq_true _)⟩

theorem checkBounds_ok (h : r.inBounds ea n = true) : checkBounds r ea n = .ok () := (need_ok_iff ..).2 h

theorem checkAlign_ok (h : ea % (n : Int) = 0) : checkAlign ea n = .ok () := (need_ok_iff ..).2 (decide_eq_true h)

/-- The linearity stage of a load is the rule of R102. -/
theorem State.checkLinearity_load {d : BitVec 5} (h : s.mayWrite d) :
    s.checkLinearity r ea n false (some d) = .ok () := by
  rw [State.checkLinearity, check_bind_ok_iff]
  exact ⟨(s.writable_iff d).2 h, rfl⟩

theorem Core.checkLinear_ok {c : Core} {at_ : Nat} {w : Word} (h : ∀ q ∈ granules at_ n, c.linearGranule q = false) :
    c.checkLinear at_ n w = .ok () :=
  (need_ok_iff ..).2 (List.all_eq_true.2 fun q hq => by rw [h q hq]; rfl)

/-- That of a store spares the granules that hold linear capabilities (R134). -/
theorem State.checkLinearity_store (hk : r.kind = 1)
    (h : ∀ q ∈ granules (ea.toNat % 2 ^ 18) n, s.myCore.linearGranule q = false) :
    s.checkLinearity r ea n true none = .ok () := by
  rw [State.checkLinearity, CReg.place_window hk]
  exact Core.checkLinear_ok h

end

/-! ## The forms -/

section
variable {s : State} {d a : BitVec 5} {o : BitVec 8} {z : BitVec 3} {clear : Bool}

/-- A full/empty load whose checks pass loads a full granule, and waits for one (R137). -/
theorem State.loadFull_eq (ht : (s.me.reg a).tag = true) (hk : (s.me.reg a).kind = 1)
    (hp : (s.me.reg a).perm &&& (if clear then permLS else permL) = if clear then permLS else permL)
    (hb : (s.me.reg a).inBounds (effective (s.me.reg a) o (sizeOf z)) (sizeOf z) = true) (hd : s.mayWrite d)
    (ha : effective (s.me.reg a) o (sizeOf z) % (sizeOf z : Int) = 0) :
    s.loadFull d a o z clear =
      let ea := effective (s.me.reg a) o (sizeOf z)
      let q := ea.toNat % 2 ^ 18 / 16
      let t := s.modMe (fun x => x.setReg d (CReg.int (loadValue (sizeOf z) (sizeSigned z) (s.spBytes ea (sizeOf z)))))
      if s.myCore.full q then
        .ok (if clear then (t.modMyCore (fun c => c.setFe [q] false)).wakeFullEmpty s.cur.core else t).advance
      else .ok (s.waitAgain (.fullEmpty [q] [])) :=
  (act_after (checkWindow_ok ht hk hp)).trans <| (act_after (checkBounds_ok hb)).trans <|
    (act_after (State.checkLinearity_load hd)).trans <| act_after (checkAlign_ok ha)

end

/-- A full/empty store whose checks pass stores to an empty granule, and waits for one (R137). -/
theorem exec_stE {s : State} {g z : BitVec 3} {d a : BitVec 5} {o : BitVec 9} (hg : s.me.pred g = true)
    (ht : (s.me.reg a).tag = true) (hk : (s.me.reg a).kind = 1) (hs : (s.me.reg a).has 1 = true)
    (hb : (s.me.reg a).inBounds (effective (s.me.reg a) o (sizeOf z)) (sizeOf z) = true)
    (ha : effective (s.me.reg a) o (sizeOf z) % (sizeOf z : Int) = 0)
    (hl : ∀ q ∈ granules ((effective (s.me.reg a) o (sizeOf z)).toNat % 2 ^ 18) (sizeOf z),
      s.myCore.linearGranule q = false) :
    let ea := effective (s.me.reg a) o (sizeOf z)
    let q := ea.toNat % 2 ^ 18 / 16
    exec (.stE g d a o z) s = .next (if s.myCore.full q then s.waitAgain (.fullEmpty [] [q]) else
      (((s.spStore ea (natBytes (sizeOf z) (s.me.val d).toNat)).modMyCore (fun c => c.setFe [q] true)).wakeFullEmpty
        s.cur.core).advance) := by
  intro ea q
  refine State.next_ok hg ?_
  refine (act_after (checkWindow_ok ht hk (CReg.perm_and_permS hs))).trans <| (act_after (checkBounds_ok hb)).trans <|
    (act_after (State.checkLinearity_store hk hl)).trans <| (act_after (checkAlign_ok ha)).trans ?_
  exact (apply_ite Except.ok ..).symm

/-- The marks of a range of a window whose checks pass (R155). -/
theorem State.feRange_ok {s : State} {a b : BitVec 5} (v : Bool) (ht : (s.me.reg a).tag = true)
    (hk : (s.me.reg a).kind = 1) (hs : (s.me.reg a).has 1 = true)
    (hb : (s.me.reg a).inBounds (s.me.reg a).val.toNat (s.me.val b).toNat = true)
    (ha : (s.me.reg a).val.toNat % 16 = 0) (hn : (s.me.val b).toNat % 16 = 0) :
    s.feRange a b v = .ok ((s.modMyCore (fun c =>
      c.setFe (granules ((s.me.reg a).val.toNat % 2 ^ 18) (s.me.val b).toNat) v)).wakeFullEmpty s.cur.core).advance := by
  have halign : (decide (((s.me.reg a).val.toNat : Int) % 16 = 0) && decide ((s.me.val b).toNat % 16 = 0)) = true := by
    rw [decide_eq_true hn, decide_eq_true (by omega)]
    rfl
  exact (act_after (checkWindow_ok ht hk (CReg.perm_and_permS hs))).trans <|
    (act_after (checkBounds_ok hb)).trans <| act_after ((need_ok_iff ..).2 halign)

/-- Settles O19: each form passes its checks; the granule's full/empty bit then says whether it acts or waits. -/
theorem fullEmpty : Obligations.FullEmpty := by
  refine ⟨fun s g z d a o o' hg => ⟨fun ht hk hb hd ha => ?_, fun ht hk hs hb ha hl => ?_⟩,
    fun s g a b hg ht hk hs hb ha hn => ?_⟩
  · refine ⟨fun h0 hf => ?_, fun h0 hf => ?_, fun h0 h1 hf => ?_, fun h0 h1 hf => ?_⟩
    · exact State.next_ok hg ((State.loadFull_eq (clear := false) ht hk (CReg.perm_and_permL h0) hb hd ha).trans
        (if_pos hf))
    · exact State.next_ok hg ((State.loadFull_eq (clear := false) ht hk (CReg.perm_and_permL h0) hb hd ha).trans
        (if_neg (ne_true_of_eq_false hf)))
    · exact State.next_ok hg ((State.loadFull_eq (clear := true) ht hk (CReg.perm_and_permLS h0 h1) hb hd ha).trans
        (if_pos hf))
    · exact State.next_ok hg ((State.loadFull_eq (clear := true) ht hk (CReg.perm_and_permLS h0 h1) hb hd ha).trans
        (if_neg (ne_true_of_eq_false hf)))
  · have h := exec_stE (d := d) hg ht hk hs hb ha hl
    exact ⟨fun hf => h.trans (congrArg _ (if_neg (ne_true_of_eq_false hf))),
      fun hf => h.trans (congrArg _ (if_pos hf))⟩
  · exact ⟨State.next_ok hg (State.feRange_ok true ht hk hs hb ha hn),
      State.next_ok hg (State.feRange_ok false ht hk hs hb ha hn)⟩

end Sys2Proof.Machine
end

section
/-! THEOREM. Loading and storing capabilities with their tags, and the stack of pushm and popm (O20). -/

namespace Sys2Proof.Machine

/-! ## A register in memory -/

section
variable (c : Core) (a : Nat) (r : CReg)

theorem length_regBytes : (regBytes r).length = 16 := by simp [regBytes]

theorem Core.spPutReg_eq : c.spPutReg a r =
    if r.tag then { c.spWrite a (regBytes r) with spTags := NatSet.insert (c.spWrite a (regBytes r)).spTags (a / 16) }
    else c.spWrite a (regBytes r) := rfl

theorem Core.sp_spPutReg : (c.spPutReg a r).sp = c.sp.writeN a (regBytes r) := by
  rw [Core.spPutReg_eq]
  split <;> rfl

theorem Core.slots_spPutReg : (c.spPutReg a r).slots = c.slots := by
  rw [Core.spPutReg_eq, apply_ite Core.slots]
  exact ite_self _

theorem Core.vacated_spPutReg : (c.spPutReg a r).vacated = c.vacated := by
  rw [Core.spPutReg_eq, apply_ite Core.vacated]
  exact ite_self _

/-- The granules that bytes touch are those from that of the first byte to that of the last (R43). -/
theorem mem_granules_iff {q a n : Nat} : q ∈ granules a n ↔ 0 < n ∧ a / 16 ≤ q ∧ q ≤ (a + n - 1) / 16 := by
  unfold granules
  split
  · simp only [List.not_mem_nil, false_iff]
    omega
  · simp only [List.mem_map, List.mem_range]
    constructor
    · rintro ⟨i, hi, rfl⟩
      omega
    · rintro ⟨-, hlo, hhi⟩
      exact ⟨q - a / 16, by omega, by omega⟩

theorem mem_granules_self {a n : Nat} (h : 0 < n) : a / 16 ∈ granules a n :=
  mem_granules_iff.2 ⟨h, Nat.le_refl _, by omega⟩

/-- A stored register sets the tag of its granule to its own, and leaves those below (R139). -/
theorem Core.has_spTags_spPutReg {q : Nat} (h : q ≤ a / 16) :
    NatSet.has (c.spPutReg a r).spTags q = if q = a / 16 then r.tag else NatSet.has c.spTags q := by
  have hw : NatSet.has (c.spWrite a (regBytes r)).spTags q = if q = a / 16 then false else NatSet.has c.spTags q := by
    rw [Core.has_spTags_spWrite, length_regBytes]
    split
    · rename_i e
      rw [e, decide_eq_false (not_not_intro (mem_granules_self (by omega))), Bool.false_and]
    · have hq : q ∉ granules a 16 := fun hq => by have := mem_granules_iff.1 hq; omega
      rw [decide_eq_true hq, Bool.true_and]
  rw [Core.spPutReg_eq]
  split
  · rename_i ht
    rw [NatSet.has_insert]
    split
    · rename_i e
      rw [e, beq_self_eq_true, Bool.true_or, ht]
    · rename_i e
      rw [beq_eq_false_iff_ne.2 e, Bool.false_or]
      exact hw.trans (if_neg e)
  · rename_i ht
    rw [Bool.eq_false_of_not_eq_true ht]
    exact hw

end

/-! ## Registers stored one after the other -/

/-- Registers `x 0` to `x (n − 1)` stored from address `b`. -/
def Core.putRegs (c : Core) (b : Nat) (x : Nat → CReg) (n : Nat) : Core :=
  (List.range n).foldl (fun c i => c.spPutReg (b + 16 * i) (x i)) c

section
variable (c : Core) (b : Nat) (x : Nat → CReg)

theorem Core.putRegs_succ (n : Nat) : c.putRegs b x (n + 1) = (c.putRegs b x n).spPutReg (b + 16 * n) (x n) := by
  rw [Core.putRegs, List.range_succ, List.foldl_append]
  rfl

theorem Core.wf_putRegs (n : Nat) (h : c.sp.wf = true) : (c.putRegs b x n).sp.wf = true := by
  induction n with
  | zero => exact h
  | succ n ih =>
    rw [Core.putRegs_succ]
    exact Core.wf_spPutReg _ _ ih

/-- Each of them stands in memory as it was stored (R144). -/
theorem Core.readN_putRegs {i n : Nat} (hi : i < n) (h : c.sp.wf = true) :
    (c.putRegs b x n).sp.readN (b + 16 * i) 16 = regBytes (x i) := by
  have hwf (n : Nat) := Core.wf_putRegs c b x n h
  induction n with
  | zero => exact absurd hi (Nat.not_lt_zero i)
  | succ n ih =>
    rw [Core.putRegs_succ, Core.sp_spPutReg]
    rcases Nat.lt_succ_iff_lt_or_eq.1 hi with hlt | rfl
    · rw [← ih hlt]
      refine List.map_congr_left fun j hj => ?_
      have hj : j < 16 := List.mem_range.1 hj
      rw [Memory.read_writeN _ _ _ (hwf n), if_neg (by omega)]
    · have hread := Memory.readN_writeN (b + 16 * i) (regBytes (x i)) (hwf i)
      rwa [length_regBytes] at hread

/-- Each of their granules has its register's tag (R144). -/
theorem Core.has_spTags_putRegs {i n : Nat} (hi : i < n) :
    NatSet.has (c.putRegs b x n).spTags (b / 16 + i) = (x i).tag := by
  induction n with
  | zero => exact absurd hi (Nat.not_lt_zero i)
  | succ n ih =>
    rw [Core.putRegs_succ, Core.has_spTags_spPutReg _ _ _ (by omega)]
    rcases Nat.lt_succ_iff_lt_or_eq.1 hi with hlt | rfl
    · rw [if_neg (by omega), ih hlt]
    · rw [if_pos (by omega)]

end

theorem State.me_modMyCore_spPutReg (s : State) (a : Nat) (r : CReg) :
    (s.modMyCore (fun c => c.spPutReg a r)).me = s.me :=
  State.me_modMyCore (f := fun c => c.spPutReg a r) (Core.slots_spPutReg ..) (Core.vacated_spPutReg ..)

@[simp] theorem State.k_modMyCore (s : State) (f : Core → Core) : (s.modMyCore f).k = s.k := rfl

/-- The executing strand's registers stored one after the other change its core only. -/
theorem State.foldl_putReg (s : State) (b : Nat) (f : Nat → BitVec 5) (n : Nat) :
    let u := (List.range n).foldl
      (fun u i => u.modMyCore (fun c => c.spPutReg (b + 16 * i) (u.me.reg (f i)))) s
    u.me = s.me ∧ u.myCore = s.myCore.putRegs b (fun i => s.me.reg (f i)) n ∧ u.cur = s.cur ∧ u.k = s.k := by
  induction n with
  | zero => exact ⟨rfl, rfl, rfl, rfl⟩
  | succ n ih =>
    rw [List.range_succ, List.foldl_append, List.foldl_cons, List.foldl_nil]
    generalize (List.range n).foldl (fun u i => u.modMyCore (fun c => c.spPutReg (b + 16 * i) (u.me.reg (f i)))) s = u
      at ih
    obtain ⟨hme, hcore, hcur, hk⟩ := ih
    have hnew : (u.modMyCore (fun c => c.spPutReg (b + 16 * n) (u.me.reg (f n)))).myCore =
        u.myCore.spPutReg (b + 16 * n) (u.me.reg (f n)) := State.core_modMyCore_self ..
    dsimp only
    rw [State.me_modMyCore_spPutReg, State.k_modMyCore, hnew, Core.putRegs_succ, hcore, hme]
    exact ⟨rfl, rfl, hcur, hk⟩

/-! ## The registers of pushm and popm -/

section
variable (d a : BitVec 5)

@[simp] theorem length_regRange : (regRange d a).length = a.toNat + 1 - d.toNat := by simp [regRange]

theorem regRange_zip : (regRange d a).zip (List.range (regRange d a).length) =
    (List.range (a.toNat + 1 - d.toNat)).map (fun i => (BitVec.ofNat 5 (d.toNat + i), i)) := by
  rw [length_regRange, regRange, List.map_prod_right_eq_zip]

end

/-- `pushm` clears the linear registers of its range (R144). -/
theorem Strand.reg_foldl_clearLinear (ds : List (BitVec 5)) (x : Strand) (r : BitVec 5) :
    (ds.foldl (fun x i => if (x.reg i).linear then x.setReg i CReg.zero else x) x).reg r =
      if r ∈ ds ∧ (x.reg r).linear = true then CReg.zero else x.reg r := by
  have hzero : CReg.zero.linear = false := rfl
  induction ds generalizing x with
  | nil => simp
  | cons i ds ih =>
    rw [List.foldl_cons, ih]
    by_cases hi : (x.reg i).linear = true
    · by_cases hr : r = i
      · have h0 : i ≠ 0#5 := fun e => by rw [e, Strand.reg_zero, hzero] at hi; cases hi
        simp [hr, hi, Strand.reg_setReg, h0]
      · simp [hi, Strand.reg_setReg, hr]
    · by_cases hr : r = i
      · simp [hr, hi]
      · simp [hi, hr]

/-- Registers that a list of writes does not name stay. -/
theorem Strand.reg_foldl_setReg_of_notMem (l : List (BitVec 5 × CReg)) (x : Strand) {r : BitVec 5}
    (h : r ∉ l.map Prod.fst) : (l.foldl (fun x p => x.setReg p.1 p.2) x).reg r = x.reg r := by
  induction l generalizing x with
  | nil => rfl
  | cons p l ih =>
    rw [List.map_cons, List.mem_cons, not_or] at h
    rw [List.foldl_cons, ih _ h.2, Strand.reg_setReg, if_neg fun e => h.1 e.1]

/-- A register that a list of writes names once has what is written to it. -/
theorem Strand.reg_foldl_setReg (l : List (BitVec 5 × CReg)) (x : Strand) {r : BitVec 5} {v : CReg} (h0 : r ≠ 0#5)
    (hl : (l.map Prod.fst).Nodup) (h : (r, v) ∈ l) : (l.foldl (fun x p => x.setReg p.1 p.2) x).reg r = v := by
  induction l generalizing x with
  | nil => cases h
  | cons p l ih =>
    rw [List.map_cons, List.nodup_cons] at hl
    rw [List.foldl_cons]
    rcases List.mem_cons.1 h with rfl | h
    · rw [Strand.reg_foldl_setReg_of_notMem _ _ hl.1, Strand.reg_setReg, if_pos ⟨rfl, h0⟩]
    · exact ih _ hl.2 h

/-- The registers of a range are distinct (R144). -/
theorem nodup_regRange (d a : BitVec 5) : (regRange d a).Nodup := by
  refine List.Nodup.map_on (fun i hi j hj h => ?_) List.nodup_range
  have ha : a.toNat < 32 := a.isLt
  rw [List.mem_range] at hi hj
  have h := congrArg BitVec.toNat h
  simp only [BitVec.toNat_ofNat] at h
  omega

/-! ## Loading and storing a capability -/

section
variable {s : State} {g : BitVec 3} {d a : BitVec 5} {o : BitVec 9}

/-- A capability load from a window whose checks pass (R138). -/
theorem exec_ldc_window (hg : s.me.pred g = true) (hk : (s.me.reg a).kind = 1)
    (h : s.checkAccess .ldc a permL (effective (s.me.reg a) o 16) 16 16 false (some d) = .ok ()) :
    let ea := effective (s.me.reg a) o 16
    let v := granuleReg (s.spBytes ea 16) (s.spTag ea && (s.me.reg a).has 3)
    loadable v = true → (v.linear = true → d ≠ 0#5) →
    exec (.ldc g d a o) s = .next ((if v.linear then (s.modMe (fun x => x.setReg d v)).modMyCore
        (fun c => { c with spTags := NatSet.remove c.spTags (ea.toNat % 2 ^ 18 / 16) })
      else s.modMe (fun x => x.setReg d v)).advance) := by
  intro ea v hload hd
  have hfree : (!(v.linear && d == 0#5)) = true := by
    cases hl : v.linear with
    | false => rfl
    | true => simp [hd hl]
  refine State.next_ok hg ((act_after h).trans ?_)
  rw [CReg.place_window hk]
  exact (act_after ((need_ok_iff ..).2 hload)).trans (act_after ((need_ok_iff ..).2 hfree))

/-- A capability store to a window whose checks pass (R139). -/
theorem exec_stc_window (hg : s.me.pred g = true) (hk : (s.me.reg a).kind = 1)
    (h : s.checkAccess .stc a permS (effective (s.me.reg a) o 16) 16 16 true none = .ok ())
    (ht : (s.me.reg d).tag = true → (s.me.reg a).has 4 = true) :
    let at_ := (effective (s.me.reg a) o 16).toNat % 2 ^ 18
    exec (.stc g d a o) s = .next ((if (s.me.reg d).linear then
        (s.modMyCore (fun c => c.spPutReg at_ (s.me.reg d))).modMe (fun x => x.setReg d CReg.zero)
      else s.modMyCore (fun c => c.spPutReg at_ (s.me.reg d))).advance) := by
  intro at_
  obtain ⟨hplace, hbounds, hlinear, halign, hhome⟩ := State.checkAccess_ok_iff.1 h
  have hstored : (!(s.me.reg d).tag || ((s.me.reg a).has 4 && ((s.me.reg a).kind == 1 || (s.me.reg d).has 11) &&
      (s.me.reg a).kind != 0xB)) = true := by
    rw [hk]
    cases htag : (s.me.reg d).tag with
    | false => rfl
    | true => rw [ht htag]; rfl
  have hkind : (!((s.me.reg d).linear && (s.me.reg a).kind != 1)) = true := by
    rw [hk]
    exact congrArg not (Bool.and_false _)
  refine State.next_ok hg <| (act_after hplace).trans <| (act_after ((need_ok_iff ..).2 hstored)).trans <|
    (act_after hbounds).trans <| (act_after ((need_ok_iff ..).2 hkind)).trans <| (act_after hlinear).trans <|
    (act_after halign).trans <| (act_after hhome).trans ?_
  rw [CReg.place_window hk]
  rfl

end

/-! ## The stack -/

section
variable {s : State} {g : BitVec 3} {d a : BitVec 5}

/-- The registers of a range as `pushm` stores them from address `b`. -/
def State.pushed (s : State) (b : Nat) (d : BitVec 5) (n : Nat) : State :=
  (List.range n).foldl (fun u i => u.modMyCore (fun c => c.spPutReg (b + 16 * i) (u.me.reg (BitVec.ofNat 5 (d.toNat + i))))) s

/-- The strand after `pushm`: its linear registers of the range are cleared and `hsp` is lowered (R144). -/
def Strand.afterPush (x : Strand) (d a : BitVec 5) (top : Word) : Strand :=
  { (regRange d a).foldl (fun x i => if (x.reg i).linear then x.setReg i CReg.zero else x) x with hsp := top }

theorem ofInt_sub_ofNat (x : Word) (m : Nat) : BitVec.ofInt 64 ((x.toNat : Int) - m) = x - BitVec.ofNat 64 m := by
  refine BitVec.eq_of_toNat_eq ?_
  simp only [BitVec.toNat_ofInt, BitVec.toNat_sub, BitVec.toNat_ofNat]
  omega

/-- What follows a check that fails is not reached. -/
theorem act_fails {α : Type} {x : Except Trap α} {f : α → Act} {e : Trap} (h : x = .error e) : (x >>= f) = .error e := by
  rw [h]
  rfl

theorem need_error {b : Bool} (t : Trap) (h : b = false) : need b t = .error t := by rw [h]; rfl

theorem exec_pushm_bounds (hg : s.me.pred g = true)
    (h : s.me.hsp.toNat < s.me.hsl.toNat + 16 * (a.toNat + 1 - d.toNat)) :
    exec (.pushm g d a) s =
      .next (s.takeTrap (trapBounds (s.me.hsp - BitVec.ofNat 64 (16 * (a.toNat + 1 - d.toNat))))) := by
  have hat : (s.me.hsp.toNat : Int) - 16 * ((regRange d a).length : Int) =
      (s.me.hsp.toNat : Int) - (16 * (a.toNat + 1 - d.toNat) : Nat) := by
    rw [length_regRange, Nat.cast_mul]
    rfl
  refine State.next_error hg ((act_fails (need_error _ (decide_eq_false ?_))).trans ?_)
  · rw [hat]
    omega
  · rw [hat, ofInt_sub_ofNat]

theorem exec_pushm_ok (hg : s.me.pred g = true) {b : Nat}
    (hb : s.me.hsp.toNat = b + 16 * (a.toNat + 1 - d.toNat)) (hl : s.me.hsl.toNat ≤ b)
    (hq : ∀ q ∈ granules b (16 * (a.toNat + 1 - d.toNat)), s.myCore.linearGranule q = false) :
    let k := a.toNat + 1 - d.toNat
    exec (.pushm g d a) s = .next (((s.pushed b d k).modMe
      (fun x => x.afterPush d a (BitVec.ofNat 64 b))).advanceBy (8 * ((k + 1) / 2))) := by
  intro k
  have hat : (s.me.hsp.toNat : Int) - 16 * ((regRange d a).length : Int) = (b : Int) := by
    rw [length_regRange]
    omega
  refine State.next_ok hg ?_
  dsimp only
  rw [hat]
  refine (act_after ((need_ok_iff ..).2 (decide_eq_true (by omega)))).trans <|
    (act_after (Core.checkLinear_ok (by rw [length_regRange]; exact hq))).trans ?_
  rw [regRange_zip, List.foldl_map, length_regRange]
  rfl

/-- The register that stands `i` granules above `hsp` (R144). -/
def State.stacked (s : State) (i : Nat) : CReg :=
  granuleReg (s.myCore.sp.readN (s.me.hsp.toNat + 16 * i) 16) (NatSet.has s.myCore.spTags (s.me.hsp.toNat / 16 + i))

/-- The strand after `popm`: the registers of the range are loaded and `hsp` is raised (R144). -/
def Strand.afterPop (x : Strand) (l : List (BitVec 5 × CReg)) (top : Word) : Strand :=
  { l.foldl (fun x p => x.setReg p.1 p.2) x with hsp := top }

/-- The granules whose linear capabilities `popm` takes out of memory (R144). -/
def State.popTaken (s : State) (n : Nat) : List Nat :=
  ((List.range n).filter (fun i => (s.stacked i).linear)).map (fun i => s.me.hsp.toNat / 16 + i)

theorem mem_popTaken {i n : Nat} (hi : i < n) : s.me.hsp.toNat / 16 + i ∈ s.popTaken n ↔ (s.stacked i).linear = true := by
  simp [State.popTaken, hi]

theorem exec_popm_ok (hg : s.me.pred g = true) {k : Nat} (hk : a.toNat + 1 - d.toNat = k)
    (ht : s.me.hsp.toNat + 16 * k ≤ 0x40000)
    (hl : ∀ r ∈ regRange d a, (s.me.reg r).linear = false)
    (hload : ∀ i < k, loadable (s.stacked i) = true) :
    exec (.popm g d a) s = .next (((s.modMe (fun x => x.afterPop ((regRange d a).zip ((List.range k).map s.stacked))
        (BitVec.ofNat 64 (s.me.hsp.toNat + 16 * k)))).modMyCore
      (fun c => { c with spTags := (s.popTaken k).foldl NatSet.remove c.spTags })).advanceBy (8 * ((k + 1) / 2))) := by
  have hfind : (regRange d a).find? (fun i => (s.me.reg i).linear) = none :=
    List.find?_eq_none.2 fun r hr => ne_true_of_eq_false (hl r hr)
  have hgood : (List.range k).find? (fun i => !loadable (granuleReg (s.myCore.sp.readN (s.me.hsp.toNat + 16 * i) 16)
      (NatSet.has s.myCore.spTags (s.me.hsp.toNat / 16 + i)))) = none :=
    List.find?_eq_none.2 fun i hi =>
      ne_true_of_eq_false (congrArg not (hload i (List.mem_range.1 hi)))
  have htaken : (((List.range k).zip ((List.range k).map s.stacked)).filter (fun p => p.2.linear)).map
      (fun p => s.me.hsp.toNat / 16 + p.1) = s.popTaken k := by
    rw [← List.map_prod_left_eq_zip, List.filter_map, List.map_map]
    rfl
  refine State.next_ok hg ?_
  simp only [length_regRange, hk, hfind, hgood, ← htaken, List.foldl_map]
  exact act_after ((need_ok_iff ..).2 (decide_eq_true ht))

end

/-! ## What the stack operations leave -/

section
variable (s : State) (n : Nat)

theorem State.reg_advanceBy (r : BitVec 5) : (s.advanceBy n).me.reg r = s.me.reg r := by
  rw [State.me_advanceBy]
  exact Strand.reg_past ..

theorem State.hsp_advanceBy : (s.advanceBy n).me.hsp = s.me.hsp := by
  rw [State.me_advanceBy, Strand.past_eq]

theorem State.readyAt_advanceBy : (s.advanceBy n).me.readyAt = s.k + n := by
  rw [State.me_advanceBy]

variable (b : Nat) (d : BitVec 5)

theorem State.me_pushed : (s.pushed b d n).me = s.me := (s.foldl_putReg b _ n).1

theorem State.k_pushed : (s.pushed b d n).k = s.k := (s.foldl_putReg b _ n).2.2.2

theorem State.core_pushed : (s.pushed b d n).core s.cur.core =
    s.myCore.putRegs b (fun i => s.me.reg (BitVec.ofNat 5 (d.toNat + i))) n := by
  obtain ⟨-, hcore, hcur, -⟩ := s.foldl_putReg b (fun i => BitVec.ofNat 5 (d.toNat + i)) n
  rw [← hcore, State.myCore, hcur]
  rfl

theorem State.cur_pushed : (s.pushed b d n).cur = s.cur := (s.foldl_putReg b _ n).2.2.1

end

section
variable {s : State} {d a : BitVec 5}

/-- Memory after `pushm`: each register of the range stands in its granule, with its tag (R144). -/
theorem State.holds_push {b k m : Nat} {f : Strand → Strand} (hw : s.myCore.sp.wf = true) {i : Nat} (hi : i < k) :
    let x := s.me.reg (BitVec.ofNat 5 (d.toNat + i))
    let t := ((s.pushed b d k).modMe f).advanceBy m
    t.Holds s.cur.core (b + 16 * i) (regBytes x) ∧ NatSet.has t.myCore.spTags (b / 16 + i) = x.tag := by
  intro x t
  have hcur : t.cur = s.cur := s.cur_pushed k b d
  constructor
  · rw [State.Holds, State.sp_advanceBy, State.sp_modMe, State.core_pushed, length_regBytes]
    exact Core.readN_putRegs _ b _ hi hw
  · rw [State.myCore, hcur, State.spTags_advanceBy, State.spTags_modMe, State.core_pushed]
    exact Core.has_spTags_putRegs _ b _ hi

/-- The register that `popm` loads into c(D + i) is the one that stands i granules above `hsp` (R144). -/
theorem Strand.reg_afterPop {x : Strand} {top : Word} {c : Nat → CReg} {k : Nat} (hk : a.toNat + 1 - d.toNat = k)
    (hd : 1 ≤ d.toNat) {i : Nat} (hi : i < k) :
    (x.afterPop ((regRange d a).zip ((List.range k).map c)) top).reg (BitVec.ofNat 5 (d.toNat + i)) = c i := by
  have hlt : d.toNat + i < 32 := by
    have := a.isLt
    omega
  have hzip : (regRange d a).zip ((List.range k).map c) =
      (List.range k).map (fun i => (BitVec.ofNat 5 (d.toNat + i), c i)) := by
    rw [regRange, hk, List.zip_map']
  have hfst : ((regRange d a).zip ((List.range k).map c)).map Prod.fst = regRange d a :=
    List.map_fst_zip (by simp [hk])
  refine Strand.reg_foldl_setReg _ x (fun e => ?_) (by rw [hfst]; exact nodup_regRange d a) ?_
  · have h := congrArg BitVec.toNat e
    simp only [BitVec.toNat_ofNat] at h
    omega
  · rw [hzip]
    exact List.mem_map.2 ⟨i, List.mem_range.2 hi, rfl⟩

end

theorem State.me_retag (s : State) (f : Core → NatSet) :
    (s.modMyCore (fun c => { c with spTags := f c })).me = s.me :=
  State.me_modMyCore (f := fun c => { c with spTags := f c }) rfl rfl

section
variable (s : State) (f : Strand → Strand) (gs : List Nat) (m : Nat)

/-- A core whose tags alone change keeps its scratchpad. -/
theorem State.sp_retag :
    (((s.modMe f).modMyCore (fun c => { c with spTags := gs.foldl NatSet.remove c.spTags })).advanceBy m).myCore.sp =
      s.myCore.sp := by
  rw [State.myCore, State.sp_advanceBy]
  exact (congrArg Core.sp (State.core_modMyCore_self ..)).trans (State.sp_modMe ..)

theorem State.has_spTags_retag (q : Nat) :
    NatSet.has (((s.modMe f).modMyCore (fun c => { c with spTags := gs.foldl NatSet.remove c.spTags })).advanceBy
      m).myCore.spTags q = (decide (q ∉ gs) && NatSet.has s.myCore.spTags q) := by
  rw [State.myCore, State.spTags_advanceBy]
  refine (congrArg (fun c => NatSet.has (Core.spTags c) q) (State.core_modMyCore_self ..)).trans ?_
  refine (NatSet.has_removeAll ..).trans ?_
  rw [State.myCore, State.spTags_modMe]
  rfl

end

/-- Settles O20: the checks of each form pass, and memory holds the registers that were stored, with their tags. -/
theorem capabilityMemoryAndStack : Obligations.CapabilityMemoryAndStack := by
  refine ⟨fun s g d a o hg hk => ⟨fun h => exec_ldc_window hg hk h, fun h ht => exec_stc_window hg hk h ht⟩,
    fun s g d a hg hd hda => ⟨exec_pushm_bounds hg, fun hle hq => ?_, fun ht hl hload => ?_⟩⟩
  · refine ⟨_, exec_pushm_ok hg (by omega) (by omega) hq, ?_, ?_, fun r => ?_, fun hw i hi => State.holds_push hw hi⟩
    · rw [State.hsp_advanceBy, State.me_modMe]
      rfl
    · rw [State.readyAt_advanceBy, State.k_modMe, State.k_pushed]
    · rw [State.reg_advanceBy, State.me_modMe, State.me_pushed]
      exact Strand.reg_foldl_clearLinear ..
  · refine ⟨_, exec_popm_ok hg rfl ht hl hload, ?_, ?_, ?_, fun i hi => ⟨?_, ?_⟩⟩
    · rw [State.hsp_advanceBy, State.me_retag, State.me_modMe]
      rfl
    · rw [State.readyAt_advanceBy]
      rfl
    · exact s.sp_retag ..
    · rw [State.reg_advanceBy, State.me_retag, State.me_modMe]
      exact Strand.reg_afterPop rfl hd hi
    · refine (s.has_spTags_retag ..).trans ((Bool.and_comm ..).trans (congrArg (_ && ·) ?_))
      exact (decide_eq_decide.2 (not_congr (mem_popTaken hi))).trans (by rw [decide_not, Bool.decide_eq_true]; rfl)

end Sys2Proof.Machine
end

section
/-! THEOREM. The frame of the scalar memory instructions (O18): what each leaves of the memories and of its strand. -/

namespace Sys2Proof.Machine

/-! ## The frame of a strand -/

/-- `y` has strand `x`'s predicates, extension and vector registers and flags, and its c registers but for `ds`. -/
def Strand.Keeps (ds : List (BitVec 5)) (x y : Strand) : Prop :=
  (∀ r, r ∉ ds → y.reg r = x.reg r) ∧ y.p = x.p ∧ y.e = x.e ∧ y.v = x.v ∧ y.fmode = x.fmode

section
variable {ds : List (BitVec 5)} {x y : Strand}

theorem Strand.Keeps.refl : x.Keeps ds x := ⟨fun _ _ => rfl, rfl, rfl, rfl, rfl⟩

theorem Strand.setReg_eq (x : Strand) (d : BitVec 5) (v : CReg) :
    x.setReg d v = { x with c := (x.setReg d v).c, dmask := (x.setReg d v).dmask } := by
  unfold Strand.setReg
  split <;> rfl

theorem Strand.Keeps.setReg {d : BitVec 5} {v : CReg} (h : x.Keeps ds y) (hd : d ∈ ds) : x.Keeps ds (y.setReg d v) := by
  obtain ⟨hr, hrest⟩ := h
  refine ⟨fun r hn => ?_, ?_⟩
  · rw [Strand.reg_setReg, if_neg (fun e : r = d ∧ _ => hn (e.1 ▸ hd)), hr r hn]
  · rw [Strand.setReg_eq]
    exact hrest

theorem Strand.Keeps.past {n : Nat} (h : x.Keeps ds y) : x.Keeps ds (y.past n) := by
  rw [Strand.past_eq]
  exact h

theorem Strand.Keeps.waitFor {w : Wait} {stay : Bool} {len k t : Nat} (h : x.Keeps ds y) :
    x.Keeps ds (y.waitFor w stay len k t) := by
  unfold Strand.waitFor
  cases stay
  · exact h.past
  · exact h

theorem Strand.Keeps.foldl {α : Type} {f : Strand → α → Strand} {l : List α} (h : x.Keeps ds y)
    (hf : ∀ z, x.Keeps ds z → ∀ e ∈ l, x.Keeps ds (f z e)) : x.Keeps ds (l.foldl f y) := by
  induction l generalizing y with
  | nil => exact h
  | cons e l ih => exact ih (hf y h e (.head _)) fun z hz e he => hf z hz e (.tail _ he)

end

/-! ## The frame of a state -/

/-- In `t` the executing strand keeps its registers but for `ds`, and the memories are those of `s` but for the `n` bytes
from `a` of the executing core's scratchpad and the tags of its granules `gs`. -/
def State.MemFrame (ds : List (BitVec 5)) (a n : Nat) (gs : List Nat) (s t : State) : Prop :=
  t.cur = s.cur ∧ s.me.Keeps ds t.me ∧ s.SameOutside t s.cur.core a n ∧ s.SameTags t s.cur.core gs ∧
    s.SameFull t s.cur.core ∧
    (∀ p, p ≠ s.cur.core → (t.core p).sp = (s.core p).sp ∧ (t.core p).spTags = (s.core p).spTags ∧
      (t.core p).fe = (s.core p).fe) ∧ t.hbm = s.hbm ∧ t.host = s.host

section
variable {ds : List (BitVec 5)} {a n : Nat} {gs : List Nat} {s t : State}

theorem State.MemFrame.refl : s.MemFrame ds a n gs s :=
  ⟨rfl, .refl, fun _ _ => rfl, fun _ _ => rfl, fun _ => rfl, fun _ _ => ⟨rfl, rfl, rfl⟩, rfl, rfl⟩

/-- What stands beside the cores and the memories may change. -/
theorem State.MemFrame.update {now blocks slices parts ports dcms routesC routesM hbmTags fuses sup packets agenda parked
    arg nextId freeCtr} (h : s.MemFrame ds a n gs t) :
    s.MemFrame ds a n gs ⟨now, t.cores, blocks, slices, parts, ports, dcms, routesC, routesM, t.hbm, hbmTags, t.host,
      fuses, sup, packets, agenda, parked, t.cur, arg, nextId, freeCtr⟩ := h

theorem State.MemFrame.ite {u : State} {c : Prop} [Decidable c] (ht : s.MemFrame ds a n gs t)
    (hu : s.MemFrame ds a n gs u) : s.MemFrame ds a n gs (if c then t else u) := by
  split <;> assumption

theorem State.MemFrame.modMe {f : Strand → Strand} (h : s.MemFrame ds a n gs t)
    (hf : ∀ y, s.me.Keeps ds y → s.me.Keeps ds (f y)) : s.MemFrame ds a n gs (t.modMe f) := by
  obtain ⟨hcur, hme, hsp, htags, hfull, hrest, hhbm, hhost⟩ := h
  refine ⟨hcur, ?_, fun b hb => ?_, fun q hq => ?_, fun q => ?_, fun p hp => ?_, hhbm, hhost⟩
  · rw [State.me_modMe]
    exact hf _ hme
  · rw [State.sp_modMe]
    exact hsp b hb
  · rw [State.spTags_modMe]
    exact htags q hq
  · rw [Core.full, State.fe_modMe]
    exact hfull q
  · rw [State.sp_modMe, State.spTags_modMe, State.fe_modMe]
    exact hrest p hp

variable (h : s.MemFrame ds a n gs t)
include h

theorem State.MemFrame.setReg {d : BitVec 5} {v : CReg} (hd : d ∈ ds) :
    s.MemFrame ds a n gs (t.modMe (fun x => x.setReg d v)) :=
  h.modMe fun _ hy => hy.setReg hd

theorem State.MemFrame.advanceBy {k : Nat} : s.MemFrame ds a n gs (t.advanceBy k) :=
  h.modMe fun y hy => hy.past (y := y)

theorem State.MemFrame.advance : s.MemFrame ds a n gs t.advance := h.advanceBy

theorem State.MemFrame.waitNext {w : Wait} : s.MemFrame ds a n gs (t.waitNext w) :=
  .ite (State.MemFrame.modMe h fun _ hy => hy.waitFor).update (h.modMe fun _ hy => hy.waitFor)

theorem State.MemFrame.waitAgain {w : Wait} : s.MemFrame ds a n gs (t.waitAgain w) :=
  .ite (State.MemFrame.modMe h fun _ hy => hy.waitFor).update (h.modMe fun _ hy => hy.waitFor)

theorem State.MemFrame.sendFrom {p mnet dst units body after} :
    s.MemFrame ds a n gs (t.sendFrom p mnet dst units body after) := h.update

omit h in
theorem State.MemFrame.sendParts {id host after} {i : Nat} {l : List (Nat × ReqKind)} (h : s.MemFrame ds a n gs t) :
    s.MemFrame ds a n gs (t.sendParts id host after i l) := by
  induction l generalizing t i with
  | nil => exact h
  | cons p l ih => exact ih h.sendFrom

theorem State.MemFrame.holdFar {id eas dest} : s.MemFrame ds a n gs (t.holdFar id eas dest) := by
  refine .ite (State.MemFrame.advance ?_) (State.MemFrame.waitNext ?_)
  · exact h.modMe fun _ hy => hy
  · exact h.modMe fun _ hy => hy

theorem State.MemFrame.fresh : s.MemFrame ds a n gs t.fresh.2 := h.update

theorem State.MemFrame.sendInOrder {id host parts} : s.MemFrame ds a n gs (t.sendInOrder id host parts) := by
  refine State.MemFrame.modMe ?_ fun _ hy => hy
  exact h.sendParts

theorem State.MemFrame.sendFar {dest parts host} : s.MemFrame ds a n gs (t.sendFar dest parts host id) := by
  unfold State.sendFar
  split
  · exact h.waitAgain
  · exact h.fresh.sendInOrder.holdFar

theorem State.MemFrame.sendDevice {dest ea size write} : s.MemFrame ds a n gs (t.sendDevice dest ea size write) := by
  refine .ite h.waitAgain (State.MemFrame.waitNext ?_)
  refine State.MemFrame.modMe ?_ fun _ hy => hy
  exact h.fresh.sendFrom

end

/-! ## Stores to the scratchpad -/

theorem Core.fe_spPutReg (c : Core) (a : Nat) (r : CReg) : (c.spPutReg a r).fe = c.fe := by
  rw [Core.spPutReg_eq, apply_ite Core.fe]
  exact ite_self _

theorem Core.has_spTags_spPutReg_of_notMem (c : Core) {a q : Nat} (r : CReg) (h : q ∉ granules a 16) :
    NatSet.has (c.spPutReg a r).spTags q = NatSet.has c.spTags q := by
  have hw : NatSet.has (c.spWrite a (regBytes r)).spTags q = NatSet.has c.spTags q := by
    rw [Core.has_spTags_spWrite, length_regBytes, decide_eq_true h, Bool.true_and]
  have hne : (q == a / 16) = false := beq_eq_false_iff_ne.2 fun e => h (e ▸ mem_granules_self (by omega))
  rw [Core.spPutReg_eq]
  split
  · rw [NatSet.has_insert, hne, Bool.false_or, hw]
  · exact hw

theorem Core.read_spPutReg (c : Core) {a b : Nat} (r : CReg) (hw : c.sp.wf = true) (h : b < a ∨ a + 16 ≤ b) :
    (c.spPutReg a r).sp.read b = c.sp.read b := by
  rw [Core.sp_spPutReg, Memory.read_writeN _ _ _ hw, length_regBytes, if_neg (by omega)]

section
variable {ds : List (BitVec 5)} {s t : State} {gs : List Nat}

/-- A change of the executing core within its bytes and tags. -/
theorem State.MemFrame.modMyCore {a n : Nat} {f : Core → Core} (h : s.MemFrame ds a n gs t)
    (hs : (f t.myCore).slots = t.myCore.slots) (hv : (f t.myCore).vacated = t.myCore.vacated)
    (hsp : ∀ b, (b < a ∨ a + n ≤ b) → (f t.myCore).sp.read b = t.myCore.sp.read b)
    (htags : ∀ q, q ∉ gs → NatSet.has (f t.myCore).spTags q = NatSet.has t.myCore.spTags q)
    (hfe : (f t.myCore).fe = t.myCore.fe) : s.MemFrame ds a n gs (t.modMyCore f) := by
  obtain ⟨hcur, hme, hsps, htagss, hfull, hrest, hhbm, hhost⟩ := h
  have hown : (t.modMyCore f).core s.cur.core = f t.myCore := by rw [State.core_modMyCore, if_pos (by rw [hcur])]
  have hmine : t.myCore = t.core s.cur.core := by rw [State.myCore, hcur]
  refine ⟨hcur, ?_, fun b hb => ?_, fun q hq => ?_, fun q => ?_, fun p hp => ?_, hhbm, hhost⟩
  · rw [State.me_modMyCore hs hv]
    exact hme
  · rw [hown, hsp b hb, hmine, hsps b hb]
  · rw [hown, htags q hq, hmine, htagss q hq]
  · rw [hown, Core.full, hfe, hmine]
    exact hfull q
  · rw [State.core_modMyCore, if_neg (by rw [hcur]; exact hp)]
    exact hrest p hp

theorem State.memFrame_spStore (hs : s.MemoriesCanonical) {ea : Int} {b : List Byte} {n : Nat} (hn : b.length = n)
    (hgs : granules (ea.toNat % 2 ^ 18) n ⊆ gs) : s.MemFrame ds (ea.toNat % 2 ^ 18) n gs (s.spStore ea b) := by
  subst hn
  refine State.MemFrame.refl.modMyCore rfl rfl (fun i hi => ?_) (fun q hq => ?_) rfl
  · exact (Core.read_spWrite _ _ _ hs.core).trans (if_neg (by omega))
  · have hout : q ∉ granules (ea.toNat % 2 ^ 18) b.length := fun h => hq (hgs h)
    rw [Core.has_spTags_spWrite, decide_eq_true hout, Bool.true_and]

theorem State.MemFrame.spPutReg {a n b : Nat} {r : CReg} (h : s.MemFrame ds a n gs t) (ht : t.MemoriesCanonical)
    (hlo : a ≤ b) (hhi : b + 16 ≤ a + n) (hgs : granules a n ⊆ gs) :
    s.MemFrame ds a n gs (t.modMyCore (fun c => c.spPutReg b r)) := by
  refine h.modMyCore (f := fun c => c.spPutReg b r) (Core.slots_spPutReg ..) (Core.vacated_spPutReg ..)
    (fun i hi => Core.read_spPutReg _ _ ht.core (by omega)) (fun q hq => ?_) (Core.fe_spPutReg ..)
  refine Core.has_spTags_spPutReg_of_notMem _ _ fun hb => hq (hgs ?_)
  rw [mem_granules_iff] at hb ⊢
  omega

/-- A strand's registers stored one after the other (R144). -/
theorem State.memFrame_pushed (hs : s.MemoriesCanonical) {a k : Nat} {d : BitVec 5}
    (hgs : granules a (16 * k) ⊆ gs) : ∀ n, n ≤ k →
      s.MemFrame ds a (16 * k) gs (s.pushed a d n) ∧ (s.pushed a d n).MemoriesCanonical
  | 0, _ => ⟨.refl, hs⟩
  | n + 1, hn => by
    obtain ⟨h, hc⟩ := State.memFrame_pushed hs hgs n (by omega)
    rw [State.pushed, List.range_succ, List.foldl_append]
    exact ⟨h.spPutReg hc (by omega) (by omega) hgs, hc.modCoreBy fun c hc => hc.spPutReg⟩

/-- Tags taken out of granules that the frame names. -/
theorem State.MemFrame.removeTags {α : Type} {a n : Nat} {l : List α} {f : α → Nat} (h : s.MemFrame ds a n gs t)
    (hl : ∀ p ∈ l, f p ∈ gs) :
    s.MemFrame ds a n gs (t.modMyCore (fun c => { c with spTags := l.foldl (fun t p => NatSet.remove t (f p)) c.spTags })) := by
  refine h.modMyCore rfl rfl (fun _ _ => rfl) (fun q hq => ?_) rfl
  have hout : q ∉ l.map f := fun h => by
    obtain ⟨p, hp, rfl⟩ := List.mem_map.1 h
    exact hq (hl p hp)
  have hremove := NatSet.has_removeAll (l.map f) t.myCore.spTags q
  rw [List.foldl_map, decide_eq_true hout, Bool.true_and] at hremove
  exact hremove

end

/-! ## What an act leaves -/

/-- The outcome is a precise trap of the state `s`, or has property `P`. -/
def State.TrapsOr (s : State) (P : State → Prop) (o : Host.Outcome State Fault Refusal) : Prop :=
  ∀ t, o = .next t → (∃ e, t = s.takeTrap e) ∨ P t

theorem State.TrapsOr.act {s : State} {P : State → Prop} {g : BitVec 3} {f : State → Act} (hoff : P s.advance)
    (hf : (f s).Ensures P) : s.TrapsOr P (s.act g f) := by
  cases hg : s.me.pred g with
  | false =>
    rw [State.act_off f hg]
    rintro t ⟨⟩
    exact .inr hoff
  | true =>
    rw [State.act_on f hg]
    rintro t ⟨⟩
    cases ha : f s with
    | ok u => exact .inr (hf u ha)
    | error e => exact .inl ⟨e, rfl⟩

section
variable {ds : List (BitVec 5)} {s : State} {gs : List Nat} {d a : BitVec 5}

theorem State.memFrame_load {m n : Nat} {ea : Int} {size : Nat} {sg : Bool} (hd : d ∈ ds) :
    (s.load d a ea size sg).Ensures (s.MemFrame ds m n gs) := by
  refine .bind fun _ => ?_
  split
  · exact .pure (State.MemFrame.refl.setReg hd).advance
  · exact .pure State.MemFrame.refl.sendDevice
  · exact .pure State.MemFrame.refl.sendFar
  · exact .pure State.MemFrame.refl.sendFar

theorem State.memFrame_store (hs : s.MemoriesCanonical) {ea : Int} {n m : Nat}
    (hm : m = ea.toNat % 2 ^ 18) (hgs : granules m (windowBytes (s.me.reg a) n) ⊆ gs) :
    (s.store d a ea n).Ensures (s.MemFrame ds m (windowBytes (s.me.reg a) n) gs) := by
  subst hm
  refine .bind fun _ => ?_
  dsimp only
  split
  · rename_i hp
    rw [windowBytes_window hp] at hgs ⊢
    exact .pure (State.memFrame_spStore hs (length_natBytes ..) hgs).advance
  · exact .pure State.MemFrame.refl.sendDevice
  · exact .pure (.ite State.MemFrame.refl.advance State.MemFrame.refl.sendFar)
  · exact .pure (.ite State.MemFrame.refl.advance State.MemFrame.refl.sendFar)

theorem State.memFrame_loadFull {m n : Nat} {o : BitVec 8} {z : BitVec 3} (hd : d ∈ ds) :
    (s.loadFull d a o z false).Ensures (s.MemFrame ds m n gs) :=
  .bind fun _ => .bind fun _ => .bind fun _ => .bind fun _ =>
    .ite (.pure (State.MemFrame.refl.setReg hd).advance) (.pure State.MemFrame.refl.waitAgain)

theorem State.memFrame_amo (hs : s.MemoriesCanonical) {b : BitVec 5} {w : BitVec 1} {op n : Nat}
    (hn : n = windowBytes (s.me.reg a) (if w = 0#1 then 4 else 8)) (hd : d ∈ ds)
    (hgs : granules ((s.me.val a).toNat % 2 ^ 18) n ⊆ gs) :
    (s.amo d a b w op).Ensures (s.MemFrame ds ((s.me.val a).toNat % 2 ^ 18) n gs) := by
  subst hn
  unfold State.amo
  generalize (if w = 0#1 then 4 else 8) = n at hgs ⊢
  refine .bind fun _ => ?_
  dsimp only
  split
  · rename_i hp
    rw [windowBytes_window hp] at hgs ⊢
    refine .pure (State.MemFrame.setReg (.ite ?_ .refl) hd).advance
    exact State.memFrame_spStore hs (ea := (s.me.val a).toNat) (length_natBytes ..) hgs
  · exact .pure State.MemFrame.refl.sendFar

end

/-! ## What an instruction leaves -/

section
variable {ds : List (BitVec 5)} {s : State} {g : BitVec 3} {d a : BitVec 5} {gs : List Nat}

theorem State.trapsOr_stc {o : BitVec 9} (hs : s.MemoriesCanonical) :
    let at_ := (effective (s.me.reg a) o 16).toNat % 2 ^ 18
    granules at_ (windowBytes (s.me.reg a) 16) ⊆ gs →
    s.TrapsOr (s.MemFrame [d] at_ (windowBytes (s.me.reg a) 16) gs) (execStc g d a o s) := by
  intro at_ hgs
  refine .act State.MemFrame.refl.advance ?_
  refine .bind fun _ => .bind fun _ => .bind fun _ => .bind fun _ => .bind fun _ => .bind fun _ => .bind fun _ => ?_
  split
  · rename_i hp
    rw [windowBytes_window hp] at hgs ⊢
    have hput := State.MemFrame.refl (ds := [d]).spPutReg (r := s.me.reg d) hs (Nat.le_refl at_) (Nat.le_refl _) hgs
    exact .pure (State.MemFrame.ite (hput.setReg (.head _)) hput).advance
  · exact .pure (.ite State.MemFrame.refl.advance State.MemFrame.refl.sendFar)

theorem State.trapsOr_ldc {o : BitVec 9} {m n : Nat} (hgs : takenGranules s (.ldc g d a o) ⊆ gs) :
    s.TrapsOr (s.MemFrame [d] m n gs) (execLdc g d a o s) := by
  refine .act State.MemFrame.refl.advance ?_
  refine .bind fun _ => ?_
  split
  · rename_i hp
    have hload := State.MemFrame.refl (s := s) (a := m) (n := n) (gs := gs).setReg (d := d) (ds := [d])
      (v := granuleReg (s.spBytes (effective (s.me.reg a) o 16) 16)
        (s.spTag (effective (s.me.reg a) o 16) && (s.me.reg a).has 3)) (.head _)
    rw [takenGranules, if_pos hp] at hgs
    exact .bind fun _ => .bind fun _ => .pure (State.MemFrame.ite (hload.removeTags (l := [()]) fun _ _ => hgs (.head _)) hload).advance
  · exact .pure State.MemFrame.refl.sendFar
  · exact .pure State.MemFrame.refl.sendFar

theorem State.trapsOr_pushm (hs : s.MemoriesCanonical) {m n : Nat}
    (hm : m = s.me.hsp.toNat - 16 * (a.toNat + 1 - d.toNat)) (hn : n = 16 * (a.toNat + 1 - d.toNat))
    (hgs : granules m n ⊆ gs) : s.TrapsOr (s.MemFrame (regRange d a) m n gs) (execPushm g d a s) := by
  subst hn
  refine .act State.MemFrame.refl.advance ?_
  refine .bind fun _ => .bind fun _ => .pure ?_
  have hat : ((s.me.hsp.toNat : Int) - 16 * ((regRange d a).length : Int)).toNat = m := by
    rw [length_regRange]
    omega
  rw [hat, regRange_zip, List.foldl_map]
  obtain ⟨h, -⟩ := State.memFrame_pushed (ds := regRange d a) (d := d) hs hgs _ (Nat.le_refl _)
  refine (h.modMe fun y hy => ?_).advanceBy
  exact Strand.Keeps.foldl (y := y) hy fun z hz i hi => by
    split
    · exact hz.setReg hi
    · exact hz

theorem State.trapsOr_popm {m n : Nat} (hgs : takenGranules s (.popm g d a) ⊆ gs) :
    s.TrapsOr (s.MemFrame (regRange d a) m n gs) (execPopm g d a s) := by
  refine .act State.MemFrame.refl.advance ?_
  refine .bind fun _ => ?_
  split
  · exact .error
  · dsimp only
    split
    · exact .error
    · refine .pure (State.MemFrame.advanceBy (State.MemFrame.removeTags (State.MemFrame.modMe .refl ?_) ?_))
      · intro y hy
        exact Strand.Keeps.foldl (y := y) hy fun z hz p hp => hz.setReg (List.of_mem_zip hp).1
      · intro p hp
        have hk := List.mem_range.1 (List.of_mem_zip (List.mem_filter.1 hp).1).1
        rw [length_regRange] at hk
        exact hgs (List.mem_map.2 ⟨p.1, List.mem_range.2 hk, rfl⟩)

theorem State.trapsOr_exec_memory {i : Instr} {m n : Nat} (hs : s.MemoriesCanonical)
    (h : memoryEffect s i = some (ds, m, n)) :
    s.TrapsOr (s.MemFrame ds m n (granules m n ++ takenGranules s i)) (exec i s) := by
  have hsub : granules m n ⊆ granules m n ++ takenGranules s i := List.subset_append_left ..
  have htaken : takenGranules s i ⊆ granules m n ++ takenGranules s i := List.subset_append_right ..
  unfold exec
  cases i <;> cases h
  all_goals simp only
  case ld => exact .act State.MemFrame.refl.advance (State.memFrame_load (.head _))
  case ld16 => exact .act State.MemFrame.refl.advance (.bind fun _ => State.memFrame_load (.head _))
  case ldF => exact .act State.MemFrame.refl.advance (State.memFrame_loadFull (.head _))
  case ldc => exact State.trapsOr_ldc htaken
  case st => exact .act State.MemFrame.refl.advance (State.memFrame_store hs rfl hsub)
  case st16 => exact .act State.MemFrame.refl.advance (.bind fun _ => State.memFrame_store hs (by rfl) hsub)
  case stc => exact State.trapsOr_stc hs hsub
  case pushm => exact State.trapsOr_pushm hs rfl rfl hsub
  case popm => exact State.trapsOr_popm htaken
  case amoAdd | amoAnd | amoOr | amoXor | amoMin | amoMax | amoMinz | amoMaxz | amoSwp | amoCas =>
    exact .act State.MemFrame.refl.advance (State.memFrame_amo hs rfl (.head _) hsub)

end

/-- Settles O18: every such instruction is an act that fails with a trap or stays in its frame. -/
theorem memoryFrame : Obligations.MemoryFrame :=
  fun _ _ _ _ _ t hs h ht => (State.trapsOr_exec_memory hs h t ht).imp_right
    fun ⟨_, ⟨hreg, hp, he, hv, hf⟩, hsp, htags, hfull, hrest, hhbm, hhost⟩ =>
      ⟨hsp, htags, hfull, hrest, hhbm, hhost, hreg, hp, he, hv, hf⟩

end Sys2Proof.Machine
end

section
/-! THEOREM. What a vector computation may change, and its operands where no stream is bound (O24). -/

namespace Sys2Proof.Machine

/-! ## The frame of a strand -/

/-- `y` has strand `x`'s c registers, predicates, extension registers, generator and status, every flag that `x` has, and its
v registers but for `d`. -/
def Strand.VecKeeps (d : BitVec 4) (x y : Strand) : Prop :=
  (∀ r, y.reg r = x.reg r) ∧ y.p = x.p ∧ y.e = x.e ∧ y.srng = x.srng ∧ y.sst = x.sst ∧
    (∀ j, x.fmode.getLsbD j = true → y.fmode.getLsbD j = true) ∧ ∀ q, q ≠ d → y.vec q = x.vec q

section
variable {d : BitVec 4} {x y : Strand}

theorem Strand.VecKeeps.refl : x.VecKeeps d x := ⟨fun _ => rfl, rfl, rfl, rfl, rfl, fun _ h => h, fun _ _ => rfl⟩

theorem Strand.VecKeeps.past {n : Nat} (h : x.VecKeeps d y) : x.VecKeeps d (y.past n) := by
  rw [Strand.past_eq]
  exact h

theorem Strand.VecKeeps.waitFor {w : Wait} {stay : Bool} {len k t : Nat} (h : x.VecKeeps d y) :
    x.VecKeeps d (y.waitFor w stay len k t) := by
  unfold Strand.waitFor
  cases stay
  · exact h.past
  · exact h

/-- Flags are raised and never cleared (R38). -/
theorem Strand.VecKeeps.raise {fl : BitVec 5} (h : x.VecKeeps d y) : x.VecKeeps d (y.raise fl) := by
  obtain ⟨hreg, hp, he, hg, hsst, hflag, hvec⟩ := h
  refine ⟨hreg, hp, he, hg, hsst, fun j hj => ?_, hvec⟩
  rw [Strand.raise, BitVec.getLsbD_or, hflag j hj, Bool.true_or]

theorem Strand.vec_setVec_of_ne {q : BitVec 4} {w : BitVec 512} (h : q ≠ d) : (y.setVec d w).vec q = y.vec q := by
  have hn : q.toNat ≠ d.toNat := fun e => h (BitVec.eq_of_toNat_eq e)
  rw [Strand.vec, Strand.setVec, Table.getD_set_ne _ _ _ hn]
  rfl

theorem Strand.VecKeeps.setVec {w : BitVec 512} (h : x.VecKeeps d y) : x.VecKeeps d (y.setVec d w) := by
  obtain ⟨hreg, hp, he, hg, hsst, hflag, hvec⟩ := h
  exact ⟨hreg, hp, he, hg, hsst, hflag, fun q hq => (Strand.vec_setVec_of_ne hq).trans (hvec q hq)⟩

end

/-! ## The frame of a state -/

/-- In `t` the executing strand is in its frame, the scratchpads are `m`, and HBM and host memory are those of `s`. -/
def State.VecFrame (d : BitVec 4) (m : Nat → Memory) (s t : State) : Prop :=
  t.cur = s.cur ∧ s.me.VecKeeps d t.me ∧ (∀ p, (t.core p).sp = m p) ∧ t.hbm = s.hbm ∧ t.host = s.host

/-- The scratchpads of a state. -/
def State.sps (s : State) (p : Nat) : Memory := (s.core p).sp

section
variable {d : BitVec 4} {m : Nat → Memory} {s t : State}

theorem State.VecFrame.refl : s.VecFrame d s.sps s := ⟨rfl, .refl, fun _ => rfl, rfl, rfl⟩

/-- What stands beside the cores and the memories may change. -/
theorem State.VecFrame.update {now blocks slices parts ports dcms routesC routesM hbmTags fuses sup packets agenda parked
    arg nextId freeCtr} (h : s.VecFrame d m t) :
    s.VecFrame d m ⟨now, t.cores, blocks, slices, parts, ports, dcms, routesC, routesM, t.hbm, hbmTags, t.host,
      fuses, sup, packets, agenda, parked, t.cur, arg, nextId, freeCtr⟩ := h

theorem State.VecFrame.ite {u : State} {c : Prop} [Decidable c] (ht : s.VecFrame d m t) (hu : s.VecFrame d m u) :
    s.VecFrame d m (if c then t else u) := by
  split <;> assumption

theorem State.sp_modStrand (s : State) (p k q : Nat) (f : Strand → Strand) :
    ((s.modStrand p k f).core q).sp = (s.core q).sp := by
  rw [State.modStrand, State.core_setStrand]
  split
  · rename_i e
    rw [e]
  · rfl

theorem State.me_modStrand (s : State) (p k : Nat) (f : Strand → Strand) :
    (s.modStrand p k f).me = if s.cur.core = p ∧ s.cur.slot = k then f s.me else s.me := by
  have hread := State.strand_setStrand s p k s.cur.core s.cur.slot (f (s.strand p k))
  by_cases e : s.cur.core = p ∧ s.cur.slot = k
  · obtain ⟨rfl, rfl⟩ := e
    rw [if_pos ⟨rfl, rfl⟩] at hread ⊢
    exact hread
  · rw [if_neg e] at hread ⊢
    exact hread

theorem State.VecFrame.modStrand {p k : Nat} {f : Strand → Strand} (h : s.VecFrame d m t)
    (hf : ∀ y, s.me.VecKeeps d y → s.me.VecKeeps d (f y)) : s.VecFrame d m (t.modStrand p k f) := by
  obtain ⟨hcur, hme, hsp, hhbm, hhost⟩ := h
  refine ⟨hcur, ?_, fun q => ?_, hhbm, hhost⟩
  · rw [State.me_modStrand]
    split
    · exact hf _ hme
    · exact hme
  · rw [State.sp_modStrand]
    exact hsp q

theorem State.VecFrame.modMe {f : Strand → Strand} (h : s.VecFrame d m t)
    (hf : ∀ y, s.me.VecKeeps d y → s.me.VecKeeps d (f y)) : s.VecFrame d m (t.modMe f) := h.modStrand hf

/-- A change of the executing core that is none of its slots: the frame holds with what its scratchpad became. -/
theorem State.VecFrame.modMyCore {f : Core → Core} (h : s.VecFrame d m t) (hs : (f t.myCore).slots = t.myCore.slots)
    (hv : (f t.myCore).vacated = t.myCore.vacated) :
    s.VecFrame d (fun p => if p = s.cur.core then (f t.myCore).sp else m p) (t.modMyCore f) := by
  obtain ⟨hcur, hme, hsp, hhbm, hhost⟩ := h
  refine ⟨hcur, ?_, fun p => ?_, hhbm, hhost⟩
  · rw [State.me_modMyCore hs hv]
    exact hme
  · dsimp only
    rw [State.core_modMyCore, hcur, ← hsp p, ← apply_ite Core.sp]

theorem State.VecFrame.setFe {gs : List Nat} {b : Bool} (h : s.VecFrame d m t) :
    s.VecFrame d m (t.modMyCore (fun c => c.setFe gs b)) := by
  obtain ⟨hcur, hme, hsp, hhbm, hhost⟩ := h.modMyCore (f := fun c => c.setFe gs b) rfl rfl
  refine ⟨hcur, hme, fun p => (hsp p).trans ?_, hhbm, hhost⟩
  obtain ⟨hcur, -, hsp, -⟩ := h
  dsimp only
  split
  · rename_i e
    rw [← hsp p, e, ← hcur]
    rfl
  · rfl

theorem State.VecFrame.foldl {α : Type} {f : State → α → State} {l : List α} (h : s.VecFrame d m t)
    (hf : ∀ u x, s.VecFrame d m u → s.VecFrame d m (f u x)) : s.VecFrame d m (l.foldl f t) := by
  induction l generalizing t with
  | nil => exact h
  | cons x l ih => exact ih (hf t x h)

theorem State.VecFrame.wakeFullEmpty {p : Nat} (h : s.VecFrame d m t) : s.VecFrame d m (t.wakeFullEmpty p) := by
  refine h.foldl fun u k h => ?_
  split
  · have hpost : s.VecFrame d m (u.postCore p 0 .fenceConditionMet { args p k with flag := true }) := h.update
    dsimp only
    split
    · exact .ite ((hpost.ite h).modStrand fun _ hy => hy) (hpost.ite h)
    · exact hpost.ite h
  · exact h

theorem State.VecFrame.advanceBy {n : Nat} (h : s.VecFrame d m t) : s.VecFrame d m (t.advanceBy n) :=
  h.modMe fun y hy => hy.past (y := y)

theorem State.VecFrame.waitAgain {w : Wait} (h : s.VecFrame d m t) : s.VecFrame d m (t.waitAgain w) :=
  .ite (State.VecFrame.modMe h fun _ hy => hy.waitFor).update (h.modMe fun _ hy => hy.waitFor)

theorem State.VecFrame.popOne {r : BitVec 4} (h : s.VecFrame d m t) : s.VecFrame d m (t.popOne r) := by
  unfold State.popOne
  split
  · exact h
  · dsimp only
    split
    · refine State.VecFrame.wakeFullEmpty (State.VecFrame.setFe ?_)
      exact h.modMe fun _ hy => hy
    · exact h.modMe fun _ hy => hy

theorem State.VecFrame.popAll {reads : List (BitVec 4)} (h : s.VecFrame d m t) : s.VecFrame d m (t.popAll reads) :=
  h.foldl fun _ _ h => h.popOne

end

/-! ## The stream gate -/

section
variable {s t : State} {d : BitVec 4} {reads : List (BitVec 4)}

/-- A list of checks passes where each does. -/
theorem check_forM_ok_iff {α : Type} {l : List α} {f : α → Except Trap Unit} :
    l.forM f = .ok () ↔ ∀ x ∈ l, f x = .ok () := by
  induction l with
  | nil => simp [List.forM_nil, pure, Except.pure]
  | cons x l ih => rw [List.forM, check_bind_ok_iff, ih, List.forall_mem_cons]

theorem State.streamReasons_ok_iff {writes : List (BitVec 4)} : s.streamReasons reads writes = .ok () ↔
    (∀ r ∈ reads, s.me.streamCheck r false = .ok ()) ∧ ∀ r ∈ writes, s.me.streamCheck r true = .ok () := by
  rw [State.streamReasons, check_bind_ok_iff, check_forM_ok_iff, check_forM_ok_iff]

/-- A register bound to a stream is not popped and pushed by one instruction (R183). -/
theorem Strand.stream_none_of_checks {x : Strand} (hr : x.streamCheck d false = .ok ())
    (hw : x.streamCheck d true = .ok ()) : x.stream d = none := by
  unfold Strand.streamCheck at hr hw
  cases hd : x.stream d with
  | none => rfl
  | some st =>
    rw [hd] at hr hw
    cases ho : st.out <;> simp [ho] at hr hw

/-- Where the gate opens, the checks of R183 have passed. -/
theorem State.streamReasons_of_gate {o : Option Wait} (h : s.streamGate reads [d] = .ok o) :
    s.streamReasons reads [d] = .ok () := by
  unfold State.streamGate at h
  cases hr : s.streamReasons reads [d] with
  | ok u => rfl
  | error e =>
    rw [hr] at h
    cases h

theorem Strand.stream_setStreams_of_ne {x : Strand} {r : BitVec 4} {st : Stream} {l : List (BitVec 4)} (h : d ≠ r) :
    Strand.stream { x with streams := x.streams.set r.toNat st, popped := l } d = x.stream d := by
  have hn : d.toNat ≠ r.toNat := fun e => h (BitVec.eq_of_toNat_eq e)
  exact Table.get?_set_ne _ _ hn

/-- Waking strands leaves of the executing one what does not depend on its wait. -/
theorem State.me_wakeFullEmpty {P : Strand → Prop} {p : Nat} (hP : ∀ y k, P y → P { y with wait := .ready, readyAt := k })
    (h : P s.me) : P (s.wakeFullEmpty p).me := by
  have hite {u v : State} {c : Prop} [Decidable c] (hu : P u.me) (hv : P v.me) : P (if c then u else v).me := by
    split <;> assumption
  have hwake {u : State} {k : Nat} (hu : P u.me) : P (u.wake p k).me := by
    rw [State.wake, State.me_modStrand]
    split
    · exact hP _ _ hu
    · exact hu
  unfold State.wakeFullEmpty
  induction List.range 8 generalizing s with
  | nil => exact h
  | cons k l ih =>
    refine ih ?_
    beta_reduce
    split
    · dsimp only
      split
      · exact hite (hwake (hite h h)) (hite h h)
      · exact hite h h
    · exact h

/-- A pop leaves the stream of another register, and an unbound register unbound. -/
theorem State.stream_popOne {r : BitVec 4} (h : r ≠ d ∨ s.me.stream d = none) :
    (s.popOne r).me.stream d = s.me.stream d := by
  unfold State.popOne
  split
  · rfl
  · rename_i st hr
    have hd : d ≠ r := fun e => h.elim (fun h => h e.symm) fun h => by rw [← e, h] at hr; cases hr
    have hpop {f : Strand → Strand} (hf : (f s.me).stream d = s.me.stream d) : (s.modMe f).me.stream d = s.me.stream d := by
      rw [State.me_modMe, hf]
    dsimp only
    split
    · refine State.me_wakeFullEmpty (P := fun x => x.stream d = s.me.stream d) (fun _ _ h => h) ?_
      refine (congrArg (Strand.stream · d) (State.me_modMyCore (f := fun c => c.setFe _ false) rfl rfl)).trans ?_
      exact hpop (Strand.stream_setStreams_of_ne hd)
    · exact hpop (Strand.stream_setStreams_of_ne hd)

theorem State.stream_popAll (h : ∀ r ∈ reads, r ≠ d ∨ s.me.stream d = none) :
    (s.popAll reads).me.stream d = s.me.stream d := by
  have h' : ∀ r ∈ reads.eraseDups, r ≠ d ∨ s.me.stream d = none := fun r hr => h r (List.mem_eraseDups.1 hr)
  unfold State.popAll
  generalize reads.eraseDups = l at h'
  induction l generalizing s with
  | nil => rfl
  | cons r l ih =>
    have hr := State.stream_popOne (h' r (.head _))
    refine (ih ?_ ?_).trans hr
    · exact fun q hq => (h q hq).imp_right fun h => hr.trans h
    · exact fun q hq => (h' q (.tail _ hq)).imp_right fun h => hr.trans h

/-- Where the gate opens, popping the sources leaves the destination's stream. -/
theorem State.stream_popAll_of_gate {o : Option Wait} (h : s.streamGate reads [d] = .ok o) :
    (s.popAll reads).me.stream d = s.me.stream d := by
  obtain ⟨hr, hw⟩ := State.streamReasons_ok_iff.1 (State.streamReasons_of_gate h)
  refine State.stream_popAll fun r hmem => ?_
  by_cases e : r = d
  · exact .inr (Strand.stream_none_of_checks (e ▸ hr r hmem) (hw d (.head _)))
  · exact .inl e

/-! ## The result -/

theorem Core.sp_spWrite (c : Core) (a : Nat) (b : List Byte) : (c.spWrite a b).sp = c.sp.writeN a b := rfl

/-- The scratchpads after a vector computation: the executing core's has the pushed element where the destination is bound to an
out-stream (R182). -/
def State.spsAfter (s : State) (d : BitVec 4) (w : BitVec 512) (p : Nat) : Memory :=
  match s.me.stream d with
  | none => s.sps p
  | some st => if p = s.cur.core then (s.sps p).writeN (st.addr st.done) (vecBytes w) else s.sps p

theorem State.VecFrame.spWrite {m : Nat → Memory} {a : Nat} {b : List Byte} (h : s.VecFrame d m t) :
    s.VecFrame d (fun p => if p = s.cur.core then (m p).writeN a b else m p) (t.modMyCore (fun c => c.spWrite a b)) := by
  obtain ⟨hcur, hme, hsp, hrest⟩ := h.modMyCore (f := fun c => c.spWrite a b) rfl rfl
  refine ⟨hcur, hme, fun p => (hsp p).trans ?_, hrest⟩
  obtain ⟨hcur, -, hsp, -⟩ := h
  dsimp only
  split
  · rename_i e
    rw [Core.sp_spWrite, ← hsp p, e, ← hcur]
    rfl
  · rfl

theorem State.vecFrame_writeVec {w : BitVec 512} (h : s.VecFrame d s.sps t) (hst : t.me.stream d = s.me.stream d) :
    s.VecFrame d (s.spsAfter d w) (t.writeVec d w) := by
  have hm : s.spsAfter d w = fun p => match s.me.stream d with
      | none => s.sps p
      | some st => if p = s.cur.core then (s.sps p).writeN (st.addr st.done) (vecBytes w) else s.sps p := rfl
  rw [hm]
  unfold State.writeVec
  generalize vecBytes w = b
  rw [hst]
  cases hd : s.me.stream d with
  | none => exact h.modMe fun _ hy => hy.setVec
  | some st =>
    dsimp only
    split
    · refine State.VecFrame.wakeFullEmpty (State.VecFrame.setFe (State.VecFrame.spWrite ?_))
      exact h.modMe fun _ hy => hy
    · refine State.VecFrame.spWrite ?_
      exact h.modMe fun _ hy => hy

/-! ## What a vector computation leaves -/

/-- The executing strand in its frame, and no scratchpad byte changed but those of an element pushed on the stream of the
destination. -/
def State.VecLeaves (d : BitVec 4) (s t : State) : Prop :=
  s.VecFrame d s.sps t ∨ ∃ w, s.VecFrame d (s.spsAfter d w) t

theorem State.trapsOr_vector {g : BitVec 3} {n : Nat} {f : State → BitVec 512 × BitVec 5} :
    s.enabled.TrapsOr (s.enabled.VecLeaves d) (s.vector g reads d n f) := by
  have hoff : s.enabled.VecLeaves d s.enabled.advance := .inl State.VecFrame.refl.advanceBy
  unfold State.vector State.actV
  refine State.TrapsOr.act (g := g) hoff ?_
  cases hg : s.enabled.streamGate reads [d] with
  | error e => exact .error
  | ok o =>
    cases o with
    | some w => exact .pure (.inl State.VecFrame.refl.waitAgain)
    | none =>
      refine .pure (.inr ⟨(f s.enabled).1, State.VecFrame.advanceBy (State.vecFrame_writeVec ?_ ?_)⟩)
      · exact State.VecFrame.refl.popAll.modMe fun _ hy => hy.raise
      · rw [State.me_modMe]
        exact State.stream_popAll_of_gate hg

section
variable {g t r : BitVec 3} {a b : BitVec 4} {u : BitVec 1} {n : Nat}

theorem State.trapsOr_vecArith {f : Fmt → Rnd → FVal → FVal → Nat × BitVec 5} :
    s.enabled.TrapsOr (s.enabled.VecLeaves d) (s.vecArith g d t a b r n f) := by
  unfold State.vecArith
  exact State.trapsOr_vector

theorem State.trapsOr_vecMinMax {larger : Bool} :
    s.enabled.TrapsOr (s.enabled.VecLeaves d) (s.vecMinMax g d t a b u larger) := by
  unfold State.vecMinMax
  exact State.trapsOr_vector

theorem State.trapsOr_vecUnary {f : Nat → Nat} :
    s.enabled.TrapsOr (s.enabled.VecLeaves d) (s.vecUnary g d t a f) := by
  unfold State.vecUnary
  exact State.trapsOr_vector

theorem State.trapsOr_vecFma {p q : Bool} :
    s.enabled.TrapsOr (s.enabled.VecLeaves d) (s.vecFma g d t a b r p q) := by
  unfold State.vecFma
  exact State.trapsOr_vector

theorem State.trapsOr_vecSpecial : s.enabled.TrapsOr (s.enabled.VecLeaves d) (s.vecSpecial g d t a n) := by
  unfold State.vecSpecial
  exact State.trapsOr_vector

theorem State.trapsOr_vecBits {f : BitVec 512 → BitVec 512 → BitVec 512} :
    s.enabled.TrapsOr (s.enabled.VecLeaves d) (s.vecBits g d a b f) := by
  unfold State.vecBits
  exact State.trapsOr_vector

theorem State.trapsOr_vecInt {f : Nat → Nat → Nat → Nat} :
    s.enabled.TrapsOr (s.enabled.VecLeaves d) (s.vecInt g d t a b f) := by
  unfold State.vecInt
  exact State.trapsOr_vector

theorem State.trapsOr_vecPick {f : State → Nat → Option Nat} :
    s.enabled.TrapsOr (s.enabled.VecLeaves d) (s.vecPick g d t reads a f) := by
  unfold State.vecPick
  exact State.trapsOr_vector

end

theorem State.trapsOr_exec_vector {i : Instr} (h : vectorDest i = some d) :
    s.enabled.TrapsOr (s.enabled.VecLeaves d) (exec i s) := by
  unfold exec
  cases i <;> cases h
  all_goals simp only
  case vadd | vsub | vmul | vdiv => exact State.trapsOr_vecArith
  case vmin | vmax => exact State.trapsOr_vecMinMax
  case vabs | vneg | vpcnt => exact State.trapsOr_vecUnary
  case vfma | vfms | vfnma | vfnms => exact State.trapsOr_vecFma
  case vrcp | vrsq | vex2 | vlg2 | vtanh | vsin => exact State.trapsOr_vecSpecial
  case vand | vor | vxor => exact State.trapsOr_vecBits
  case viadd | visub | vimul | vshl | vshr | vsar | vclm => exact State.trapsOr_vecInt
  case vperm | vshuf | vslideUp | vslideDn => exact State.trapsOr_vecPick
  case vsqrt | vdot | vredsum | vredmax | vredmin | vcmp | vsel | vsplat | vins | vmov => exact State.trapsOr_vector

theorem State.sps_enabled : s.enabled.sps = s.sps := by
  funext p
  exact State.sp_modMe ..

theorem State.stream_enabled : s.enabled.me.stream d = s.me.stream d := by
  rw [State.enabled, State.me_modMe]
  rfl

/-- Scratchpads `m` are those of `s` but for the element that a stream bound to v`d` pushes next. -/
def State.SpsPushed (s : State) (d : BitVec 4) (m : Nat → Memory) : Prop :=
  (∀ p, p ≠ s.cur.core → m p = s.sps p) ∧
    match s.me.stream d with
    | none => m s.cur.core = s.sps s.cur.core
    | some x => ∀ b, (b < x.addr x.done ∨ x.addr x.done + 64 ≤ b) → (m s.cur.core).read b = (s.sps s.cur.core).read b

theorem State.spsPushed_self : s.SpsPushed d s.sps := by
  refine ⟨fun _ _ => rfl, ?_⟩
  split
  · rfl
  · exact fun _ _ => rfl

theorem State.spsPushed_spsAfter {w : BitVec 512} (hs : (s.sps s.cur.core).wf = true) :
    s.SpsPushed d (s.spsAfter d w) := by
  have hlen : (vecBytes w).length = 64 := length_natBytes ..
  unfold State.SpsPushed State.spsAfter
  cases s.me.stream d with
  | none => exact ⟨fun _ _ => rfl, rfl⟩
  | some x =>
    refine ⟨fun p hp => if_neg hp, fun b hb => ?_⟩
    dsimp only
    rw [if_pos rfl, Memory.read_writeN _ _ _ hs, hlen, if_neg (by omega)]

/-- A vector computation that does not trap stays in its frame and pushes at most its element. -/
theorem State.VecLeaves.spsPushed {t : State} (hs : s.MemoriesCanonical) (h : s.enabled.VecLeaves d t) :
    ∃ m, s.enabled.VecFrame d m t ∧ s.SpsPushed d m := by
  have hpush {m : Nat → Memory} (hm : s.enabled.SpsPushed d m) : s.SpsPushed d m := by
    rwa [State.SpsPushed, State.stream_enabled, State.sps_enabled] at hm
  rcases h with h | ⟨w, h⟩
  · exact ⟨_, h, hpush State.spsPushed_self⟩
  · refine ⟨_, h, hpush (State.spsPushed_spsAfter ?_)⟩
    rw [State.sps_enabled]
    exact hs.core

/-- What the frame of a vector computation says of the strand, which had its v registers enabled first (R31). -/
theorem State.VecFrame.ofEnabled {m : Nat → Memory} (h : s.enabled.VecFrame d m t) :
    t.me.ve = true ∧ (∀ r, t.me.reg r = s.me.reg r) ∧ t.me.p = s.me.p ∧ t.me.e = s.me.e ∧ t.me.srng = s.me.srng ∧
      (∀ j, s.me.fmode.getLsbD j = true → t.me.fmode.getLsbD j = true) ∧ ∀ q, q ≠ d → t.me.vec q = s.enabled.me.vec q := by
  have hv : s.enabled.me = s.me.setVe := State.me_modMe ..
  obtain ⟨-, ⟨hreg, hp, he, hg, hsst, hflag, hvec⟩, -⟩ := h
  rw [hv] at hreg hp he hg hsst hflag
  refine ⟨?_, hreg, hp, he, hg, hflag, hvec⟩
  rw [Strand.ve, hsst]
  simp [Strand.setVe]

end

/-! ## Operands where no stream is bound -/

section
variable {s : State} {reads : List (BitVec 4)} {d : BitVec 4}

theorem Strand.streamCheck_unbound {x : Strand} {w : Bool} (h : x.stream d = none) : x.streamCheck d w = .ok () := by
  rw [Strand.streamCheck, h]

theorem Strand.streamGranules_unbound {x : Strand} (h : x.stream d = none) : x.streamGranules d = [] := by
  rw [Strand.streamGranules, h]

theorem State.streamGate_unbound (hd : s.me.stream d = none) (h : ∀ r ∈ reads, s.me.stream r = none) :
    s.streamGate reads [d] = .ok none := by
  have hreasons : s.streamReasons reads [d] = .ok () :=
    State.streamReasons_ok_iff.2 ⟨fun r hr => Strand.streamCheck_unbound (h r hr),
      fun r hr => Strand.streamCheck_unbound (List.mem_singleton.1 hr ▸ hd)⟩
  have hwait : s.streamWait reads [d] = none := by
    have hfull : reads.flatMap s.me.streamGranules = [] :=
      List.flatMap_eq_nil_iff.2 fun r hr => Strand.streamGranules_unbound (h r hr)
    simp [State.streamWait, hfull, Strand.streamGranules_unbound hd]
  have hlinear : s.pushLinear [d] = .ok () := by
    refine check_forM_ok_iff.2 fun r hr => ?_
    rw [List.mem_singleton.1 hr, hd]
  rw [State.streamGate, hreasons, hwait, hlinear]
  rfl

theorem State.popAll_unbound (h : ∀ r ∈ reads, s.me.stream r = none) : s.popAll reads = s := by
  have h' : ∀ r ∈ reads.eraseDups, s.me.stream r = none := fun r hr => h r (List.mem_eraseDups.1 hr)
  unfold State.popAll
  generalize reads.eraseDups = l at h'
  induction l with
  | nil => rfl
  | cons r l ih =>
    have hpop : s.popOne r = s := by rw [State.popOne, h' r (.head _)]
    rw [List.foldl_cons, hpop]
    exact ih fun q hq => h' q (.tail _ hq)

theorem State.vectorDone_unbound {w : BitVec 512} {fl : BitVec 5} {n : Nat} (hd : s.me.stream d = none)
    (h : ∀ r ∈ reads, s.me.stream r = none) :
    s.vectorDone reads d w fl n = (s.modMe (fun x => (x.raise fl).setVec d w)).advanceBy n := by
  have hraised : (s.modMe (fun x => x.raise fl)).me.stream d = none := by
    rw [State.me_modMe]
    exact hd
  rw [State.vectorDone, State.popAll_unbound h, State.writeVec, hraised]
  dsimp only
  rw [State.modMe_modMe]

end

/-- Settles O24: every such instruction is a vector computation, which traps, waits, or pops, raises and writes. -/
theorem vectorFrameAndOperands : Obligations.VectorFrameAndOperands := by
  refine ⟨fun i d s t hs hi ht => ?_, fun s reads d w fl n h => ?_⟩
  · refine (State.trapsOr_exec_vector hi t ht).imp_right fun hleaves => ?_
    obtain ⟨m, hframe, hrest, hown⟩ := hleaves.spsPushed hs
    obtain ⟨hve, hreg, hp, he, hg, hflag, hvec⟩ := hframe.ofEnabled
    obtain ⟨-, -, hsp, hhbm, hhost⟩ := hframe
    refine ⟨hve, hreg, hp, he, hg, hflag, hvec, fun p hp => (hsp p).trans (hrest p hp), hhbm, hhost, ?_⟩
    cases hd : s.me.stream d with
    | none =>
      rw [hd] at hown
      exact (hsp _).trans hown
    | some x =>
      rw [hd] at hown
      intro b hb
      rw [hsp]
      exact hown b hb
  · have hd : s.me.stream d = none := h d (.head _)
    have hr : ∀ r ∈ reads, s.me.stream r = none := fun r hr => h r (.tail _ hr)
    exact ⟨State.streamGate_unbound hd hr, fun r hmem => by rw [State.readVec, hr r hmem],
      State.vectorDone_unbound hd hr⟩

end Sys2Proof.Machine
end

section
/-! THEOREM. Binding and clearing ends, and every send and receive form (O30): what each step of them leaves of the ends
and of the executing strand. -/

namespace Sys2Proof.Machine

/-! ## What leaves the ends alone -/

/-- The fields of a core on which its ends and its strands depend, and the entries that have still to go back into an end,
are the same. -/
def Core.SameEnds (c d : Core) : Prop :=
  d.ends = c.ends ∧ d.slots = c.slots ∧ d.vacated = c.vacated ∧ d.crystal.back = c.crystal.back

/-- No end and no strand of any core changes from `s` to `t`. -/
def State.KeepsEnds (s t : State) : Prop := t.cur = s.cur ∧ ∀ p, (s.core p).SameEnds (t.core p)

section
variable {s t u : State} {p : Nat}

theorem Core.SameEnds.refl {c : Core} : c.SameEnds c := ⟨rfl, rfl, rfl, rfl⟩

theorem Core.SameEnds.trans {c d e : Core} (h : c.SameEnds d) (h' : d.SameEnds e) : c.SameEnds e := by
  obtain ⟨h1, h2, h3, h4⟩ := h
  obtain ⟨h1', h2', h3', h4'⟩ := h'
  exact ⟨h1'.trans h1, h2'.trans h2, h3'.trans h3, h4'.trans h4⟩

theorem State.KeepsEnds.refl : s.KeepsEnds s := ⟨rfl, fun _ => .refl⟩

theorem State.KeepsEnds.ite {c : Prop} [Decidable c] (ht : s.KeepsEnds t) (hu : s.KeepsEnds u) :
    s.KeepsEnds (if c then t else u) := by
  split <;> assumption

/-- What stands beside the cores may change. -/
theorem State.KeepsEnds.update {now blocks slices parts ports dcms routesC routesM hbm hbmTags host fuses sup packets
    agenda parked arg nextId freeCtr} (h : s.KeepsEnds t) :
    s.KeepsEnds ⟨now, t.cores, blocks, slices, parts, ports, dcms, routesC, routesM, hbm, hbmTags, host, fuses, sup, packets,
      agenda, parked, t.cur, arg, nextId, freeCtr⟩ := h

theorem State.KeepsEnds.setCore {c : Core} (h : s.KeepsEnds t) (hc : (t.core p).SameEnds c) :
    s.KeepsEnds (t.setCore p c) := by
  refine ⟨h.1, fun q => ?_⟩
  rw [State.core_setCore]
  split
  · rename_i e
    exact e ▸ (h.2 p).trans hc
  · exact h.2 q

theorem State.KeepsEnds.modCore {f : Core → Core} (h : s.KeepsEnds t) (hf : (t.core p).SameEnds (f (t.core p))) :
    s.KeepsEnds (t.modCore p f) := h.setCore hf

theorem State.KeepsEnds.foldl {α : Type} {f : State → α → State} {l : List α} (h : s.KeepsEnds t)
    (hf : ∀ u x, s.KeepsEnds u → s.KeepsEnds (f u x)) : s.KeepsEnds (l.foldl f t) := by
  induction l generalizing t with
  | nil => exact h
  | cons x l ih => exact ih (hf t x h)

theorem Core.sameEnds_noted {c : Core} {buf j sts x} : c.SameEnds (c.noted buf j sts x) := by
  unfold Core.noted
  dsimp only
  split
  · exact ⟨rfl, rfl, rfl, rfl⟩
  · exact .refl

variable (h : s.KeepsEnds t)
include h

theorem State.KeepsEnds.postCore {n i o} : s.KeepsEnds (t.postCore p n i o) := h.update

theorem State.KeepsEnds.sendFrom {mnet dst units body after} :
    s.KeepsEnds (t.sendFrom p mnet dst units body after) := h.update

theorem State.KeepsEnds.crystalNote {j sts x} : s.KeepsEnds (t.crystalNote p j sts x) := by
  unfold State.crystalNote
  dsimp only
  split
  · exact h
  · refine State.KeepsEnds.foldl h fun u buf hu => ?_
    split
    · exact hu.modCore ⟨rfl, rfl, rfl, rfl⟩
    · split
      · exact hu.foldl fun _ _ hv => hv.postCore
      · exact hu.setCore Core.sameEnds_noted

theorem State.KeepsEnds.logAppend {kind st slot j r x} : s.KeepsEnds (t.logAppend p kind st slot j r x) := by
  unfold State.logAppend State.shiftLog
  dsimp only
  refine .ite (.ite ?_ ?_) h
  · refine State.KeepsEnds.postCore (State.KeepsEnds.postCore (State.KeepsEnds.update ?_))
    exact h.modCore ⟨rfl, rfl, rfl, rfl⟩
  · refine State.KeepsEnds.postCore (State.KeepsEnds.update ?_)
    exact h.modCore ⟨rfl, rfl, rfl, rfl⟩

theorem State.KeepsEnds.logArrival {k j x} : s.KeepsEnds (t.logArrival p k j x) := by
  unfold State.logArrival
  split <;> exact h.logAppend

theorem State.KeepsEnds.logClaim {n slot} : s.KeepsEnds (t.logClaim p n slot) := by
  unfold State.logClaim
  dsimp only
  split
  · exact h.modCore ⟨rfl, rfl, rfl, rfl⟩
  · exact (h.modCore ⟨rfl, rfl, rfl, rfl⟩).postCore

theorem State.KeepsEnds.logForget {n} : s.KeepsEnds (t.logForget p n) := h.modCore ⟨rfl, rfl, rfl, rfl⟩

theorem State.KeepsEnds.logUnparked {j} : s.KeepsEnds (t.logUnparked p j) := by
  unfold State.logUnparked
  split
  · exact h.logForget
  · exact h

theorem State.KeepsEnds.logBound {slot j x} : s.KeepsEnds (t.logBound p slot j x) := by
  unfold State.logBound
  split
  · exact h.logClaim
  · exact h.logArrival

theorem State.KeepsEnds.nackEnd {j plcn pend x} : s.KeepsEnds (t.nackEnd p j plcn pend x) := by
  unfold State.nackEnd State.answerEnd
  dsimp only
  split
  · split
    · exact h.sendFrom
    · exact h
  · split
    · exact h.sendFrom
    · exact h.sendFrom

theorem State.KeepsEnds.latchOffer {lcn j fmt size} : s.KeepsEnds (t.latchOffer p lcn j fmt size) := by
  unfold State.latchOffer State.latchGrant
  dsimp only
  split
  · exact h.update
  · split
    · exact h.update
    · exact h.update

end

/-! ## Setting an end -/

section
variable {s t u : State} {h : Nat} {e : End}

theorem State.KeepsEnds.me (hk : s.KeepsEnds t) : t.me = s.me := by
  obtain ⟨hcur, hcore⟩ := hk
  obtain ⟨-, hs, hv, -⟩ := hcore s.cur.core
  rw [State.me, State.strand, Core.vacant, hcur, hs, hv]
  rfl

theorem State.KeepsEnds.endAt (hk : s.KeepsEnds t) (j : Nat) : t.myCore.endAt j = s.myCore.endAt j := by
  obtain ⟨hcur, hcore⟩ := hk
  obtain ⟨he, -⟩ := hcore s.cur.core
  rw [State.myCore, hcur, Core.endAt, he]
  rfl

theorem State.KeepsEnds.back (hk : s.KeepsEnds t) : t.myCore.crystal.back = s.myCore.crystal.back := by
  obtain ⟨hcur, hcore⟩ := hk
  obtain ⟨-, -, -, hb⟩ := hcore s.cur.core
  rw [State.myCore, hcur, hb]
  rfl

theorem State.KeepsEnds.trans (hk : s.KeepsEnds t) (hk' : t.KeepsEnds u) : s.KeepsEnds u :=
  ⟨hk'.1.trans hk.1, fun p => (hk.2 p).trans (hk'.2 p)⟩

theorem State.me_setEnd (s : State) (h : Nat) (e : End) : (s.setEnd s.cur.core h e).me = s.me :=
  State.me_modMyCore (f := fun c => { c with ends := if e = End.free then c.ends.erase h else c.ends.set h e }) rfl rfl

theorem State.myCore_setEnd (s : State) (h : Nat) (e : End) : (s.setEnd s.cur.core h e).myCore =
    { s.myCore with ends := if e = End.free then s.myCore.ends.erase h else s.myCore.ends.set h e } :=
  State.core_modCore_self ..

theorem State.endAt_setEnd (s : State) (h j : Nat) (he : e ≠ End.free) :
    (s.setEnd s.cur.core h e).myCore.endAt j = if j = h then e else s.myCore.endAt j := by
  rw [State.myCore_setEnd, Core.endAt]
  dsimp only
  rw [if_neg he, Table.getD_set]
  rfl

/-- In `t` the executing core has end `h` as `e`, and its other ends and the executing strand as in `s`. -/
def State.EndIs (s t : State) (h : Nat) (e : End) : Prop :=
  t.cur = s.cur ∧ t.me = s.me ∧ t.myCore.crystal.back = s.myCore.crystal.back ∧
    ∀ j, t.myCore.endAt j = if j = h then e else s.myCore.endAt j

theorem State.endIs_setEnd (s : State) (h : Nat) (he : e ≠ End.free) : s.EndIs (s.setEnd s.cur.core h e) h e :=
  ⟨rfl, s.me_setEnd h e, by rw [State.myCore_setEnd], fun _ => s.endAt_setEnd h _ he⟩

theorem State.EndIs.keepsEnds (hi : s.EndIs t h e) (hk : t.KeepsEnds u) : s.EndIs u h e := by
  obtain ⟨hcur, hme, hback, hend⟩ := hi
  exact ⟨hk.1.trans hcur, hk.me.trans hme, hk.back.trans hback, fun j => (hk.endAt j).trans (hend j)⟩

theorem State.KeepsEnds.endIs (hk : s.KeepsEnds t) (hi : t.EndIs u h e) : s.EndIs u h e := by
  obtain ⟨hcur, hme, hback, hend⟩ := hi
  refine ⟨hcur.trans hk.1, hme.trans hk.me, hback.trans hk.back, fun j => ?_⟩
  rw [hend, hk.endAt]

theorem State.KeepsEnds.setEnd (hk : s.KeepsEnds t) (he : e ≠ End.free) : s.EndIs (t.setEnd s.cur.core h e) h e := by
  have hi := t.endIs_setEnd h he
  rw [hk.1] at hi
  exact hk.endIs hi

/-! ## Binding an end -/

/-- With nothing that has still to go back into an end, nothing goes back (R383). -/
theorem State.rearrive_of_back {p : Nat} (hb : (s.core p).crystal.back = []) : s.rearrive p h = s := by
  have hrows : (s.core p).crystal.rows.filter (fun r => r.endNo == h && (s.core p).crystal.back.contains r.number) = [] := by
    rw [hb]
    simp
  unfold State.rearrive
  dsimp only
  rw [hrows]
  rfl

theorem State.EndIs.rearrive (hi : s.EndIs t h e) (hb : s.myCore.crystal.back = []) :
    s.EndIs (t.rearrive s.cur.core h) h e := by
  have hback : (t.core s.cur.core).crystal.back = [] := by
    rw [← hi.1]
    exact hi.2.2.1.trans hb
  rwa [State.rearrive_of_back hback]

theorem State.rebound_of_back {p slot : Nat} {b : End} (hb : (s.core p).crystal.back = []) :
    s.rebound p h slot b = s := by
  have hrows : (s.core p).crystal.rows.find? (fun r => r.endNo == h && r.slot == noSlot &&
      (s.core p).crystal.back.contains r.number && b.dirIn && r.src == (b.psz, b.plcn, b.pend)) = none := by
    rw [hb]
    simp
  unfold State.rebound
  dsimp only
  rw [hrows]
  exact State.rearrive_of_back hb

theorem bindingOf_ne_free {v : Word} {slot : Nat} {st : EndState} (h : st ≠ .free) : bindingOf v slot st ≠ End.free :=
  fun e => h (congrArg End.state e)

section
variable {v : Word}

/-- The end that a channel capability binds: a tile end where its size is that of a tile (R191, R245). -/
def boundEnd (v : Word) (slot : Nat) : End :=
  bindingOf v slot (if (v.extractLsb' 26 2).toNat == 3 then .tile else .idle)

theorem boundEnd_ne_free {slot : Nat} : boundEnd v slot ≠ End.free := by
  refine bindingOf_ne_free ?_
  split <;> exact EndState.noConfusion

/-- What binding an end of the executing core does (R191, R245, R259). -/
theorem State.bindEnd_eq (s : State) (h : Nat) (v : Word) : s.bindEnd s.cur.core h s.cur.slot v =
    let e := s.myCore.endAt h
    let b := boundEnd v s.cur.slot
    let p := s.cur.core
    let u := s.crystalBound p h
    if e.state = .parked then
      if e.matchesParked b then
        match e.inbox with
        | some (.tile fmt size) => ((u.setEnd p h b).logUnparked p h).latchOffer p e.plcn e.pend fmt size
        | some x => (u.setEnd p h { b with state := .full, inbox := some x }).logBound p s.cur.slot h x
        | none => u.setEnd p h (if (v.extractLsb' 26 2).toNat == 3 then b else { b with state := .full })
      else (((u.nackEnd p h e.plcn e.pend e.inbox).setEnd p h { b with state := .idle }).logUnparked p h).rearrive p h
    else (s.setEnd p h b).rebound p h s.cur.slot b := rfl

theorem State.keepsEnds_crystalBound (s : State) (p h : Nat) : s.KeepsEnds (s.crystalBound p h) :=
  State.KeepsEnds.refl.crystalNote

/-- A free end is bound (R191). -/
theorem State.bindEnd_free (he : (s.myCore.endAt h).state = .free) (hb : s.myCore.crystal.back = []) :
    s.EndIs (s.bindEnd s.cur.core h s.cur.slot v) h (boundEnd v s.cur.slot) := by
  have hi := s.endIs_setEnd h (boundEnd_ne_free (v := v) (slot := s.cur.slot))
  have hne : (s.myCore.endAt h).state ≠ .parked := by
    rw [he]
    exact EndState.noConfusion
  rw [State.bindEnd_eq]
  dsimp only
  rw [if_neg hne, State.rebound_of_back (p := s.cur.core) (hi.2.2.1.trans hb)]
  exact hi

/-- A parked message that does not match is refused, and the end is idle (R191, R259). -/
theorem State.bindEnd_refused (he : (s.myCore.endAt h).state = .parked) (hb : s.myCore.crystal.back = [])
    (hm : (s.myCore.endAt h).matchesParked (boundEnd v s.cur.slot) = false) :
    s.EndIs (s.bindEnd s.cur.core h s.cur.slot v) h { boundEnd v s.cur.slot with state := .idle } := by
  have hne : { boundEnd v s.cur.slot with state := .idle } ≠ End.free := fun e => EndState.noConfusion (congrArg End.state e)
  rw [State.bindEnd_eq]
  dsimp only
  rw [if_pos he, if_neg (ne_true_of_eq_false hm)]
  exact (((s.keepsEnds_crystalBound _ h).nackEnd.setEnd hne).keepsEnds State.KeepsEnds.refl.logUnparked).rearrive hb

/-- A parked tile that matches goes to the latch, and the end is a tile end (R191, R245). -/
theorem State.bindEnd_tile (he : (s.myCore.endAt h).state = .parked)
    (hm : (s.myCore.endAt h).matchesParked (boundEnd v s.cur.slot) = true) {fmt size : Nat}
    (hx : (s.myCore.endAt h).inbox = some (.tile fmt size)) :
    s.EndIs (s.bindEnd s.cur.core h s.cur.slot v) h (boundEnd v s.cur.slot) := by
  rw [State.bindEnd_eq]
  dsimp only
  rw [if_pos he, if_pos hm, hx]
  exact ((s.keepsEnds_crystalBound _ h).setEnd boundEnd_ne_free).keepsEnds State.KeepsEnds.refl.logUnparked.latchOffer

/-- A parked message of another size that matches is in the end at once (R191). -/
theorem State.bindEnd_full (he : (s.myCore.endAt h).state = .parked)
    (hm : (s.myCore.endAt h).matchesParked (boundEnd v s.cur.slot) = true) {x : Payload}
    (hx : (s.myCore.endAt h).inbox = some x) (ht : x.size ≠ 3) :
    s.EndIs (s.bindEnd s.cur.core h s.cur.slot v) h { boundEnd v s.cur.slot with state := .full, inbox := some x } := by
  have hne : { boundEnd v s.cur.slot with state := .full, inbox := some x } ≠ End.free :=
    fun e => EndState.noConfusion (congrArg End.state e)
  have hset := ((s.keepsEnds_crystalBound s.cur.core h).setEnd (h := h) hne).keepsEnds
    (State.KeepsEnds.refl.logBound (p := s.cur.core) (slot := s.cur.slot) (j := h) (x := x))
  rw [State.bindEnd_eq]
  dsimp only
  rw [if_pos he, if_pos hm, hx]
  cases x with
  | word r => exact hset
  | vector r => exact hset
  | offer b n => exact hset
  | tile fmt size => exact absurd rfl ht

/-- A parked end without a message is bound as its size says. -/
theorem State.bindEnd_empty (he : (s.myCore.endAt h).state = .parked)
    (hm : (s.myCore.endAt h).matchesParked (boundEnd v s.cur.slot) = true) (hx : (s.myCore.endAt h).inbox = none) :
    s.EndIs (s.bindEnd s.cur.core h s.cur.slot v) h (if (v.extractLsb' 26 2).toNat == 3 then boundEnd v s.cur.slot
      else { boundEnd v s.cur.slot with state := .full }) := by
  rw [State.bindEnd_eq]
  dsimp only
  rw [if_pos he, if_pos hm, hx]
  refine (s.keepsEnds_crystalBound _ h).setEnd ?_
  split
  · exact boundEnd_ne_free
  · exact fun e => EndState.noConfusion (congrArg End.state e)

/-! ## The forms -/

theorem boundEnd_eq {slot : Nat} : boundEnd v slot =
    if (v.extractLsb' 26 2).toNat = 3 then { bindingOf v slot .idle with state := .tile } else bindingOf v slot .idle := by
  unfold boundEnd
  by_cases h : (v.extractLsb' 26 2).toNat = 3
  · rw [if_pos h, if_pos (beq_iff_eq.2 h)]
    rfl
  · rw [if_neg h, if_neg (mt beq_iff_eq.1 h)]

theorem State.endAt_modMe (s : State) (f : Strand → Strand) (j : Nat) : (s.modMe f).myCore.endAt j = s.myCore.endAt j := by
  rw [State.modMe, State.myCore_setMe]
  rfl

theorem State.endAt_advanceBy (s : State) (n j : Nat) : (s.advanceBy n).myCore.endAt j = s.myCore.endAt j :=
  s.endAt_modMe _ j

theorem State.reg_setReg_zero (s : State) (a : BitVec 5) :
    (s.modMe (fun x => x.setReg a CReg.zero)).me.reg a = CReg.zero := by
  rw [State.me_modMe, Strand.reg_setReg]
  by_cases ha : a = 0#5
  · rw [if_neg fun e => e.2 ha, ha, Strand.reg_zero]
  · exact if_pos ⟨rfl, ha⟩

section
variable {g : BitVec 3} {d a : BitVec 5} {h : BitVec 6}

/-- The checks of `chset` before that of the permission (R191). -/
def ChsetChecks (s : State) (a : BitVec 5) (h : BitVec 6) : Prop :=
  ((s.myCore.endAt h.toNat).state = .free ∨ (s.myCore.endAt h.toNat).state = .parked) ∧ (s.me.reg a).tag = true ∧
    (s.me.reg a).kind = 6 ∧ ((s.me.reg a).val.extractLsb' 25 3 = 7#3 → s.myCore.hasTileIn = false)

/-- Past those checks `chset` tests the permission and binds (R26, R191). -/
theorem exec_chset {A : Act} (hg : s.me.pred g = true) (hc : ChsetChecks s a h)
    (hA : (need ((s.me.reg a).has (if (s.me.reg a).val.getLsbD 25 then 8 else 7)) (trapPermission (a.setWidth 64)) >>=
      fun _ => Except.ok ((s.bindEnd s.cur.core h.toNat s.cur.slot (s.me.reg a).val).modMe
        (fun x => x.setReg a CReg.zero)).advance) = A) :
    exec (.chset g a h) s = .next (s.settle A) := by
  obtain ⟨hs, ht, hk, htile⟩ := hc
  have hstate : ((s.myCore.endAt h.toNat).state == .free || (s.myCore.endAt h.toNat).state == .parked) = true := by
    rcases hs with hs | hs <;> rw [hs] <;> rfl
  have hone : (!((s.me.reg a).tag && (s.me.reg a).kind == 6 && (s.me.reg a).val.extractLsb' 25 3 == 7#3 &&
      s.myCore.hasTileIn)) = true := by
    by_cases h7 : (s.me.reg a).val.extractLsb' 25 3 = 7#3
    · rw [htile h7, Bool.and_false]
      rfl
    · rw [beq_eq_false_iff_ne.2 h7, Bool.and_false]
      rfl
  have htag : ((s.me.reg a).tag && (s.me.reg a).kind == 6) = true := by
    rw [ht, hk]
    rfl
  refine (congrArg Host.Outcome.next (if_pos hg)).trans (congrArg (fun A => Host.Outcome.next (s.settle A)) ?_)
  exact (act_after ((need_ok_iff ..).2 hstate)).trans <|
    (act_after ((need_ok_iff ..).2 hone)).trans <| (act_after ((need_ok_iff ..).2 htag)).trans hA

/-- What `chset` leaves once its checks pass. -/
theorem exec_chset_bound {e e' : End} (hg : s.me.pred g = true) (hc : ChsetChecks s a h)
    (hp : (s.me.reg a).has (if (s.me.reg a).val.getLsbD 25 then 8 else 7) = true)
    (hb : s.EndIs (s.bindEnd s.cur.core h.toNat s.cur.slot (s.me.reg a).val) h.toNat e) (he : e = e') :
    ∃ t, exec (.chset g a h) s = .next t ∧ t.myCore.endAt h.toNat = e' ∧ t.me.reg a = CReg.zero ∧
      ∀ j, j ≠ h.toNat → t.myCore.endAt j = s.myCore.endAt j := by
  obtain ⟨-, -, -, hend⟩ := hb
  refine ⟨_, exec_chset hg hc (act_after ((need_ok_iff ..).2 hp)), ?_, ?_, fun j hj => ?_⟩
  · rw [State.settle_ok, State.advance, State.endAt_advanceBy, State.endAt_modMe, hend, if_pos rfl, he]
  · rw [State.settle_ok, State.advance, State.reg_advanceBy]
    exact State.reg_setReg_zero ..
  · rw [State.settle_ok, State.advance, State.endAt_advanceBy, State.endAt_modMe, hend, if_neg hj]

theorem exec_chset_permission (hg : s.me.pred g = true) (hc : ChsetChecks s a h)
    (hp : (s.me.reg a).has (if (s.me.reg a).val.getLsbD 25 then 8 else 7) = false) :
    exec (.chset g a h) s = .next (s.takeTrap (trapPermission (a.setWidth 64))) :=
  exec_chset hg hc (act_fails (need_error _ hp))

/-- An end that is neither free nor parked is not bound again (R191). -/
theorem exec_chset_taken (hg : s.me.pred g = true) (hf : (s.myCore.endAt h.toNat).state ≠ .free)
    (hp : (s.myCore.endAt h.toNat).state ≠ .parked) :
    exec (.chset g a h) s = .next (s.takeTrap (trapChannel h.toNat 1)) := by
  refine State.next_error hg (act_fails (need_error _ ?_))
  rw [beq_eq_false_iff_ne.2 hf, beq_eq_false_iff_ne.2 hp]
  rfl

/-- `chset` in its three outcomes (R191, R259). -/
theorem exec_chset_outcomes (hg : s.me.pred g = true) (ht : (s.me.reg a).tag = true) (hk : (s.me.reg a).kind = 6)
    (h7 : (s.me.reg a).val.extractLsb' 25 3 = 7#3 → s.myCore.hasTileIn = false)
    (hp : (s.me.reg a).has (if (s.me.reg a).val.getLsbD 25 then 8 else 7) = true) :
    let v := (s.me.reg a).val
    let e := s.myCore.endAt h.toNat
    let b := bindingOf v s.cur.slot .idle
    let bound (f : End → Prop) : Prop := ∃ t, exec (.chset g a h) s = .next t ∧ f (t.myCore.endAt h.toNat) ∧
      t.me.reg a = CReg.zero ∧ (∀ j, j ≠ h.toNat → t.myCore.endAt j = s.myCore.endAt j)
    (e.state = .free → s.myCore.crystal.back = [] →
      bound (· = if (v.extractLsb' 26 2).toNat = 3 then { b with state := .tile } else b)) ∧
    (e.state = .parked → s.myCore.crystal.back = [] → e.matchesParked b = false → bound (· = b)) ∧
    (e.state = .parked → e.matchesParked b = true → (∀ y, e.inbox = some y → y.size = e.psz) →
      bound (· = if (v.extractLsb' 26 2).toNat = 3 then { b with state := .tile }
        else { b with state := .full, inbox := e.inbox })) := by
  intro v e b bound
  refine ⟨fun hs hback => ?_, fun hs hback hm => ?_, fun hs hm hsize => ?_⟩
  · exact exec_chset_bound hg ⟨.inl hs, ht, hk, h7⟩ hp (State.bindEnd_free hs hback) boundEnd_eq
  · exact exec_chset_bound hg ⟨.inr hs, ht, hk, h7⟩ hp (State.bindEnd_refused hs hback hm) rfl
  · have hc : ChsetChecks s a h := ⟨.inr hs, ht, hk, h7⟩
    have hpsz : e.psz = (v.extractLsb' 26 2).toNat := by
      simp only [End.matchesParked, Bool.and_eq_true, beq_iff_eq] at hm
      exact hm.2
    cases hx : e.inbox with
    | none =>
      refine exec_chset_bound hg hc hp (State.bindEnd_empty hs hm hx) ?_
      rw [boundEnd_eq]
      by_cases h3 : (v.extractLsb' 26 2).toNat = 3
      · rw [if_pos (beq_iff_eq.2 h3), if_pos h3]
        exact (if_pos h3).symm
      · rw [if_neg (mt beq_iff_eq.1 h3), if_neg h3]
        exact (if_neg h3).symm
    | some x =>
      have hx3 : x.size = (v.extractLsb' 26 2).toNat := (hsize x hx).trans hpsz
      by_cases h3 : (v.extractLsb' 26 2).toNat = 3
      · cases x with
        | tile fmt size =>
          refine exec_chset_bound hg hc hp (State.bindEnd_tile hs hm hx) ?_
          exact boundEnd_eq.trans ((if_pos h3).trans (if_pos h3).symm)
        | word r => exact absurd (show 0 = 3 from hx3.trans h3) (by decide)
        | vector r => exact absurd (show 1 = 3 from hx3.trans h3) (by decide)
        | offer p n => exact absurd (show 2 = 3 from hx3.trans h3) (by decide)
      · refine exec_chset_bound hg hc hp (State.bindEnd_full hs hm hx (hx3 ▸ h3)) ?_
        rw [boundEnd_eq, if_neg h3]
        exact (if_neg h3).symm

/-- An end that its slot holds idle, or a tile end that nothing keeps, is cleared (R192, R245). -/
theorem exec_chclr (hg : s.me.pred g = true) (hb : (s.myCore.endAt h.toNat).boundTo s.cur.slot = true)
    (hs : (s.myCore.endAt h.toNat).state = .idle ∨
      ((s.myCore.endAt h.toNat).state = .tile ∧ s.tileKept s.cur.core h.toNat = false)) :
    exec (.chclr g h) s =
      .next (((s.setEnd s.cur.core h.toNat End.free).rearrive s.cur.core h.toNat).advance) := by
  have hidle : ((s.myCore.endAt h.toNat).state == .idle ||
      ((s.myCore.endAt h.toNat).state == .tile && !s.tileKept s.cur.core h.toNat)) = true := by
    rcases hs with hs | ⟨hs, hkept⟩
    · rw [hs]
      rfl
    · rw [hs, hkept]
      rfl
  exact State.next_ok hg <| (act_after ((need_ok_iff ..).2 hb)).trans <| act_after ((need_ok_iff ..).2 hidle)

theorem State.rearrive_setEnd_free (hb : s.myCore.crystal.back = []) (j : Nat) :
    (s.setEnd s.cur.core j End.free).rearrive s.cur.core j = s.setEnd s.cur.core j End.free := by
  refine State.rearrive_of_back ((congrArg (fun c => c.crystal.back) (s.myCore_setEnd j End.free)).trans hb)

/-! ## Sends -/

section
variable {j : Nat} {x : Payload} {c : Option (BitVec 5)} {f : State → State}

/-- With nothing far outstanding and nothing to replay, a send is its message (R195, R384). -/
theorem State.sendOrReplay_live (hr : s.replayOf logSend j = none) :
    s.sendOrReplay j x c f = .ok ((f s).sendMessage j x c) := by
  rw [State.sendOrReplay, hr]

theorem State.sendWord_ok (he : s.checkEnd j true 0 = .ok ()) (hp : checkPayload a (s.me.reg a) = .ok ())
    (hf : s.me.farOut = []) (hr : s.replayOf logSend j = none) :
    s.sendWord a j = .ok (s.sendMessage j (.word (s.me.reg a)) (if (s.me.reg a).linear then some a else none)) :=
  (act_after he).trans <| (act_after hp).trans <| (State.fenceFirst_clear _ hf).trans (State.sendOrReplay_live hr)

theorem exec_sndv {y : BitVec 4} (hg : s.me.pred g = true) (he : s.enabled.checkEnd h.toNat true 1 = .ok ())
    (hgate : s.enabled.streamGate [y] [] = .ok none) (hf : s.enabled.me.farOut = [])
    (hr : s.enabled.replayOf logSend h.toNat = none) :
    exec (.sndv g y h) s =
      .next ((s.enabled.popAll [y]).sendMessage h.toNat (.vector (s.enabled.readVec y)) none) :=
  State.nextV_ok hg <| (act_after he).trans <| (act_after hgate).trans <| (State.fenceFirst_clear _ hf).trans
    (State.sendOrReplay_live hr)

theorem exec_bsnd (hg : s.me.pred g = true) (ht : (s.me.reg a).tag = true) (hk : (s.me.reg a).kind = 1)
    (he : s.checkEnd h.toNat true 2 = .ok ()) (hp : (s.me.reg a).has 0 = true)
    (hv : validBounds (s.me.reg a).bounds = true) (h1 : (s.me.reg a).bounds.1 % 16 = 0)
    (h2 : (s.me.reg a).bounds.2 % 16 = 0) (h16 : 16 ≤ (s.me.reg a).bounds.2 - (s.me.reg a).bounds.1)
    (hf : s.me.farOut = []) (hr : s.replayOf logSend h.toNat = none) :
    exec (.bsnd g a h) s = .next (s.sendMessage h.toNat (.offer ((s.me.reg a).bounds.1.toNat % 2 ^ 18)
      ((s.me.reg a).bounds.2 - (s.me.reg a).bounds.1).toNat) none) := by
  have htag : ((s.me.reg a).tag && (s.me.reg a).kind == 1) = true := by
    rw [ht, hk]
    rfl
  have hregion : (validBounds (s.me.reg a).bounds && decide ((s.me.reg a).bounds.1 % 16 = 0) &&
      decide ((s.me.reg a).bounds.2 % 16 = 0) && decide (16 ≤ (s.me.reg a).bounds.2 - (s.me.reg a).bounds.1)) = true := by
    rw [hv, decide_eq_true h1, decide_eq_true h2, decide_eq_true h16]
    rfl
  exact State.next_ok hg <| (act_after he).trans <| (act_after ((need_ok_iff ..).2 htag)).trans <|
    (act_after ((need_ok_iff ..).2 hp)).trans <| (act_after ((need_ok_iff ..).2 hregion)).trans <|
    (State.fenceFirst_clear _ hf).trans (State.sendOrReplay_live hr)

/-! ## Receives -/

/-- A receive takes the message in the inbox of a full end (R197). -/
theorem State.received_full (ht : (s.myCore.endAt j).taken = false) (hr : s.replayTaken j = none)
    (hs : (s.myCore.endAt j).state = .full) (hx : (s.myCore.endAt j).inbox = some x) :
    s.received j = some (x, true, fun s => s.takeMessage s.cur.core j) := by
  unfold State.received
  dsimp only
  rw [if_neg (ne_true_of_eq_false ht), hr, hx]
  exact if_pos hs

/-- With no message there is nothing to receive (R197). -/
theorem State.received_none (ht : (s.myCore.endAt j).taken = false) (hr : s.replayTaken j = none)
    (hs : (s.myCore.endAt j).state ≠ .full) : s.received j = none := by
  unfold State.received
  dsimp only
  rw [if_neg (ne_true_of_eq_false ht), hr]
  exact if_neg hs

theorem not_linear_and_zero {y : CReg} (hl : y.linear = true → d ≠ 0#5) : (!(y.linear && d == 0#5)) = true := by
  cases hy : y.linear with
  | false => rfl
  | true => rw [beq_eq_false_iff_ne.2 (hl hy)]; rfl

/-- A word receive writes the word and acknowledges it, but for a pan capability, whose holder is entered first (R197,
R314). -/
theorem State.receiveWord_full {y : CReg} (he : s.checkEnd j false 0 = .ok ())
    (hy : s.received j = some (.word y, true, fun s => s.takeMessage s.cur.core j)) (hd : s.mayWrite d)
    (hl : y.linear = true → d ≠ 0#5) :
    s.receiveWord d j = .ok (if y.tag && (y.kind == 2 || y.kind == 5) then s.holderUpdate d j y
      else ((s.modMe (fun z => z.setReg d y)).takeMessage s.cur.core j).advance) := by
  rw [State.receiveWord, he, hy]
  refine (act_after ((s.writable_iff d).2 hd)).trans <|
    (act_after ((need_ok_iff ..).2 (not_linear_and_zero hl))).trans ?_
  exact (apply_ite Except.ok ..).symm

theorem State.receiveWord_none (he : s.checkEnd j false 0 = .ok ()) (hy : s.received j = none) :
    s.receiveWord d j = .ok (s.receiveWait j) := by
  rw [State.receiveWord, he, hy]
  rfl

theorem exec_rcvv_full {y : BitVec 4} {w : BitVec 512} (hg : s.me.pred g = true)
    (he : s.enabled.checkEnd h.toNat false 1 = .ok ())
    (hw : s.enabled.received h.toNat = some (.vector w, true, fun s => s.takeMessage s.cur.core h.toNat))
    (hgate : s.enabled.streamGate [] [y] = .ok none) :
    exec (.rcvv g y h) s = .next (((s.enabled.writeVec y w).takeMessage s.cur.core h.toNat).advance) := by
  have hcur : (s.enabled.writeVec y w).cur = s.cur := (State.vecFrame_writeVec .refl rfl).1
  have hw' : (s.modMe Strand.setVe).received h.toNat = _ := hw
  refine State.nextV_ok hg ((act_after he).trans ?_)
  rw [hw']
  refine (act_after hgate).trans ?_
  rw [← hcur]
  rfl

theorem exec_rcvv_none {y : BitVec 4} (hg : s.me.pred g = true) (he : s.enabled.checkEnd h.toNat false 1 = .ok ())
    (hw : s.enabled.received h.toNat = none) :
    exec (.rcvv g y h) s = .next (s.enabled.receiveWait h.toNat) := by
  have hw' : (s.modMe Strand.setVe).received h.toNat = _ := hw
  refine State.nextV_ok hg ((act_after he).trans ?_)
  rw [hw']
  rfl

section
variable (hg : s.me.pred g = true) (ht : (s.me.reg a).tag = true) (hk : (s.me.reg a).kind = 1)
  (he : s.checkEnd h.toNat false 2 = .ok ()) (hp : (s.me.reg a).has 1 = true)
include hg ht hk he hp

theorem exec_brcv_full {p n : Nat}
    (hw : s.received h.toNat = some (.offer p n, true, fun s => s.takeMessage s.cur.core h.toNat))
    (hv : validBounds (s.me.reg a).bounds = true) (h1 : (s.me.reg a).bounds.1 ≤ (s.me.reg a).val.toNat)
    (h2 : ((s.me.reg a).val.toNat : Int) + n ≤ (s.me.reg a).bounds.2) (h16 : (s.me.reg a).val.toNat % 16 = 0) :
    exec (.brcv g a h) s = .next (((s.setEnd s.cur.core h.toNat { s.myCore.endAt h.toNat with state := .pull }).waitNext
      (.pull h.toNat)).cpeWork s.cur.core
        (.pull h.toNat (s.myCore.endAt h.toNat).plcn p n ((s.me.reg a).val.toNat % 2 ^ 18) s.cur.slot)) := by
  have htag : ((s.me.reg a).tag && (s.me.reg a).kind == 1) = true := by
    rw [ht, hk]
    rfl
  have hroom : (validBounds (s.me.reg a).bounds && decide ((s.me.reg a).bounds.1 ≤ (s.me.reg a).val.toNat) &&
      decide (((s.me.reg a).val.toNat : Int) + n ≤ (s.me.reg a).bounds.2)) = true := by
    rw [hv, decide_eq_true h1, decide_eq_true h2]
    rfl
  refine State.next_ok hg <| (act_after he).trans <| (act_after ((need_ok_iff ..).2 htag)).trans <|
    (act_after ((need_ok_iff ..).2 hp)).trans ?_
  rw [hw]
  exact (act_after ((need_ok_iff ..).2 hroom)).trans (act_after ((need_ok_iff ..).2 (decide_eq_true h16)))

theorem exec_brcv_none (hw : s.received h.toNat = none) : exec (.brcv g a h) s = .next (s.receiveWait h.toNat) := by
  have htag : ((s.me.reg a).tag && (s.me.reg a).kind == 1) = true := by
    rw [ht, hk]
    rfl
  refine State.next_ok hg <| (act_after he).trans <| (act_after ((need_ok_iff ..).2 htag)).trans <|
    (act_after ((need_ok_iff ..).2 hp)).trans ?_
  rw [hw]
  rfl

end

end

end

end

end

/-! ## What a send leaves -/

section
variable {s : State} {w : Wait}

theorem State.waitNext_edge (h : w.isEdge = true) :
    s.waitNext w = (s.modMe (fun x => x.waitFor w false s.cur.len s.k s.myCore.rakeT.toNat)).postCore s.cur.core
      s.myCore.rakeT.toNat .rakeThreshold (args s.cur.core s.cur.slot) := if_pos h

theorem State.me_waitNext_edge (h : w.isEdge = true) :
    (s.waitNext w).me = s.me.waitFor w false s.cur.len s.k s.myCore.rakeT.toNat := by
  rw [State.waitNext_edge h]
  exact State.me_modMe s (fun x => x.waitFor w false s.cur.len s.k s.myCore.rakeT.toNat)

theorem State.endAt_waitNext_edge (h : w.isEdge = true) (j : Nat) :
    (s.waitNext w).myCore.endAt j = s.myCore.endAt j := by
  rw [State.waitNext_edge h]
  exact s.endAt_modMe (fun x => x.waitFor w false s.cur.len s.k s.myCore.rakeT.toNat) j

theorem State.packets_waitNext_edge (h : w.isEdge = true) : (s.waitNext w).packets = s.packets := by
  rw [State.waitNext_edge h]
  rfl

theorem State.packets_logAppend {p kind st slot j r x} : (s.logAppend p kind st slot j r x).packets = s.packets := by
  unfold State.logAppend State.shiftLog
  dsimp only
  split
  · split <;> rfl
  · rfl

end

/-- An end on which a message has been sent in cycle `k` (R195). -/
def sendingEnd (e : End) (k : Nat) (c : Option (BitVec 5)) : End :=
  { e with state := .sendWait, sentAt := k, clear := c, ackd := false, nakd := false }

theorem sendingEnd_ne_free {e : End} {k : Nat} {c : Option (BitVec 5)} : sendingEnd e k c ≠ End.free :=
  fun h => EndState.noConfusion (congrArg End.state h)

/-- A send marks its end, puts its packet on the network, logs it and waits (R195, R381). -/
theorem State.sendMessage_eq (s : State) (h : Nat) (x : Payload) (c : Option (BitVec 5)) :
    s.sendMessage h x c =
      let e := s.myCore.endAt h
      let u := s.setEnd s.cur.core h (sendingEnd e s.k c)
      ((u.sendFrom s.cur.core false (destOf e.plcn) x.flits (.message e.pend u.myCore.lcn h x) 0).logAppend s.cur.core
        logSend 0 u.cur.slot h CReg.zero 0#512).waitNext (.send h) := rfl

/-- The end waits, the strand is past its instruction, and the message is on its way (R195). -/
theorem State.sendMessage_leaves (s : State) (h : Nat) (x : Payload) (c : Option (BitVec 5)) :
    let t := s.sendMessage h x c
    (t.myCore.endAt h).state = .sendWait ∧ (t.myCore.endAt h).clear = c ∧ (t.myCore.endAt h).sentAt = s.k ∧
    t.me.wait = .send h ∧ t.me.pc = (s.me.past s.cur.len).pc ∧
    ∃ k, Table.get? t.packets s.nextId = some k ∧
      k.body = .message (s.myCore.endAt h).pend s.myCore.lcn h x ∧ k.dst = destOf (s.myCore.endAt h).plcn := by
  have hedge : (Wait.send h).isEdge = true := rfl
  have hset := s.endIs_setEnd h (sendingEnd_ne_free (e := s.myCore.endAt h) (k := s.k) (c := c))
  have hlcn : (s.setEnd s.cur.core h (sendingEnd (s.myCore.endAt h) s.k c)).myCore.lcn = s.myCore.lcn := by
    rw [State.myCore_setEnd]
  have hid : (s.setEnd s.cur.core h (sendingEnd (s.myCore.endAt h) s.k c)).nextId = s.nextId := rfl
  rw [State.sendMessage_eq]
  dsimp only
  generalize s.setEnd s.cur.core h (sendingEnd (s.myCore.endAt h) s.k c) = u at hset hlcn hid ⊢
  obtain ⟨hcur, hme, -, hend⟩ := hset.keepsEnds (u := (u.sendFrom s.cur.core false (destOf (s.myCore.endAt h).plcn) x.flits
    (.message (s.myCore.endAt h).pend u.myCore.lcn h x) 0).logAppend s.cur.core logSend 0 u.cur.slot h CReg.zero 0#512)
    State.KeepsEnds.refl.sendFrom.logAppend
  rw [State.endAt_waitNext_edge hedge, State.me_waitNext_edge hedge, State.packets_waitNext_edge hedge, hend, if_pos rfl,
    hme, hcur, State.packets_logAppend]
  refine ⟨rfl, rfl, rfl, rfl, rfl, _, (congrArg (Table.get? _) hid.symm).trans (Table.get?_set_self ..), ?_, rfl⟩
  rw [hlcn]
  rfl

/-- The short forms name the ends 0 to 15 (R67). -/
theorem toNat_shortEnd (h : BitVec 4) : (h.setWidth 6).toNat = h.toNat :=
  (BitVec.toNat_setWidth ..).trans (Nat.mod_eq_of_lt (by have := h.isLt; omega))

/-- Settles O30: each form passes its checks and then binds, clears, sends or receives. -/
theorem channelResults : Obligations.ChannelResults := by
  refine ⟨fun s g d a h x hg => ⟨fun ht hk h7 => ⟨fun hs hp => exec_chset_permission hg ⟨hs, ht, hk, h7⟩ hp,
      fun hp => exec_chset_outcomes hg ht hk h7 hp⟩, exec_chset_taken hg, fun hb hs => ⟨exec_chclr hg hb hs, fun hback => ?_⟩,
      fun hd => State.next_ok hg (State.putInt_ok _ hd), fun he hp hf hr => State.next_ok hg (State.sendWord_ok he hp hf hr),
      ?_, fun he ht hr => ⟨fun y hs hx hd hl => ⟨fun hpan => ?_, fun hpan => ?_⟩, fun hs => ?_⟩, ?_,
      ⟨exec_sndv hg, fun he ht hr => ⟨fun hs y hx => ?_, fun hs => ?_⟩⟩, fun ht hk => ⟨exec_bsnd hg ht hk,
      fun he hp hn hr => ⟨fun hs p n hx => ?_, fun hs => ?_⟩⟩⟩, State.sendMessage_leaves⟩
  · rw [exec_chclr hg hb hs, State.rearrive_setEnd_free hback]
  · exact congrArg (fun n => s.act 0#3 fun s => s.sendWord (x.setWidth 5) n) (toNat_shortEnd _).symm
  · exact State.next_ok hg ((State.receiveWord_full he (State.received_full ht hr hs hx) hd hl).trans
      (congrArg Except.ok (if_neg (ne_true_of_eq_false hpan))))
  · exact State.next_ok hg ((State.receiveWord_full he (State.received_full ht hr hs hx) hd hl).trans
      (congrArg Except.ok (if_pos hpan)))
  · exact State.next_ok hg (State.receiveWord_none he (State.received_none ht hr hs))
  · exact congrArg (fun n => s.act 0#3 fun s => s.receiveWord (x.setWidth 5) n) (toNat_shortEnd _).symm
  · have hend : s.enabled.myCore.endAt h.toNat = s.myCore.endAt h.toNat := State.endAt_modMe ..
    rw [← hend] at ht hs hx
    exact exec_rcvv_full hg he (State.received_full ht hr hs hx)
  · have hend : s.enabled.myCore.endAt h.toNat = s.myCore.endAt h.toNat := State.endAt_modMe ..
    rw [← hend] at ht hs
    exact exec_rcvv_none hg he (State.received_none ht hr hs)
  · exact exec_brcv_full hg ht hk he hp (State.received_full hn hr hs hx)
  · exact exec_brcv_none hg ht hk he hp (State.received_none hn hr hs)

end Sys2Proof.Machine
end

section
/-! SUPPORT. One rounding of an exact ratio: the length of a number, what does not depend on the scale of the ratio, and
what `Fmt.round` encodes (R47 to R53). -/

namespace Sys2Proof.Machine

/-! ## The length of a number -/

theorem lt_two_pow_bitLen {k n : Nat} (h : n < 2 ^ k) : n < 2 ^ bitLen k n := by
  induction k generalizing n with
  | zero => exact h
  | succ k ih =>
    rw [bitLen]
    split
    · rename_i h0
      rw [h0]
      exact Nat.one_pos
    · have hn := ih (n := n / 2) (by omega)
      rw [Nat.add_comm, Nat.pow_succ]
      omega

theorem two_pow_bitLen_le {k n : Nat} (h : n ≠ 0) : 2 ^ (bitLen k n - 1) ≤ n := by
  induction k generalizing n with
  | zero => exact Nat.one_le_iff_ne_zero.2 h
  | succ k ih =>
    rw [bitLen, if_neg h, Nat.add_sub_cancel_left]
    cases hl : bitLen k (n / 2) with
    | zero => exact Nat.one_le_iff_ne_zero.2 h
    | succ l =>
      have hn : n / 2 ≠ 0 := by
        intro h0
        rw [h0] at hl
        cases k <;> cases hl
      have := ih hn
      rw [hl, Nat.add_sub_cancel] at this
      rw [Nat.pow_succ]
      omega

/-- The length is the place of the number between powers of two. -/
theorem le_bitLen {k n l : Nat} (hl : l < k) (h : 2 ^ l ≤ n) : l + 1 ≤ bitLen k n := by
  induction k generalizing n l with
  | zero => omega
  | succ k ih =>
    have hn : n ≠ 0 := by
      have := Nat.two_pow_pos l
      omega
    rw [bitLen, if_neg hn]
    cases l with
    | zero => omega
    | succ l =>
      rw [Nat.pow_succ] at h
      have := ih (n := n / 2) (l := l) (by omega) (by omega)
      omega

theorem bitLen_le {k n l : Nat} (h0 : n ≠ 0) (h : n < 2 ^ l) : bitLen k n ≤ l := by
  by_contra hl
  have h1 := two_pow_bitLen_le (k := k) h0
  have h2 : 2 ^ l ≤ 2 ^ (bitLen k n - 1) := Nat.pow_le_pow_right Nat.two_pos (by omega)
  omega

theorem bitLen_pos {k n : Nat} (h : n ≠ 0) : 1 ≤ bitLen (k + 1) n := by
  rw [bitLen, if_neg h]
  omega

/-! ## Rounding a ratio -/

/-- The whole number `n` is the rounding of num/den. -/
def roundsRatio (mode : Rnd) (neg : Bool) (num den rnd n : Nat) : Prop :=
  let lo := num / den
  let rem := num % den
  match mode with
  | .rne => (2 * rem < den → n = lo) ∧ (den < 2 * rem → n = lo + 1) ∧ (2 * rem = den → (n = lo ∨ n = lo + 1) ∧ n % 2 = 0)
  | .rtz => n = lo
  | .rup => n = if neg = false ∧ rem ≠ 0 then lo + 1 else lo
  | .rdn => n = if neg = true ∧ rem ≠ 0 then lo + 1 else lo
  | .sr => n = if rnd < rem * 2 ^ 32 / den then lo + 1 else lo

section
variable {mode : Rnd} {neg : Bool} {p d num den rnd n : Nat} {e q : Int}

theorem roundsTo_iff : roundsTo mode neg p d e q rnd n ↔
    roundsRatio mode neg (p * 2 ^ (e - q).toNat) (d * 2 ^ (q - e).toNat) rnd n := Iff.rfl

/-- The rounding depends on the ratio alone. -/
theorem roundsRatio_mul {t : Nat} (ht : 0 < t) :
    roundsRatio mode neg (num * t) (den * t) rnd n ↔ roundsRatio mode neg num den rnd n := by
  have hlt : 2 * (num % den * t) < den * t ↔ 2 * (num % den) < den := by
    rw [← Nat.mul_assoc]
    exact Nat.mul_lt_mul_right ht
  have hgt : den * t < 2 * (num % den * t) ↔ den < 2 * (num % den) := by
    rw [← Nat.mul_assoc]
    exact Nat.mul_lt_mul_right ht
  have heq : 2 * (num % den * t) = den * t ↔ 2 * (num % den) = den := by
    rw [← Nat.mul_assoc]
    exact Nat.mul_left_inj ht.ne'
  have hne : num % den * t ≠ 0 ↔ num % den ≠ 0 := by simp [ht.ne']
  have hsr : num % den * t * 2 ^ 32 / (den * t) = num % den * 2 ^ 32 / den := by
    rw [Nat.mul_right_comm, Nat.mul_div_mul_right _ _ ht]
  unfold roundsRatio
  rw [Nat.mul_div_mul_right _ _ ht, Nat.mul_mod_mul_right]
  cases mode <;> simp only [hlt, hgt, heq, hne, hsr]

theorem roundsRatio_bounds (h : roundsRatio mode neg num den rnd n) : n = num / den ∨ n = num / den + 1 := by
  unfold roundsRatio at h
  cases mode with
  | rne =>
    obtain ⟨h1, h2, h3⟩ := h
    rcases Nat.lt_trichotomy (2 * (num % den)) den with hlt | heq | hgt
    · exact .inl (h1 hlt)
    · exact (h3 heq).1
    · exact .inr (h2 hgt)
  | rtz => exact .inl h
  | rup =>
    dsimp only at h
    split at h
    · exact .inr h
    · exact .inl h
  | rdn =>
    dsimp only at h
    split at h
    · exact .inr h
    · exact .inl h
  | sr =>
    dsimp only at h
    split at h
    · exact .inr h
    · exact .inl h

/-- Rounding moves a ratio by at most 1. -/
theorem roundsRatio_near (hd : 0 < den) (h : roundsRatio mode neg num den rnd n) :
    n * den ≤ num + den ∧ num ≤ n * den + den := by
  have hdiv := Nat.div_add_mod' num den
  have hmod := Nat.mod_lt num hd
  rcases roundsRatio_bounds h with h | h
  · rw [h]
    omega
  · rw [h, Nat.add_mul, Nat.one_mul]
    omega

end

/-! ## The magnitudes of a format -/

/-- The exponent of the least subnormal. -/
def Fmt.least (f : Fmt) : Int := 1 - f.bias - f.mb

/-- The binade of a magnitude pattern, the subnormal one and the least normal one being 0. -/
def Fmt.binade (f : Fmt) (y : Nat) : Nat := y / 2 ^ f.mb - 1

/-- The whole significand of a magnitude pattern. -/
def Fmt.significand (f : Fmt) (y : Nat) : Nat := if y / 2 ^ f.mb = 0 then y % 2 ^ f.mb else 2 ^ f.mb + y % 2 ^ f.mb

/-- The magnitude of a pattern, in units of the least subnormal. -/
def Fmt.magnitude (f : Fmt) (y : Nat) : Nat := f.significand y * 2 ^ f.binade y

/-- The finite magnitudes of a format are its patterns up to the largest one, among which there are normal ones. -/
structure Fmt.Sound (f : Fmt) : Prop where
  normal : 2 ^ f.mb ≤ f.largest
  fits : f.largest < 2 ^ (f.eb + f.mb)
  finite : ∀ y < 2 ^ (f.eb + f.mb), y ≤ f.largest ↔ ¬ (f.kind = .ieee ∧ y / 2 ^ f.mb = 2 ^ f.eb - 1) ∧
    ¬ (f.kind = .e4m3 ∧ y / 2 ^ f.mb = 2 ^ f.eb - 1 ∧ y % 2 ^ f.mb = 2 ^ f.mb - 1)

theorem sound_fp32 : fp32.Sound where
  normal := by decide
  fits := by decide
  finite y hy := by
    simp only [fp32, Fmt.largest] at hy ⊢
    simp
    omega

theorem sound_bf16 : bf16.Sound where
  normal := by decide
  fits := by decide
  finite y hy := by
    simp only [bf16, Fmt.largest] at hy ⊢
    simp
    omega

theorem sound_fp16 : fp16.Sound where
  normal := by decide
  fits := by decide
  finite y hy := by
    simp only [fp16, Fmt.largest] at hy ⊢
    simp
    omega

theorem sound_e4m3 : e4m3.Sound where
  normal := by decide
  fits := by decide
  finite y hy := by
    simp only [e4m3, Fmt.largest] at hy ⊢
    simp
    omega

theorem sound_e5m2 : e5m2.Sound where
  normal := by decide
  fits := by decide
  finite y hy := by
    simp only [e5m2, Fmt.largest] at hy ⊢
    simp
    omega

theorem sound_e2m1 : e2m1.Sound where
  normal := by decide
  fits := by decide
  finite y hy := by
    simp only [e2m1, Fmt.largest] at hy ⊢
    simp
    omega

section
variable {f : Fmt} {neg : Bool} {x y y' : Nat}

theorem Fmt.magnitude_strictMono (f : Fmt) : StrictMono f.magnitude := by
  refine strictMono_nat_of_lt_succ fun y => ?_
  have hpos : 0 < 2 ^ f.mb := Nat.two_pow_pos _
  have hy := Nat.div_add_mod y (2 ^ f.mb)
  have hr := Nat.mod_lt y hpos
  rcases Nat.lt_or_ge (y % 2 ^ f.mb + 1) (2 ^ f.mb) with hlt | hge
  · -- the next significand of the same binade
    obtain ⟨hd, hm⟩ : (y + 1) / 2 ^ f.mb = y / 2 ^ f.mb ∧ (y + 1) % 2 ^ f.mb = y % 2 ^ f.mb + 1 :=
      (Nat.div_mod_unique hpos).2 ⟨by omega, hlt⟩
    unfold magnitude significand binade
    rw [hd, hm]
    refine Nat.mul_lt_mul_of_pos_right ?_ (Nat.two_pow_pos _)
    split <;> omega
  · -- the first significand of the next binade
    have h1 : (y + 1) = 2 ^ f.mb * (y / 2 ^ f.mb + 1) := by
      rw [Nat.mul_add]
      omega
    have hd : (y + 1) / 2 ^ f.mb = y / 2 ^ f.mb + 1 := by rw [h1, Nat.mul_div_cancel_left _ hpos]
    have hm : (y + 1) % 2 ^ f.mb = 0 := by rw [h1, Nat.mul_mod_right]
    unfold magnitude significand binade
    rw [hd, hm, if_neg (Nat.succ_ne_zero _), Nat.add_sub_cancel]
    cases hq : y / 2 ^ f.mb with
    | zero => simpa using hr
    | succ k =>
      rw [if_neg (Nat.succ_ne_zero _), Nat.add_sub_cancel, Nat.pow_succ, ← Nat.mul_assoc, Nat.mul_right_comm]
      exact Nat.mul_lt_mul_of_pos_right (by omega) (Nat.two_pow_pos _)

theorem Fmt.magnitude_lt_iff : f.magnitude y < f.magnitude y' ↔ y < y' := f.magnitude_strictMono.lt_iff_lt

theorem Fmt.significand_lt : f.significand y < 2 ^ (f.mb + 1) := by
  have := Nat.mod_lt y (Nat.two_pow_pos f.mb)
  rw [significand, Nat.pow_succ]
  split <;> omega

/-- A decoding of a pattern: its sign bit, and its other bits. -/
theorem Fmt.decode_split (f : Fmt) (x : Nat) : f.decode x =
    (let y := x % 2 ^ (f.eb + f.mb)
     let neg := x.testBit (f.eb + f.mb)
     if f.kind = .ieee ∧ y / 2 ^ f.mb = 2 ^ f.eb - 1 then (if y % 2 ^ f.mb = 0 then .inf neg else .nan)
     else if f.kind = .e4m3 ∧ y / 2 ^ f.mb = 2 ^ f.eb - 1 ∧ y % 2 ^ f.mb = 2 ^ f.mb - 1 then .nan
     else .fin neg (f.significand y) (f.least + f.binade y)) := by
  have hd : x % 2 ^ (f.eb + f.mb) / 2 ^ f.mb = x / 2 ^ f.mb % 2 ^ f.eb := by
    rw [Nat.add_comm, Nat.pow_add, Nat.mod_mul_right_div_self]
  have hm : x % 2 ^ (f.eb + f.mb) % 2 ^ f.mb = x % 2 ^ f.mb :=
    Nat.mod_mod_of_dvd _ (Nat.pow_dvd_pow 2 (Nat.le_add_left _ _))
  unfold decode significand binade least
  dsimp only
  rw [hd, hm]
  split
  · rfl
  split
  · rfl
  split
  · rename_i h0
    rw [h0]
    simp
  · congr 1
    omega

theorem Fmt.Sound.decode (hf : f.Sound) (hy : y ≤ f.largest) :
    f.decode (f.sign neg + y) = .fin neg (f.significand y) (f.least + f.binade y) := by
  have hlt : y < 2 ^ (f.eb + f.mb) := Nat.lt_of_le_of_lt hy hf.fits
  have hmod : (f.sign neg + y) % 2 ^ (f.eb + f.mb) = y := by
    unfold Fmt.sign
    split <;> simp [Nat.mod_eq_of_lt hlt]
  have hsign : (f.sign neg + y).testBit (f.eb + f.mb) = neg := by
    unfold Fmt.sign
    cases neg
    · simpa using Nat.testBit_lt_two_pow hlt
    · simp [Nat.testBit_two_pow_add_eq, Nat.testBit_lt_two_pow hlt]
  obtain ⟨h1, h2⟩ := (hf.finite y hlt).1 hy
  rw [Fmt.decode_split, hmod, hsign]
  dsimp only
  rw [if_neg h1, if_neg h2]

/-- A finite value is the magnitude of a pattern up to the largest. -/
theorem Fmt.Sound.decode_eq_fin (hf : f.Sound) {n : Bool} {m : Nat} {e : Int} (h : f.decode x = .fin n m e) :
    x % 2 ^ (f.eb + f.mb) ≤ f.largest ∧ n = x.testBit (f.eb + f.mb) ∧ m = f.significand (x % 2 ^ (f.eb + f.mb)) ∧
      e = f.least + f.binade (x % 2 ^ (f.eb + f.mb)) := by
  rw [Fmt.decode_split] at h
  dsimp only at h
  split at h
  · split at h <;> cases h
  split at h
  · cases h
  rename_i h1 h2
  cases h
  exact ⟨(hf.finite _ (Nat.mod_lt _ (Nat.two_pow_pos _))).2 ⟨h1, h2⟩, rfl, rfl, rfl⟩

end

/-! ## What an encoding leaves -/

/-- The pattern of the magnitude n × 2^q, for `n` up to the top of the binade of steps 2^q. -/
def Fmt.pattern (f : Fmt) (n : Nat) (q : Int) : Nat := (q - f.least).toNat * 2 ^ f.mb + n

/-- The end of `Fmt.round`: the bits and the flags of the rounded magnitude n × 2^q. -/
def Fmt.encode (f : Fmt) (mode : Rnd) (neg inexact under : Bool) (n : Nat) (q : Int) : Nat × BitVec 5 :=
  let (n, q) := if n = 2 ^ (f.mb + 1) then (2 ^ f.mb, q + 1) else (n, q)
  let nx := if inexact then flagNX else flagNone
  if n < 2 ^ f.mb then (f.sign neg + n, nx ||| (if inexact then flagUF else flagNone))
  else
    let ef := (q + f.mb + f.bias).toNat
    let bits := ef * 2 ^ f.mb + (n - 2 ^ f.mb)
    if f.largest < bits then (f.overflow neg mode, flagOF ||| flagNX)
    else (f.sign neg + bits, nx ||| (if inexact && (ef == 1 && n == 2 ^ f.mb && under) then flagUF else flagNone))

/-- The bits and the flags `r` give the magnitude n × 2^q, or its overflow. -/
def Fmt.Encodes (f : Fmt) (mode : Rnd) (neg : Bool) (n : Nat) (q : Int) (inexact : Prop) (r : Nat × BitVec 5) : Prop :=
  ∃ a b, f.decode f.largest = .fin false a b ∧
    let c := min q b
    if a * 2 ^ (b - c).toNat < n * 2 ^ (q - c).toNat then r = (f.overflow neg mode, flagOF ||| flagNX)
    else r.2 &&& flagOF = 0#5 ∧ (r.2 &&& flagNX ≠ 0#5 ↔ inexact) ∧
      ∃ m y, f.decode r.1 = .fin neg m y ∧ q ≤ y ∧ m * 2 ^ (y - q).toNat = n

/-- `r` is the ratio num/den rounded once in steps of 2^q. -/
def Fmt.RoundsAt (f : Fmt) (mode : Rnd) (neg : Bool) (num den rnd : Nat) (q : Int) (r : Nat × BitVec 5) : Prop :=
  num < 2 ^ (f.mb + 1) * den ∧ (q = f.least ∨ (f.least < q ∧ 2 ^ f.mb * den ≤ num)) ∧
    ∃ n, roundsRatio mode neg num den rnd n ∧ f.Encodes mode neg n q (num % den ≠ 0) r

section
variable {f : Fmt} {mode : Rnd} {neg inexact under : Bool} {n m : Nat} {e q : Int}

theorem Fmt.round_eq_encode {sticky : Bool} {rnd : Nat} (f : Fmt) (mode : Rnd) (neg : Bool) (m : Nat) (e : Int) :
    let free : Int := bitLen 1200 m + e - 1 - f.mb
    let q := max free f.least
    ∃ under : Bool, (under = true → free < f.least) ∧ f.round mode neg m e sticky rnd =
      f.encode mode neg (roundStep mode neg m e q sticky rnd).2 under (roundStep mode neg m e q sticky rnd).1 q := by
  intro free q
  have hq : (if free < 1 - f.bias - f.mb then 1 - f.bias - f.mb else free) = q := by
    show ite (free < f.least) f.least free = max free f.least
    omega
  refine ⟨decide (free < 1 - f.bias - f.mb) && decide ((roundStep mode neg m e free sticky rnd).1 < 2 ^ (f.mb + 1)),
    fun h => ?_, ?_⟩
  · rw [Bool.and_eq_true, decide_eq_true_eq] at h
    exact h.1
  · unfold round encode
    dsimp only
    rw [hq]
    simp only [Bool.and_assoc]
    rfl

variable (hn : n ≤ 2 ^ (f.mb + 1)) (hnq : q = f.least ∨ 2 ^ f.mb ≤ n) (hq : f.least ≤ q)
include hn hnq

theorem Fmt.pattern_fields :
    f.significand (f.pattern n q) * 2 ^ (f.binade (f.pattern n q) - (q - f.least).toNat) = n ∧
      (q - f.least).toNat ≤ f.binade (f.pattern n q) := by
  have hpos := Nat.two_pow_pos f.mb
  obtain ⟨k, hk⟩ : ∃ k, (q - f.least).toNat = k := ⟨_, rfl⟩
  unfold pattern significand binade
  rw [hk]
  rw [Nat.pow_succ] at hn
  rcases Nat.lt_or_ge n (2 ^ f.mb) with hlt | hge
  · -- a subnormal magnitude
    have hk0 : k = 0 := by omega
    rw [hk0, Nat.zero_mul, Nat.zero_add, Nat.div_eq_of_lt hlt, Nat.mod_eq_of_lt hlt]
    simp
  rcases Nat.lt_or_ge n (2 * 2 ^ f.mb) with hlt | hge2
  · -- a normal one
    obtain ⟨hd, hm⟩ : (k * 2 ^ f.mb + n) / 2 ^ f.mb = k + 1 ∧ (k * 2 ^ f.mb + n) % 2 ^ f.mb = n - 2 ^ f.mb :=
      (Nat.div_mod_unique hpos).2 ⟨by rw [Nat.mul_add, Nat.mul_comm k]; omega, by omega⟩
    rw [hd, hm, if_neg (Nat.succ_ne_zero _), Nat.add_sub_cancel, Nat.sub_self]
    omega
  · -- the first one of the next binade
    obtain ⟨hd, hm⟩ : (k * 2 ^ f.mb + n) / 2 ^ f.mb = k + 2 ∧ (k * 2 ^ f.mb + n) % 2 ^ f.mb = 0 :=
      (Nat.div_mod_unique hpos).2 ⟨by rw [Nat.mul_add, Nat.mul_comm k]; omega, by omega⟩
    rw [hd, hm, if_neg (by omega : ¬ k + 2 = 0), show k + 2 - 1 - k = 1 by omega]
    omega

theorem Fmt.magnitude_pattern : f.magnitude (f.pattern n q) = n * 2 ^ (q - f.least).toNat := by
  obtain ⟨hs, hb⟩ := pattern_fields hn hnq
  rw [magnitude]
  conv_rhs => rw [← hs, Nat.mul_assoc, ← Nat.pow_add, Nat.sub_add_cancel hb]

include hq

/-- A rounded magnitude is encoded by its pattern, or overflows where that is above the largest; the flags. -/
theorem Fmt.encode_eq (hf : f.Sound) :
    let r := f.encode mode neg inexact under n q
    let y := f.pattern n q
    if f.largest < y then r = (f.overflow neg mode, flagOF ||| flagNX)
    else r.1 = f.sign neg + y ∧ (r.2 = (if inexact then flagNX else flagNone) ∨
      (inexact = true ∧ y ≤ 2 ^ f.mb ∧ (n < 2 ^ f.mb ∨ under = true) ∧ r.2 = flagNX ||| flagUF)) := by
  have hpos := Nat.two_pow_pos f.mb
  have hnormal := hf.normal
  obtain ⟨k, hk⟩ : ∃ k, (q - f.least).toNat = k := ⟨_, rfl⟩
  have hef : (q + f.mb + f.bias).toNat = k + 1 := by
    unfold least at hk hq
    omega
  have hef1 : (q + 1 + f.mb + f.bias).toNat = k + 2 := by
    unfold least at hk hq
    omega
  have hn' := hn
  rw [Nat.pow_succ] at hn'
  unfold encode pattern
  rw [hk]
  by_cases hc : n = 2 ^ (f.mb + 1)
  · have hbits : (k + 2) * 2 ^ f.mb + (2 ^ f.mb - 2 ^ f.mb) = k * 2 ^ f.mb + n := by
      rw [hc, Nat.pow_succ, Nat.add_mul]
      omega
    rw [if_pos hc]
    dsimp only
    rw [if_neg (Nat.lt_irrefl _), hef1, hbits]
    split
    · rfl
    · simp [flagNone]
  · rw [if_neg hc]
    dsimp only
    rw [hef]
    have hc' : n ≠ 2 ^ f.mb * 2 := by rwa [← Nat.pow_succ]
    rcases Nat.lt_or_ge n (2 ^ f.mb) with hlt | hge
    · have hk0 : k = 0 := by omega
      rw [if_pos hlt, hk0, Nat.zero_mul, Nat.zero_add, if_neg (by omega)]
      cases inexact <;> simp [hlt, Nat.le_of_lt hlt]
    · have hbits : (k + 1) * 2 ^ f.mb + (n - 2 ^ f.mb) = k * 2 ^ f.mb + n := by
        rw [Nat.add_mul]
        omega
      rw [if_neg (by omega : ¬ n < 2 ^ f.mb), hbits]
      split
      · rfl
      · refine ⟨rfl, ?_⟩
        cases hu : inexact && (k + 1 == 1 && n == 2 ^ f.mb && under) with
        | false => simp [flagNone]
        | true =>
          simp only [Bool.and_eq_true, beq_iff_eq] at hu
          obtain ⟨hi, ⟨hk1, hn1⟩, hu⟩ := hu
          obtain rfl : k = 0 := by omega
          exact .inr ⟨hi, by omega, .inr hu, by simp [hi]⟩

/-! ## One rounding -/

theorem Fmt.encode_encodes (hf : f.Sound) : f.Encodes mode neg n q (inexact = true) (f.encode mode neg inexact under n q) := by
  have he := encode_eq (mode := mode) (neg := neg) (inexact := inexact) (under := under) hn hnq hq hf
  have hsign : f.sign false = 0 := rfl
  refine ⟨f.significand f.largest, f.least + f.binade f.largest, ?_, ?_⟩
  · have := hf.decode (neg := false) (Nat.le_refl f.largest)
    rwa [hsign, Nat.zero_add] at this
  · have hlt : f.significand f.largest * 2 ^ (f.least + f.binade f.largest - min q (f.least + f.binade f.largest)).toNat <
        n * 2 ^ (q - min q (f.least + f.binade f.largest)).toNat ↔ f.largest < f.pattern n q := by
      rw [← magnitude_lt_iff (y' := f.pattern n q), magnitude_pattern hn hnq, magnitude]
      obtain ⟨c, hc⟩ : ∃ c, (min q (f.least + f.binade f.largest) - f.least).toNat = c := ⟨_, rfl⟩
      rw [← Nat.mul_lt_mul_right (Nat.two_pow_pos c), Nat.mul_assoc, Nat.mul_assoc, ← Nat.pow_add, ← Nat.pow_add]
      rw [show (f.least + f.binade f.largest - min q (f.least + f.binade f.largest)).toNat + c = f.binade f.largest by omega,
        show (q - min q (f.least + f.binade f.largest)).toNat + c = (q - f.least).toNat by omega]
    dsimp only at he ⊢
    split
    · rename_i h
      rwa [if_pos (hlt.1 h)] at he
    · rename_i h
      rw [if_neg (mt hlt.2 h)] at he
      obtain ⟨h1, h2⟩ := he
      refine ⟨?_, ?_, f.significand (f.pattern n q), f.least + f.binade (f.pattern n q), ?_, ?_, ?_⟩
      · rcases h2 with h2 | ⟨-, -, -, h2⟩
        · rw [h2]
          cases inexact <;> rfl
        · rw [h2]
          rfl
      · rcases h2 with h2 | ⟨hi, -, -, h2⟩
        · rw [h2]
          cases inexact <;> decide
        · rw [h2, hi]
          decide
      · rw [h1]
        exact hf.decode (Nat.le_of_not_lt (mt hlt.2 h))
      · have := (pattern_fields hn hnq).2
        omega
      · have := (pattern_fields hn hnq).1
        rwa [show (f.least + f.binade (f.pattern n q) - q).toNat =
          f.binade (f.pattern n q) - (q - f.least).toNat by omega]

end

/-! ## A rounding step -/

/-- Is a magnitude rounded up, with the whole part `lo` and the rest rem/(2 × half), and more below where `sticky`? -/
def roundsUp (mode : Rnd) (neg : Bool) (lo rem half rnd : Nat) (sticky : Bool) : Bool :=
  match mode with
  | .rne => decide (half < rem) || (rem == half && (sticky || lo % 2 == 1))
  | .rtz => false
  | .rup => !neg && (rem != 0 || sticky)
  | .rdn => neg && (rem != 0 || sticky)
  | .sr => decide (rnd < rem * 2 ^ 32 / (2 * half))

section
variable {mode : Rnd} {neg sticky : Bool} {m p d t h rnd : Nat} {e q : Int}

theorem roundStep_of_le (hle : q ≤ e) : roundStep mode neg m e q sticky rnd = (m * 2 ^ (e - q).toNat, false) := by
  rw [roundStep, if_pos hle]

theorem roundStep_of_lt (hlt : e < q) (hh : 2 ^ (q - e).toNat = 2 * h) :
    roundStep mode neg m e q sticky rnd =
      (if roundsUp mode neg (m / (2 * h)) (m % (2 * h)) h rnd sticky then m / (2 * h) + 1 else m / (2 * h),
        m % (2 * h) != 0 || sticky) := by
  have hhalf : 2 ^ ((q - e).toNat - 1) = h := by
    rw [show (q - e).toNat = (q - e).toNat - 1 + 1 by omega, Nat.pow_succ] at hh
    omega
  rw [roundStep, if_neg (by omega)]
  dsimp only
  rw [hh, hhalf]
  rfl

/-- A quotient is above the middle of its step where its whole part is, or where it is there and a remainder is left. -/
theorem half_lt_iff (hd : 0 < d) :
    d * (2 * h) < 2 * (p % (d * (2 * h))) ↔ h < p / d % (2 * h) ∨ (p / d % (2 * h) = h ∧ p % d ≠ 0) := by
  have hp := Nat.mod_lt p hd
  rw [Nat.mod_mul, Nat.mul_left_comm, Nat.mul_lt_mul_left Nat.two_pos]
  rcases Nat.lt_trichotomy (p / d % (2 * h)) h with hlt | heq | hgt
  · have := Nat.mul_le_mul_left d (Nat.succ_le_of_lt hlt)
    rw [Nat.mul_succ] at this
    omega
  · rw [heq]
    omega
  · have := Nat.mul_lt_mul_of_pos_left hgt hd
    omega

theorem eq_half_iff (hd : 0 < d) :
    2 * (p % (d * (2 * h))) = d * (2 * h) ↔ p / d % (2 * h) = h ∧ p % d = 0 := by
  have hp := Nat.mod_lt p hd
  rw [Nat.mod_mul, Nat.mul_left_comm d, Nat.mul_right_inj Nat.two_pos.ne']
  rcases Nat.lt_trichotomy (p / d % (2 * h)) h with hlt | heq | hgt
  · have := Nat.mul_le_mul_left d (Nat.succ_le_of_lt hlt)
    rw [Nat.mul_succ] at this
    omega
  · rw [heq]
    omega
  · have := Nat.mul_lt_mul_of_pos_left hgt hd
    omega

theorem mod_ne_zero_iff (hd : 0 < d) : p % (d * t) ≠ 0 ↔ p / d % t ≠ 0 ∨ p % d ≠ 0 := by
  rw [Nat.mod_mul]
  have : d * (p / d % t) = 0 ↔ p / d % t = 0 := by simp [hd.ne']
  omega

/-- Rounding up by the whole part of p/d, and by whether a remainder is left, rounds p/d. -/
theorem roundsUp_roundsRatio (hd : 0 < d) (hs : sticky = decide (p % d ≠ 0)) (hm : mode = .sr → p % d = 0) :
    roundsRatio mode neg p (d * (2 * h)) rnd
      (if roundsUp mode neg (p / d / (2 * h)) (p / d % (2 * h)) h rnd sticky then p / d / (2 * h) + 1
        else p / d / (2 * h)) := by
  have hne := mod_ne_zero_iff (p := p) (t := 2 * h) hd
  unfold roundsRatio roundsUp
  rw [← Nat.div_div_eq_div_mul]
  cases mode with
  | rne =>
    have hgt := half_lt_iff (p := p) (h := h) hd
    have heq := eq_half_iff (p := p) (h := h) hd
    simp only [hs, Bool.or_eq_true, Bool.and_eq_true, decide_eq_true_eq, beq_iff_eq]
    split <;> omega
  | rtz => rfl
  | rup =>
    simp only [hne, hs]
    cases neg <;> simp
  | rdn =>
    simp only [hne, hs]
    cases neg <;> simp
  | sr =>
    dsimp only
    rw [Nat.mod_mul (x := p) (a := d), hm rfl, Nat.zero_add, Nat.mul_assoc, Nat.mul_div_mul_left _ _ hd]
    simp only [decide_eq_true_eq]

/-- The rounding step of the whole part of p/d, with `sticky` saying whether it leaves a remainder, rounds p/d itself. -/
theorem roundStep_roundsRatio (hd : 0 < d) (hs : sticky = decide (p % d ≠ 0)) (hq : q ≤ e → p % d = 0)
    (hm : mode = .sr → p % d = 0) :
    let r := roundStep mode neg (p / d) e q sticky rnd
    let num := p * 2 ^ (e - q).toNat
    let den := d * 2 ^ (q - e).toNat
    roundsRatio mode neg num den rnd r.1 ∧ (r.2 = true ↔ num % den ≠ 0) := by
  intro r num den
  by_cases hle : q ≤ e
  · obtain ⟨k, hk⟩ := Nat.dvd_of_mod_eq_zero (hq hle)
    have hden : den = d := by
      show d * 2 ^ (q - e).toNat = d
      rw [show (q - e).toNat = 0 by omega, Nat.pow_zero, Nat.mul_one]
    have hnum : num = d * (k * 2 ^ (e - q).toNat) := by
      show p * _ = _
      rw [hk, Nat.mul_assoc]
    have hr : r = (k * 2 ^ (e - q).toNat, false) := by
      show roundStep _ _ _ _ _ _ _ = _
      rw [roundStep_of_le hle, hk, Nat.mul_div_cancel_left _ hd]
    rw [hr, hden, hnum]
    refine ⟨?_, by simp⟩
    unfold roundsRatio
    rw [Nat.mul_div_cancel_left _ hd, Nat.mul_mod_right]
    cases mode
    case rne => simp; omega
    all_goals simp
  · obtain ⟨h, hh⟩ : ∃ h, 2 ^ (q - e).toNat = 2 * h :=
      ⟨2 ^ ((q - e).toNat - 1), by rw [Nat.mul_comm, ← Nat.pow_succ]; congr 1; omega⟩
    have hden : den = d * (2 * h) := by
      show d * _ = _
      rw [hh]
    have hnum : num = p := by
      show p * 2 ^ (e - q).toNat = p
      rw [show (e - q).toNat = 0 by omega, Nat.pow_zero, Nat.mul_one]
    have hr : r = _ := roundStep_of_lt (by omega) hh
    rw [hr, hden, hnum]
    refine ⟨roundsUp_roundsRatio hd hs hm, ?_⟩
    rw [mod_ne_zero_iff hd, hs]
    simp

end

/-! ## The rounding of a value -/

section
variable {f : Fmt} {mode : Rnd} {neg sticky : Bool} {num den p d rnd t : Nat} {e q : Int} {r : Nat × BitVec 5}

theorem Fmt.oneRounding_iff : f.OneRounding mode neg p d e rnd r ↔
    ∃ q, f.RoundsAt mode neg (p * 2 ^ (e - q).toNat) (d * 2 ^ (q - e).toNat) rnd q r :=
  ⟨fun ⟨q, n, hlt, hq, hn, hr⟩ => ⟨q, hlt, hq, n, hn, hr⟩, fun ⟨q, hlt, hq, n, hn, hr⟩ => ⟨q, n, hlt, hq, hn, hr⟩⟩

theorem Fmt.roundsAt_mul (ht : 0 < t) :
    f.RoundsAt mode neg (num * t) (den * t) rnd q r ↔ f.RoundsAt mode neg num den rnd q r := by
  have hne : num % den * t ≠ 0 ↔ num % den ≠ 0 := by simp [ht.ne']
  unfold RoundsAt
  simp only [← Nat.mul_assoc, Nat.mul_lt_mul_right ht, Nat.mul_le_mul_right_iff ht, roundsRatio_mul ht,
    Nat.mul_mod_mul_right, hne]

/-- A power of two is moved from the exponent to the significand. -/
theorem Fmt.oneRounding_shift : f.OneRounding mode neg (p * 2 ^ t) d e rnd r ↔ f.OneRounding mode neg p d (e + t) rnd r := by
  rw [oneRounding_iff, oneRounding_iff]
  refine exists_congr fun q => ?_
  obtain ⟨k, hk⟩ : ∃ k, (q - e).toNat = (q - (e + t)).toNat + k := ⟨(q - e).toNat - (q - (e + t)).toNat, by omega⟩
  have hk' : t + (e - q).toNat = (e + t - q).toNat + k := by omega
  rw [Nat.mul_assoc, ← Nat.pow_add, hk, hk', Nat.pow_add, Nat.pow_add, ← Nat.mul_assoc, ← Nat.mul_assoc,
    roundsAt_mul (Nat.two_pow_pos k)]

/-- The whole part of p/d, with `sticky` saying whether it leaves a remainder, is enough to round p/d, where it is whole or
long. -/
theorem Fmt.round_oneRounding (hf : f.Sound) (hd : 0 < d) (h0 : p / d ≠ 0) (h1200 : p / d < 2 ^ 1200)
    (hs : sticky = decide (p % d ≠ 0)) (hlong : p % d = 0 ∨ (mode ≠ .sr ∧ f.mb + 3 ≤ bitLen 1200 (p / d))) :
    f.OneRounding mode neg p d e rnd (f.round mode neg (p / d) e sticky rnd) := by
  have hlt := Nat.lt_mul_of_div_lt (lt_two_pow_bitLen h1200) hd
  have hle := Nat.mul_le_of_le_div _ _ _ (two_pow_bitLen_le (k := 1200) h0)
  have hlen := bitLen_pos (k := 1199) h0
  obtain ⟨under, -, hround⟩ := round_eq_encode (sticky := sticky) (rnd := rnd) f mode neg (p / d) e
  rw [hround]
  obtain ⟨l, hl⟩ : ∃ l, bitLen 1200 (p / d) = l := ⟨_, rfl⟩
  rw [hl] at hlt hle hlen hlong
  obtain ⟨q, hq⟩ : ∃ q : Int, max (l + e - 1 - f.mb) f.least = q := ⟨_, rfl⟩
  rw [hl, hq]
  obtain ⟨hratio, hinexact⟩ := roundStep_roundsRatio (neg := neg) (rnd := rnd) hd hs
    (show q ≤ e → p % d = 0 by omega) (fun h => hlong.resolve_right fun h' => h'.1 h)
  have hnum : p * 2 ^ (e - q).toNat < 2 ^ (f.mb + 1) * (d * 2 ^ (q - e).toNat) := by
    calc p * 2 ^ (e - q).toNat < 2 ^ l * d * 2 ^ (e - q).toNat := Nat.mul_lt_mul_of_pos_right hlt (Nat.two_pow_pos _)
      _ = 2 ^ (l + (e - q).toNat) * d := by rw [Nat.mul_right_comm, ← Nat.pow_add]
      _ ≤ 2 ^ (f.mb + 1 + (q - e).toNat) * d := Nat.mul_le_mul_right _ (Nat.pow_le_pow_right Nat.two_pos (by omega))
      _ = 2 ^ (f.mb + 1) * (d * 2 ^ (q - e).toNat) := by rw [Nat.pow_add, Nat.mul_assoc, Nat.mul_comm d]
  have hden : q = f.least ∨ (f.least < q ∧ 2 ^ f.mb * (d * 2 ^ (q - e).toNat) ≤ p * 2 ^ (e - q).toNat) := by
    rcases Int.lt_or_le f.least q with hlq | hlq
    · refine .inr ⟨hlq, ?_⟩
      calc 2 ^ f.mb * (d * 2 ^ (q - e).toNat) = 2 ^ (f.mb + (q - e).toNat) * d := by
            rw [Nat.pow_add, Nat.mul_assoc, Nat.mul_comm d]
        _ ≤ 2 ^ (l - 1 + (e - q).toNat) * d := Nat.mul_le_mul_right _ (Nat.pow_le_pow_right Nat.two_pos (by omega))
        _ = 2 ^ (l - 1) * d * 2 ^ (e - q).toNat := by rw [Nat.mul_right_comm, ← Nat.pow_add]
        _ ≤ p * 2 ^ (e - q).toNat := Nat.mul_le_mul_right _ hle
    · exact .inl (by omega)
  have hden0 : 0 < d * 2 ^ (q - e).toNat := Nat.mul_pos hd (Nat.two_pow_pos _)
  have hnlt := (Nat.div_lt_iff_lt_mul hden0).2 hnum
  have hn : (roundStep mode neg (p / d) e q sticky rnd).1 ≤ 2 ^ (f.mb + 1) := by
    rcases roundsRatio_bounds hratio with h | h <;> omega
  have hnq : q = f.least ∨ 2 ^ f.mb ≤ (roundStep mode neg (p / d) e q sticky rnd).1 := by
    refine hden.imp id fun ⟨_, h⟩ => ?_
    have := (Nat.le_div_iff_mul_le hden0).2 h
    rcases roundsRatio_bounds hratio with h | h <;> omega
  have henc := encode_encodes (mode := mode) (neg := neg) (inexact := (roundStep mode neg (p / d) e q sticky rnd).2)
    (under := under) hn hnq (by omega : f.least ≤ q) hf
  rw [hinexact] at henc
  exact oneRounding_iff.2 ⟨q, hnum, hden, _, hratio, henc⟩

/-- A whole number of units is rounded once. -/
theorem Fmt.round_whole (hf : f.Sound) {m : Nat} (h0 : m ≠ 0) (h1200 : m < 2 ^ 1200) :
    f.OneRounding mode neg m 1 e rnd (f.round mode neg m e false rnd) := by
  have := round_oneRounding (mode := mode) (neg := neg) (e := e) (rnd := rnd) (sticky := false) (p := m) hf Nat.one_pos
  rw [Nat.div_one, Nat.mod_one] at this
  exact this h0 h1200 rfl (.inl rfl)

end

end Sys2Proof.Machine
end

section
/-! THEOREM. RoundedResults (O60): one rounding of an exact result (R53, R58, R160 to R164, R166). -/

namespace Sys2Proof.Machine

/-! ## Signed multiples of a power of two -/

section
variable {n : Bool} {m : Nat} {e l : Int}

theorem natAbs_scaled : (scaled n m e l).natAbs = m * 2 ^ (e - l).toNat := by
  have h : ((m : Int) * 2 ^ (e - l).toNat).natAbs = m * 2 ^ (e - l).toNat := by
    rw [Int.natAbs_mul, Int.natAbs_pow]
    rfl
  unfold scaled
  cases n
  · exact h
  · exact (Int.natAbs_neg _).trans h

theorem scaled_lt_zero (h0 : m ≠ 0) : decide (scaled n m e l < 0) = n := by
  have : (0 : Int) < m * 2 ^ (e - l).toNat := by positivity
  unfold scaled
  cases n
  · exact decide_eq_false (Int.not_lt.2 (Int.le_of_lt this))
  · exact decide_eq_true (Int.neg_neg_of_pos this)

theorem scaled_eq_zero : scaled n m e l = 0 ↔ m = 0 := by
  rw [← Int.natAbs_eq_zero, natAbs_scaled]
  simp

theorem scaled_zero : scaled n 0 e l = 0 := scaled_eq_zero.2 rfl

theorem scaled_self (v : Int) : scaled (decide (v < 0)) v.natAbs e e = v := by
  unfold scaled
  rw [Int.sub_self, Int.toNat_zero, pow_zero, mul_one]
  by_cases h : v < 0
  · rw [decide_eq_true h, if_pos rfl]
    omega
  · rw [decide_eq_false h, if_neg Bool.false_ne_true]
    omega

theorem scaled_congr {m' : Nat} {e' : Int} (h : m * 2 ^ (e - l).toNat = m' * 2 ^ (e' - l).toNat) :
    scaled n m e l = scaled n m' e' l := by
  have hz : (m : Int) * 2 ^ (e - l).toNat = m' * 2 ^ (e' - l).toNat := by exact_mod_cast h
  unfold scaled
  rw [hz]

/-- A finer unit. -/
theorem scaled_mul {k : Int} (hl : l ≤ k) (hk : k ≤ e) : scaled n m e l = scaled n m e k * 2 ^ (k - l).toNat := by
  unfold scaled
  rw [show (e - l).toNat = (e - k).toNat + (k - l).toNat by omega]
  cases n <;> simp [pow_add, mul_assoc]

theorem scaled_eq_iff {n' : Bool} {m' : Nat} {e' k : Int} (hl : l ≤ k) (hk : k ≤ e) (hk' : k ≤ e') :
    scaled n m e l = scaled n' m' e' l ↔ scaled n m e k = scaled n' m' e' k := by
  rw [scaled_mul hl hk, scaled_mul hl hk']
  exact mul_left_inj' (by positivity)

end

/-! ## Sums, products and quotients -/

section
variable {f : Fmt} {mode : Rnd} {n1 n2 n3 np na : Bool} {m1 m2 m3 : Nat} {e1 e2 e3 : Int}

theorem addFin_eq : addFin mode n1 m1 e1 n2 m2 e2 =
    (let e := min e1 e2
     let v := scaled n1 m1 e1 e + scaled n2 m2 e2 e
     if v = 0 then .fin (if m1 = 0 ∧ m2 = 0 ∧ n1 = n2 then n1 else decide (mode = .rdn)) 0 0
     else .fin (decide (v < 0)) v.natAbs e) := by
  unfold addFin
  rw [← min_def]
  rfl

theorem Fmt.add_fin : f.add mode (.fin n1 m1 e1) (.fin n2 m2 e2) =
    f.roundVal mode (addFin mode n1 m1 e1 n2 m2 e2) 0 :=
  Prod.ext rfl (BitVec.zero_or (x := (f.roundVal mode (addFin mode n1 m1 e1 n2 m2 e2) 0).2))

theorem Fmt.mul_fin : f.mul mode (.fin n1 m1 e1) (.fin n2 m2 e2) =
    f.roundVal mode (.fin (n1 != n2) (m1 * m2) (e1 + e2)) 0 :=
  Prod.ext rfl (BitVec.zero_or (x := (f.roundVal mode (.fin (n1 != n2) (m1 * m2) (e1 + e2)) 0).2))

theorem Fmt.fma_fin : f.fma mode np na (.fin n1 m1 e1) (.fin n2 m2 e2) (.fin n3 m3 e3) =
    f.add mode (.fin ((n1 != n2) ^^ np) (m1 * m2) (e1 + e2)) (.fin (n3 ^^ na) m3 e3) := by
  cases np <;> cases na <;> simp [fma, FVal.mul, FVal.neg, invalidProduct]

theorem Fmt.roundVal_fin {rnd : Nat} (h : m1 ≠ 0) :
    f.roundVal mode (.fin n1 m1 e1) rnd = f.round mode n1 m1 e1 false rnd := if_neg h

theorem Fmt.roundVal_zero {rnd : Nat} : f.roundVal mode (.fin n1 0 e1) rnd = (f.sign n1, flagNone) := rfl

/-- A finite sum is the exact sum rounded once; an exact zero keeps the sign that R160 gives. -/
theorem Fmt.add_oneRounding (hf : f.Sound) {v : Int}
    (hv : scaled n1 m1 e1 (min e1 e2) + scaled n2 m2 e2 (min e1 e2) = v) (hlt : v.natAbs < 2 ^ 1200) :
    (v ≠ 0 → f.OneRounding mode (decide (v < 0)) v.natAbs 1 (min e1 e2) 0
      (f.add mode (.fin n1 m1 e1) (.fin n2 m2 e2))) ∧
    (v = 0 → f.add mode (.fin n1 m1 e1) (.fin n2 m2 e2) =
      (f.sign (if m1 = 0 ∧ m2 = 0 ∧ n1 = n2 then n1 else decide (mode = .rdn)), flagNone)) := by
  rw [add_fin, addFin_eq]
  dsimp only
  rw [hv]
  constructor
  · intro h0
    rw [if_neg h0, roundVal_fin (Int.natAbs_ne_zero.2 h0)]
    exact round_whole hf (Int.natAbs_ne_zero.2 h0) hlt
  · intro h0
    rw [if_pos h0, roundVal_zero]

/-- A finite quotient is the exact quotient rounded once. -/
theorem Fmt.div_oneRounding (hf : f.Sound) (hmb : f.mb ≤ 23) (hm : mode ≠ .sr) (h1 : m1 ≠ 0) (h2 : m2 ≠ 0)
    (hlt1 : m1 < 2 ^ 24) (hlt2 : m2 < 2 ^ 24) :
    f.OneRounding mode (n1 != n2) m1 m2 (e1 - e2) 0 (f.div mode (.fin n1 m1 e1) (.fin n2 m2 e2)) := by
  have hlow : 2 ^ 40 ≤ m1 * 2 ^ 64 / m2 := by
    rw [Nat.le_div_iff_mul_le (Nat.pos_of_ne_zero h2)]
    omega
  have hhigh : m1 * 2 ^ 64 / m2 < 2 ^ 1200 :=
    Nat.lt_of_le_of_lt (Nat.div_le_self _ _) (by omega)
  have hlen := le_bitLen (k := 1200) (by omega) hlow
  have hr := round_oneRounding (neg := n1 != n2) (e := e1 - e2 - 64) (rnd := 0) hf (Nat.pos_of_ne_zero h2)
    (by omega : m1 * 2 ^ 64 / m2 ≠ 0) hhigh rfl (.inr ⟨hm, by omega⟩)
  rw [oneRounding_shift] at hr
  have hdiv : f.div mode (.fin n1 m1 e1) (.fin n2 m2 e2) = f.round mode (n1 != n2) (m1 * 2 ^ 64 / m2) (e1 - e2 - 64)
      (decide (m1 * 2 ^ 64 % m2 ≠ 0)) 0 := by
    unfold div
    dsimp only
    rw [if_neg h2, if_neg h1]
    congr 1
    exact Bool.eq_iff_iff.2 (by simp)
  rw [hdiv]
  convert hr using 1
  omega

end

/-! ## The values of a format -/

section
variable {f h : Fmt} {x : Nat} {n : Bool} {m : Nat} {e : Int}

/-- A normal or subnormal value has a significand of the format's length, and an exponent of the format's range. -/
theorem Fmt.Sound.decode_bounds (hf : f.Sound) (hx : f.decode x = .fin n m e) :
    m < 2 ^ (f.mb + 1) ∧ f.least ≤ e ∧ e < f.least + 2 ^ f.eb := by
  obtain ⟨hy, -, hm, he⟩ := hf.decode_eq_fin hx
  have hb : x % 2 ^ (f.eb + f.mb) / 2 ^ f.mb < 2 ^ f.eb := by
    rw [Nat.div_lt_iff_lt_mul (Nat.two_pow_pos _), ← Nat.pow_add]
    exact Nat.mod_lt _ (Nat.two_pow_pos _)
  have hbinade : ((f.binade (x % 2 ^ (f.eb + f.mb)) : Nat) : Int) < 2 ^ f.eb := by
    have : f.binade (x % 2 ^ (f.eb + f.mb)) < 2 ^ f.eb := Nat.lt_of_le_of_lt (Nat.sub_le _ _) hb
    exact_mod_cast this
  rw [hm, he]
  exact ⟨significand_lt, by omega, by omega⟩

theorem laneFormat_bounds (hf : f ∈ [fp32, bf16, fp16]) (hx : f.decode x = .fin n m e) :
    m < 2 ^ 24 ∧ -149 ≤ e ∧ e < 123 := by
  simp only [List.mem_cons, List.not_mem_nil, or_false] at hf
  rcases hf with rfl | rfl | rfl
  · obtain ⟨hm, hl, hh⟩ := sound_fp32.decode_bounds hx
    simp [fp32, Fmt.least] at hm hl hh
    omega
  · obtain ⟨hm, hl, hh⟩ := sound_bf16.decode_bounds hx
    simp [bf16, Fmt.least] at hm hl hh
    omega
  · obtain ⟨hm, hl, hh⟩ := sound_fp16.decode_bounds hx
    simp [fp16, Fmt.least] at hm hl hh
    omega

theorem sound_of_mem (hf : f ∈ [fp32, bf16, fp16, e4m3, e5m2, e2m1]) : f.Sound := by
  simp only [List.mem_cons, List.not_mem_nil, or_false] at hf
  rcases hf with rfl | rfl | rfl | rfl | rfl | rfl
  · exact sound_fp32
  · exact sound_bf16
  · exact sound_fp16
  · exact sound_e4m3
  · exact sound_e5m2
  · exact sound_e2m1

theorem natAbs_scaled_lt {l : Int} {j k : Nat} (hm : m < 2 ^ j) (hk : j + (e - l).toNat ≤ k) :
    (scaled n m e l).natAbs < 2 ^ k := by
  rw [natAbs_scaled]
  calc m * 2 ^ (e - l).toNat < 2 ^ j * 2 ^ (e - l).toNat := Nat.mul_lt_mul_of_pos_right hm (Nat.two_pow_pos _)
    _ = 2 ^ (j + (e - l).toNat) := (Nat.pow_add _ _ _).symm
    _ ≤ 2 ^ k := Nat.pow_le_pow_right Nat.two_pos hk

/-- Sums of two values of moderate exponents are short enough to be rounded. -/
theorem natAbs_add_scaled_lt {n' : Bool} {m' : Nat} {e' l : Int} (hm : m < 2 ^ 48) (hm' : m' < 2 ^ 48)
    (he : e - l ≤ 1000) (he' : e' - l ≤ 1000) : (scaled n m e l + scaled n' m' e' l).natAbs < 2 ^ 1200 := by
  have h1 := natAbs_scaled_lt (n := n) (e := e) (l := l) (k := 1199) hm (by omega)
  have h2 := natAbs_scaled_lt (n := n') (e := e') (l := l) (k := 1199) hm' (by omega)
  have h3 := Int.natAbs_add_le (scaled n m e l) (scaled n' m' e' l)
  rw [Nat.pow_succ]
  omega

end

/-! ## Sums of products -/

/-- A finite value given by its parts. -/
def finOf (x : Bool × Nat × Int) : FVal := .fin x.1 x.2.1 x.2.2

/-- The exact product of two finite values, by its parts. -/
def productOf (p : (Bool × Nat × Int) × (Bool × Nat × Int)) : Bool × Nat × Int :=
  (p.1.1 != p.2.1, p.1.2.1 * p.2.2.1, p.1.2.2 + p.2.2.2)

section
variable {f : Fmt} {mode : Rnd} {low : Int}

theorem isNan_finOf (x : Bool × Nat × Int) : (finOf x).isNan = false := rfl

/-- A sum of exact finite values is exact and finite, in any unit that is fine enough. -/
theorem foldl_add_finOf (hlow : low ≤ 0) (xs : List (Bool × Nat × Int)) (x : Bool × Nat × Int)
    (hx : low ≤ x.2.2) (hxs : ∀ y ∈ xs, low ≤ y.2.2) :
    ∃ y : Bool × Nat × Int, (xs.map finOf).foldl (fun v p => (v.add mode p).1) (finOf x) = finOf y ∧ low ≤ y.2.2 ∧
      scaled y.1 y.2.1 y.2.2 low =
        (xs.map (fun z => scaled z.1 z.2.1 z.2.2 low)).sum + scaled x.1 x.2.1 x.2.2 low := by
  induction xs generalizing x with
  | nil => exact ⟨x, rfl, hx, (Int.zero_add _).symm⟩
  | cons z zs ih =>
    obtain ⟨hz, hzs⟩ := List.forall_mem_cons.1 hxs
    obtain ⟨s, hs, hls, hsum⟩ : ∃ s, ((finOf x).add mode (finOf z)).1 = finOf s ∧ low ≤ s.2.2 ∧
        scaled s.1 s.2.1 s.2.2 low = scaled x.1 x.2.1 x.2.2 low + scaled z.1 z.2.1 z.2.2 low := by
      have hle : low ≤ min x.2.2 z.2.2 := by omega
      rw [scaled_mul hle (min_le_left _ _), scaled_mul (e := z.2.2) hle (min_le_right _ _), ← add_mul]
      obtain ⟨v, hv⟩ : ∃ v, scaled x.1 x.2.1 x.2.2 (min x.2.2 z.2.2) + scaled z.1 z.2.1 z.2.2 (min x.2.2 z.2.2) = v :=
        ⟨_, rfl⟩
      rw [hv]
      have hadd : ((finOf x).add mode (finOf z)).1 = addFin mode x.1 x.2.1 x.2.2 z.1 z.2.1 z.2.2 := rfl
      rw [hadd, addFin_eq]
      dsimp only
      rw [hv]
      by_cases h0 : v = 0
      · rw [if_pos h0, h0, zero_mul]
        exact ⟨(_, 0, 0), rfl, hlow, scaled_zero⟩
      · rw [if_neg h0]
        refine ⟨(decide (v < 0), v.natAbs, min x.2.2 z.2.2), rfl, hle, ?_⟩
        rw [scaled_mul hle (le_refl _), scaled_self]
    obtain ⟨y, hy, hly, hysum⟩ := ih s hls hzs
    refine ⟨y, ?_, hly, ?_⟩
    · rw [List.map_cons, List.foldl_cons, hs, hy]
    · rw [hysum, hsum, List.map_cons, List.sum_cons]
      ring

/-- The exact sum of finite products and a finite addend rounds their sum. -/
theorem exactSum_fin (ps : List ((Bool × Nat × Int) × (Bool × Nat × Int))) (x : Bool × Nat × Int) :
    exactSum f mode (ps.map (fun p => (finOf p.1, finOf p.2))) (finOf x) =
      f.roundVal mode ((ps.map (fun p => finOf (productOf p))).foldl (fun v p => (v.add mode p).1) (finOf x)) 0 := by
  have hbad : ((ps.map (fun p => (finOf p.1, finOf p.2))).any (fun p => invalidProduct p.1 p.2)) = false := by
    rw [List.any_map, List.any_eq_false]
    exact fun p _ => Bool.false_ne_true
  have hmul : (ps.map (fun p => (finOf p.1, finOf p.2))).map (fun p => (p.1.mul p.2).1) =
      ps.map (fun p => finOf (productOf p)) := by
    rw [List.map_map]
    rfl
  have hall (g : FVal → Bool) (hg : ∀ y, g (finOf y) = false) :
      (ps.map (fun p => finOf (productOf p)) ++ [finOf x]).any g = false := by
    simp [hg]
  have hinf (n : Bool) := hall (fun v => v == .inf n) (fun y => by simp [finOf])
  unfold exactSum
  dsimp only
  simp only [hbad, hmul, hall FVal.isNan isNan_finOf, hinf]
  rfl

theorem exactSum_oneRounding (hf : f.Sound) (ps : List ((Bool × Nat × Int) × (Bool × Nat × Int)))
    (x : Bool × Nat × Int) {v : Int}
    (hv : (ps.map (fun p => scaled (productOf p).1 (productOf p).2.1 (productOf p).2.2 low)).sum +
      scaled x.1 x.2.1 x.2.2 low = v)
    (hlow : low ≤ 0) (hx : low ≤ x.2.2) (hps : ∀ p ∈ ps, low ≤ (productOf p).2.2) (h0 : v ≠ 0)
    (hlt : v.natAbs < 2 ^ 1200) :
    f.OneRounding mode (decide (v < 0)) v.natAbs 1 low 0
      (exactSum f mode (ps.map (fun p => (finOf p.1, finOf p.2))) (finOf x)) := by
  obtain ⟨⟨n, m, e⟩, hy, hly, hsum⟩ := foldl_add_finOf (mode := mode) hlow (ps.map productOf) x hx
    (List.forall_mem_map.2 hps)
  rw [List.map_map] at hy hsum
  have hsum' : scaled n m e low = v := hsum.trans hv
  have hm : m ≠ 0 := by
    rintro rfl
    exact h0 (hsum'.symm.trans scaled_zero)
  have hfold : exactSum f mode (ps.map (fun p => (finOf p.1, finOf p.2))) (finOf x) = f.round mode n m e false 0 := by
    rw [exactSum_fin]
    exact (congrArg (f.roundVal mode · 0) hy).trans (Fmt.roundVal_fin hm)
  rw [hfold, ← hsum', scaled_lt_zero hm, natAbs_scaled, Fmt.oneRounding_shift]
  rw [← hsum', natAbs_scaled] at hlt
  have hr := Fmt.round_whole (mode := mode) (neg := n) (e := e) (rnd := 0) hf hm
    (Nat.lt_of_le_of_lt (Nat.le_mul_of_pos_right m (Nat.two_pow_pos _)) hlt)
  convert hr using 1
  dsimp only at hly
  omega

end

/-! ## The tree of a sum -/

section
variable {f : Fmt} {mode : Rnd}

theorem sumPairs_append (k : Nat) (xs ys : List Nat) (hx : xs.length = 2 * k) :
    (sumPairs f mode (xs ++ ys)).1 = (sumPairs f mode xs).1 ++ (sumPairs f mode ys).1 ∧
      (sumPairs f mode xs).1.length = k := by
  induction k generalizing xs with
  | zero =>
    obtain rfl := List.length_eq_zero_iff.1 hx
    exact ⟨rfl, rfl⟩
  | succ k ih =>
    obtain _ | ⟨x, _ | ⟨y, zs⟩⟩ := xs
    · simp at hx
    · simp at hx
      omega
    · obtain ⟨h1, h2⟩ := ih zs (by simp at hx; omega)
      exact ⟨congrArg (_ :: ·) h1, congrArg (· + 1) h2⟩

/-- The last level of a tree adds the sums of its halves. -/
theorem sumTree_append (n : Nat) (xs ys : List Nat) (hx : xs.length = 2 ^ n) (hy : ys.length = 2 ^ n) :
    (sumTree f mode (n + 1) (xs ++ ys)).1 = (sumPairs f mode ((sumTree f mode n xs).1 ++ (sumTree f mode n ys).1)).1 := by
  induction n generalizing xs ys with
  | zero => rfl
  | succ n ih =>
    have hxs := sumPairs_append (f := f) (mode := mode) (2 ^ n) xs ys (by rw [hx, Nat.pow_succ, Nat.mul_comm])
    have hys := sumPairs_append (f := f) (mode := mode) (2 ^ n) ys [] (by rw [hy, Nat.pow_succ, Nat.mul_comm])
    calc (sumTree f mode (n + 1 + 1) (xs ++ ys)).1
        = (sumTree f mode (n + 1) ((sumPairs f mode xs).1 ++ (sumPairs f mode ys).1)).1 := by rw [← hxs.1]; rfl
      _ = _ := ih _ _ hxs.2 hys.2

end

/-! ## Conversions between floating formats -/

/-- The values of format `h` are values of format `f`. -/
def Fmt.Widens (f h : Fmt) : Prop :=
  h.mb ≤ f.mb ∧ f.least ≤ h.least ∧ h.magnitude h.largest * 2 ^ (h.least - f.least).toNat ≤ f.magnitude f.largest

theorem widens_of_not_narrows : ∀ f ∈ [fp32, bf16, fp16, e4m3, e5m2, e2m1], ∀ h ∈ [fp32, bf16, fp16, e4m3, e5m2, e2m1],
    narrows f h = false → f.Widens h := by
  unfold Fmt.Widens
  decide +kernel

section
variable {f h : Fmt} {mode : Rnd} {neg n : Bool} {m rnd x dt st : Nat} {e : Int}

/-- A value of the format rounds to itself, without flags. -/
theorem Fmt.round_exact (hf : f.Sound) (h0 : m ≠ 0) (h1200 : m < 2 ^ 1200) (hm : m < 2 ^ (f.mb + 1)) (he : f.least ≤ e)
    (hv : m * 2 ^ (e - f.least).toNat ≤ f.magnitude f.largest) :
    ∃ m' e', f.decode (f.round mode neg m e false rnd).1 = .fin neg m' e' ∧
      (f.round mode neg m e false rnd).2 = flagNone ∧ f.least ≤ e' ∧
      m' * 2 ^ (e' - f.least).toNat = m * 2 ^ (e - f.least).toNat := by
  have hlt := lt_two_pow_bitLen h1200
  have hle := two_pow_bitLen_le (k := 1200) h0
  have hlen := bitLen_le (k := 1200) h0 hm
  have hpos := bitLen_pos (k := 1199) h0
  obtain ⟨under, -, hround⟩ := round_eq_encode (sticky := false) (rnd := rnd) f mode neg m e
  rw [hround]
  obtain ⟨l, hl⟩ : ∃ l, bitLen 1200 m = l := ⟨_, rfl⟩
  rw [hl] at hlt hle hlen hpos ⊢
  obtain ⟨q, hq⟩ : ∃ q : Int, max (l + e - 1 - f.mb) f.least = q := ⟨_, rfl⟩
  rw [hq, roundStep_of_le (by omega)]
  dsimp only
  have hn : m * 2 ^ (e - q).toNat ≤ 2 ^ (f.mb + 1) := by
    calc m * 2 ^ (e - q).toNat ≤ 2 ^ l * 2 ^ (e - q).toNat := Nat.mul_le_mul_right _ (Nat.le_of_lt hlt)
      _ = 2 ^ (l + (e - q).toNat) := (Nat.pow_add _ _ _).symm
      _ ≤ 2 ^ (f.mb + 1) := Nat.pow_le_pow_right Nat.two_pos (by omega)
  have hnq : q = f.least ∨ 2 ^ f.mb ≤ m * 2 ^ (e - q).toNat := by
    refine or_iff_not_imp_left.2 fun hne => ?_
    calc 2 ^ f.mb ≤ 2 ^ (l - 1 + (e - q).toNat) := Nat.pow_le_pow_right Nat.two_pos (by omega)
      _ = 2 ^ (l - 1) * 2 ^ (e - q).toNat := Nat.pow_add _ _ _
      _ ≤ m * 2 ^ (e - q).toNat := Nat.mul_le_mul_right _ hle
  have hmag := magnitude_pattern hn hnq
  rw [Nat.mul_assoc, ← Nat.pow_add, show (e - q).toNat + (q - f.least).toNat = (e - f.least).toNat by omega] at hmag
  have hle' : f.pattern (m * 2 ^ (e - q).toNat) q ≤ f.largest := by
    rw [← f.magnitude_strictMono.le_iff_le, hmag]
    exact hv
  have henc := encode_eq (mode := mode) (neg := neg) (inexact := false) (under := under) hn hnq (by omega) hf
  dsimp only at henc
  rw [if_neg (Nat.not_lt.2 hle')] at henc
  obtain ⟨hbits, hflags⟩ := henc
  refine ⟨f.significand (f.pattern (m * 2 ^ (e - q).toNat) q), f.least + f.binade (f.pattern (m * 2 ^ (e - q).toNat) q),
    ?_, ?_, ?_, ?_⟩
  · rw [hbits]
    exact hf.decode hle'
  · simpa using hflags
  · omega
  · rw [← hmag, magnitude, add_sub_cancel_left, Int.toNat_natCast]

/-- The same for the value of a format whose values are all values of this one. -/
theorem Fmt.round_widens (hf : f.Sound) (hh : h.Sound) (hw : f.Widens h) (hx : h.decode x = .fin n m e) (h0 : m ≠ 0)
    (hmb : f.mb ≤ 23) :
    ∃ m' e', f.decode (f.round mode n m e false rnd).1 = .fin n m' e' ∧
      (f.round mode n m e false rnd).2 = flagNone ∧ f.least ≤ e' ∧
      m' * 2 ^ (e' - f.least).toNat = m * 2 ^ (e - f.least).toNat := by
  obtain ⟨hle, hleast, hlargest⟩ := hw
  obtain ⟨hy, -, hm, he⟩ := hh.decode_eq_fin hx
  have hlt : m < 2 ^ (f.mb + 1) := by
    rw [hm]
    exact Nat.lt_of_lt_of_le significand_lt (Nat.pow_le_pow_right Nat.two_pos (by omega))
  have h1200 : m < 2 ^ 1200 := Nat.lt_of_lt_of_le hlt (Nat.pow_le_pow_right Nat.two_pos (show f.mb + 1 ≤ 1200 by omega))
  refine round_exact hf h0 h1200 hlt (by omega) ?_
  calc m * 2 ^ (e - f.least).toNat
      = h.magnitude (x % 2 ^ (h.eb + h.mb)) * 2 ^ (h.least - f.least).toNat := by
        rw [magnitude, ← hm, Nat.mul_assoc, ← Nat.pow_add, he]
        congr 2
        omega
    _ ≤ h.magnitude h.largest * 2 ^ (h.least - f.least).toNat :=
        Nat.mul_le_mul_right _ (h.magnitude_strictMono.monotone hy)
    _ ≤ f.magnitude f.largest := hlargest

theorem cvtFmt_mem (hf : cvtFmt dt = some f) : f ∈ [fp32, bf16, fp16, e4m3, e5m2, e2m1] := by
  unfold cvtFmt at hf
  split at hf <;> cases hf <;> decide

theorem mb_le_of_mem (hf : f ∈ [fp32, bf16, fp16, e4m3, e5m2, e2m1]) : f.mb ≤ 23 := by
  revert f
  decide

/-- A conversion between floating formats rounds the value. -/
theorem convert_fin (hdt : cvtFmt dt = some f) (hst : cvtFmt st = some h) (hx : h.decode x = .fin n m e) :
    convert dt st mode x rnd = if narrows f h then f.roundVal mode (.fin n m e) rnd else f.roundVal .rne (.fin n m e) 0 := by
  unfold convert
  rw [hdt, hst]
  dsimp only
  rw [hx]
  rfl

theorem convert_results (hdt : cvtFmt dt = some f) (hst : cvtFmt st = some h) (hx : h.decode x = .fin n m e) :
    (m = 0 → convert dt st mode x rnd = (f.sign n, flagNone)) ∧
    (m ≠ 0 → narrows f h = true → f.OneRounding mode n m 1 e rnd (convert dt st mode x rnd)) ∧
    (m ≠ 0 → narrows f h = false → ∃ m' e', f.decode (convert dt st mode x rnd).1 = .fin n m' e' ∧
      (convert dt st mode x rnd).2 = 0#5 ∧ scaled false m' e' (min e e') = scaled false m e (min e e')) := by
  rw [convert_fin hdt hst hx]
  have hf := cvtFmt_mem hdt
  have hh := cvtFmt_mem hst
  refine ⟨fun h0 => ?_, fun h0 hn => ?_, fun h0 hn => ?_⟩
  · rw [h0, Fmt.roundVal_zero, Fmt.roundVal_zero, ite_self]
  · rw [if_pos hn, Fmt.roundVal_fin h0]
    have hlt := ((sound_of_mem hh).decode_bounds hx).1
    have hmb := mb_le_of_mem hh
    exact Fmt.round_whole (sound_of_mem hf) h0
      (Nat.lt_of_lt_of_le hlt (Nat.pow_le_pow_right Nat.two_pos (show h.mb + 1 ≤ 1200 by omega)))
  · rw [if_neg (by simp [hn]), Fmt.roundVal_fin h0]
    have hw := widens_of_not_narrows f hf h hh hn
    obtain ⟨m', e', hd, hfl, he', hv⟩ := Fmt.round_widens (mode := .rne) (rnd := 0) (sound_of_mem hf) (sound_of_mem hh)
      hw hx h0 (mb_le_of_mem hf)
    refine ⟨m', e', hd, hfl, ?_⟩
    have hle := ((sound_of_mem hh).decode_bounds hx).2.1
    have hle' := hw.2.1
    rw [← scaled_eq_iff (l := f.least) (by omega) (min_le_right _ _) (min_le_left _ _)]
    exact scaled_congr hv

end
/-! ## The special functions where R164 lists the result -/

section
variable {x code : Nat} {n : Bool} {m : Nat} {e : Int} {r : Nat × BitVec 5}

theorem specialLane_fp32 : specialLane 0#3 code x = specialFp32 code x := if_pos rfl

theorem specialLane_of_listed (h : specialListed code x = some r) : specialLane 0#3 code x = r := by
  rw [specialLane_fp32, specialFp32, h]

theorem specialLane_of_free (h : specialListed code x = none) (hd : fp32.decode x = .fin n m e) :
    specialLane 0#3 code x = specialFree code x n m e := by
  rw [specialLane_fp32, specialFp32, h, hd]

theorem specialLane_nan (hd : fp32.decode x = .nan) : specialLane 0#3 code x = (fp32.nan, flagNone) := by
  apply specialLane_of_listed
  rw [specialListed, hd]

theorem specialLane_inf (hd : fp32.decode x = .inf n) :
    specialLane 0#3 0 x = (fp32.sign n, flagNone) ∧
      specialLane 0#3 1 x = (if n then (fp32.nan, flagNV ||| flagNX) else (0, flagNone)) ∧
      specialLane 0#3 2 x = (if n then 0 else fp32.infinity, flagNone) ∧
      specialLane 0#3 3 x = (if n then (fp32.nan, flagNV ||| flagNX) else (fp32.infinity, flagNone)) ∧
      specialLane 0#3 4 x = (fp32.sign n + 0x3F800000, flagNone) ∧
      specialLane 0#3 5 x = (fp32.nan, flagNV ||| flagNX) := by
  refine ⟨?_, ?_, ?_, ?_, ?_, ?_⟩ <;>
  · apply specialLane_of_listed
    rw [specialListed, hd]
    rfl

theorem isWhole_zero : isWhole 0 e = true := by simp [isWhole]

theorem isWhole_eq_true : isWhole m e = true ↔ 0 ≤ e ∨ 2 ^ (-e).toNat ∣ m := by
  simp [isWhole, Nat.dvd_iff_mod_eq_zero]

theorem specialLane_zero (hd : fp32.decode x = .fin n 0 e) :
    specialLane 0#3 0 x = (fp32.sign n + fp32.infinity, flagDZ ||| flagNX) ∧
      specialLane 0#3 1 x = (fp32.sign n + fp32.infinity, flagDZ ||| flagNX) ∧
      specialLane 0#3 2 x = (0x3F800000, flagNX) ∧ specialLane 0#3 3 x = (0xFF800000, flagDZ ||| flagNX) ∧
      specialLane 0#3 4 x = (fp32.sign n, flagNone) ∧ specialLane 0#3 5 x = (0, flagNone) := by
  refine ⟨?_, ?_, ?_, ?_, ?_, ?_⟩ <;> apply specialLane_of_listed <;> rw [specialListed, hd] <;> dsimp only
  · rfl
  · rfl
  · rw [scaled_zero, isWhole_zero]
    rfl
  · rfl
  · rfl
  · rw [isWhole_zero]
    cases n <;> rfl

theorem specialLane_negative (hd : fp32.decode x = .fin true m e) (h0 : m ≠ 0) :
    specialLane 0#3 1 x = (fp32.nan, flagNV ||| flagNX) ∧ specialLane 0#3 3 x = (fp32.nan, flagNV ||| flagNX) := by
  refine ⟨?_, ?_⟩ <;>
  · apply specialLane_of_listed
    rw [specialListed, hd]
    exact (if_neg h0).trans (if_pos rfl)

theorem specialLane_sin_whole (hd : fp32.decode x = .fin n m e) (h0 : m ≠ 0) (h : 0 ≤ e ∨ 2 ^ (-e).toNat ∣ m) :
    specialLane 0#3 5 x = (fp32.sign n, flagNone) := by
  apply specialLane_of_listed
  rw [specialListed, hd]
  dsimp only
  refine (if_pos (isWhole_eq_true.2 h)).trans ?_
  rw [bne_iff_ne.2 h0, Bool.and_true]

/-- At a half the sine of π times it is 1 or −1. -/
theorem specialLane_sin_half {h : Nat} (hd : fp32.decode x = .fin n m e) (he : e < 0) (hm : 2 * m = h * 2 ^ (-e).toNat)
    (hodd : h % 2 = 1) :
    specialLane 0#3 5 x =
      (if ((if n then -(h : Int) else h) - 1) / 2 % 2 = 0 then 0x3F800000 else 0xBF800000, flagNone) := by
  have hpos := Nat.two_pow_pos (-e).toNat
  have hnot : isWhole m e = false := by
    rw [Bool.eq_false_iff, Ne, isWhole_eq_true]
    rintro (hle | ⟨c, hc⟩)
    · omega
    · rw [hc, Nat.mul_left_comm, Nat.mul_comm h, Nat.mul_right_inj hpos.ne'] at hm
      omega
  have hhalf : isWhole (2 * m) e = true := isWhole_eq_true.2 (.inr ⟨h, by rw [hm, Nat.mul_comm]⟩)
  apply specialLane_of_listed
  rw [specialListed, hd]
  dsimp only
  rw [hnot, hhalf, hm, Nat.mul_div_cancel _ hpos, if_neg Bool.false_ne_true, if_pos rfl]
  by_cases hs : ((if n then -(h : Int) else h) - 1) / 2 % 2 = 0
  · rw [hs]
    rfl
  · rw [if_neg hs, bne_iff_ne.2 hs]
    rfl

/-- The logarithm of a power of two is exact. -/
theorem specialLane_log2_power {k : Nat} (hd : fp32.decode x = .fin false m e) (hm : m = 2 ^ k) :
    ∃ n' m' e', fp32.decode (specialLane 0#3 3 x).1 = .fin n' m' e' ∧ (specialLane 0#3 3 x).2 = 0#5 ∧
      scaled n' m' e' (min 0 e') = scaled false 1 0 (min 0 e') * (k + e) := by
  obtain ⟨hlt, hlo, hhi⟩ := laneFormat_bounds (by decide) hd
  have h0 : m ≠ 0 := by
    rw [hm]
    exact (Nat.two_pow_pos k).ne'
  have hk : k < 24 := by
    rw [hm] at hlt
    exact (Nat.pow_lt_pow_iff_right (by decide)).1 hlt
  have hlen : bitLen 1200 m = k + 1 := by
    refine Nat.le_antisymm (bitLen_le h0 ?_) (le_bitLen (by omega) hm.ge)
    rw [hm]
    exact Nat.pow_lt_pow_right (by decide) (Nat.lt_succ_self k)
  have hlog : floorLog2 m e = k + e := by
    rw [floorLog2, hlen]
    omega
  have hr : specialLane 0#3 3 x = ((fp32.roundVal .rne (FVal.ofInt (k + e)) 0).1, flagNone) := by
    apply specialLane_of_listed
    rw [specialListed, hd]
    dsimp only
    rw [hlog, hlen, Nat.add_sub_cancel]
    exact (if_neg h0).trans ((if_neg Bool.false_ne_true).trans (if_pos hm))
  rw [hr]
  obtain ⟨v, hv⟩ : ∃ v : Int, k + e = v := ⟨_, rfl⟩
  rw [hv, FVal.ofInt]
  have hone (c : Int) (hc : c ≤ 0) : scaled false 1 0 c * v = scaled (decide (v < 0)) v.natAbs 0 c := by
    rw [scaled_mul hc (le_refl 0), scaled_mul (n := decide _) hc (le_refl 0), scaled_self,
      show scaled false 1 0 0 = 1 by decide, one_mul, mul_comm]
  by_cases hv0 : v = 0
  · refine ⟨false, 0, -149, ?_, rfl, ?_⟩
    · rw [hv0]
      decide +kernel
    · rw [hv0, mul_zero]
      exact scaled_zero
  · have hvlt : v.natAbs < 2 ^ 24 := by omega
    have hfit : v.natAbs * 2 ^ (0 - fp32.least).toNat ≤ fp32.magnitude fp32.largest :=
      Nat.le_trans (Nat.mul_le_mul_right _ (Nat.le_of_lt hvlt)) (by decide +kernel)
    rw [Fmt.roundVal_fin (Int.natAbs_ne_zero.2 hv0)]
    obtain ⟨m', e', hdec, -, hle, hval⟩ := Fmt.round_exact (f := fp32) (mode := .rne) (neg := decide (v < 0)) (rnd := 0)
      (e := 0) sound_fp32 (Int.natAbs_ne_zero.2 hv0) (by omega) hvlt (by decide) hfit
    refine ⟨_, m', e', hdec, rfl, ?_⟩
    rw [hone _ (min_le_left _ _), ← scaled_eq_iff (l := fp32.least) (le_min (by decide) hle) (min_le_right _ _) (min_le_left _ _)]
    exact scaled_congr hval

end
/-! ## The special functions elsewhere -/

section
variable {f : Fmt} {mode : Rnd} {neg : Bool} {m rnd code x : Nat} {e v : Int}

theorem Fmt.encode_overflow {n : Nat} {q : Int} {inexact under : Bool} (hn : 2 ^ f.mb ≤ n)
    (hbig : f.largest < (q + f.mb + f.bias).toNat * 2 ^ f.mb) :
    f.encode mode neg inexact under n q = (f.overflow neg mode, flagOF ||| flagNX) := by
  have hup : (q + f.mb + f.bias).toNat ≤ (q + 1 + f.mb + f.bias).toNat := by omega
  have hup := Nat.mul_le_mul_right (2 ^ f.mb) hup
  unfold encode
  by_cases hc : n = 2 ^ (f.mb + 1)
  · rw [if_pos hc]
    dsimp only
    rw [if_neg (Nat.lt_irrefl _), if_pos (by omega)]
  · rw [if_neg hc]
    dsimp only
    rw [if_neg (by omega), if_pos (by omega)]

/-- A magnitude far above the format overflows, however long it is. -/
theorem Fmt.round_overflow {l : Nat} (hl : l < 1200) (hm : 2 ^ l ≤ m)
    (hbig : f.largest < (l + e + f.bias).toNat * 2 ^ f.mb) :
    f.round mode neg m e false rnd = (f.overflow neg mode, flagOF ||| flagNX) := by
  have hlen := le_bitLen hl hm
  have hm0 : m ≠ 0 := by
    have := Nat.two_pow_pos l
    omega
  have hle := two_pow_bitLen_le (k := 1200) hm0
  obtain ⟨under, -, hround⟩ := round_eq_encode (sticky := false) (rnd := rnd) f mode neg m e
  rw [hround]
  obtain ⟨b, hb⟩ : ∃ b, bitLen 1200 m = b := ⟨_, rfl⟩
  rw [hb] at hlen hle ⊢
  have hnormal : f.least < b + e - 1 - f.mb + 1 := by
    by_contra hnot
    unfold least at hnot
    rw [show (l + e + f.bias).toNat = 0 by omega] at hbig
    omega
  obtain ⟨q, hq⟩ : ∃ q : Int, b + e - 1 - f.mb = q := ⟨_, rfl⟩
  rw [hq] at hnormal ⊢
  rw [max_eq_left (by omega)]
  refine encode_overflow ?_ ?_
  · have hr := (roundStep_roundsRatio (mode := mode) (neg := neg) (sticky := false) (p := m) (rnd := rnd) (e := e) (q := q)
      Nat.one_pos (by simp [Nat.mod_one]) (fun _ => Nat.mod_one m) (fun _ => Nat.mod_one m)).1
    rw [Nat.div_one, Nat.one_mul] at hr
    have hlow : 2 ^ f.mb ≤ m * 2 ^ (e - q).toNat / 2 ^ (q - e).toNat := by
      rw [Nat.le_div_iff_mul_le (Nat.two_pow_pos _), ← Nat.pow_add]
      calc 2 ^ (f.mb + (q - e).toNat) ≤ 2 ^ (b - 1 + (e - q).toNat) := Nat.pow_le_pow_right Nat.two_pos (by omega)
        _ = 2 ^ (b - 1) * 2 ^ (e - q).toNat := Nat.pow_add _ _ _
        _ ≤ m * 2 ^ (e - q).toNat := Nat.mul_le_mul_right _ hle
    rcases roundsRatio_bounds hr with h | h <;> omega
  · exact Nat.lt_of_lt_of_le hbig (Nat.mul_le_mul_right _ (by omega))

theorem natAbs_scaled_sub {n : Bool} {m' : Nat} {e' l : Int} {b : Nat}
    (h : m * 2 ^ (e - l).toNat ≤ m' * 2 ^ (e' - l).toNat + b) (h' : m' * 2 ^ (e' - l).toNat ≤ m * 2 ^ (e - l).toNat + b) :
    (scaled n m e l - scaled n m' e' l).natAbs ≤ b := by
  have hz : (m : Int) * 2 ^ (e - l).toNat ≤ m' * 2 ^ (e' - l).toNat + b := by exact_mod_cast h
  have hz' : (m' : Int) * 2 ^ (e' - l).toNat ≤ m * 2 ^ (e - l).toNat + b := by exact_mod_cast h'
  unfold scaled
  cases n
  · rw [if_neg Bool.false_ne_true, if_neg Bool.false_ne_true]
    omega
  · rw [if_pos rfl, if_pos rfl]
    omega

theorem specialBound_of_le {y : Int} (h : (y - v).natAbs ≤ fixUlp v.natAbs) : specialBound code v y = true := by
  have hunits : (y - v).natAbs ≤ (if 4 ≤ code then 2 else 1) * fixUlp v.natAbs := by split <;> omega
  unfold specialBound
  dsimp only
  rw [decide_eq_true hunits, Bool.true_or, Bool.true_or]

/-- The step of the binade of a value is at most its unit in the last place. -/
theorem pow_le_fixUlp {a : Nat} {q : Int} (h1200 : a < 2 ^ 1200)
    (hq : q = fp32.least ∨ (fp32.least < q ∧ 2 ^ fp32.mb * 2 ^ (q + 320).toNat ≤ a)) : 2 ^ (q + 320).toNat ≤ fixUlp a := by
  have hlow : fp32.least = -149 := by decide
  unfold fixUlp
  refine Nat.pow_le_pow_right Nat.two_pos ?_
  rcases hq with hq | ⟨hlt, hle⟩
  · split <;> omega
  · rw [← Nat.pow_add] at hle
    have hl : fp32.mb + (q + 320).toNat < 1200 := (Nat.pow_lt_pow_iff_right (Nat.lt_succ_self 1)).1 (Nat.lt_of_le_of_lt hle h1200)
    have := le_bitLen hl hle
    have hmb : fp32.mb = 23 := rfl
    split <;> omega

/-- Rounding leaves the value within one unit in the last place of it, where it does not overflow. -/
theorem specialBound_near (hv : (fp32.roundVal .rne (.fin (decide (v < 0)) v.natAbs (-320)) 0).2 &&& flagOF = 0#5) :
    ∃ n m e, fp32.decode (fp32.roundVal .rne (.fin (decide (v < 0)) v.natAbs (-320)) 0).1 = .fin n m e ∧
      specialBound code v (scaled n m e (-320)) = true := by
  have hover : (flagOF ||| flagNX) &&& flagOF ≠ 0#5 := by decide
  by_cases h0 : v = 0
  · refine ⟨false, 0, -149, ?_, specialBound_of_le ?_⟩
    · rw [h0]
      decide +kernel
    · rw [scaled_zero, h0]
      exact Nat.zero_le _
  have ha0 := Int.natAbs_ne_zero.2 h0
  rw [Fmt.roundVal_fin ha0] at hv ⊢
  by_cases h1200 : v.natAbs < 2 ^ 1200
  · obtain ⟨q, n, -, hq, hn, a, b, -, hr⟩ :=
      Fmt.round_whole (mode := .rne) (neg := decide (v < 0)) (e := -320) (rnd := 0) sound_fp32 ha0 h1200
    have hlow : -149 ≤ q := by
      have hl : fp32.least = -149 := by decide
      rcases hq with hq | ⟨hq, -⟩ <;> unfold Fmt.least at hl <;> omega
    have hexp : (-320 - q).toNat = 0 := by omega
    rw [roundsTo_iff, hexp, Int.sub_neg, Nat.pow_zero, Nat.mul_one, Nat.one_mul] at hn
    rw [hexp, Int.sub_neg, Nat.pow_zero, Nat.mul_one, Nat.one_mul] at hq
    dsimp only at hr
    split at hr
    · rw [hr] at hv
      exact absurd hv hover
    · obtain ⟨-, -, m, y, hd, hqy, hm⟩ := hr
      refine ⟨_, m, y, hd, specialBound_of_le (Nat.le_trans ?_ (pow_le_fixUlp h1200 hq))⟩
      have hval : m * 2 ^ (y - -320).toNat = n * 2 ^ (q + 320).toNat := by
        rw [← hm, Nat.mul_assoc, ← Nat.pow_add]
        congr 2
        omega
      obtain ⟨hup, hdown⟩ := roundsRatio_near (Nat.two_pow_pos _) hn
      have hone : v.natAbs * 2 ^ ((-320 : Int) - -320).toNat = v.natAbs := Nat.mul_one _
      rw [← hval] at hup hdown
      have hnear := natAbs_scaled_sub (n := decide (v < 0)) (m := m) (e := y) (m' := v.natAbs) (e' := -320) (l := -320)
        (by rwa [hone]) (by rwa [hone])
      rwa [scaled_self] at hnear
  · rw [Fmt.round_overflow (l := 1199) (by decide) (by omega) (by decide +kernel)] at hv
    exact absurd hv hover

theorem flagNX_or_flagUF (c : Prop) [Decidable c] : (flagNX ||| if c then flagUF else flagNone) &&& flagNX ≠ 0#5 := by
  split <;> decide

theorem specialFree_bound {n : Bool} (hv : (fp32.roundVal .rne
      (.fin (decide (specialValue code n m e < 0)) (specialValue code n m e).natAbs (-320)) 0).2 &&& flagOF = 0#5) :
    (specialFree code x n m e).2 &&& flagNX ≠ 0#5 ∧ ∃ n' m' e', fp32.decode (specialFree code x n m e).1 = .fin n' m' e' ∧
      specialBound code (specialValue code n m e) (scaled n' m' e' (-320)) = true := by
  obtain ⟨v, hval⟩ : ∃ v, specialValue code n m e = v := ⟨_, rfl⟩
  rw [hval] at hv ⊢
  have hnear := specialBound_near (code := code) hv
  unfold specialFree
  rw [hval]
  dsimp only
  rw [hv]
  rw [if_neg (by decide)]
  dsimp only
  refine ⟨flagNX_or_flagUF _, ?_⟩
  · split
    · rename_i n' m' e' hd
      split
      · rename_i hb
        exact ⟨n', m', e', hd, hb⟩
      · exact hnear
    · exact hnear

end
/-! ## The statement -/

section
variable {f : Fmt} {mode : Rnd} {x y z : Nat} {n1 n2 n3 np na : Bool} {m1 m2 m3 : Nat} {e1 e2 e3 : Int}

theorem sound_of_lane (hf : f ∈ [fp32, bf16, fp16]) : f.Sound :=
  sound_of_mem (by revert f; decide)

theorem mb_le_of_lane (hf : f ∈ [fp32, bf16, fp16]) : f.mb ≤ 23 := by
  revert f
  decide

/-- The finite sums, products, quotients and fused sums of a lane format are the exact results rounded once. -/
theorem finite_results (hf : f ∈ [fp32, bf16, fp16]) (hmode : mode ≠ .sr) (hx : f.decode x = .fin n1 m1 e1)
    (hy : f.decode y = .fin n2 m2 e2) (hz : f.decode z = .fin n3 m3 e3) :
    let a := f.decode x
    let b := f.decode y
    let c := f.decode z
    (let e := min e1 e2
     let v := scaled n1 m1 e1 e + scaled n2 m2 e2 e
     (v ≠ 0 → f.OneRounding mode (decide (v < 0)) v.natAbs 1 e 0 (f.add mode a b)) ∧
     (v = 0 → f.add mode a b =
       (f.sign (if m1 = 0 ∧ m2 = 0 ∧ n1 = n2 then n1 else decide (mode = .rdn)), flagNone))) ∧
    (m1 * m2 ≠ 0 → f.OneRounding mode (n1 != n2) (m1 * m2) 1 (e1 + e2) 0 (f.mul mode a b)) ∧
    (m1 * m2 = 0 → f.mul mode a b = (f.sign (n1 != n2), flagNone)) ∧
    (m1 ≠ 0 → m2 ≠ 0 → f.OneRounding mode (n1 != n2) m1 m2 (e1 - e2) 0 (f.div mode a b)) ∧
    (m1 ≠ 0 → m2 = 0 → f.div mode a b = (f.sign (n1 != n2) + f.infinity, flagDZ)) ∧
    (m1 = 0 → m2 = 0 → f.div mode a b = (f.nan, flagNV)) ∧
    (let e := min (e1 + e2) e3
     let v := scaled ((n1 != n2) ^^ np) (m1 * m2) (e1 + e2) e + scaled (n3 ^^ na) m3 e3 e
     (v ≠ 0 → f.OneRounding mode (decide (v < 0)) v.natAbs 1 e 0 (f.fma mode np na a b c)) ∧
     (v = 0 → f.fma mode np na a b c =
       (f.sign (if m1 * m2 = 0 ∧ m3 = 0 ∧ ((n1 != n2) ^^ np) = (n3 ^^ na) then n3 ^^ na else decide (mode = .rdn)),
         flagNone))) := by
  have hs := sound_of_lane hf
  obtain ⟨hm1, hl1, hh1⟩ := laneFormat_bounds hf hx
  obtain ⟨hm2, hl2, hh2⟩ := laneFormat_bounds hf hy
  obtain ⟨hm3, hl3, hh3⟩ := laneFormat_bounds hf hz
  have hprod : m1 * m2 < 2 ^ 48 := by
    calc m1 * m2 < 2 ^ 24 * 2 ^ 24 := Nat.mul_lt_mul'' hm1 hm2
      _ = 2 ^ 48 := rfl
  rw [hx, hy, hz]
  refine ⟨Fmt.add_oneRounding hs rfl (natAbs_add_scaled_lt (by omega) (by omega) (by omega) (by omega)),
    fun h0 => ?_, fun h0 => ?_, fun h1 h2 => Fmt.div_oneRounding hs (mb_le_of_lane hf) hmode h1 h2 hm1 hm2,
    fun h1 h2 => ?_, fun h1 h2 => ?_, ?_⟩
  · rw [Fmt.mul_fin, Fmt.roundVal_fin h0]
    exact Fmt.round_whole hs h0 (by omega)
  · rw [Fmt.mul_fin, h0, Fmt.roundVal_zero]
  · exact (if_pos h2).trans (if_neg h1)
  · exact (if_pos h2).trans (if_pos h1)
  · rw [Fmt.fma_fin]
    obtain ⟨hne, heq⟩ := Fmt.add_oneRounding (mode := mode) hs rfl (natAbs_add_scaled_lt (n := (n1 != n2) ^^ np)
      (n' := n3 ^^ na) (m' := m3) (l := min (e1 + e2) e3) hprod (by omega) (by omega) (by omega))
    refine ⟨hne, fun h0 => ?_⟩
    rw [heq h0]
    congr 2
    split
    · rename_i h
      exact h.2.2
    · rfl

end

section
variable {x : Nat}

/-- The special functions of a finite FP32 lane. -/
theorem special_fin {n : Bool} {m : Nat} {e : Int} (hd : fp32.decode x = .fin n m e) :
    let r (code : Nat) := specialLane 0#3 code x
    (m = 0 → r 0 = (fp32.sign n + fp32.infinity, flagDZ ||| flagNX) ∧
        r 1 = (fp32.sign n + fp32.infinity, flagDZ ||| flagNX) ∧ r 2 = (0x3F800000, flagNX) ∧
        r 3 = (0xFF800000, flagDZ ||| flagNX) ∧ r 4 = (fp32.sign n, flagNone) ∧ r 5 = (0, flagNone)) ∧
      (m ≠ 0 → n = true → r 1 = (fp32.nan, flagNV ||| flagNX) ∧ r 3 = (fp32.nan, flagNV ||| flagNX)) ∧
      (n = false → ∀ k : Nat, m = 2 ^ k → ∃ n' m' e', fp32.decode (r 3).1 = .fin n' m' e' ∧ (r 3).2 = 0#5 ∧
        scaled n' m' e' (min 0 e') = scaled false 1 0 (min 0 e') * (k + e)) ∧
      (∀ h : Nat, m ≠ 0 → 0 ≤ e ∨ m = h * 2 ^ (-e).toNat → r 5 = (fp32.sign n, flagNone)) ∧
      (∀ h : Nat, e < 0 → 2 * m = h * 2 ^ (-e).toNat → h % 2 = 1 →
        r 5 = (if ((if n then -(h : Int) else h) - 1) / 2 % 2 = 0 then 0x3F800000 else 0xBF800000, flagNone)) ∧
      ∀ code < 6, specialListed code x = none →
        let v := specialValue code n m e
        (fp32.roundVal .rne (.fin (decide (v < 0)) v.natAbs (-320)) 0).2 &&& flagOF = 0#5 →
        (r code).2 &&& flagNX ≠ 0#5 ∧ ∃ n' m' e', fp32.decode (r code).1 = .fin n' m' e' ∧
          specialBound code v (scaled n' m' e' (-320)) = true := by
  refine ⟨?_, ?_, ?_, fun h h0 hw => ?_, fun h => specialLane_sin_half hd, fun code _ hnone => ?_⟩
  · rintro rfl
    exact specialLane_zero hd
  · rintro h0 rfl
    exact specialLane_negative hd h0
  · rintro rfl k hk
    exact specialLane_log2_power hd hk
  · exact specialLane_sin_whole hd h0 (hw.imp_right fun hm => ⟨h, hm.trans (Nat.mul_comm _ _)⟩)
  · dsimp only
    rw [specialLane_of_free hnone hd]
    exact specialFree_bound

end

/-- Settles O60: a rounding of an exact value is made in one step and encoded as it is (`Fmt.round_oneRounding`), and every
operation of the statement rounds its exact result. -/
theorem roundedResults : Obligations.RoundedResults := by
  unfold Obligations.RoundedResults
  refine ⟨fun f hf mode neg m e rnd h0 h1200 => Fmt.round_whole (sound_of_mem hf) h0 h1200,
    fun f hf mode x y z n1 n2 n3 m1 m2 m3 e1 e2 e3 np na hmode hx hy hz => finite_results hf hmode hx hy hz,
    ?_, ?_, fun dt st f h mode x rnd n m e => convert_results,
    fun x => ⟨fun hd code _ => specialLane_nan hd, fun n => specialLane_inf, fun n m e => special_fin⟩⟩
  · rintro f mode ps n m e low rfl
    intro fin v hlow he hps h0 hlt
    exact exactSum_oneRounding sound_fp32 ps (n, m, e) rfl hlow he hps h0 hlt
  · intro f mode n a b xs ys hx hy ha hb
    rw [sumTree_append n xs ys hx hy, ha, hb]
    rfl


end Sys2Proof.Machine
end

section
/-! THEOREM. VectorFloatResults (O25): the floating lane operations (R53, R160 to R164, R177). -/

namespace Sys2Proof.Machine

/-! ## Operands that are not finite -/

section
variable {f : Fmt} {mode : Rnd} {n n' o np na : Bool} {a b c : FVal} {m m' : Nat} {e e' : Int}

theorem FVal.add_nan : a.add mode .nan = (.nan, flagNone) := by cases a <;> rfl

theorem Fmt.add_nan : f.add mode a .nan = (f.nan, flagNone) := by
  unfold add
  rw [FVal.add_nan]
  rfl

theorem FVal.mul_nan (h : a = .nan ∨ b = .nan) : (a.mul b).1 = .nan ∧ invalidProduct a b = false := by
  rcases h with rfl | rfl
  · cases b <;> exact ⟨rfl, rfl⟩
  · cases a <;> exact ⟨rfl, rfl⟩

theorem Fmt.fma_nan (h : a = .nan ∨ b = .nan) : f.fma mode np na a b c = (f.nan, flagNone) := by
  obtain ⟨hp, hv⟩ := FVal.mul_nan h
  unfold fma
  rw [hp, hv]
  cases np <;> rfl

theorem Fmt.nan_operand (h : a = .nan ∨ b = .nan) :
    f.add mode a b = (f.nan, flagNone) ∧ f.mul mode a b = (f.nan, flagNone) ∧ f.div mode a b = (f.nan, flagNone) ∧
      f.fma mode np na a b c = (f.nan, flagNone) := by
  refine ⟨?_, ?_, ?_, fma_nan h⟩ <;> rcases h with rfl | rfl
  · rfl
  · exact add_nan
  · rfl
  · cases a <;> rfl
  · rfl
  · cases a <;> rfl

theorem Fmt.add_inf_inf : f.add mode (.inf n) (.inf n') =
    if n = n' then (f.sign n + f.infinity, flagNone) else (f.nan, flagNV) := by
  cases n <;> cases n' <;> rfl

theorem Fmt.mul_inf_fin : f.mul mode (.inf n) (.fin n' m' e') =
    if m' = 0 then (f.nan, flagNV) else (f.sign (n != n') + f.infinity, flagNone) := by
  unfold mul
  by_cases h : m' = 0
  · rw [if_pos h, show FVal.mul (.inf n) (.fin n' m' e') = (.nan, flagNV) from if_pos h]
    rfl
  · rw [if_neg h, show FVal.mul (.inf n) (.fin n' m' e') = (.inf (n != n'), flagNone) from if_neg h]
    rfl

theorem Fmt.mul_fin_inf : f.mul mode (.fin n m e) (.inf n') =
    if m = 0 then (f.nan, flagNV) else (f.sign (n != n') + f.infinity, flagNone) := by
  unfold mul
  by_cases h : m = 0
  · rw [if_pos h, show FVal.mul (.fin n m e) (.inf n') = (.nan, flagNV) from if_pos h]
    rfl
  · rw [if_neg h, show FVal.mul (.fin n m e) (.inf n') = (.inf (n != n'), flagNone) from if_neg h]
    rfl

/-- The sign of an addend or a product in a fused form. -/
theorem FVal.neg_inf_if : (if np then FVal.neg (.inf n) else .inf n) = .inf (n ^^ np) := by
  cases np <;> simp [FVal.neg]

/-- A fused form with an infinite product. -/
theorem Fmt.fma_inf {z : Bool} (hz : ((n != n') ^^ np) = z)
    (h : (a = .inf n ∧ b = .inf n') ∨ (a = .inf n ∧ b = .fin n' m' e' ∧ m' ≠ 0) ∨
      (a = .fin n m e ∧ b = .inf n' ∧ m ≠ 0)) :
    f.fma mode np na a b c = f.add mode (.inf z) (if na then c.neg else c) := by
  have hp : (a.mul b).1 = .inf (n != n') ∧ invalidProduct a b = false := by
    rcases h with ⟨rfl, rfl⟩ | ⟨rfl, rfl, h0⟩ | ⟨rfl, rfl, h0⟩
    · exact ⟨rfl, rfl⟩
    · exact ⟨by rw [FVal.mul, if_neg h0], by simp [invalidProduct, h0]⟩
    · exact ⟨by rw [FVal.mul, if_neg h0], by simp [invalidProduct, h0]⟩
  unfold fma
  dsimp only
  rw [hp.1, hp.2, FVal.neg_inf_if, hz]
  rfl

theorem Fmt.fma_fin_fin : f.fma mode np na (.fin n m e) (.fin n' m' e') c =
    f.add mode (.fin ((n != n') ^^ np) (m * m') (e + e')) (if na then c.neg else c) := by
  cases np <;> simp [fma, FVal.mul, FVal.neg, invalidProduct]

end

/-! ## The integer square root -/

theorem isqrtFrom_spec (n k r : Nat) (hr : r * r ≤ n) (hn : n < (r + 2 ^ k) * (r + 2 ^ k)) :
    isqrtFrom n k r * isqrtFrom n k r ≤ n ∧ n < (isqrtFrom n k r + 1) * (isqrtFrom n k r + 1) := by
  induction k generalizing r with
  | zero => exact ⟨hr, hn⟩
  | succ k ih =>
    rw [isqrtFrom]
    split
    · rename_i h
      refine ih _ h ?_
      rwa [Nat.add_assoc, ← Nat.two_mul, ← Nat.pow_succ']
    · rename_i h
      exact ih _ hr (Nat.lt_of_not_le h)

/-! ## The rounding of a root -/

/-- The whole number of steps 2 × h whose length is `t` is the rounding of the root of `m`. -/
def rootsTo (mode : Rnd) (m h t : Int) : Prop :=
  match mode with
  | .rtz | .rdn => t * t ≤ m ∧ m < (t + 2 * h) * (t + 2 * h)
  | .rup => (t - 2 * h) * (t - 2 * h) < m ∧ m ≤ t * t
  | .rne | .sr => (t - h) * (t - h) < m ∧ m < (t + h) * (t + h)

section
variable {m r a : Int} (h0 : 0 ≤ r) (hr : r * r ≤ m) (hr' : m < (r + 1) * (r + 1))

include hr in
theorem sq_le_of_le_root (ha : 0 ≤ a) (h : a ≤ r) : a * a ≤ m := le_trans (mul_self_le_mul_self ha h) hr

include hr in
theorem sq_lt_of_lt_root (ha : 0 ≤ a) (h : a < r ∨ (a ≤ r ∧ r * r ≠ m)) : a * a < m := by
  rcases h with h | ⟨h, hne⟩
  · exact lt_of_lt_of_le (mul_self_lt_mul_self ha h) hr
  · exact lt_of_le_of_lt (mul_self_le_mul_self ha h) (lt_of_le_of_ne hr hne)

include h0 hr' in
theorem lt_sq_of_lt (h : r < a) : m < a * a :=
  lt_of_lt_of_le hr' (mul_self_le_mul_self (by omega) (by omega))

end

section
variable {mode : Rnd} {m r h : Nat} {sticky : Bool}

/-- Rounding the whole root r = 2p + rem in steps of 2h, with `sticky` saying whether the root is not whole, rounds the root
itself, where it is not halfway between two steps. -/
theorem roundsUp_rootsTo {lo rem p : Nat} (hm : mode ≠ .sr) (hr : r * r ≤ m) (hr' : m < (r + 1) * (r + 1))
    (hs : sticky = true ↔ r * r ≠ m) (hh : 0 < h) (hdiv : 2 * p + rem = r) (hrem : rem < 2 * h) (hp : h ≤ p)
    (htie : rem = h → r * r ≠ m) :
    let t : Int := if roundsUp mode false lo rem h 0 sticky then 2 * p + 2 * h else 2 * p
    rootsTo mode m h t ∧ ((rem != 0 || sticky) = true ↔ (m : Int) ≠ t * t) := by
  have hrI : (r : Int) * r ≤ m := by exact_mod_cast hr
  have hrI' : (m : Int) < (r + 1) * (r + 1) := by exact_mod_cast hr'
  have hneI : (r : Int) * r ≠ m ↔ r * r ≠ m := by exact_mod_cast Iff.rfl
  have h0 : (0 : Int) ≤ r := Int.natCast_nonneg r
  have hinexact : (rem != 0 || sticky) = true ↔ rem ≠ 0 ∨ r * r ≠ m := by rw [Bool.or_eq_true, bne_iff_ne, hs]
  dsimp only
  rw [hinexact]
  have hle {a : Int} := sq_le_of_le_root (a := a) hrI
  have hlt {a : Int} := sq_lt_of_lt_root (a := a) hrI
  have hgt {a : Int} := lt_sq_of_lt (a := a) h0 hrI'
  rw [hneI] at hlt
  cases hup : roundsUp mode false lo rem h 0 sticky with
  | false =>
    rw [if_neg Bool.false_ne_true]
    have hbelow : rem ≠ 0 ∨ r * r ≠ m ↔ (m : Int) ≠ 2 * p * (2 * p) := by
      constructor
      · intro h
        have := hlt (a := 2 * p) (by omega) (by omega)
        omega
      · intro h
        by_contra hnot
        obtain ⟨h1, h2⟩ : rem = 0 ∧ r * r = m := by omega
        refine h ?_
        have h3 : ((2 * p : Nat) : Int) = 2 * p := by push_cast; rfl
        have h4 : 2 * p = r := by omega
        rw [← h3, h4]
        exact_mod_cast h2.symm
    refine ⟨?_, hbelow⟩
    cases mode with
    | rtz | rdn => exact ⟨hle (by omega) (by omega), hgt (by omega)⟩
    | rup =>
      simp only [roundsUp, Bool.not_false, Bool.true_and, ← Bool.not_eq_true, hinexact] at hup
      refine ⟨hlt (by omega) (by omega), ?_⟩
      have := mt hbelow.2 hup
      omega
    | rne =>
      simp only [roundsUp, ← Bool.not_eq_true, Bool.or_eq_true, Bool.and_eq_true, decide_eq_true_eq, beq_iff_eq, hs] at hup
      exact ⟨hlt (by omega) (by omega), hgt (by omega)⟩
    | sr => exact absurd rfl hm
  | true =>
    rw [if_pos rfl]
    have habove : (m : Int) < (2 * p + 2 * h) * (2 * p + 2 * h) := hgt (by omega)
    cases mode with
    | rtz | rdn => cases hup
    | rup =>
      simp only [roundsUp, Bool.not_false, Bool.true_and, hinexact] at hup
      exact ⟨⟨hlt (by omega) (by omega), Int.le_of_lt habove⟩, iff_of_true hup (by omega)⟩
    | rne =>
      simp only [roundsUp, Bool.or_eq_true, Bool.and_eq_true, decide_eq_true_eq, beq_iff_eq] at hup
      exact ⟨⟨hlt (by omega) (by omega), hgt (by omega)⟩, iff_of_true (by omega) (by omega)⟩
    | sr => exact absurd rfl hm

end

section
variable {f : Fmt} {mode : Rnd} {m r s l : Nat} {e q : Int}

theorem Fmt.sqrt_fin (h0 : m ≠ 0) : ∃ (s : Nat) (c : Int), 64 ≤ s ∧ s ≤ 65 ∧ e = 2 * c + s ∧
    f.sqrt mode (.fin false m e) =
      (let r := isqrtFrom (m * 2 ^ s) 64 0
       f.round mode false r c (decide (r * r ≠ m * 2 ^ s)) 0) := by
  have hne (a b : Nat) : (a != b) = decide (a ≠ b) := Bool.eq_iff_iff.2 (by simp)
  unfold sqrt
  dsimp only
  rw [if_neg h0, if_neg Bool.false_ne_true]
  by_cases he : e % 2 = 0
  · refine ⟨64, (e - 64) / 2, by decide, by decide, by omega, ?_⟩
    rw [if_pos he, ← hne]
  · refine ⟨65, (e - 65) / 2, by decide, by decide, by omega, ?_⟩
    rw [if_neg he, ← hne]

/-- No root is halfway between two steps: the square of an odd number of half steps is too long for a significand, or odd. -/
theorem odd_sq_ne {k c b : Nat} (hm : m < 2 ^ b) (hk : 2 ^ b ≤ 2 * k + 1) :
    (2 * k + 1) * 2 ^ c * ((2 * k + 1) * 2 ^ c) ≠ m * 2 ^ s := by
  intro h
  have hsq : (2 * k + 1) * 2 ^ c * ((2 * k + 1) * 2 ^ c) = (2 * k + 1) * (2 * k + 1) * 2 ^ (2 * c) := by
    rw [Nat.mul_mul_mul_comm, ← Nat.pow_add, Nat.two_mul c]
  rw [hsq] at h
  rcases Nat.lt_or_ge (2 * c) s with hlt | hge
  · obtain ⟨j, rfl⟩ : ∃ j, s = j + 1 + 2 * c := ⟨s - 2 * c - 1, by omega⟩
    rw [Nat.pow_add, ← Nat.mul_assoc, Nat.mul_left_inj (Nat.two_pow_pos _).ne', Nat.pow_succ, ← Nat.mul_assoc] at h
    have : (2 * k + 1) * (2 * k + 1) % 2 = 1 := by simp [Nat.mul_mod, Nat.add_mod]
    omega
  · obtain ⟨j, hj⟩ : ∃ j, 2 * c = j + s := ⟨2 * c - s, by omega⟩
    rw [hj, Nat.pow_add, ← Nat.mul_assoc, Nat.mul_left_inj (Nat.two_pow_pos _).ne'] at h
    have h1 : (2 * k + 1) * 1 ≤ (2 * k + 1) * (2 * k + 1) * 2 ^ j := by
      rw [Nat.mul_assoc]
      exact Nat.mul_le_mul_left _ (Nat.mul_pos (Nat.succ_pos _) (Nat.two_pow_pos _))
    omega

/-- The length of a root. -/
theorem bitLen_root (h0 : m ≠ 0) (hm : m < 2 ^ (f.mb + 1)) (hs : 64 ≤ s) (hr : r * r ≤ m * 2 ^ s)
    (hr' : m * 2 ^ s < (r + 1) * (r + 1)) (hlt : r < 2 ^ l) (hle : 2 ^ (l - 1) ≤ r) : 33 ≤ l ∧ 2 * l ≤ f.mb + s + 2 := by
  have hlow : 2 ^ s < 2 ^ (2 * l) := by
    calc 2 ^ s ≤ m * 2 ^ s := Nat.le_mul_of_pos_left _ (Nat.pos_of_ne_zero h0)
      _ < (r + 1) * (r + 1) := hr'
      _ ≤ 2 ^ l * 2 ^ l := Nat.mul_le_mul hlt hlt
      _ = 2 ^ (2 * l) := by rw [← Nat.pow_add, Nat.two_mul]
  have hhigh : 2 ^ (2 * (l - 1)) < 2 ^ (f.mb + 1 + s) := by
    calc 2 ^ (2 * (l - 1)) = 2 ^ (l - 1) * 2 ^ (l - 1) := by rw [← Nat.pow_add, Nat.two_mul]
      _ ≤ r * r := Nat.mul_le_mul hle hle
      _ ≤ m * 2 ^ s := hr
      _ < 2 ^ (f.mb + 1) * 2 ^ s := Nat.mul_lt_mul_of_pos_right hm (Nat.two_pow_pos _)
      _ = 2 ^ (f.mb + 1 + s) := (Nat.pow_add _ _ _).symm
  have h1 := (Nat.pow_lt_pow_iff_right (Nat.lt_succ_self 1)).1 hlow
  have h2 := (Nat.pow_lt_pow_iff_right (Nat.lt_succ_self 1)).1 hhigh
  omega

/-- The rounding of a root in units of 2^c, where the value is m × 2^s in units of 2^(2c) and half a step is 2^d. -/
theorem Fmt.rootRounding_of_rootsTo {v : Nat × BitVec 5} {c : Int} {n d : Nat} {u h : Int} (hu : u = m * 2 ^ s)
    (hh : h = 2 ^ d) (hq : q = c + d + 1) (he : e = 2 * c + s)
    (hlow : 2 ^ (f.mb + 1) * h * (2 ^ (f.mb + 1) * h) ≤ u) (hhigh : u < 2 ^ (f.mb + 2) * h * (2 ^ (f.mb + 2) * h))
    (hroot : rootsTo mode u h (2 * n * h)) (hflags : v.2 = if u = 2 * n * h * (2 * n * h) then flagNone else flagNX)
    (hval : ∃ m' e', f.decode v.1 = .fin false m' e' ∧ q ≤ e' ∧ m' * 2 ^ (e' - q).toNat = n) :
    f.RootRounding mode m e v := by
  obtain ⟨low, hl⟩ : ∃ low, min (2 * q - 2) e = low := ⟨_, rfl⟩
  have ht : (0 : Int) < 2 ^ (low - 2 * c).toNat := by positivity
  obtain ⟨x, hx⟩ : ∃ x : Int, (m : Int) * 2 ^ (e - low).toNat = x := ⟨_, rfl⟩
  have hxt : x * 2 ^ (low - 2 * c).toNat = u := by
    rw [← hx, hu, mul_assoc, ← pow_add]
    congr 2
    omega
  have hsq (k : Int) : k * k * 2 ^ (2 * q - 2 - low).toNat * 2 ^ (low - 2 * c).toNat = k * h * (k * h) := by
    rw [hh, mul_assoc, ← pow_add, mul_mul_mul_comm, ← pow_add]
    congr 2
    omega
  have hle (k : Int) : k * k * 2 ^ (2 * q - 2 - low).toNat ≤ x ↔ k * h * (k * h) ≤ u := by
    rw [← hsq, ← hxt, mul_le_mul_iff_left₀ ht]
  have hge (k : Int) : x ≤ k * k * 2 ^ (2 * q - 2 - low).toNat ↔ u ≤ k * h * (k * h) := by
    rw [← hsq, ← hxt, mul_le_mul_iff_left₀ ht]
  have hlt (k : Int) : k * k * 2 ^ (2 * q - 2 - low).toNat < x ↔ k * h * (k * h) < u := lt_iff_lt_of_le_iff_le (hge k)
  have hgt (k : Int) : x < k * k * 2 ^ (2 * q - 2 - low).toNat ↔ u < k * h * (k * h) := lt_iff_lt_of_le_iff_le (hle k)
  have heq (k : Int) : x = k * k * 2 ^ (2 * q - 2 - low).toNat ↔ u = k * h * (k * h) := by
    rw [← hsq, ← hxt, mul_left_inj' ht.ne']
  refine ⟨q, n, ?_⟩
  dsimp only
  rw [hl, hx]
  simp only [hle, hge, hlt, hgt, heq]
  have hadd : (2 * (n : Int) + 2) * h = 2 * n * h + 2 * h := by ring
  have hsub : (2 * (n : Int) - 2) * h = 2 * n * h - 2 * h := by ring
  have hinc : (2 * (n : Int) + 1) * h = 2 * n * h + h := by ring
  have hdec : (2 * (n : Int) - 1) * h = 2 * n * h - h := by ring
  refine ⟨hlow, hhigh, ?_, hflags, ?_⟩
  · simp only [hadd, hsub, hinc, hdec]
    cases mode <;> exact hroot
  · obtain ⟨m', e', hd, hqe, hm'⟩ := hval
    refine ⟨m', e', hd, scaled_congr ?_⟩
    rw [min_eq_right hqe, hm', Int.sub_self, Int.toNat_zero, Nat.pow_zero, Nat.mul_one]

end

section
variable {f : Fmt} {mode : Rnd} {m r s : Nat} {e c : Int}

/-- A normal magnitude within the range of the format is encoded, and is only inexact. -/
theorem Fmt.encode_normal {neg inexact : Bool} {n : Nat} {q : Int} (hf : f.Sound) (hq : f.least ≤ q) (hn : 2 ^ f.mb ≤ n)
    (hn' : n ≤ 2 ^ (f.mb + 1)) (hfit : ((q - f.least).toNat + 2) * 2 ^ f.mb ≤ f.largest) :
    (f.encode mode neg inexact false n q).2 = (if inexact then flagNX else flagNone) ∧
      ∃ m' e', f.decode (f.encode mode neg inexact false n q).1 = .fin neg m' e' ∧ q ≤ e' ∧
        m' * 2 ^ (e' - q).toNat = n := by
  have hle : f.pattern n q ≤ f.largest := by
    unfold pattern
    rw [Nat.pow_succ] at hn'
    rw [Nat.add_mul] at hfit
    omega
  have henc := encode_eq (mode := mode) (neg := neg) (inexact := inexact) (under := false) hn' (.inr hn) hq hf
  dsimp only at henc
  rw [if_neg (Nat.not_lt.2 hle)] at henc
  obtain ⟨hbits, hflags⟩ := henc
  obtain ⟨hsig, hbin⟩ := pattern_fields (q := q) hn' (.inr hn)
  refine ⟨hflags.resolve_right fun h => ?_, f.significand (f.pattern n q), f.least + f.binade (f.pattern n q), ?_, ?_, ?_⟩
  · obtain ⟨-, -, hu, -⟩ := h
    rcases hu with hu | hu
    · omega
    · cases hu
  · rw [hbits]
    exact hf.decode hle
  · omega
  · rwa [show (f.least + f.binade (f.pattern n q) - q).toNat = f.binade (f.pattern n q) - (q - f.least).toNat by omega]

/-- The whole root of a long value, with the sticky bit of its square, is enough to round the root. -/
theorem Fmt.round_rootRounding (hf : f.Sound) (hmb : f.mb ≤ 23) (hmode : mode ≠ .sr) (h0 : m ≠ 0) (hm : m < 2 ^ (f.mb + 1))
    (hs : 64 ≤ s) (hs' : s ≤ 65) (hr : r * r ≤ m * 2 ^ s) (hr' : m * 2 ^ s < (r + 1) * (r + 1)) (he : e = 2 * c + s)
    (hrange : ∀ l : Nat, 33 ≤ l → 2 * l ≤ f.mb + s + 2 → f.least ≤ l + c - 1 - f.mb ∧
      ((l + c - 1 - f.mb - f.least).toNat + 2) * 2 ^ f.mb ≤ f.largest) :
    f.RootRounding mode m e (f.round mode false r c (decide (r * r ≠ m * 2 ^ s)) 0) := by
  have hr0 : r ≠ 0 := by
    rintro rfl
    have := Nat.mul_pos (Nat.pos_of_ne_zero h0) (Nat.two_pow_pos s)
    omega
  have h1200 : r < 2 ^ 1200 := by
    calc r ≤ r * r := Nat.le_mul_self r
      _ ≤ m * 2 ^ s := hr
      _ < 2 ^ (f.mb + 1) * 2 ^ s := Nat.mul_lt_mul_of_pos_right hm (Nat.two_pow_pos _)
      _ = 2 ^ (f.mb + 1 + s) := (Nat.pow_add _ _ _).symm
      _ ≤ 2 ^ 1200 := Nat.pow_le_pow_right Nat.two_pos (by omega)
  obtain ⟨under, hunder, hround⟩ := round_eq_encode (sticky := decide (r * r ≠ m * 2 ^ s)) (rnd := 0) f mode false r c
  have hlt := lt_two_pow_bitLen h1200
  have hle := two_pow_bitLen_le (k := 1200) hr0
  obtain ⟨l, hl⟩ : ∃ l, bitLen 1200 r = l := ⟨_, rfl⟩
  rw [hl] at hround hunder hlt hle
  obtain ⟨h33, hlen⟩ := bitLen_root h0 hm hs hr hr' hlt hle
  obtain ⟨hleast, hfit⟩ := hrange l h33 hlen
  obtain ⟨q, hq⟩ : ∃ q : Int, l + c - 1 - f.mb = q := ⟨_, rfl⟩
  rw [hq] at hround hunder hleast hfit
  have hnu : under = false := Bool.eq_false_iff.2 fun h => by have := hunder h; omega
  rw [max_eq_left hleast, hnu] at hround
  obtain ⟨d, hd⟩ : ∃ d : Nat, l = f.mb + 2 + d := ⟨l - f.mb - 2, by omega⟩
  have hqc : q = c + d + 1 := by omega
  have hpow : 2 ^ (q - c).toNat = 2 * 2 ^ d := by
    rw [show (q - c).toNat = d + 1 by omega, Nat.pow_succ']
  rw [roundStep_of_lt (by omega) hpow] at hround
  rw [hround]
  obtain ⟨lo, hlo⟩ : ∃ lo, r / (2 * 2 ^ d) = lo := ⟨_, rfl⟩
  obtain ⟨rem, hrem⟩ : ∃ rem, r % (2 * 2 ^ d) = rem := ⟨_, rfl⟩
  have hdiv : 2 * (lo * 2 ^ d) + rem = r := by
    rw [← hlo, ← hrem, Nat.mul_left_comm, Nat.mul_comm _ (2 * 2 ^ d), Nat.div_add_mod]
  have hlow : 2 ^ f.mb ≤ lo := by
    rw [← hlo, Nat.le_div_iff_mul_le (by positivity), ← Nat.pow_succ', ← Nat.pow_add]
    exact Nat.le_trans (Nat.pow_le_pow_right Nat.two_pos (by omega)) hle
  have hhigh : lo < 2 ^ (f.mb + 1) := by
    rw [← hlo, Nat.div_lt_iff_lt_mul (by positivity), ← Nat.pow_succ', ← Nat.pow_add]
    exact Nat.lt_of_lt_of_le hlt (Nat.pow_le_pow_right Nat.two_pos (by omega))
  have hremlt : rem < 2 * 2 ^ d := by
    rw [← hrem]
    exact Nat.mod_lt _ (by positivity)
  have hmb0 := Nat.two_pow_pos f.mb
  have htie : rem = 2 ^ d → r * r ≠ m * 2 ^ s := by
    intro h
    rw [h] at hdiv
    rw [← hdiv, show 2 * (lo * 2 ^ d) + 2 ^ d = (2 * lo + 1) * 2 ^ d by ring]
    exact odd_sq_ne hm (by rw [Nat.pow_succ]; omega)
  rw [hlo, hrem]
  obtain ⟨hroot, hinexact⟩ := roundsUp_rootsTo (lo := lo) (p := lo * 2 ^ d) (sticky := decide (r * r ≠ m * 2 ^ s)) hmode
    hr hr' decide_eq_true_iff (Nat.two_pow_pos d) hdiv hremlt (Nat.le_mul_of_pos_left _ (by omega)) htie
  dsimp only
  obtain ⟨n, hn⟩ : ∃ n, (if roundsUp mode false lo rem (2 ^ d) 0 (decide (r * r ≠ m * 2 ^ s)) then lo + 1 else lo) = n :=
    ⟨_, rfl⟩
  rw [hn]
  have hnlo : n = lo ∨ n = lo + 1 := by
    rw [← hn]
    split
    · exact .inr rfl
    · exact .inl rfl
  obtain ⟨hflags, hval⟩ := encode_normal (mode := mode) (neg := false)
    (inexact := rem != 0 || decide (r * r ≠ m * 2 ^ s)) hf hleast (by omega : 2 ^ f.mb ≤ n) (by omega) hfit
  have ht : (if roundsUp mode false lo rem (2 ^ d) 0 (decide (r * r ≠ m * 2 ^ s)) then
      2 * ((lo * 2 ^ d : Nat) : Int) + 2 * ((2 ^ d : Nat) : Int) else 2 * ((lo * 2 ^ d : Nat) : Int)) =
      2 * n * ((2 ^ d : Nat) : Int) := by
    rw [← hn]
    split <;> push_cast <;> ring
  rw [ht] at hroot hinexact
  refine rootRounding_of_rootsTo (s := s) (by push_cast; rfl) (by push_cast; rfl) hqc he ?_ ?_ hroot ?_ hval
  · have : 2 ^ (f.mb + 1) * 2 ^ d * (2 ^ (f.mb + 1) * 2 ^ d) ≤ m * 2 ^ s := by
      refine Nat.le_trans (Nat.mul_self_le_mul_self ?_) hr
      rw [← Nat.pow_add]
      exact Nat.le_trans (Nat.pow_le_pow_right Nat.two_pos (by omega)) hle
    exact_mod_cast this
  · have : m * 2 ^ s < 2 ^ (f.mb + 2) * 2 ^ d * (2 ^ (f.mb + 2) * 2 ^ d) := by
      refine Nat.lt_of_lt_of_le hr' (Nat.mul_self_le_mul_self ?_)
      rw [← Nat.pow_add, ← hd]
      exact hlt
    exact_mod_cast this
  · rw [hflags]
    by_cases hu : ((m * 2 ^ s : Nat) : Int) = 2 * n * ((2 ^ d : Nat) : Int) * (2 * n * ((2 ^ d : Nat) : Int))
    · rw [if_pos hu, if_neg (fun h => hinexact.1 h hu)]
    · rw [if_neg hu, if_pos (hinexact.2 hu)]

/-- The square root of a lane is the exact root rounded once. -/
theorem Fmt.sqrt_rootRounding {k : Nat} (hf : f ∈ [fp32, bf16, fp16]) (hmode : mode ≠ .sr)
    (hk : f.decode k = .fin false m e) (h0 : m ≠ 0) : f.RootRounding mode m e (f.sqrt mode (.fin false m e)) := by
  have hs := sound_of_lane hf
  obtain ⟨hm, hle, hlt⟩ := hs.decode_bounds hk
  obtain ⟨s, c, h64, h65, he, hsqrt⟩ := sqrt_fin (f := f) (mode := mode) (e := e) h0
  have hmb := mb_le_of_lane hf
  have hwide : m * 2 ^ s < (0 + 2 ^ 64) * (0 + 2 ^ 64) := by
    calc m * 2 ^ s < 2 ^ (f.mb + 1) * 2 ^ s := Nat.mul_lt_mul_of_pos_right hm (Nat.two_pow_pos _)
      _ = 2 ^ (f.mb + 1 + s) := (Nat.pow_add _ _ _).symm
      _ ≤ 2 ^ 128 := Nat.pow_le_pow_right Nat.two_pos (by omega)
      _ = (0 + 2 ^ 64) * (0 + 2 ^ 64) := rfl
  obtain ⟨hr, hr'⟩ := isqrtFrom_spec (m * 2 ^ s) 64 0 (Nat.zero_le _) hwide
  rw [hsqrt]
  refine round_rootRounding hs hmb hmode h0 hm h64 h65 hr hr' he fun l h33 hl => ?_
  simp only [List.mem_cons, List.not_mem_nil, or_false] at hf
  rcases hf with rfl | rfl | rfl
  · simp only [fp32, least, largest] at *
    omega
  · simp only [bf16, least, largest] at *
    omega
  · simp only [fp16, least, largest] at *
    omega

end


/-! ## The smaller and the larger lane, absolute values and negations -/

section
variable {t : BitVec 3} {u : BitVec 1} {larger : Bool} {x y w : Nat}

theorem laneWidth_cases (t : BitVec 3) : laneWidth t = 32 ∨ laneWidth t = 16 ∨ laneWidth t = 8 := by
  unfold laneWidth
  split
  · exact .inl rfl
  split
  · exact .inr (.inl rfl)
  · exact .inr (.inr rfl)

theorem isFloating_of_isInteger (h : isInteger t = true) : isFloating t = false := by
  simp only [isInteger, isFloating, decide_eq_true_eq, decide_eq_false_iff_not] at h ⊢
  omega

theorem minMaxLane_of_integer (h : isInteger t = true) : minMaxLane t u larger x y =
    if laneInt t u x < laneInt t u y then (if larger then y else x) else (if larger then x else y) := by
  unfold minMaxLane
  rw [isFloating_of_isInteger h]
  by_cases hlt : laneInt t u x < laneInt t u y <;> cases larger <;> simp [hlt]

theorem toSigned_natAbs (hw : w = 32 ∨ w = 16 ∨ w = 8) (hx : x < 2 ^ w) :
    toSigned w ((toSigned w x).natAbs % 2 ^ w) =
      if toSigned w x = -2 ^ (w - 1) then -2 ^ (w - 1) else ((toSigned w x).natAbs : Int) := by
  rcases hw with rfl | rfl | rfl
  all_goals
    unfold toSigned
    omega

theorem toSigned_neg (hw : w = 32 ∨ w = 16 ∨ w = 8) (hx : x < 2 ^ w) :
    toSigned w ((2 ^ w - x) % 2 ^ w) = if toSigned w x = -2 ^ (w - 1) then -2 ^ (w - 1) else -toSigned w x := by
  rcases hw with rfl | rfl | rfl
  all_goals
    unfold toSigned
    omega

/-- The integer lanes. -/
theorem integerLane_results (h : isInteger t = true) (hx : x < 2 ^ laneWidth t) :
    (∀ l, minMaxLane t u l x y ∈ [x, y]) ∧
      laneInt t u (minMaxLane t u false x y) = min (laneInt t u x) (laneInt t u y) ∧
      laneInt t u (minMaxLane t u true x y) = max (laneInt t u x) (laneInt t u y) ∧
      absLane t x < 2 ^ laneWidth t ∧ toSigned (laneWidth t) (absLane t x) =
        (if toSigned (laneWidth t) x = -2 ^ (laneWidth t - 1) then -2 ^ (laneWidth t - 1)
         else ((toSigned (laneWidth t) x).natAbs : Int)) ∧
      negLane t x < 2 ^ laneWidth t ∧ toSigned (laneWidth t) (negLane t x) =
        (if toSigned (laneWidth t) x = -2 ^ (laneWidth t - 1) then -2 ^ (laneWidth t - 1)
         else -toSigned (laneWidth t) x) := by
  have hw := laneWidth_cases t
  have habs : absLane t x = (toSigned (laneWidth t) x).natAbs % 2 ^ laneWidth t := by
    simp [absLane, isFloating_of_isInteger h]
  have hneg : negLane t x = (2 ^ laneWidth t - x) % 2 ^ laneWidth t := by
    simp [negLane, isFloating_of_isInteger h]
  rw [habs, hneg]
  refine ⟨fun l => ?_, ?_, ?_, Nat.mod_lt _ (Nat.two_pow_pos _), toSigned_natAbs hw hx,
    Nat.mod_lt _ (Nat.two_pow_pos _), toSigned_neg hw hx⟩
  · rw [minMaxLane_of_integer h]
    split <;> split <;> simp
  · rw [minMaxLane_of_integer h]
    simp only [Bool.false_eq_true, if_false]
    split
    · exact (min_eq_left (by omega)).symm
    · exact (min_eq_right (by omega)).symm
  · rw [minMaxLane_of_integer h]
    simp only [if_true]
    split
    · exact (max_eq_right (by omega)).symm
    · exact (max_eq_left (by omega)).symm

end

/-! ## The order of a format -/

/-- The value of a sign and a magnitude pattern, in units of the least subnormal; the pattern of an infinity is above every
finite one. -/
def Fmt.order (f : Fmt) (n : Bool) (p : Nat) : Int := if n then -(f.magnitude p : Int) else f.magnitude p

section
variable {f : Fmt} {n n' : Bool} {x y p p' : Nat}

theorem Fmt.scaled_significand : scaled n (f.significand p) (f.least + f.binade p) f.least = f.order n p := by
  unfold scaled order magnitude
  rw [add_sub_cancel_left, Int.toNat_natCast]
  push_cast
  rfl

theorem cmp_fin_fin {m m' : Nat} {e e' l : Int} (hl : l ≤ e) (hl' : l ≤ e') :
    (FVal.cmp (.fin n m e) (.fin n' m' e') < 0 ↔ scaled n m e l < scaled n' m' e' l) ∧
      (FVal.cmp (.fin n m e) (.fin n' m' e') = 0 ↔ scaled n m e l = scaled n' m' e' l) := by
  have hpos : (0 : Int) < 2 ^ (min e e' - l).toNat := by positivity
  have hmin : (if e ≤ e' then e else e') = min e e' := min_def e e' |>.symm
  rw [scaled_mul (le_min hl hl') (min_le_left e e'), scaled_mul (e := e') (le_min hl hl') (min_le_right e e'),
    mul_lt_mul_iff_left₀ hpos, mul_left_inj' hpos.ne']
  unfold FVal.cmp
  dsimp only
  rw [hmin]
  obtain ⟨a, ha⟩ : ∃ a, scaled n m e (min e e') = a := ⟨_, rfl⟩
  obtain ⟨b, hb⟩ : ∃ b, scaled n' m' e' (min e e') = b := ⟨_, rfl⟩
  rw [ha, hb]
  constructor <;> split <;> omega

theorem cmp_fin_inf {m : Nat} {e : Int} (h : f.magnitude p < f.magnitude p') :
    (FVal.cmp (.fin n m e) (.inf n') < 0 ↔ f.order n p < f.order n' p') ∧
      (FVal.cmp (.fin n m e) (.inf n') = 0 ↔ f.order n p = f.order n' p') := by
  cases n <;> cases n' <;> simp [FVal.cmp, Fmt.order] <;> omega

theorem cmp_inf_fin {m : Nat} {e : Int} (h : f.magnitude p' < f.magnitude p) :
    (FVal.cmp (.inf n) (.fin n' m e) < 0 ↔ f.order n p < f.order n' p') ∧
      (FVal.cmp (.inf n) (.fin n' m e) = 0 ↔ f.order n p = f.order n' p') := by
  cases n <;> cases n' <;> simp [FVal.cmp, Fmt.order] <;> omega

theorem cmp_inf_inf (h : f.magnitude p' < f.magnitude p) :
    (FVal.cmp (.inf n) (.inf n') < 0 ↔ f.order n p < f.order n' p) ∧
      (FVal.cmp (.inf n) (.inf n') = 0 ↔ f.order n p = f.order n' p) := by
  cases n <;> cases n' <;> simp [FVal.cmp, Fmt.order] <;> omega

/-- The two kinds of values that are not NaN. -/
theorem Fmt.Sound.decode_cases (hf : f.Sound) (hx : f.decode x ≠ .nan) :
    (x % 2 ^ (f.eb + f.mb) ≤ f.largest ∧ f.decode x = .fin (x.testBit (f.eb + f.mb))
        (f.significand (x % 2 ^ (f.eb + f.mb))) (f.least + f.binade (x % 2 ^ (f.eb + f.mb)))) ∨
      (x % 2 ^ (f.eb + f.mb) = f.infinity ∧ f.decode x = .inf (x.testBit (f.eb + f.mb))) := by
  cases hd : f.decode x with
  | nan => exact absurd hd hx
  | fin n m e =>
    obtain ⟨hle, rfl, rfl, rfl⟩ := hf.decode_eq_fin hd
    exact .inl ⟨hle, rfl⟩
  | inf n =>
    right
    rw [decode_split] at hd
    dsimp only at hd
    split at hd
    · rename_i htop
      split at hd
      · rename_i hm
        cases hd
        refine ⟨?_, rfl⟩
        have := Nat.div_add_mod' (x % 2 ^ (f.eb + f.mb)) (2 ^ f.mb)
        rw [htop.2, hm] at this
        exact this.symm
      · cases hd
    · split at hd <;> cases hd

theorem Fmt.Sound.largest_lt_infinity (hf : f.Sound) (hk : f.kind = .ieee) : f.largest < f.infinity := by
  have h1 := hf.normal
  have h2 := Nat.two_pow_pos f.mb
  unfold largest infinity at *
  rw [hk] at *
  dsimp only at *
  omega

/-- Values that are not NaN compare as their signs and magnitudes do. -/
theorem Fmt.Sound.cmp_decode (hf : f.Sound) (hk : f.kind = .ieee) (hx : f.decode x ≠ .nan) (hy : f.decode y ≠ .nan) :
    let v (z : Nat) := f.order (z.testBit (f.eb + f.mb)) (z % 2 ^ (f.eb + f.mb))
    ((f.decode x).cmp (f.decode y) < 0 ↔ v x < v y) ∧ ((f.decode x).cmp (f.decode y) = 0 ↔ v x = v y) := by
  have hinf := hf.largest_lt_infinity hk
  intro v
  have hmag {p : Nat} (h : p ≤ f.largest) : f.magnitude p < f.magnitude f.infinity :=
    magnitude_lt_iff.2 (Nat.lt_of_le_of_lt h hinf)
  rcases hf.decode_cases hx with ⟨hpx, hdx⟩ | ⟨hpx, hdx⟩ <;> rcases hf.decode_cases hy with ⟨hpy, hdy⟩ | ⟨hpy, hdy⟩
  · rw [hdx, hdy]
    have := cmp_fin_fin (n := x.testBit (f.eb + f.mb)) (n' := y.testBit (f.eb + f.mb))
      (m := f.significand (x % 2 ^ (f.eb + f.mb))) (m' := f.significand (y % 2 ^ (f.eb + f.mb)))
      (e := f.least + f.binade (x % 2 ^ (f.eb + f.mb))) (e' := f.least + f.binade (y % 2 ^ (f.eb + f.mb)))
      (l := f.least) (by omega) (by omega)
    rwa [scaled_significand, scaled_significand] at this
  · rw [hdx, hdy]
    dsimp only [v]
    rw [hpy]
    exact cmp_fin_inf (hmag hpx)
  · rw [hdx, hdy]
    dsimp only [v]
    rw [hpx]
    exact cmp_inf_fin (hmag hpy)
  · rw [hdx, hdy]
    dsimp only [v]
    rw [hpx, hpy]
    exact cmp_inf_inf (hmag (Nat.zero_le _))

end

section
variable {f : Fmt} {t : BitVec 3} {u : BitVec 1} {larger : Bool} {x y k w : Nat}

theorem testBit_of_lt (hx : x < 2 ^ (k + 1)) : x.testBit k = decide (2 ^ k ≤ x) ∧
    x % 2 ^ k = if 2 ^ k ≤ x then x - 2 ^ k else x := by
  rw [Nat.pow_succ] at hx
  have hpos := Nat.two_pow_pos k
  rw [Nat.testBit_eq_decide_div_mod_eq]
  by_cases h : 2 ^ k ≤ x
  · obtain ⟨hd, hm⟩ : x / 2 ^ k = 1 ∧ x % 2 ^ k = x - 2 ^ k := (Nat.div_mod_unique hpos).2 ⟨by omega, by omega⟩
    rw [hd, hm, if_pos h, decide_eq_true h]
    exact ⟨rfl, rfl⟩
  · rw [Nat.div_eq_of_lt (by omega), Nat.mod_eq_of_lt (Nat.lt_of_not_le h), if_neg h, decide_eq_false h]
    exact ⟨rfl, rfl⟩

theorem signOrder_eq : signOrder (k + 1) x = if 2 ^ k ≤ x then ((2 ^ k : Nat) : Int) - 1 - x else x := by
  unfold signOrder
  rw [Nat.add_sub_cancel]
  push_cast
  by_cases h : 2 ^ k ≤ x
  · rw [if_pos h, if_neg (Nat.not_lt.2 h)]
  · rw [if_neg h, if_pos (Nat.lt_of_not_le h)]

theorem signOrder_injective (h : signOrder (k + 1) x = signOrder (k + 1) y) : x = y := by
  rw [signOrder_eq, signOrder_eq] at h
  split at h <;> split at h <;> omega

/-- The order of the patterns is that of the values, −0 below +0. -/
theorem signOrder_of_order (hx : x < 2 ^ (k + 1)) (hy : y < 2 ^ (k + 1)) :
    let v (z : Nat) := f.order (z.testBit k) (z % 2 ^ k)
    (v x < v y ∨ (v x = v y ∧ x.testBit k = true) → signOrder (k + 1) x ≤ signOrder (k + 1) y) ∧
      (v y < v x ∨ (v x = v y ∧ x.testBit k = false) → signOrder (k + 1) y ≤ signOrder (k + 1) x) := by
  intro v
  obtain ⟨hbx, hmx⟩ := testBit_of_lt hx
  obtain ⟨hby, hmy⟩ := testBit_of_lt hy
  have hle (p p' : Nat) : f.magnitude p ≤ f.magnitude p' ↔ p ≤ p' := f.magnitude_strictMono.le_iff_le
  simp only [v, hbx, hby, hmx, hmy, signOrder_eq, Fmt.order, decide_eq_true_eq, decide_eq_false_iff_not]
  by_cases hnx : 2 ^ k ≤ x <;> by_cases hny : 2 ^ k ≤ y <;>
    simp only [hnx, hny, if_true, if_false, not_true, not_false_eq_true, and_true, and_false,
      or_false]
  · have := hle (y - 2 ^ k) (x - 2 ^ k)
    have := hle (x - 2 ^ k) (y - 2 ^ k)
    omega
  · exact ⟨fun _ => by omega, fun h => by omega⟩
  · exact ⟨fun h => by omega, fun _ => by omega⟩
  · have := hle x y
    have := hle y x
    omega

theorem Fmt.minMax_eq (hf : f.Sound) (hk : f.kind = .ieee) (hw : w = f.eb + f.mb + 1) (hx : x < 2 ^ w) (hy : y < 2 ^ w)
    (hdx : f.decode x ≠ .nan) (hdy : f.decode y ≠ .nan) :
    f.minMax larger x y = if signOrder w x ≤ signOrder w y then (if larger then y else x) else (if larger then x else y) := by
  subst hw
  have hnan {v : FVal} (h : v ≠ .nan) : v.isNan = false := by
    cases v
    · exact absurd rfl h
    · rfl
    · rfl
  obtain ⟨hlt, heq⟩ := hf.cmp_decode hk hdx hdy
  obtain ⟨hle, hge⟩ := signOrder_of_order (f := f) hx hy
  unfold minMax
  dsimp only at hlt heq hle hge ⊢
  rw [hnan hdx, hnan hdy, if_neg (by decide)]
  obtain ⟨d, hd⟩ : ∃ d, (f.decode x).cmp (f.decode y) = d := ⟨_, rfl⟩
  rw [hd] at hlt heq ⊢
  have hpick (hs : signOrder (f.eb + f.mb + 1) y ≤ signOrder (f.eb + f.mb + 1) x) :
      (if signOrder (f.eb + f.mb + 1) x ≤ signOrder (f.eb + f.mb + 1) y
        then (if larger then y else x) else (if larger then x else y)) = if larger then x else y := by
    by_cases h : signOrder (f.eb + f.mb + 1) x ≤ signOrder (f.eb + f.mb + 1) y
    · rw [signOrder_injective (Int.le_antisymm h hs), ite_self]
    · rw [if_neg h]
  cases hless : decide (d < 0) || (d == 0 && x.testBit (f.eb + f.mb)) with
  | true =>
    rw [Bool.or_eq_true, Bool.and_eq_true, decide_eq_true_eq, beq_iff_eq, hlt, heq] at hless
    rw [if_pos (hle hless), if_pos rfl]
    rfl
  | false =>
    rw [Bool.or_eq_false_iff, Bool.and_eq_false_iff, decide_eq_false_iff_not, beq_eq_false_iff_ne, Ne, hlt, heq] at hless
    rw [hpick (hge (by
      obtain ⟨h1, h2⟩ := hless
      rcases h2 with h2 | h2
      · exact .inl (by omega)
      · by_cases h3 : f.order (x.testBit (f.eb + f.mb)) (x % 2 ^ (f.eb + f.mb)) =
            f.order (y.testBit (f.eb + f.mb)) (y % 2 ^ (f.eb + f.mb))
        · exact .inr ⟨h3, h2⟩
        · exact .inl (by omega)))]
    rfl

theorem Fmt.minMax_nan (h : f.decode x = .nan ∨ f.decode y = .nan) : f.minMax larger x y = f.nan := by
  unfold minMax
  dsimp only
  rcases h with h | h
  · rw [h, show FVal.isNan .nan = true from rfl, Bool.true_or, if_pos rfl]
  · rw [h, show FVal.isNan .nan = true from rfl, Bool.or_true, if_pos rfl]

theorem laneFormat_of_floating (h : isFloating t = true) :
    vfmt t ∈ [fp32, bf16, fp16] ∧ (vfmt t).kind = .ieee ∧ laneWidth t = (vfmt t).eb + (vfmt t).mb + 1 := by
  revert t
  decide

theorem floatingLane_results (h : isFloating t = true) (hx : x < 2 ^ laneWidth t) (hy : y < 2 ^ laneWidth t) :
    ((vfmt t).decode x = .nan ∨ (vfmt t).decode y = .nan → ∀ l, minMaxLane t u l x y = (vfmt t).nan) ∧
      ((vfmt t).decode x ≠ .nan → (vfmt t).decode y ≠ .nan →
        minMaxLane t u false x y = (if signOrder (laneWidth t) x ≤ signOrder (laneWidth t) y then x else y) ∧
        minMaxLane t u true x y = (if signOrder (laneWidth t) x ≤ signOrder (laneWidth t) y then y else x)) ∧
      ∀ j, (absLane t x).testBit j = (x.testBit j && decide (j ≠ laneWidth t - 1)) ∧
        (negLane t x).testBit j = (x.testBit j ^^ decide (j = laneWidth t - 1)) := by
  obtain ⟨hmem, hk, hw⟩ := laneFormat_of_floating h
  have hmm (l : Bool) : minMaxLane t u l x y = (vfmt t).minMax l x y := if_pos h
  have habs : absLane t x = x % 2 ^ (laneWidth t - 1) := if_pos h
  have hneg : negLane t x = x ^^^ 2 ^ (laneWidth t - 1) := if_pos h
  refine ⟨fun hn l => (hmm l).trans (Fmt.minMax_nan hn), fun hdx hdy => ?_, fun j => ⟨?_, ?_⟩⟩
  · have heq (l : Bool) := (hmm l).trans (Fmt.minMax_eq (sound_of_lane hmem) hk hw hx hy hdx hdy)
    exact ⟨heq false, heq true⟩
  · rw [habs, Nat.testBit_mod_two_pow]
    rcases Nat.lt_trichotomy j (laneWidth t - 1) with hlt | heq | hgt
    · rw [decide_eq_true hlt, decide_eq_true (by omega), Bool.true_and, Bool.and_true]
    · rw [decide_eq_false (by omega), decide_eq_false (by omega), Bool.false_and, Bool.and_false]
    · rw [Nat.testBit_lt_two_pow (Nat.lt_of_lt_of_le hx (Nat.pow_le_pow_right Nat.two_pos (by omega))), Bool.and_false,
        Bool.false_and]
  · rw [hneg, Nat.testBit_xor, Nat.testBit_two_pow]
    congr 1
    exact decide_eq_decide.2 eq_comm

end

/-! ## Lanes of a result -/

section
variable {w i n : Nat}

/-- The number whose digits of width `w` are a list, lowest first. -/
def digitsNat (w : Nat) (xs : List Nat) : Nat := xs.foldr (fun x acc => x % 2 ^ w + 2 ^ w * acc) 0

theorem digit_digitsNat (xs : List Nat) (i : Nat) (hi : i < xs.length) :
    digitsNat w xs / 2 ^ (w * i) % 2 ^ w = xs[i] % 2 ^ w := by
  have hpos := Nat.two_pow_pos w
  induction xs generalizing i with
  | nil => exact absurd hi (Nat.not_lt_zero _)
  | cons x xs ih =>
    rw [digitsNat, List.foldr_cons]
    cases i with
    | zero => simp
    | succ i =>
      rw [Nat.mul_succ, Nat.add_comm (w * i) w, Nat.pow_add, ← Nat.div_div_eq_div_mul,
        Nat.add_mul_div_left _ _ hpos, Nat.div_eq_of_lt (Nat.mod_lt _ hpos), Nat.zero_add]
      exact ih i (Nat.lt_of_succ_lt_succ hi)

theorem lane_ofLanes (xs : List Nat) (hi : i < xs.length) (hw : w * (i + 1) ≤ 512) :
    lane w (ofLanes w xs) i = xs[i] % 2 ^ w := by
  rw [← digit_digitsNat xs i hi, lane, ofLanes, BitVec.toNat_ofNat]
  rw [Nat.mul_succ] at hw
  rw [show 512 = w * i + (512 - w * i) by omega, Nat.pow_add, Nat.mod_mul_right_div_self,
    Nat.mod_mod_of_dvd _ (Nat.pow_dvd_pow 2 (by omega))]
  rfl

/-- A result computed lane by lane, with the flags of all its lanes. -/
def lanewise (w : Nat) (f : Nat → Nat × BitVec 5) : BitVec 512 × BitVec 5 :=
  let rs := (List.range (512 / w)).map f
  (ofLanes w (rs.map (·.1)), rs.foldl (fun fl r => fl ||| r.2) flagNone)

variable {f : Nat → Nat × BitVec 5}

theorem lanesAre_lanewise : LanesAre w (lanewise w f).1 (fun i => (f i).1) := by
  intro i hi
  have hw : w * (i + 1) ≤ 512 := Nat.le_trans (Nat.mul_le_mul_left w hi) (Nat.mul_div_le 512 w)
  unfold lanewise
  rw [lane_ofLanes _ (by simpa using hi) hw]
  simp

theorem flags_lanewise : (lanewise w f).2 = orFlags (512 / w) (fun i => (f i).2) := by
  unfold lanewise orFlags
  dsimp only
  rw [List.foldl_map]
  rfl

theorem mapLanes_eq_lanewise (g : Nat → Nat × BitVec 5) (x : BitVec 512) :
    mapLanes w g x = lanewise w (fun i => g (lane w x i)) := by
  unfold mapLanes lanewise lanesOf
  rw [List.map_map]
  rfl

theorem map_zip_lanesOf {α : Type} (g : Nat × Nat × Nat → α) (x y z : BitVec 512) :
    ((lanesOf w x).zip ((lanesOf w y).zip (lanesOf w z))).map g =
      (List.range (512 / w)).map (fun i => g (lane w x i, lane w y i, lane w z i)) := by
  unfold lanesOf
  rw [List.zip_map', List.zip_map', List.map_map]
  rfl

theorem zipLanes_eq_lanewise (g : Nat → Nat → Nat × BitVec 5) (x y : BitVec 512) :
    zipLanes w g x y = lanewise w (fun i => g (lane w x i) (lane w y i)) := by
  unfold zipLanes lanewise lanesOf
  rw [List.zip_map', List.map_map]
  rfl

end

/-! ## The instructions -/

/-- `o` is what a lane operation of vector registers does: where no stream holds it back, its result is `f` lane by lane, its
flags are those of all lanes, and its next issue is `n` cycles away. -/
def State.VecDoes (s : State) (o : Host.Outcome State Fault Refusal) (reads : List (BitVec 4)) (d : BitVec 4) (n w : Nat)
    (f : Nat → Nat × BitVec 5) : Prop :=
  s.enabled.streamGate reads [d] = .ok none →
    ∃ q, o = .next (s.enabled.vectorDone reads d q (orFlags (512 / w) (fun i => (f i).2)) n) ∧
      LanesAre w q (fun i => (f i).1)

section
variable {s : State} {g t r : BitVec 3} {d a b : BitVec 4} {u : BitVec 1} {reads : List (BitVec 4)} {n w : Nat}
  (hp : s.me.pred g = true)
include hp

theorem State.vector_does {f : State → BitVec 512 × BitVec 5} {h : Nat → Nat × BitVec 5}
    (hf : f s.enabled = lanewise w h) : s.VecDoes (s.vector g reads d n f) reads d n w h := by
  intro hgate
  refine ⟨(lanewise w h).1, ?_, lanesAre_lanewise⟩
  rw [← flags_lanewise, ← hf]
  unfold State.vector State.actV State.act
  refine State.nextV_ok hp ?_
  exact act_after hgate

theorem State.vecArith_does (f : Fmt → Rnd → FVal → FVal → Nat × BitVec 5) :
    s.VecDoes (s.vecArith g d t a b r n f) [a, b] d n (laneWidth t) (fun i =>
      f (vfmt t) (s.enabled.me.rounding r).plain ((vfmt t).decode (lane (laneWidth t) (s.enabled.readVec a) i))
        ((vfmt t).decode (lane (laneWidth t) (s.enabled.readVec b) i))) := by
  unfold State.vecArith floatPairs
  exact State.vector_does hp (zipLanes_eq_lanewise _ _ _)

theorem State.vecMinMax_does (larger : Bool) :
    s.VecDoes (s.vecMinMax g d t a b u larger) [a, b] d 8 (laneWidth t) (fun i =>
      (minMaxLane t u larger (lane (laneWidth t) (s.enabled.readVec a) i) (lane (laneWidth t) (s.enabled.readVec b) i),
        0#5)) := by
  unfold State.vecMinMax
  exact State.vector_does hp (zipLanes_eq_lanewise _ _ _)

theorem State.vecUnary_does (f : Nat → Nat) : s.VecDoes (s.vecUnary g d t a f) [a] d 8 (laneWidth t) (fun i =>
    (f (lane (laneWidth t) (s.enabled.readVec a) i), 0#5)) := by
  unfold State.vecUnary
  exact State.vector_does hp (mapLanes_eq_lanewise _ _)

theorem State.vecSpecial_does (code : Nat) : s.VecDoes (s.vecSpecial g d t a code) [a] d 16 (laneWidth t) (fun i =>
    specialLane t code (lane (laneWidth t) (s.enabled.readVec a) i)) := by
  unfold State.vecSpecial
  exact State.vector_does hp (mapLanes_eq_lanewise _ _)

theorem State.vecFma_does (np na : Bool) : s.VecDoes (s.vecFma g d t a b r np na) [a, b, d] d 8 (laneWidth t) (fun i =>
    (vfmt t).fma (s.enabled.me.rounding r).plain np na ((vfmt t).decode (lane (laneWidth t) (s.enabled.readVec a) i))
      ((vfmt t).decode (lane (laneWidth t) (s.enabled.readVec b) i))
      ((vfmt t).decode (lane (laneWidth t) (s.enabled.readVec d) i))) := by
  unfold State.vecFma
  refine State.vector_does hp ?_
  dsimp only
  rw [map_zip_lanesOf]
  rfl

theorem execVsqrt_does : s.VecDoes (execVsqrt g d t a r s) [a] d 24 (laneWidth t) (fun i =>
    (vfmt t).sqrt (s.enabled.me.rounding r).plain
      ((vfmt t).decode (lane (laneWidth t) (s.enabled.readVec a) i))) := by
  unfold execVsqrt
  exact State.vector_does hp (mapLanes_eq_lanewise _ _)

end

/-! ## The statement -/

/-- The results and flags of operands that are not finite, and the roots. -/
theorem Fmt.special_rows {f : Fmt} (hf : f ∈ [fp32, bf16, fp16]) (mode : Rnd) (a b c : FVal) (n n' o np na : Bool)
    (m m' : Nat) (e e' : Int) :
    let infinity (x : Bool) : Nat × BitVec 5 := (f.sign x + f.infinity, flagNone)
    let quiet : Nat × BitVec 5 := (f.nan, flagNone)
    let invalid : Nat × BitVec 5 := (f.nan, flagNV)
    let x : FVal := .fin n m e
    let y : FVal := .fin n' m' e'
    (a = .nan ∨ b = .nan → f.add mode a b = quiet ∧ f.mul mode a b = quiet ∧ f.div mode a b = quiet ∧
      f.fma mode np na a b c = quiet) ∧
    f.add mode (.inf n) (.inf n') = (if n = n' then infinity n else invalid) ∧
    f.add mode (.inf n) y = infinity n ∧ f.add mode x (.inf n') = infinity n' ∧
    FVal.neg .nan = .nan ∧ FVal.neg (.inf n) = .inf (!n) ∧ x.neg = .fin (!n) m e ∧
    f.mul mode (.inf n) (.inf n') = infinity (n != n') ∧
    f.mul mode (.inf n) y = (if m' = 0 then invalid else infinity (n != n')) ∧
    f.mul mode x (.inf n') = (if m = 0 then invalid else infinity (n != n')) ∧
    f.div mode (.inf n) (.inf n') = invalid ∧ f.div mode (.inf n) y = infinity (n != n') ∧
    f.div mode x (.inf n') = (f.sign (n != n'), flagNone) ∧
    (m' = 0 → f.fma mode np na (.inf n) y c = invalid ∧ f.fma mode np na y (.inf n) c = invalid) ∧
    (let z := (n != n') ^^ np
     ((a = .inf n ∧ b = .inf n') ∨ (a = .inf n ∧ b = y ∧ m' ≠ 0) ∨ (a = x ∧ b = .inf n' ∧ m ≠ 0)) →
      f.fma mode np na a b (.inf o) = (if z = (o ^^ na) then infinity z else invalid) ∧
      f.fma mode np na a b .nan = quiet ∧ ∀ k l, f.fma mode np na a b (.fin o k l) = infinity z) ∧
    f.fma mode np na x y .nan = quiet ∧ f.fma mode np na x y (.inf o) = infinity (o ^^ na) ∧
    f.sqrt mode .nan = quiet ∧ f.sqrt mode (.inf n) = (if n then invalid else infinity false) ∧
    (m = 0 → f.sqrt mode x = (f.sign n, flagNone)) ∧ (m ≠ 0 → n = true → f.sqrt mode x = invalid) ∧
    ∀ k, f.decode k = x → m ≠ 0 → n = false → mode ≠ .sr → f.RootRounding mode m e (f.sqrt mode x) := by
  have hneg : (if na then FVal.neg .nan else .nan) = .nan := ite_self _
  refine ⟨nan_operand, add_inf_inf, rfl, rfl, rfl, rfl, rfl, rfl, mul_inf_fin, mul_fin_inf, rfl, rfl, rfl, ?_, ?_, ?_, ?_,
    rfl, ?_, fun h0 => if_pos h0, ?_, ?_⟩
  · rintro rfl
    exact ⟨rfl, rfl⟩
  · intro z h
    refine ⟨?_, ?_, fun k l => ?_⟩
    · rw [fma_inf rfl h, FVal.neg_inf_if, add_inf_inf]
    · rw [fma_inf rfl h, hneg, add_nan]
    · rw [fma_inf rfl h]
      cases na <;> rfl
  · rw [fma_fin_fin, hneg, add_nan]
  · rw [fma_fin_fin, FVal.neg_inf_if]
    rfl
  · cases n
    · exact congrArg (·, flagNone) (Nat.zero_add f.infinity).symm
    · rfl
  · rintro h0 rfl
    exact (if_neg h0).trans (if_pos rfl)
  · rintro k hk h0 rfl hmode
    exact sqrt_rootRounding hf hmode hk h0

/-- Settles O25: operands that are not finite go by the rows of `Fmt.special_rows`, roots by `Fmt.sqrt_rootRounding`, minima and
maxima by the order of the patterns, and every instruction applies its operation lane by lane. -/
theorem vectorFloatResults : Obligations.VectorFloatResults := by
  unfold Obligations.VectorFloatResults
  refine ⟨fun f hf mode a b c n n' o np na m m' e e' => Fmt.special_rows hf mode a b c n n' o np na m m' e e',
    fun t u x y hx hy => ⟨fun h => integerLane_results h hx, fun h => floatingLane_results h hx hy⟩,
    fun s g t r d a b u hp => ?_⟩
  intro v w m mode x y z does
  refine ⟨?_, ?_, ?_, ?_, ?_, ?_, ?_, ?_, ?_, ?_, ?_, ?_, ?_, ?_, ?_, ?_, ?_, ?_, ?_⟩
  · exact State.vecArith_does hp (fun m mode x y => m.add mode x y)
  · exact State.vecArith_does hp (fun m mode x y => m.add mode x y.neg)
  · exact State.vecArith_does hp (fun m mode x y => m.mul mode x y)
  · exact State.vecArith_does hp (fun m mode x y => m.div mode x y)
  · exact execVsqrt_does hp
  · exact State.vecFma_does hp false false
  · exact State.vecFma_does hp false true
  · exact State.vecFma_does hp true false
  · exact State.vecFma_does hp true true
  · exact State.vecMinMax_does hp false
  · exact State.vecMinMax_does hp true
  · exact State.vecUnary_does hp (absLane t)
  · exact State.vecUnary_does hp (negLane t)
  · exact State.vecSpecial_does hp 0
  · exact State.vecSpecial_does hp 1
  · exact State.vecSpecial_does hp 2
  · exact State.vecSpecial_does hp 3
  · exact State.vecSpecial_does hp 4
  · exact State.vecSpecial_does hp 5


end Sys2Proof.Machine
end

section
/-! THEOREM. Decoding the word of a well-formed instruction gives the instruction back (O56): what a field of a word put
together from fields holds, and each row of the opcode map. -/

namespace Sys2Proof.Machine

/-! ## Fields of a word put together -/

/-- A field that straddles the halves of a word holds a value where each half holds its part. -/
theorem extractLsb'_straddles {m n s k : Nat} {x : BitVec m} {y : BitVec n} {c : BitVec k} (hs : s < n) (hk : n - s < k) :
    (x ++ y).extractLsb' s k = c ↔ x.extractLsb' 0 (k - (n - s)) = c.extractLsb' (n - s) (k - (n - s)) ∧
      y.extractLsb' s (n - s) = c.extractLsb' 0 (n - s) := by
  constructor
  · rintro rfl
    constructor <;> ext i hi <;> simp [BitVec.getLsbD_append] <;> grind
  · rintro ⟨hx, hy⟩
    ext i hi
    have hx := congrArg (BitVec.getLsbD · (i - (n - s))) hx
    have hy := congrArg (BitVec.getLsbD · i) hy
    simp [BitVec.getLsbD_append] at hx hy ⊢
    split <;> grind

/-- A field of a word in two halves: it lies in the upper half, in the lower half, or in both. -/
theorem extractLsb'_append {m n : Nat} (x : BitVec m) (y : BitVec n) (s k : Nat) :
    (n ≤ s → (x ++ y).extractLsb' s k = x.extractLsb' (s - n) k) ∧
    (s + k ≤ n → (x ++ y).extractLsb' s k = y.extractLsb' s k) ∧
    ∀ c, s < n → n - s < k → ((x ++ y).extractLsb' s k = c ↔
      x.extractLsb' 0 (k - (n - s)) = c.extractLsb' (n - s) (k - (n - s)) ∧
        y.extractLsb' s (n - s) = c.extractLsb' 0 (n - s)) :=
  ⟨BitVec.extractLsb'_append_eq_of_le, BitVec.extractLsb'_append_eq_of_add_le, fun _ => extractLsb'_straddles⟩

/-- The word of `nop`, field by field (R77). -/
theorem eq_nop_iff (w : BitVec 32) : w = 1#32 ↔ w.extractLsb' 10 22 = 0#22 ∧ w.extractLsb' 0 10 = 1#10 := by
  have h : w = w.extractLsb' 10 22 ++ w.extractLsb' 0 10 := by
    rw [BitVec.extractLsb'_append_extractLsb'_eq_extractLsb' (by decide), BitVec.extractLsb'_eq_self]
  constructor
  · rintro rfl
    decide
  · rintro ⟨h1, h2⟩
    rw [h, h1, h2]
    decide

/-! ## The rows of the opcode map

In each row the fields first say which branch of the decoder the word takes; what that branch reads as operands are then the
whole fields again. The widths stay the sums that the encoder writes, as the laws above read the halves of a word off them. -/

/-- Decoding the word of a well-formed instruction gives the instruction back. -/
structure RoundTrips (i : Instr) : Prop where
  decode_encode : ∀ n w, i.wf = true → encode i = some (n, w) → decodeBits n w = .ok i

section
variable {i : Instr}

theorem checkWf_some (h : i.wf = true) : checkWf (some i) = .ok i := if_pos h

theorem roundTrips_event (he : encode i = none) : RoundTrips i := ⟨fun n w _ h => by simp [he] at h⟩

theorem roundTrips_long {w : BitVec 32} (he : encode i = some (4, w)) (hd : i.wf = true → decodeRaw32 w = some i) :
    RoundTrips i := by
  refine ⟨fun n v hwf h => ?_⟩
  obtain ⟨rfl, rfl⟩ : 4 = n ∧ w = v := by simpa [he] using h
  rw [decodeBits, if_neg (by decide), decode32, hd hwf, checkWf_some hwf]

theorem roundTrips_short {w : BitVec 16} (he : encode i = some (2, w.setWidth 32)) (hd : decodeRaw16 w = some i) :
    RoundTrips i := by
  refine ⟨fun n v hwf h => ?_⟩
  obtain ⟨rfl, rfl⟩ : 2 = n ∧ w.setWidth 32 = v := by simpa [he] using h
  have hw : (w.setWidth 32).extractLsb' 0 16 = w := by
    rw [BitVec.extractLsb'_setWidth_of_le (by decide), BitVec.extractLsb'_eq_self]
  rw [decodeBits, if_pos rfl, hw, decode16, hd, checkWf_some hwf]

end

/-- The register forms of major 0x00 (R71). -/
theorem roundTrips_integer :
    (∀ g d a b, RoundTrips (.sub g d a b)) ∧ (∀ g d a b, RoundTrips (.and g d a b)) ∧
    (∀ g d a b, RoundTrips (.or g d a b)) ∧ (∀ g d a b, RoundTrips (.xor g d a b)) ∧
    (∀ g d a b, RoundTrips (.shl g d a b)) ∧ (∀ g d a b, RoundTrips (.shr g d a b)) ∧
    (∀ g d a b, RoundTrips (.sar g d a b)) ∧ (∀ g d a b, RoundTrips (.mul g d a b)) ∧
    (∀ g d a b, RoundTrips (.mulh g d a b)) ∧ (∀ g d a b, RoundTrips (.mulhz g d a b)) ∧
    (∀ g d a b, RoundTrips (.div g d a b)) ∧ (∀ g d a b, RoundTrips (.divz g d a b)) ∧
    (∀ g d a b, RoundTrips (.rem g d a b)) ∧ (∀ g d a b, RoundTrips (.remz g d a b)) ∧
    (∀ g d a b, RoundTrips (.min g d a b)) ∧ (∀ g d a b, RoundTrips (.max g d a b)) ∧
    (∀ g d a b, RoundTrips (.minz g d a b)) ∧ (∀ g d a b, RoundTrips (.maxz g d a b)) ∧
    (∀ g d a b, RoundTrips (.clm g d a b)) ∧ (∀ g d a b, RoundTrips (.clmh g d a b)) ∧
    (∀ g d a, RoundTrips (.clz g d a)) ∧ (∀ g d a, RoundTrips (.ctz g d a)) ∧ (∀ g d a, RoundTrips (.pcnt g d a)) ∧
    (∀ g d a, RoundTrips (.bswp g d a)) ∧ (∀ g d a, RoundTrips (.mov g d a)) ∧ (∀ g d a, RoundTrips (.sext8 g d a)) ∧
    (∀ g d a, RoundTrips (.sext16 g d a)) ∧ (∀ g d a, RoundTrips (.sext32 g d a)) ∧
    (∀ g d a, RoundTrips (.zext8 g d a)) ∧ (∀ g d a, RoundTrips (.zext16 g d a)) ∧
    (∀ g d a, RoundTrips (.zext32 g d a)) ∧ (∀ g d p a b, RoundTrips (.sel g d p a b)) ∧
    (∀ g d a n, RoundTrips (.shli g d a n)) ∧ (∀ g d a n, RoundTrips (.shri g d a n)) ∧
    (∀ g d a n, RoundTrips (.sari g d a n)) ∧ RoundTrips .nop := by
  and_intros
  all_goals
    intros
    refine roundTrips_long rfl fun _ => ?_
    simp (disch := decide) [decodeRaw32, decodeMajor00, extractLsb'_append, eq_nop_iff, -Nat.reduceAdd,
      -BitVec.extractLsb'_toNat, -BitVec.extractLsb'_eq_self]
  all_goals
    simp (disch := decide) [BitVec.extractLsb'_append_extractLsb'_eq_extractLsb', -Nat.reduceAdd]

/-- Immediates, bit fields, capabilities and compares: majors 0x01 to 0x0F (R72, R74 to R76). -/
theorem roundTrips_immediate :
    (∀ g d a i, RoundTrips (.addi g d a i)) ∧ (∀ g d a i, RoundTrips (.andi g d a i)) ∧
    (∀ g d a i, RoundTrips (.ori g d a i)) ∧ (∀ g d a i, RoundTrips (.xori g d a i)) ∧
    (∀ g d i, RoundTrips (.lhi g d i)) ∧ (∀ g d a o l, RoundTrips (.bfx g d a o l)) ∧
    (∀ g d a o l, RoundTrips (.bfi g d a o l)) ∧ (∀ g d a b, RoundTrips (.cbnd g d a b)) ∧
    (∀ g d a b, RoundTrips (.cprm g d a b)) ∧ (∀ g d a s, RoundTrips (.cget g d a s)) ∧
    (∀ g d a, RoundTrips (.cfrz g d a)) ∧ (∀ g d a, RoundTrips (.cmv g d a)) ∧ (∀ g d a, RoundTrips (.ctst g d a)) ∧
    (∀ g d a b, RoundTrips (.cadd g d a b)) ∧ (∀ g d a b, RoundTrips (.cmint g d a b)) ∧
    (∀ g d a i, RoundTrips (.caddImm g d a i)) ∧ (∀ g p q t c a b, RoundTrips (.cmp g p q t c a b)) ∧
    (∀ g p q t c a i, RoundTrips (.cmpi g p q t c a i)) ∧ (∀ g p q t c a b, RoundTrips (.fcmp g p q t c a b)) ∧
    (∀ g p q t c a b, RoundTrips (.pcmb g p q t c a b)) := by
  and_intros
  all_goals
    intros
    refine roundTrips_long rfl fun _ => ?_
    simp (disch := decide) [decodeRaw32, decodeMajor01, decodeMajor02, decodeMajor03, decodeMajor04, decodeMajor05,
      decodeMajor06, decodeMajor07, decodeMajor08, decodeMajor09, decodeMajor0C, decodeMajor0D, decodeMajor0E,
      decodeMajor0F, extractLsb'_append, eq_nop_iff, -Nat.reduceAdd, -BitVec.extractLsb'_toNat,
      -BitVec.extractLsb'_eq_self]
  all_goals simp

/-- Branches, jumps, the repetition and the extension registers: majors 0x10 to 0x17 (R73, R77). -/
theorem roundTrips_control :
    (∀ g o, RoundTrips (.br g o)) ∧ (∀ o, RoundTrips (.j o)) ∧ (∀ g o, RoundTrips (.jal g o)) ∧
    (∀ g d a, RoundTrips (.jr g d a)) ∧ (∀ g a, RoundTrips (.ret g a)) ∧
    (∀ g t c l s r, RoundTrips (.rep g t c l s r)) ∧ (∀ g e k i, RoundTrips (.lxi g e k i)) ∧
    (∀ g e k i, RoundTrips (.lxiZ g e k i)) ∧ (∀ g d a, RoundTrips (.mvxToE g d a)) ∧
    (∀ g d a, RoundTrips (.mvxFromE g d a)) := by
  and_intros
  all_goals
    intros
    refine roundTrips_long rfl fun _ => ?_
    simp (disch := decide) [decodeRaw32, decodeMajor10, decodeMajor11, decodeMajor12, decodeMajor13, decodeMajor14,
      decodeMajor15, decodeMajor16, decodeMajor17, extractLsb'_append, eq_nop_iff, -Nat.reduceAdd,
      -BitVec.extractLsb'_toNat, -BitVec.extractLsb'_eq_self]
  all_goals
    simp (disch := decide) [BitVec.extractLsb'_append_extractLsb'_eq_extractLsb', -Nat.reduceAdd]

/-- Loads, stores, the stack and fences: majors 0x18 to 0x1F (R78). -/
theorem roundTrips_memory :
    (∀ g d a o s, RoundTrips (.ld g d a o s)) ∧ (∀ g d a o s, RoundTrips (.st g d a o s)) ∧
    (∀ g d a o s, RoundTrips (.ldF g d a o s)) ∧ (∀ g d a o s, RoundTrips (.ldFc g d a o s)) ∧
    (∀ g d a o s, RoundTrips (.stE g d a o s)) ∧ (∀ g d a o, RoundTrips (.ldc g d a o)) ∧
    (∀ g d a o, RoundTrips (.stc g d a o)) ∧ (∀ g d a o, RoundTrips (.vld g d a o)) ∧
    (∀ g d a o, RoundTrips (.vst g d a o)) ∧ (∀ g d a b w, RoundTrips (.vlds g d a b w)) ∧
    (∀ g d a b w, RoundTrips (.vsts g d a b w)) ∧ (∀ g d a b w, RoundTrips (.vldg g d a b w)) ∧
    (∀ g d a b w, RoundTrips (.vstx g d a b w)) ∧ (∀ g d a, RoundTrips (.pushm g d a)) ∧
    (∀ g d a, RoundTrips (.popm g d a)) ∧ (∀ g, RoundTrips (.fenceFar g)) ∧ (∀ g, RoundTrips (.fenceEng g)) ∧
    (∀ g, RoundTrips (.fenceCore g)) := by
  and_intros
  all_goals
    intros
    refine roundTrips_long rfl fun _ => ?_
    simp (disch := decide) [decodeRaw32, decodeMajor18, decodeMajor19, decodeMajor1A, decodeMajor1B, decodeMajor1C,
      decodeMajor1D, decodeMajor1E, decodeMajor1F, extractLsb'_append, eq_nop_iff, -Nat.reduceAdd,
      -BitVec.extractLsb'_toNat, -BitVec.extractLsb'_eq_self]
  all_goals simp

/-- Atomics, contributions and seals: majors 0x20 to 0x23 (R79). -/
theorem roundTrips_atomic :
    (∀ g d a b w, RoundTrips (.amoAdd g d a b w)) ∧ (∀ g d a b w, RoundTrips (.amoAnd g d a b w)) ∧
    (∀ g d a b w, RoundTrips (.amoOr g d a b w)) ∧ (∀ g d a b w, RoundTrips (.amoXor g d a b w)) ∧
    (∀ g d a b w, RoundTrips (.amoMin g d a b w)) ∧ (∀ g d a b w, RoundTrips (.amoMax g d a b w)) ∧
    (∀ g d a b w, RoundTrips (.amoMinz g d a b w)) ∧ (∀ g d a b w, RoundTrips (.amoMaxz g d a b w)) ∧
    (∀ g d a b w, RoundTrips (.amoSwp g d a b w)) ∧ (∀ g d a b w, RoundTrips (.amoCas g d a b w)) ∧
    (∀ g d a b w, RoundTrips (.vamoAdd g d a b w)) ∧ (∀ g d a b w, RoundTrips (.vamoAnd g d a b w)) ∧
    (∀ g d a b w, RoundTrips (.vamoOr g d a b w)) ∧ (∀ g d a b w, RoundTrips (.vamoXor g d a b w)) ∧
    (∀ g d a b w, RoundTrips (.vamoMin g d a b w)) ∧ (∀ g d a b w, RoundTrips (.vamoMax g d a b w)) ∧
    (∀ g d a b w, RoundTrips (.vamoMinz g d a b w)) ∧ (∀ g d a b w, RoundTrips (.vamoMaxz g d a b w)) ∧
    (∀ g d a b w, RoundTrips (.vamoSwp g d a b w)) ∧ (∀ g a b l f, RoundTrips (.acc g a b l f)) ∧
    (∀ g d a b, RoundTrips (.maccMx8 g d a b)) ∧ (∀ g d a b, RoundTrips (.maccMx4 g d a b)) ∧
    (∀ g a k f, RoundTrips (.seal g a k f)) ∧ (∀ g a b, RoundTrips (.feSet g a b)) ∧
    (∀ g a b, RoundTrips (.feClr g a b)) := by
  and_intros
  all_goals
    intros
    refine roundTrips_long rfl fun _ => ?_
    simp (disch := decide) [decodeRaw32, decodeMajor20, decodeMajor21, decodeMajor22, decodeMajor23,
      extractLsb'_append, eq_nop_iff, -Nat.reduceAdd, -BitVec.extractLsb'_toNat, -BitVec.extractLsb'_eq_self]
  all_goals simp

/-- Vector arithmetic: majors 0x24 to 0x29 (R80 to R82). -/
theorem roundTrips_vectorFloat :
    (∀ g d t a b r, RoundTrips (.vadd g d t a b r)) ∧ (∀ g d t a b r, RoundTrips (.vsub g d t a b r)) ∧
    (∀ g d t a b r, RoundTrips (.vmul g d t a b r)) ∧ (∀ g d t a b u, RoundTrips (.vmin g d t a b u)) ∧
    (∀ g d t a b u, RoundTrips (.vmax g d t a b u)) ∧ (∀ g d t a, RoundTrips (.vabs g d t a)) ∧
    (∀ g d t a, RoundTrips (.vneg g d t a)) ∧ (∀ g d t a b r, RoundTrips (.vdiv g d t a b r)) ∧
    (∀ g d t a r, RoundTrips (.vsqrt g d t a r)) ∧ (∀ g d t a b r, RoundTrips (.vfma g d t a b r)) ∧
    (∀ g d t a b r, RoundTrips (.vfms g d t a b r)) ∧ (∀ g d t a b r, RoundTrips (.vfnma g d t a b r)) ∧
    (∀ g d t a b r, RoundTrips (.vfnms g d t a b r)) ∧ (∀ g d t a, RoundTrips (.vrcp g d t a)) ∧
    (∀ g d t a, RoundTrips (.vrsq g d t a)) ∧ (∀ g d t a, RoundTrips (.vex2 g d t a)) ∧
    (∀ g d t a, RoundTrips (.vlg2 g d t a)) ∧ (∀ g d t a, RoundTrips (.vtanh g d t a)) ∧
    (∀ g d t a, RoundTrips (.vsin g d t a)) ∧ (∀ g d a e s r, RoundTrips (.vcvt g d a e s r)) ∧
    (∀ g d t a b r, RoundTrips (.vdot g d t a b r)) ∧ (∀ g d t a r, RoundTrips (.vredsum g d t a r)) ∧
    (∀ g d t a, RoundTrips (.vredmax g d t a)) ∧ (∀ g d t a, RoundTrips (.vredmin g d t a)) ∧
    (∀ g t a b, RoundTrips (.vredx g t a b)) ∧ (∀ g d t c a b u, RoundTrips (.vcmp g d t c a b u)) := by
  and_intros
  all_goals
    intros
    refine roundTrips_long rfl fun _ => ?_
    simp (disch := decide) [decodeRaw32, decodeMajor24, decodeMajor25, decodeMajor26, decodeMajor27, decodeMajor28,
      decodeMajor29, extractLsb'_append, eq_nop_iff, -Nat.reduceAdd, -BitVec.extractLsb'_toNat,
      -BitVec.extractLsb'_eq_self]
  all_goals
    simp (disch := decide) [BitVec.extractLsb'_append_extractLsb'_eq_extractLsb', -Nat.reduceAdd]

/-- Vector logic, integer lanes and permutes: majors 0x2A to 0x2C (R80, R82). -/
theorem roundTrips_vectorInteger :
    (∀ g d a b, RoundTrips (.vand g d a b)) ∧ (∀ g d a b, RoundTrips (.vor g d a b)) ∧
    (∀ g d a b, RoundTrips (.vxor g d a b)) ∧ (∀ g d t a b, RoundTrips (.vsel g d t a b)) ∧
    (∀ g d t a b, RoundTrips (.viadd g d t a b)) ∧ (∀ g d t a b, RoundTrips (.visub g d t a b)) ∧
    (∀ g d t a b, RoundTrips (.vimul g d t a b)) ∧ (∀ g d t a b, RoundTrips (.vshl g d t a b)) ∧
    (∀ g d t a b, RoundTrips (.vshr g d t a b)) ∧ (∀ g d t a b, RoundTrips (.vsar g d t a b)) ∧
    (∀ g d t a, RoundTrips (.vpcnt g d t a)) ∧ (∀ g d t a b, RoundTrips (.vclm g d t a b)) ∧
    (∀ g d t a b, RoundTrips (.vperm g d t a b)) ∧ (∀ g d t a idx, RoundTrips (.vshuf g d t a idx)) ∧
    (∀ g d t a idx, RoundTrips (.vslideUp g d t a idx)) ∧ (∀ g d t a idx, RoundTrips (.vslideDn g d t a idx)) ∧
    (∀ g d t a, RoundTrips (.vsplat g d t a)) ∧ (∀ g d t a idx, RoundTrips (.vins g d t a idx)) ∧
    (∀ g d t a idx, RoundTrips (.vext g d t a idx)) ∧ (∀ g d t a, RoundTrips (.vmov g d t a)) := by
  and_intros
  all_goals
    intros
    refine roundTrips_long rfl fun _ => ?_
    simp (disch := decide) [decodeRaw32, decodeMajor2A, decodeMajor2B, decodeMajor2C, extractLsb'_append, eq_nop_iff,
      -Nat.reduceAdd, -BitVec.extractLsb'_toNat, -BitVec.extractLsb'_eq_self]
  all_goals
    simp (disch := decide) [BitVec.extractLsb'_append_extractLsb'_eq_extractLsb', -Nat.reduceAdd]

/-- Streams, channels and alternatives: majors 0x34 to 0x39 (R83, R84). -/
theorem roundTrips_channel :
    (∀ g d a b, RoundTrips (.sbindIn g d a b)) ∧ (∀ g d a b, RoundTrips (.sbindOut g d a b)) ∧
    (∀ g d, RoundTrips (.sfree g d)) ∧ (∀ g d a, RoundTrips (.sskip g d a)) ∧ (∀ g a h, RoundTrips (.chset g a h)) ∧
    (∀ g h, RoundTrips (.chclr g h)) ∧ (∀ g d h, RoundTrips (.chst g d h)) ∧ (∀ g a h, RoundTrips (.snd g a h)) ∧
    (∀ g a h, RoundTrips (.sndv g a h)) ∧ (∀ g a h, RoundTrips (.bsnd g a h)) ∧ (∀ g d h, RoundTrips (.rcv g d h)) ∧
    (∀ g d h, RoundTrips (.rcvv g d h)) ∧ (∀ g a h, RoundTrips (.brcv g a h)) ∧ (∀ g d a, RoundTrips (.alt g d a)) ∧
    (∀ g d a, RoundTrips (.altP g d a)) ∧ (∀ g d a b, RoundTrips (.altD g d a b)) ∧
    (∀ g d a b, RoundTrips (.altPD g d a b)) := by
  and_intros
  all_goals
    intros
    refine roundTrips_long rfl fun _ => ?_
    simp (disch := decide) [decodeRaw32, decodeMajor34, decodeMajor36, decodeMajor37, decodeMajor38, decodeMajor39,
      extractLsb'_append, eq_nop_iff, -Nat.reduceAdd, -BitVec.extractLsb'_toNat, -BitVec.extractLsb'_eq_self]
  all_goals simp

/-- Engines, barriers, strands and the system: majors 0x3A to 0x3E (R85 to R88). -/
theorem roundTrips_system :
    (∀ g d a b s, RoundTrips (.mxq g d a b s)) ∧ (∀ g d a b m, RoundTrips (.cpq g d a b m)) ∧
    (∀ g a, RoundTrips (.jwait g a)) ∧ (∀ g d a, RoundTrips (.jst g d a)) ∧ (∀ g, RoundTrips (.mxf g)) ∧
    (∀ g b, RoundTrips (.barr g b)) ∧ (∀ g b, RoundTrips (.barw g b)) ∧ (∀ g b, RoundTrips (.bar g b)) ∧
    (∀ g a, RoundTrips (.wtu g a)) ∧ (∀ g d, RoundTrips (.rdt g d)) ∧ (∀ g a b k, RoundTrips (.spwn g a b k)) ∧
    (∀ g, RoundTrips (.hlt g)) ∧ (∀ g a, RoundTrips (.ckpt g a)) ∧ (∀ g a, RoundTrips (.mig g a)) ∧
    (∀ g d k, RoundTrips (.sstat g d k)) ∧ (∀ g a, RoundTrips (.trap g a)) ∧ (∀ g, RoundTrips (.eret g)) ∧
    (∀ g a, RoundTrips (.dbg g a)) ∧ (∀ g d a, RoundTrips (.rmap g d a)) ∧ (∀ g d a, RoundTrips (.chmint g d a)) ∧
    (∀ g d a, RoundTrips (.pmint g d a)) := by
  and_intros
  all_goals
    intros
    refine roundTrips_long rfl fun _ => ?_
    simp (disch := decide) [decodeRaw32, decodeMajor3A, decodeMajor3B, decodeMajor3C, decodeMajor3D, decodeMajor3E,
      extractLsb'_append, eq_nop_iff, -Nat.reduceAdd, -BitVec.extractLsb'_toNat, -BitVec.extractLsb'_eq_self]
  all_goals simp

/-- The 16-bit forms (R67). -/
theorem roundTrips_halfwords :
    (∀ d s, RoundTrips (.mov16 d s)) ∧ (∀ d i s, RoundTrips (.addi16 d i s)) ∧ (∀ d s, RoundTrips (.add16 d s)) ∧
    (∀ d i s, RoundTrips (.ld16 d i s)) ∧ (∀ d i s, RoundTrips (.st16 d i s)) ∧ (∀ n o, RoundTrips (.br16 n o)) ∧
    (∀ o, RoundTrips (.j16 o)) ∧ (∀ d s, RoundTrips (.snd16 d s)) ∧ (∀ d s, RoundTrips (.rcv16 d s)) ∧
    RoundTrips .nop16 ∧ RoundTrips .rlx := by
  and_intros
  all_goals
    intros
    refine roundTrips_short rfl ?_
    simp (disch := decide) [decodeRaw16, extractLsb'_append, -Nat.reduceAdd, -BitVec.extractLsb'_eq_self]
  all_goals simp

/-! ## The rows whose word depends on a check -/

/-- `add c0, c0, c0` under p0 is the word of `nop`, not one of `add` (R77). -/
theorem roundTrips_add (g : BitVec 3) (d a b : BitVec 5) : RoundTrips (.add g d a b) := by
  refine roundTrips_long rfl fun hwf => ?_
  have hn : ((b = 0#5 ∧ a = 0#5) ∧ d = 0#5) → ¬ g = 0#3 := by
    rintro ⟨⟨rfl, rfl⟩, rfl⟩ rfl
    exact absurd hwf (by decide)
  simp (disch := decide) [decodeRaw32, decodeMajor00, extractLsb'_append, eq_nop_iff, -Nat.reduceAdd,
    -BitVec.extractLsb'_toNat, -BitVec.extractLsb'_eq_self]
  simpa using hn

/-- The numbers of the control registers lie below those of the other operations of major 0x3E (R35, R88). -/
theorem ne_of_controlNumber {c n : BitVec 12} (hc : controlNumber c = true) (hn : 0x04D ≤ n.toNat) : ¬ c = n := by
  rintro rfl
  simp only [controlNumber, Bool.or_eq_true, Bool.and_eq_true, decide_eq_true_eq] at hc
  omega

section
variable {c : BitVec 12} (g : BitVec 3) {d a : BitVec 5} (hc : controlNumber c = true)
include hc

theorem decodeRaw32_csrr : decodeRaw32 (c ++ 0#5 ++ d ++ 62#6 ++ g ++ 1#1) = some (.csrr g d c) := by
  simp (disch := decide) [decodeRaw32, decodeMajor3E, extractLsb'_append, eq_nop_iff, -Nat.reduceAdd,
    -BitVec.extractLsb'_toNat, -BitVec.extractLsb'_eq_self]
  simp (disch := decide) [ne_of_controlNumber hc]

theorem decodeRaw32_csrw (ha : a ≠ 0#5) : decodeRaw32 (c ++ a ++ 62#11 ++ g ++ 1#1) = some (.csrw g c a) := by
  simp (disch := decide) [decodeRaw32, decodeMajor3E, extractLsb'_append, eq_nop_iff, -Nat.reduceAdd,
    -BitVec.extractLsb'_toNat, -BitVec.extractLsb'_eq_self]
  simp (disch := decide) [ne_of_controlNumber hc, ha]

theorem decodeRaw32_csrx (hd : d ≠ 0#5) (ha : a ≠ 0#5) :
    decodeRaw32 (c ++ a ++ d ++ 62#6 ++ g ++ 1#1) = some (.csrx g d c a) := by
  simp (disch := decide) [decodeRaw32, decodeMajor3E, extractLsb'_append, eq_nop_iff, -Nat.reduceAdd,
    -BitVec.extractLsb'_toNat, -BitVec.extractLsb'_eq_self]
  simp (disch := decide) [ne_of_controlNumber hc, hd, ha]

end

/-- The accesses of the control registers, where each names the registers that it needs (R88). -/
theorem roundTrips_csr (g : BitVec 3) (d a : BitVec 5) (c : BitVec 12) :
    RoundTrips (.csrr g d c) ∧ RoundTrips (.csrw g c a) ∧ RoundTrips (.csrx g d c a) := by
  refine ⟨roundTrips_long rfl fun h => ?_, roundTrips_long rfl fun h => ?_, roundTrips_long rfl fun h => ?_⟩ <;>
    simp only [Instr.wf, Bool.and_eq_true, bne_iff_ne] at h
  · obtain ⟨hc, -⟩ := h
    exact decodeRaw32_csrr g hc
  · obtain ⟨hc, ha⟩ := h
    exact decodeRaw32_csrw g hc ha
  · obtain ⟨⟨hc, hd⟩, ha⟩ := h
    exact decodeRaw32_csrx g hc hd ha

/-! ## Every instruction -/

theorem roundTrips (i : Instr) : RoundTrips i := by
  cases i with
  | add => exact roundTrips_add _ _ _ _
  | csrr g d c => exact (roundTrips_csr g d 0 c).1
  | csrw g c a => exact (roundTrips_csr g 0 a c).2.1
  | csrx g d c a => exact (roundTrips_csr g d a c).2.2
  | _ =>
    simp (disch := decide) only [roundTrips_integer, roundTrips_immediate, roundTrips_control, roundTrips_memory,
      roundTrips_atomic, roundTrips_vectorFloat, roundTrips_vectorInteger, roundTrips_channel, roundTrips_system,
      roundTrips_halfwords, roundTrips_event]

/-- Settles O56, row by row of the opcode map. -/
theorem encodeDecodeAgree : Obligations.EncodeDecodeAgree := fun i => (roundTrips i).decode_encode

end Sys2Proof.Machine
end

section
/-! THEOREM. What a step runs (O54): the event or the issue that comes next, and what an issue fetches and presents. -/

namespace Sys2Proof.Machine

/-! ## The act that comes next -/

section
variable {s : State} {d : Due} {rest : List Due} {t p k : Nat}

theorem step_event (h : s.nextAct = .event d rest) (hstop : s.stopped d = false) (hstray : s.strayed d = false) :
    step s = exec d.event (s.atEvent d rest) := by
  simp [step, h, hstop, hstray]

theorem step_issue_ends {u : State} (h : s.nextAct = .issue t p k) (hi : s.issue t p k = (u, none)) :
    step s = .next u.afterIssue := by
  simp only [step, h, hi]

theorem step_issue_runs {u : State} {i : Instr} (h : s.nextAct = .issue t p k) (hi : s.issue t p k = (u, some i)) :
    step s = runIssued u i := by
  simp only [step, h, hi]

end

/-! ## What runs -/

/-- What an issue answers after the meanings it ran answer `o`: where they give a state, what a debugged slot adds (R224). -/
def afterRun (o : Host.Outcome State Fault Refusal) : Host.Outcome State Fault Refusal :=
  match o with
  | .next y => .next y.afterIssue
  | o => o

section
variable {s : State} {i j : Instr}

/-- An instruction that is no pair runs alone (R60). -/
theorem runIssued_single (h : isPair s.cur.bits = false) : runIssued s i = afterRun (exec i s) := by
  unfold runIssued
  cases exec i s with
  | next s' => simp only [h, Bool.false_and, afterRun]
  | fault r => rfl
  | refused r => rfl

theorem exec_rlx_legal (h : pairLegal s.cur.bits = true) :
    exec .rlx s = .next { s with cur := { s.cur with relaxed := true } } :=
  congrArg Host.Outcome.next (if_pos h)

/-- The second half of a legal pair runs, marked relaxed (R69). -/
theorem runIssued_pair (h : isPair s.cur.bits = true) (hl : pairLegal s.cur.bits = true)
    (hj : secondHalf s.cur.bits = some j) :
    runIssued s .rlx = afterRun (exec j { s with cur := { s.cur with relaxed := true } }) := by
  simp only [runIssued, exec_rlx_legal hl, h, hj, Bool.and_true]
  rfl

end

/-! ## What an issue presents -/

/-- The state in which the instruction of these bits acts. -/
def State.holding (s : State) (len : Nat) (bits : BitVec 48) : State :=
  { s with cur := { s.cur with len := len, bits := bits } }

theorem Strand.hazards_nil {x : Strand} (h : x.far = []) (i : Instr) : x.hazards i = [] := by
  simp [Strand.hazards, h]

section
variable {s : State} {len : Nat} {bits : BitVec 48} {i j : Instr}

theorem decodeFetched_single (h : isPair bits = false) :
    decodeFetched len bits = (decodeBits len (bits.extractLsb' 0 32)).toOption := by
  simp only [decodeFetched, h, Bool.false_eq_true, if_false]
  cases decodeBits len (bits.extractLsb' 0 32) <;> rfl

theorem decodeFetched_pair (h : isPair bits = true) : decodeFetched len bits = some .rlx := if_pos h

/-- Bits that decode to nothing, and an illegal pair, trap (R69, R89). -/
theorem State.present_illegal
    (h : decodeFetched len bits = none ∨ isPair bits = true ∧ pairLegal bits = false) :
    s.present len bits =
      ((s.holding len bits).takeTrap (trapIllegal (s.holding len bits).instrBits), none) := by
  obtain h | ⟨hp, hl⟩ := h
  · simp only [State.present, h]
    rfl
  · simp only [State.present, decodeFetched_pair hp, hp, hl, if_true, Bool.false_eq_true, if_false]
    rfl

/-- Outside a repetition and with no far access outstanding, an instruction acts at once. -/
theorem State.present_acts (hrep : s.me.rep = none) (hfar : s.me.far = []) (h : decodeFetched len bits = some i)
    (hsecond : (if isPair bits then (if pairLegal bits then secondHalf bits else none) else some i) = some j) :
    s.present len bits = (s.holding len bits, some i) := by
  have hme : ({ s with cur := { s.cur with len := len, bits := bits } } : State).me = s.me := rfl
  simp only [State.present, h, hsecond, hme, hrep, Strand.hazards_nil hfar]
  simp [State.holding]

end

/-! ## What an issue fetches -/

/-- The state in which slot `k` of core `p` fetches at `t`. -/
def State.fetching (s : State) (t p k : Nat) : State :=
  { s with now := t, cur := { core := p, slot := k, pc := (s.strand p k).pc, len := 4, bits := 0#48, relaxed := false } }.modMe
    (fun y => { y with popped := [] })

section
variable {s : State} {t p k len : Nat} {bits : BitVec 48}

theorem State.me_fetching : (s.fetching t p k).me = { s.strand p k with popped := [] } := State.me_modMe ..

/-- A strand without a repetition, a pending trap or an outstanding far access presents what it fetches (R60). -/
theorem State.issue_presents (htrap : (s.strand p k).pendTrap = none) (hrep : (s.strand p k).rep = none)
    (hfar : (s.strand p k).far = [])
    (hf : (s.fetching t p k).fetchInstr p (s.strand p k) (s.strand p k).pc = .ok (len, bits)) :
    s.issue t p k = ((s.fetching t p k).modMe (fun y => y.capture len bits)).present len bits := by
  have hrefused : (s.fetching t p k).refusedRelaxed = none := by
    simp [State.refusedRelaxed, State.me_fetching, hfar]
  rw [State.fetching] at hrefused hf
  simp only [State.issue, htrap, hrefused, Strand.replayWord, hrep, hf, Strand.restagger, State.fetching]

end

/-- The state in which what a strand fetched acts: with its bits captured in a repetition (R128). -/
def State.fetched (s : State) (t p k len : Nat) (bits : BitVec 48) : State :=
  ((s.fetching t p k).modMe (fun y => y.capture len bits)).holding len bits

section
variable {s : State} {t p k len : Nat} {bits : BitVec 48} {i j : Instr} (h : s.nextAct = .issue t p k)
  (htrap : (s.strand p k).pendTrap = none) (hrep : (s.strand p k).rep = none) (hfar : (s.strand p k).far = [])
  (hf : (s.fetching t p k).fetchInstr p (s.strand p k) (s.strand p k).pc = .ok (len, bits))
include h htrap hrep hfar hf

theorem step_illegal (hi : decodeFetched len bits = none ∨ isPair bits = true ∧ pairLegal bits = false) :
    step s = .next ((s.fetched t p k len bits).takeTrap (trapIllegal (s.fetched t p k len bits).instrBits)).afterIssue :=
  step_issue_ends h ((State.issue_presents htrap hrep hfar hf).trans (State.present_illegal hi))

theorem step_runs (hi : decodeFetched len bits = some i)
    (hsecond : (if isPair bits then (if pairLegal bits then secondHalf bits else none) else some i) = some j) :
    step s = runIssued (s.fetched t p k len bits) i := by
  have hme : ((s.fetching t p k).modMe (fun y => y.capture len bits)).me = { s.strand p k with popped := [] } := by
    rw [State.me_modMe, State.me_fetching]
    simp only [Strand.capture, hrep]
  refine step_issue_runs h ((State.issue_presents htrap hrep hfar hf).trans (State.present_acts ?_ ?_ hi hsecond))
  · rw [hme]
    exact hrep
  · rw [hme]
    exact hfar

end

/-- Settles O54: the event is performed, or the issue presents what it fetches, which traps or runs. -/
theorem stepRunsDecoded : Obligations.StepRunsDecoded := by
  unfold Obligations.StepRunsDecoded
  refine ⟨fun s d rest h hstop hstray => step_event h hstop hstray, fun s t p k len bits => ?_⟩
  intro x u v w h htrap hrep hfar hf
  refine ⟨fun i hp hd => ?_, fun e hp hd => ?_, fun j hp hl hd => ?_, fun hp hl => ?_⟩
  · have hi : decodeFetched len bits = some i := by rw [decodeFetched_single hp, hd]; rfl
    exact (step_runs h htrap hrep hfar hf hi (j := i) (by rw [hp]; rfl)).trans (runIssued_single hp)
  · exact step_illegal h htrap hrep hfar hf (.inl (by rw [decodeFetched_single hp, hd]; rfl))
  · have hj : secondHalf bits = some j := by rw [secondHalf, hd]
    exact (step_runs h htrap hrep hfar hf (decodeFetched_pair hp) (by rw [if_pos hp, if_pos hl, hj])).trans
      (runIssued_pair hp hl hj)
  · exact step_illegal h htrap hrep hfar hf (.inr ⟨hp, hl⟩)

end Sys2Proof.Machine
end

section
/-! THEOREM. The system operations, the pan-table operations, `ckpt` and `mig` (O35): the mode and the checks that each has,
and the effect or the request that follows them. -/

namespace Sys2Proof.Machine

/-! ## The checks -/

section
variable {s : State} {b : Bool} {t : Trap} {f : Unit → Act} {n : Nat}

/-- What follows a condition that holds. -/
theorem act_need (h : b = true) : (need b t >>= f) = f () := act_after ((need_ok_iff ..).2 h)

/-- What follows the mode check in a mode that is high enough (R88). -/
theorem State.act_checkMode (h : n ≤ s.me.mode) : (s.checkMode n >>= f) = f () := act_need (decide_eq_true h)

/-- In a mode below the least, the check traps (R88). -/
theorem State.act_checkMode_error (h : s.me.mode < n) :
    (s.checkMode n >>= f) = .error (trapPrivileged s.instrBits) := by
  rw [State.checkMode, decide_eq_false (Nat.not_le.2 h)]
  rfl

theorem Strand.mode_pos {x : Strand} (h : x.mode ≠ 0) : 1 ≤ x.mode := Nat.one_le_iff_ne_zero.2 h

end

/-! ## The system operations -/

/-- The operand of `dbg` that names operation `n` of slot `j`: its fields, and no other bit (R224). -/
theorem dbg_operand : ∀ j < 8, ∀ n < 3,
    (BitVec.ofNat 64 (j + 16 * n) >>> 8 == 0#64 && !(BitVec.ofNat 64 (j + 16 * n)).getLsbD 3 &&
        decide (((BitVec.ofNat 64 (j + 16 * n)).extractLsb' 4 4).toNat ≤ 2)) = true ∧
      ((BitVec.ofNat 64 (j + 16 * n)).extractLsb' 4 4).toNat = n ∧
      ((BitVec.ofNat 64 (j + 16 * n)).extractLsb' 0 3).toNat = j := by
  decide

section
variable {s : State} {g : BitVec 3} {d a : BitVec 5} (hg : s.me.pred g = true)
include hg

theorem exec_system_privileged (hm : s.me.mode = 0) : ∀ i ∈ [Instr.dbg g a, .rmap g d a, .chmint g d a, .pmint g d a],
    exec i s = .next (s.takeTrap (trapPrivileged s.instrBits)) := by
  have hmode : ∀ n, 0 < n → s.me.mode < n := fun n h => hm ▸ h
  simp only [List.forall_mem_cons, List.not_mem_nil, false_imp_iff, implies_true, and_true]
  exact ⟨State.next_error hg (State.act_checkMode_error (hmode 1 (by decide))),
    State.next_error hg (State.act_checkMode_error (hmode 3 (by decide))),
    State.next_error hg (State.act_checkMode_error (hmode 1 (by decide))),
    State.next_error hg (State.act_checkMode_error (hmode 1 (by decide)))⟩

/-- `dbg` with an operand that names operation `n` of slot `j` (R224). -/
theorem exec_dbg (hm : s.me.mode ≠ 0) {j n : Nat} (hj : j < 8) (hn : n < 3) (hw : (s.me.val a).toNat = j + 16 * n) :
    exec (.dbg g a) s = .next (if n = 0 then s.advance.postCore s.cur.core 0 .debugHalt (args s.cur.core j)
      else if s.advance.occupied s.cur.core j && (s.advance.strand s.cur.core j).halt then
        s.advance.modStrand s.cur.core j (fun x => { x with halt := false, stepOne := n == 2 })
      else s.advance) := by
  obtain ⟨hrest, hop, hslot⟩ := dbg_operand j hj n hn
  have hv : BitVec.ofNat 64 (j + 16 * n) = s.me.val a := by rw [← hw, BitVec.ofNat_toNat, BitVec.setWidth_eq]
  rw [hv] at hrest hop hslot
  refine State.next_ok hg <| (State.act_checkMode (Strand.mode_pos hm)).trans <| (act_need hrest).trans ?_
  simp only [hop, hslot, State.advance_cur]
  split
  · rfl
  · split <;> rfl

theorem exec_rmap (hm : s.me.mode = 3) (hw : s.me.val a >>> 19 = 0#64)
    (hb : ((s.me.val a).extractLsb' 0 16).toNat < 55296) :
    let blk := ((s.me.val a).extractLsb' 0 16).toNat
    let l := ((s.me.val a).extractLsb' 16 3).toNat
    exec (.rmap g d a) s = .next ((s.sendFrom s.cur.core false (.lane (8 * blk + l)) 1
      (.remap s.cur.core s.cur.slot blk l ((s.me.val d).extractLsb' 0 4)) 0).waitNext .remap) := by
  intro blk l
  refine State.next_ok hg ((State.act_checkMode hm.ge).trans (act_need ?_))
  rw [hw, decide_eq_true hb]
  rfl

theorem exec_chmint (hm : s.me.mode ≠ 0) (hw : s.me.val a >>> 29 = 0#64) (hp : s.peerInside (s.me.val a) = true)
    (hd : s.mayWrite d) :
    exec (.chmint g d a) s = .next ((s.modMe (fun x => x.setReg d (channelCap (s.me.val a)))).advance) :=
  State.next_ok hg <| (State.act_checkMode (Strand.mode_pos hm)).trans <| (act_need (by rw [hw]; rfl)).trans <|
    (act_need hp).trans <| act_after ((s.writable_iff d).2 hd)

end

theorem exec_rlx_illegal {s : State} (h : pairLegal s.cur.bits = false) :
    exec .rlx s = .next (s.takeTrap (trapIllegal s.instrBits)) :=
  congrArg Host.Outcome.next (if_neg (by rw [h]; exact Bool.false_ne_true))

/-! ## The pan-table operations -/

/-- What a `pmint` of a sound record does with the capability that the record's fields give (R227, R228, R384). -/
def State.minted (s : State) (d a : BitVec 5) (m : MintRecord) (q : Word) : State :=
  let op := s.tableOp 1 d a { tag := true, val := BitVec.ofNat 64 m.va, mt := q }
  if s.replaying || m.kind == 0xB then (s.modMe (fun x => x.tableDone op)).advance
  else if m.kind = 4 then s.startTable op (s.sliceOf s.mySp m.va).toList (.check m.va m.size)
  else s.startTable op (s.sliceSet s.mySp m.va) (.mint m.va m.size m.kind m.fmt m.ncon s.myCore.lcn)

section
variable {s : State} {d a : BitVec 5} {m : MintRecord} {q : Word}

/-- An exclusive pan, an accumulate master and a save area are entered at the slices. -/
theorem State.minted_pan (hr : s.replaying = false) (hk : m.kind = 2 ∨ m.kind = 5 ∨ m.kind = 9) :
    s.minted d a m q = s.startTable (s.tableOp 1 d a { tag := true, val := BitVec.ofNat 64 m.va, mt := q })
      (s.sliceSet s.mySp m.va) (.mint m.va m.size m.kind m.fmt m.ncon s.myCore.lcn) := by
  have h4 : ¬ m.kind = 4 := by omega
  have hB : ¬ m.kind = 0xB := by omega
  simp [State.minted, hr, h4, hB]

/-- A contributor is checked at one slice. -/
theorem State.minted_contributor (hr : s.replaying = false) (hk : m.kind = 4) :
    s.minted d a m q = s.startTable (s.tableOp 1 d a { tag := true, val := BitVec.ofNat 64 m.va, mt := q })
      (s.sliceOf s.mySp m.va).toList (.check m.va m.size) := by
  simp [State.minted, hr, hk]

/-- A capability to host memory names no pan of the slices: it is written at once. -/
theorem State.minted_host (hk : m.kind = 0xB) :
    s.minted d a m q =
      (s.modMe (fun x => x.setReg d { tag := true, val := BitVec.ofNat 64 m.va, mt := q })).advance := by
  simp [State.minted, hk, Strand.tableDone, State.tableOp]

end

section
variable {s : State} {g : BitVec 3} {d a : BitVec 5} {k : BitVec 1} {f : BitVec 2} (hg : s.me.pred g = true)
include hg

/-- A `cfrz` whose checks pass asks the slices of its pan (R117). -/
theorem exec_cfrz (ht : (s.me.reg a).tag = true) (hk : (s.me.reg a).kind = 2) (hx : (s.me.reg a).has 5 = true)
    (hm : s.mayMove d a) (hsl : (s.sliceOf s.mySp (s.me.reg a).bounds.1.toNat).isSome = true) (hfar : s.me.farOut = [])
    (hr : s.replaying = false) :
    exec (.cfrz g d a) s = .next (s.startTable (s.tableOp 0 d a (freezeReg (s.me.reg a)))
      (s.sliceSet s.mySp (s.me.reg a).bounds.1.toNat)
      (.freeze (s.me.reg a).bounds.1.toNat (s.me.reg a).bounds.2.toNat)) := by
  obtain ⟨hwrite, hzero⟩ := hm
  have hd : d ≠ 0#5 := hzero (by rw [CReg.linear, ht, hk]; rfl)
  have hfence : ∀ h : State → Act, s.fenceFirst h = h s := fun h => State.fenceFirst_clear h hfar
  refine State.next_ok hg <| (act_need (by rw [ht, hk]; rfl)).trans <| (act_need hx).trans <|
    (act_need (bne_iff_ne.2 hd)).trans ?_
  by_cases hda : d = a
  · rw [if_neg (not_not_intro hda)]
    refine (act_need hsl).trans ((hfence _).trans ?_)
    rw [hr]
    rfl
  · rw [if_pos hda]
    refine (act_after ((s.writable_iff d).2 (hwrite.resolve_left hda))).trans <| (act_need hsl).trans <|
      (hfence _).trans ?_
    rw [hr]
    rfl

/-- A `seal` of a contributor tells its slices that it is done (R153). -/
theorem exec_seal_contributor (ht : (s.me.reg a).tag = true) (hk : (s.me.reg a).kind = 4) (hx : (s.me.reg a).has 6 = true)
    (hsl : (s.sliceOf s.mySp (s.me.reg a).bounds.1.toNat).isSome = true) (hfar : s.me.farOut = [])
    (hr : s.replaying = false) :
    exec (.seal g a k f) s = .next (s.startTable (s.tableOp 2 a a CReg.zero)
      (s.sliceSet s.mySp (s.me.reg a).bounds.1.toNat) (.done (s.me.reg a).bounds.1.toNat)) := by
  refine State.next_ok hg <| (act_need (by rw [ht, hk]; rfl)).trans <| (act_need (by rw [if_pos hk, hx])).trans <|
    (act_need hsl).trans <| (State.fenceFirst_clear _ hfar).trans ?_
  simp only [hr, hk, if_true, Bool.false_eq_true, if_false]

/-- A `seal` of a master asks its slices to convert the pan (R154). -/
theorem exec_seal_master (ht : (s.me.reg a).tag = true) (hk : (s.me.reg a).kind = 5) (hx : (s.me.reg a).has 5 = true)
    (hsl : (s.sliceOf s.mySp (s.me.reg a).bounds.1.toNat).isSome = true) (hfar : s.me.farOut = [])
    (hr : s.replaying = false) :
    let rm := (s.me.fmode.extractLsb' 0 3).toNat
    exec (.seal g a k f) s = .next (s.startTable (s.tableOp 3 a a (sealedReg (s.me.reg a) k))
      (s.sliceSet s.mySp (s.me.reg a).bounds.1.toNat)
      (.master (s.me.reg a).bounds.1.toNat f.toNat (k == 1#1) (if rm = 4 then 0 else rm))) := by
  intro rm
  have h4 : ¬ (s.me.reg a).kind = 4 := by rw [hk]; decide
  refine State.next_ok hg <| (act_need (by rw [ht, hk]; rfl)).trans <| (act_need (by rw [if_neg h4, hx])).trans <|
    (act_need hsl).trans <| (State.fenceFirst_clear _ hfar).trans ?_
  simp only [hr, h4, Bool.false_eq_true, if_false]
  rfl

theorem exec_pmint {q : Word} (hm : s.me.mode ≠ 0) (ht : (s.me.reg a).tag = true) (hk : (s.me.reg a).kind = 1)
    (hl : (s.me.reg a).has 0 = true) (hb : (s.me.reg a).inBounds (s.me.reg a).val.toNat 32 = true) (hd : s.mayWrite d)
    (hal : (s.me.reg a).val.toNat % 16 = 0) :
    let m := mintRecord (s.spBytes (s.me.reg a).val.toNat 32)
    m.sound = true → (isHomed m.va = true → (s.part s.mySp).homeSliceOf (homeSlice m.va) = true) →
    ((m.kind == 0xB && !isHomed m.va) || (s.sliceOf s.mySp m.va).isSome) = true →
    narrowMeta (setPerm (setKind 0#64 m.kind) (m.perm &&& (mintMask m.kind).getD 0#12)) m.va m.size = some q →
    exec (.pmint g d a) s = .next (s.minted d a m q) := by
  intro m hsound hhome hplace hq
  have hunits : (!isHomed m.va || (s.part s.mySp).homeSliceOf (homeSlice m.va)) = true := by
    cases hh : isHomed m.va with
    | false => rfl
    | true => exact hhome hh
  refine State.next_ok hg <| (State.act_checkMode (Strand.mode_pos hm)).trans <|
    (act_need (by rw [ht, hk]; rfl)).trans <| (act_need hl).trans <| (act_after (checkBounds_ok hb)).trans <|
    (act_after ((s.writable_iff d).2 hd)).trans <| (act_after (checkAlign_ok (by exact_mod_cast hal))).trans <|
    (act_need hsound).trans <| (act_need hplace).trans <| (act_need hunits).trans ?_
  simp only [m] at hq
  simp only [hq, State.minted]
  split
  · rfl
  · split <;> rfl

end

/-! ## Crystals and moves -/

section
variable {s : State} {g : BitVec 3} {a : BitVec 5} (hg : s.me.pred g = true)
include hg

/-- A `ckpt` whose checks pass waits for the end of another crystal, or takes one (R219). -/
theorem exec_ckpt {c : CrystalDesc} (ht : (s.me.reg a).tag = true) (hk : (s.me.reg a).kind = 1)
    (hon : s.crystalOn s.cur.core = true) (hl : (s.me.reg a).has 0 = true)
    (hb : (s.me.reg a).inBounds (s.me.reg a).val.toNat 64 = true) (hal : (s.me.reg a).val.toNat % 16 = 0)
    (hc : crystalDesc (s.spBytes (s.me.reg a).val.toNat 64) = some c) (hsize : s.myCore.crystalBytes c ≤ 28672)
    (hbuddy : (s.buddyOf s.cur.core).isSome = true) :
    exec (.ckpt g a) s = .next (
      if s.myCore.crystal.writing.isSome then s.waitAgain (.ckptFirst s.cur.len s.cur.bits)
      else (s.waitNext .ckpt).takeCrystal s.cur.core (some s.cur.slot) ((s.me.reg a).val.toNat % 2 ^ 18)
        (s.spBytes (s.me.reg a).val.toNat 64) c) := by
  refine State.next_ok hg <| (act_need (by rw [ht, hk]; rfl)).trans <| (act_need hon).trans <| (act_need hl).trans <|
    (act_after (checkBounds_ok hb)).trans <| (act_after (checkAlign_ok (by exact_mod_cast hal))).trans ?_
  simp only [hc]
  refine (act_need (decide_eq_true hsize)).trans <| (act_need hbuddy).trans ?_
  split <;> rfl

/-- A `mig` whose checks pass ships the strand's record to the port (R220). -/
theorem exec_mig (hw : (s.me.val a).extractLsb' 26 38 = 0#38) (hst : s.me.streams = [])
    (he : s.myCore.ends.find? (fun e => e.2.boundTo s.cur.slot) = none) (hlin : s.me.linearReg = none)
    (hstay : s.me.stayingReg = none) (hfar : s.me.farOut = []) :
    let b := granuleBytes s.shipRecord
    exec (.mig g a) s = .next ((s.sendFrom s.cur.core false (.port ((s.me.val a).extractLsb' 19 7).toNat) (b.length / 32)
      (.ship ((s.me.val a).extractLsb' 0 19).toNat s.cur.core s.cur.slot b (granuleTags s.shipRecord)) 0).waitNext
        (.mig (s.me.val a))) := by
  intro b
  refine State.next_ok hg ?_
  simp only [he]
  refine (act_need (by rw [hst]; rfl)).trans <| (act_need (by rw [hw]; rfl)).trans ?_
  simp only [hstay, hlin]
  exact State.fenceFirst_clear _ hfar

end

/-- Settles O35, operation by operation. -/
theorem systemOperations : Obligations.SystemOperations := by
  unfold Obligations.SystemOperations
  intro s g d a k f hg r w base
  refine ⟨exec_system_privileged hg, fun hm hw => ?_, fun j hj n hm hn hw => ?_, fun hm => exec_rmap hg hm, exec_chmint hg,
    ?_, exec_cfrz hg,
    fun ht hsl hfar hr => ⟨fun hk hx => exec_seal_contributor hg ht hk hx hsl hfar hr,
      fun hk hx => exec_seal_master hg ht hk hx hsl hfar hr⟩,
    fun ht hk hon hl hb hal c hc hsize hbuddy => ?_, exec_mig hg, exec_rlx_legal, exec_rlx_illegal⟩
  · rw [Nat.mod_eq_of_lt hw]
    exact exec_dbg hg hm hw (n := 0) (by decide) rfl
  · have hn0 : n ≠ 0 := by omega
    exact (exec_dbg hg hm hj (by omega) hw).trans (congrArg _ (if_neg hn0))
  · intro hm ht hk hl hb hd hal m hsound hhome q hq c op
    have hmint := fun hplace => exec_pmint hg hm ht hk hl hb hd hal hsound hhome hplace hq
    refine ⟨fun hsl hr => ?_, fun hkind hflat => ?_⟩
    · have hplace : (m.kind == 0xB && !isHomed m.va || (s.sliceOf s.mySp m.va).isSome) = true := by
        rw [hsl, Bool.or_true]
      exact ⟨fun hkind => (hmint hplace).trans (congrArg _ (State.minted_pan hr hkind)),
        fun hkind => (hmint hplace).trans (congrArg _ (State.minted_contributor hr hkind))⟩
    · exact (hmint (by rw [hkind, hflat]; rfl)).trans (congrArg _ (State.minted_host hkind))
  · have h := exec_ckpt hg ht hk hon hl hb hal hc hsize hbuddy
    refine ⟨fun hnone => ?_, fun hsome => ?_⟩
    · rw [h, hnone]
      rfl
    · rw [h, if_pos (Option.isSome_iff_ne_none.2 hsome)]

end Sys2Proof.Machine
end

section
/-! THEOREM. The results of the integer operations (O1, O2, O3): each form is a guarded write of one integer, and the value
of each is what the spec's formula gives. -/

namespace Sys2Proof.Machine

/-! ## The forms -/

section
variable {s : State} {g : BitVec 3} {d : BitVec 5} (w : Word)

/-- With the guard 1 a write of an integer by `n` cycles, of a register that may be written, completes (R62, R101, R105). -/
theorem State.next_putIntBy (n : Nat) (hg : s.me.pred g = true) (hd : s.mayWrite d) :
    (Host.Outcome.next (if s.me.pred g then s.settle (s.putIntBy d w n) else s.advance) : Host.Outcome State Fault Refusal) =
      .next (s.wrote d w n) :=
  State.next_ok hg (State.putIntBy_ok w n hd)

theorem State.next_putInt (hg : s.me.pred g = true) (hd : s.mayWrite d) :
    (Host.Outcome.next (if s.me.pred g then s.settle (s.putInt d w) else s.advance) : Host.Outcome State Fault Refusal) =
      .next (s.wrote d w 8) :=
  State.next_putIntBy w 8 hg hd

end

/-! ## The values -/

section
variable (x y : Word)

/-- A shift by a register takes the low six bits of its count (R106). -/
theorem shiftCount_toNat : (y.extractLsb' 0 6).toNat = y.toNat % 64 := by
  rw [BitVec.extractLsb'_toNat, Nat.shiftRight_zero]

theorem minSigned_eq : minSigned x y = if y.toInt < x.toInt then y else x := by
  simp only [minSigned, ← not_le, ite_not]

theorem maxSigned_eq : maxSigned x y = if x.toInt < y.toInt then y else x := by
  by_cases h : x.toInt < y.toInt
  · rw [maxSigned, if_pos h, if_pos h.le]
  · rw [maxSigned, if_neg h]
    split
    · exact BitVec.eq_of_toInt_eq (by omega)
    · rfl

theorem minUnsigned_eq : minUnsigned x y = if y.toNat < x.toNat then y else x := by
  simp only [minUnsigned, ← not_le, ite_not]

theorem maxUnsigned_eq : maxUnsigned x y = if x.toNat < y.toNat then y else x := by
  by_cases h : x.toNat < y.toNat
  · rw [maxUnsigned, if_pos h, if_pos h.le]
  · rw [maxUnsigned, if_neg h]
    split
    · exact BitVec.eq_of_toNat_eq (by omega)
    · rfl

end

/-- Settles O1: each form writes the value of its function, which is the spec's formula. -/
theorem integerResults : Obligations.IntegerResults := by
  intro s g d a b hg hd x y
  rw [← minSigned_eq, ← maxSigned_eq, ← minUnsigned_eq, ← maxUnsigned_eq, BitVec.shiftLeft_eq', BitVec.ushiftRight_eq',
    shiftCount_toNat]
  and_intros
  all_goals
    intros
    exact State.next_putInt _ hg hd

/-! ## Bit fields -/

section
variable (x y : Word) (o l : BitVec 6) {i : Nat}

/-- An extraction moves bits `o` to `o + l` down to bit 0 (R110). -/
theorem getLsbD_extractField (hi : i < 64) :
    (extractField x o l).getLsbD i = (decide (i ≤ l.toNat) && x.getLsbD (o.toNat + i)) := by
  rw [extractField, BitVec.getLsbD_ofNat, decide_eq_true hi, Bool.true_and, Nat.testBit_mod_two_pow, Nat.testBit_div_two_pow,
    Nat.add_comm i]
  simp only [Nat.lt_succ_iff]
  rfl

/-- The bits that an insertion replaces (R110). -/
theorem testBit_fieldMask (hi : i < 64) :
    (BitVec.ofNat 64 ((2 ^ (l.toNat + 1) - 1) * 2 ^ o.toNat)).getLsbD i =
      decide (o.toNat ≤ i ∧ i ≤ o.toNat + l.toNat) := by
  rw [BitVec.getLsbD_ofNat, decide_eq_true hi, Bool.true_and, Nat.testBit_mul_two_pow, Nat.testBit_two_pow_sub_one,
    ← Bool.decide_and]
  exact decide_eq_decide.2 (by omega)

/-- An insertion moves the low bits up to `o`, and leaves the others (R110). -/
theorem getLsbD_insertField (hi : i < 64) : (insertField y x o l).getLsbD i =
    if o.toNat ≤ i ∧ i ≤ o.toNat + l.toNat then x.getLsbD (i - o.toNat) else y.getLsbD i := by
  rw [insertField, BitVec.getLsbD_or, BitVec.getLsbD_and, BitVec.getLsbD_and, BitVec.getLsbD_not, testBit_fieldMask o l hi,
    BitVec.getLsbD_shiftLeft, decide_eq_true hi, Bool.true_and]
  by_cases h : o.toNat ≤ i ∧ i ≤ o.toNat + l.toNat
  · rw [if_pos h, decide_eq_true h, decide_eq_false (by omega : ¬ i < o.toNat)]
    simp
  · rw [if_neg h, decide_eq_false h]
    simp

end

/-! ## One register and immediates -/

theorem zeroLow_eq_and (x : Word) {n m : Nat} (hm : m = 2 ^ n - 1) : zeroLow n x = x &&& BitVec.ofNat 64 m := by
  subst hm
  refine BitVec.eq_of_getLsbD_eq fun i hi => ?_
  rw [zeroLow, BitVec.getLsbD_setWidth, BitVec.getLsbD_setWidth, BitVec.getLsbD_and, BitVec.getLsbD_ofNat,
    Nat.testBit_two_pow_sub_one, decide_eq_true hi, Bool.true_and, Bool.true_and, Bool.and_comm]

/-- `lhi` shifts its immediate past the low 12 bits (R109). -/
theorem imm_mul_4096 {n : Nat} (i : BitVec n) : imm i * 4096#64 = i.signExtend 64 <<< 12 := by
  rw [imm, BitVec.shiftLeft_eq_mul_twoPow]
  rfl

/-- The short immediate is −4 to 3 in every width (R67). -/
theorem imm_short (i : BitVec 3) : imm i = imm (i.signExtend 12) := by
  revert i
  decide

/-- Settles O2: as O1; the 16-bit forms are the 32-bit ones with guard p0. -/
theorem unaryAndImmediateResults : Obligations.UnaryAndImmediateResults := by
  refine ⟨fun s g d a hg hd => ?_, fun s d a i => ?_⟩
  · intro x
    rw [← zeroLow_eq_and x (m := 0xFF) (n := 8) rfl, ← zeroLow_eq_and x (m := 0xFFFF) (n := 16) rfl,
      ← zeroLow_eq_and x (m := 0xFFFFFFFF) (n := 32) rfl]
    refine ⟨?_, ?_, ?_, ?_, ?_, ?_, ?_, ?_, ?_, ?_, ?_, fun n => ⟨?_, ?_, ?_⟩, fun i => ⟨?_, ?_, ?_, ?_⟩, fun i => ?lhi,
      fun e => ?_, fun o l _ => ⟨extractField x o l, insertField (s.me.val d) x o l, ?_, ?_, fun i hi =>
        ⟨getLsbD_extractField x o l hi, getLsbD_insertField x (s.me.val d) o l hi⟩⟩⟩
    case lhi =>
      rw [← imm_mul_4096]
      exact State.next_putInt _ hg hd
    all_goals exact State.next_putInt _ hg hd
  · have hp : s.me.pred 0#3 = true := Strand.pred_p0 _
    refine ⟨rfl, ?_, rfl, fun hd => ⟨?_, ?_, ?_⟩, rfl, rfl⟩
    · exact congrArg (fun w => s.unary 0#3 (shortReg d) (shortReg a) (· + w)) (imm_short i)
    all_goals exact State.next_putInt _ hp hd

/-! ## Divisions -/

section
variable (x : Word) {y : Word}

theorem mul_divUnsigned_add (hy : y ≠ 0#64) :
    (divUnsigned x y).toNat * y.toNat + (remUnsigned x y).toNat = x.toNat ∧ (remUnsigned x y).toNat < y.toNat := by
  have hpos : 0 < y.toNat := Nat.pos_of_ne_zero fun h => hy (BitVec.eq_of_toNat_eq h)
  have hq : x.toNat / y.toNat < 2 ^ 64 := lt_of_le_of_lt (Nat.div_le_self ..) x.isLt
  have hr : x.toNat % y.toNat < y.toNat := Nat.mod_lt _ hpos
  rw [divUnsigned, remUnsigned, if_neg hy, if_neg hy, BitVec.toNat_ofNat, BitVec.toNat_ofNat, Nat.mod_eq_of_lt hq,
    Nat.mod_eq_of_lt (hr.trans y.isLt)]
  exact ⟨by rw [Nat.mul_comm]; exact Nat.div_add_mod .., hr⟩

theorem divUnsigned_mul_add (hy : y ≠ 0#64) : x = divUnsigned x y * y + remUnsigned x y := by
  apply BitVec.eq_of_toNat_eq
  rw [BitVec.toNat_add, BitVec.toNat_mul, Nat.mod_add_mod, (mul_divUnsigned_add x hy).1, Nat.mod_eq_of_lt x.isLt]

/-- The quotient and the remainder are those of the signed values modulo 2^64 (R107). -/
theorem divSigned_mul_add (hy : y ≠ 0#64) : x = divSigned x y * y + remSigned x y := by
  rw [divSigned, remSigned, if_neg hy, if_neg hy]
  conv_lhs => rw [← BitVec.ofInt_toInt (x := x), ← Int.mul_tdiv_add_tmod x.toInt y.toInt, BitVec.ofInt_add, BitVec.ofInt_mul,
    BitVec.ofInt_toInt, BitVec.mul_comm]

theorem divSigned_eq_sdiv (hy : y ≠ 0#64) : divSigned x y = x.sdiv y := by
  rw [divSigned, if_neg hy]
  exact BitVec.eq_of_toInt_eq (by rw [BitVec.toInt_ofInt, BitVec.toInt_sdiv])

theorem remSigned_eq_srem (hy : y ≠ 0#64) : remSigned x y = x.srem y := by
  rw [remSigned, if_neg hy, ← BitVec.toInt_srem, BitVec.ofInt_toInt]

/-- The remainder is smaller than the divisor, and has the dividend's sign (R107). -/
theorem toInt_remSigned (hy : y ≠ 0#64) : (remSigned x y).toInt.natAbs < y.toInt.natAbs ∧
    ((remSigned x y).toInt = 0 ∨ (remSigned x y).toInt.sign = x.toInt.sign) := by
  have hy' : y.toInt ≠ 0 := fun h => hy (BitVec.eq_of_toInt_eq h)
  rw [remSigned_eq_srem x hy, BitVec.toInt_srem, Int.natAbs_tmod, Int.sign_tmod]
  refine ⟨Nat.mod_lt _ (Int.natAbs_pos.2 hy'), ?_⟩
  by_cases hdvd : y.toInt ∣ x.toInt
  · exact .inl (Int.tmod_eq_zero_of_dvd hdvd)
  · exact .inr (if_neg hdvd)

/-- But for the one overflow the quotient needs no reduction (R107). -/
theorem divSigned_toInt_mul_add (hy : y ≠ 0#64) (h : ¬(x = BitVec.intMin 64 ∧ y = BitVec.allOnes 64)) :
    (divSigned x y).toInt * y.toInt + (remSigned x y).toInt = x.toInt := by
  have hne : x ≠ BitVec.intMin 64 ∨ y ≠ -1#64 := by
    rw [BitVec.neg_one_eq_allOnes]
    exact not_and_or.1 h
  rw [divSigned_eq_sdiv x hy, remSigned_eq_srem x hy, BitVec.toInt_sdiv_of_ne_or_ne _ _ hne, BitVec.toInt_srem,
    Int.tdiv_mul_add_tmod]

end

/-- Settles O3: the divisions write the quotient and the remainder of `divSigned_mul_add` and `divUnsigned_mul_add`. -/
theorem divisionResults : Obligations.DivisionResults := by
  intro s g d a b hg hd x y
  refine ⟨divSigned x y, remSigned x y, divUnsigned x y, remUnsigned x y, State.next_putIntBy _ 32 hg hd,
    State.next_putIntBy _ 32 hg hd, State.next_putIntBy _ 32 hg hd, State.next_putIntBy _ 32 hg hd, fun hy => ?_,
    fun hy => ?_, fun hx hy => ?_⟩
  · exact ⟨if_pos hy, if_pos hy, if_pos hy, if_pos hy⟩
  · obtain ⟨hsum, hlt⟩ := mul_divUnsigned_add x hy
    obtain ⟨habs, hsign⟩ := toInt_remSigned x hy
    exact ⟨divSigned_mul_add x hy, divUnsigned_mul_add x hy, hlt, hsum, habs, hsign, divSigned_toInt_mul_add x hy⟩
  · rw [hx, hy]
    decide

end Sys2Proof.Machine
end

section
/-! THEOREM. The carry-less product and the bit counts, bit by bit (O4): each by induction on the number of bits. -/

namespace Sys2Proof.Machine

/-- One more bit of the multiplier adds the multiplicand, shifted, without carries (R106). -/
theorem carryLess_succ (n a b : Nat) :
    carryLess (n + 1) a b = if b.testBit n then carryLess n a b ^^^ (a <<< n) else carryLess n a b := by
  rw [carryLess, List.range_succ, List.foldl_append]
  rfl

theorem odd_succ (c : Nat) : ((c + 1) % 2 == 1) = !(c % 2 == 1) := by
  rcases Nat.mod_two_eq_zero_or_one c with h | h <;> simp [Nat.add_mod, h]

theorem testBit_carryLess (n a b i : Nat) : (carryLess n a b).testBit i =
    ((List.range n).countP (fun j => b.testBit j && decide (j ≤ i) && a.testBit (i - j)) % 2 == 1) := by
  induction n with
  | zero => simp [carryLess]
  | succ n ih =>
    rw [carryLess_succ, List.range_succ, List.countP_append, List.countP_singleton]
    cases hb : b.testBit n with
    | false => simpa using ih
    | true =>
      rw [if_pos rfl, Nat.testBit_xor, Nat.testBit_shiftLeft, ih, Bool.true_and]
      cases hbit : decide (n ≤ i) && a.testBit (i - n) with
      | false => rw [if_neg Bool.false_ne_true, Nat.add_zero, Bool.xor_false]
      | true => rw [if_pos rfl, odd_succ, Bool.xor_true]

/-- The leading zeros of the low `k` bits: all zero, and a one below them where they are not all of the bits (R106). -/
theorem leadingZeros_spec (w : Word) (k : Nat) : leadingZeros w k ≤ k ∧
    (∀ i, i < leadingZeros w k → w.getLsbD (k - 1 - i) = false) ∧
    (leadingZeros w k < k → w.getLsbD (k - 1 - leadingZeros w k) = true) := by
  induction k with
  | zero => exact ⟨le_rfl, fun _ h => absurd h (Nat.not_lt_zero _), fun h => absurd h (Nat.not_lt_zero _)⟩
  | succ k ih =>
    obtain ⟨hle, hzero, hone⟩ := ih
    rw [leadingZeros]
    cases hk : w.getLsbD k with
    | true => exact ⟨Nat.zero_le _, fun _ h => absurd h (Nat.not_lt_zero _), fun _ => hk⟩
    | false =>
      rw [if_neg Bool.false_ne_true]
      refine ⟨by omega, fun i hi => ?_, fun h => ?_⟩
      · cases i with
        | zero => exact hk
        | succ i =>
          rw [show k + 1 - 1 - (i + 1) = k - 1 - i by omega]
          exact hzero i (by omega)
      · rw [show k + 1 - 1 - (1 + leadingZeros w k) = k - 1 - leadingZeros w k by omega]
        exact hone (by omega)

/-- The trailing zeros of the bits from 64 − `k` on (R106). -/
theorem trailingZeros_spec (w : Word) {k : Nat} (hk : k ≤ 64) : trailingZeros w k ≤ k ∧
    (∀ i, i < trailingZeros w k → w.getLsbD (64 - k + i) = false) ∧
    (trailingZeros w k < k → w.getLsbD (64 - k + trailingZeros w k) = true) := by
  induction k with
  | zero => exact ⟨le_rfl, fun _ h => absurd h (Nat.not_lt_zero _), fun h => absurd h (Nat.not_lt_zero _)⟩
  | succ k ih =>
    obtain ⟨hle, hzero, hone⟩ := ih (by omega)
    have hplace : 64 - (k + 1) = 63 - k := by omega
    rw [trailingZeros, hplace]
    cases hb : w.getLsbD (63 - k) with
    | true => exact ⟨Nat.zero_le _, fun _ h => absurd h (Nat.not_lt_zero _), fun _ => hb⟩
    | false =>
      rw [if_neg Bool.false_ne_true]
      refine ⟨by omega, fun i hi => ?_, fun h => ?_⟩
      · cases i with
        | zero => exact hb
        | succ i =>
          rw [show 63 - k + (i + 1) = 64 - k + i by omega]
          exact hzero i (by omega)
      · rw [show 63 - k + (1 + trailingZeros w k) = 64 - k + trailingZeros w k by omega]
        exact hone (by omega)

theorem foldl_count {α : Type} (p : α → Bool) (l : List α) (c : Nat) :
    l.foldl (fun c i => if p i then c + 1 else c) c = c + l.countP p := by
  induction l generalizing c with
  | nil => rfl
  | cons x l ih =>
    rw [List.foldl_cons, ih, List.countP_cons]
    split <;> omega

theorem popCount_eq {n : Nat} (w : BitVec n) : popCount w = (List.range n).countP (fun i => w.getLsbD i) :=
  (foldl_count ..).trans (Nat.zero_add _)

/-- Settles O4. -/
theorem carryLessProductAndBitCounts : Obligations.CarryLessProductAndBitCounts := by
  refine ⟨testBit_carryLess, fun w => ⟨leadingZeros_spec w 64, ?_, popCount_eq w⟩⟩
  have h := trailingZeros_spec w (k := 64) le_rfl
  simpa only [Nat.sub_self, Nat.zero_add] using h

end Sys2Proof.Machine
end

section
/-! THEOREM. What a compare writes (O8): its two predicates by its type, or nothing. -/

namespace Sys2Proof.Machine

/-! ## Predicates -/

section
variable (x : Strand)

/-- A written predicate reads what was written; p0 stays 1 (R33). -/
theorem Strand.pred_setPred (q n : BitVec 3) (b : Bool) :
    (x.setPred q b).pred n = if n = 0#3 then true else if n = q then b else x.pred n := by
  by_cases hn : n = 0#3
  · rw [if_pos hn, hn]
    exact Strand.pred_p0 _
  · have hn0 : (n == 0#3) = false := beq_eq_false_iff_ne.2 hn
    rw [if_neg hn, Strand.setPred]
    by_cases hq : q = 0#3
    · rw [if_pos hq, hq, if_neg hn]
    · have hbit : ∀ q n : BitVec 3, (1#8 <<< q.toNat).getLsbD n.toNat = decide (n = q) := by decide
      have hlt : n.toNat < 8 := n.isLt
      rw [if_neg hq, Strand.pred, Strand.pred, hn0, Bool.false_or, Bool.false_or]
      cases b with
      | true =>
        rw [if_pos rfl, BitVec.getLsbD_or, hbit]
        by_cases hnq : n = q <;> simp [hnq]
      | false =>
        rw [if_neg Bool.false_ne_true, BitVec.getLsbD_and, BitVec.getLsbD_not, hbit]
        by_cases hnq : n = q <;> simp [hnq, hlt]

/-- Of a compare whose two destinations are one predicate the first result stands (R76, R124). -/
theorem Strand.pred_putPreds (p q n : BitVec 3) (r : Bool × Bool) : (x.putPreds p q r).pred n =
    if n = 0#3 then true else if n = p then r.1 else if n = q then r.2 else x.pred n := by
  rw [Strand.putPreds]
  split
  · next h =>
    rw [Strand.pred_setPred, ← h]
    by_cases hp : n = p <;> simp [hp]
  · rw [Strand.pred_setPred, Strand.pred_setPred]
    by_cases hn : n = 0#3 <;> simp [hn]

theorem Strand.setPred_eq (q : BitVec 3) (b : Bool) : x.setPred q b = { x with p := (x.setPred q b).p } := by
  rw [Strand.setPred]
  split <;> rfl

theorem Strand.putPreds_eq (p q : BitVec 3) (r : Bool × Bool) :
    x.putPreds p q r = { x with p := (x.putPreds p q r).p } := by
  rw [Strand.putPreds]
  split
  · exact x.setPred_eq p r.1
  · rw [Strand.setPred_eq (x.setPred q r.2), Strand.setPred_eq x]

/-- Where a strand goes on depends on its place in the program only (R60, R128). -/
theorem Strand.past_of_place {x y : Strand} (hpc : y.pc = x.pc) (hrep : y.rep = x.rep) (n : Nat) :
    y.past n = { y with pc := (x.past n).pc, rep := (x.past n).rep } := by
  have hplace : (y.past n).pc = (x.past n).pc ∧ (y.past n).rep = (x.past n).rep := by
    unfold Strand.past
    rw [hpc, hrep]
    split
    · exact ⟨rfl, rfl⟩
    · split
      · exact ⟨rfl, rfl⟩
      · split <;> exact ⟨rfl, rfl⟩
  rw [Strand.past_eq, hplace.1, hplace.2]

@[simp] theorem Strand.pred_past (n : Nat) (m : BitVec 3) : (x.past n).pred m = x.pred m := by
  rw [Strand.past_eq]
  rfl

end

/-! ## Compares -/

/-- What a compare of each type writes (R124). -/
theorem combineTypes_eq : ∀ (ty : BitVec 3) (x y c : Bool), combineTypes ty x y c =
    if ty = 2#3 then (x && c, y && !c) else if ty = 3#3 then (x || c, y || !c)
      else if ty = 4#3 then (x ^^ c, y ^^ c) else if ty = 5#3 then (c, y && c)
      else if ty = 6#3 then (c, y || c) else if ty = 7#3 then (c, x) else (c, !c) := by
  decide

/-- The strand that has the results `r` of a compare in its predicates and flags (R38, R124). -/
def Strand.compared (x : Strand) (p q : BitVec 3) (r : Bool × Bool) (flags : BitVec 5) : Strand :=
  (x.raise flags).putPreds p q r

theorem Strand.compared_eq (x : Strand) (p q : BitVec 3) (r : Bool × Bool) (flags : BitVec 5) :
    x.compared p q r flags =
      { x with p := (x.compared p q r flags).p, fmode := x.fmode ||| (flags.setWidth 8 <<< 3) } :=
  (x.raise flags).putPreds_eq p q r

theorem Strand.past_compared (x : Strand) (p q : BitVec 3) (r : Bool × Bool) (flags : BitVec 5) (n : Nat) :
    (x.compared p q r flags).past n =
      { x.past n with p := (x.compared p q r flags).p, fmode := x.fmode ||| (flags.setWidth 8 <<< 3) } := by
  rw [Strand.past_of_place (x := x) (by rw [Strand.compared_eq]) (by rw [Strand.compared_eq]), Strand.compared_eq,
    Strand.past_eq]

section
variable {s : State} {g p q ty : BitVec 3} {c : Bool} {flags : BitVec 5}

theorem State.compare_on (hg : s.me.pred g = true) : s.compare g p q ty c flags =
    .next (s.modMe (fun x => x.compared p q (combineTypes ty (x.pred p) (x.pred q) c) flags)).advance :=
  congrArg Host.Outcome.next (if_pos hg)

/-- With the guard 0 only the clr type writes (R124). -/
theorem State.compare_off (hg : s.me.pred g = false) : s.compare g p q ty c flags =
    .next (if ty = 1#3 then (s.modMe (fun x => x.putPreds p q (false, false))).advance else s.advance) :=
  congrArg Host.Outcome.next (if_neg (ne_true_of_eq_false hg))

end

/-- Settles O8: each compare is `State.compare` of its condition. -/
theorem compareResults : Obligations.CompareResults := by
  refine ⟨fun s g p q ty c a b ra rb i cond flags hg hi => ?_, fun s g p q ty c ra rb hg => ?_⟩
  · intro x y r
    have hexec : exec i s = s.compare g p q ty cond flags := by
      rcases hi with ⟨rfl, rfl, rfl⟩ | ⟨rfl, rfl, rfl⟩ | ⟨rfl, hf⟩ | ⟨rfl, rfl, rfl⟩
      · rfl
      · rfl
      · obtain ⟨rfl, rfl⟩ := Prod.mk.injEq .. ▸ hf
        rfl
      · rfl
    have hr : combineTypes ty x y cond = r := combineTypes_eq ty x y cond
    rw [hexec, State.compare_on hg]
    refine ⟨_, rfl, (s.onlyStrand_modMe _).setMe _, ?_, fun n => ?_⟩
    · rw [State.me_advance, State.me_modMe]
      simp only [Strand.past_compared]
      rfl
    · rw [State.me_advance, State.me_modMe]
      exact (Strand.pred_past ..).trans (by rw [Strand.compared, Strand.pred_putPreds, hr]; rfl)
  · refine ⟨_, State.compare_off hg, State.compare_off hg, State.compare_off hg, fun a b => State.compare_off hg,
      fun h => if_neg h, fun n hn => ?_⟩
    split
    · next h =>
      rw [State.me_advance, State.me_modMe]
      refine (Strand.pred_past ..).trans ?_
      rw [Strand.pred_putPreds, if_neg hn]
      by_cases hp : n = p <;> by_cases hq : n = q <;> simp [h, hp, hq]
    · next h =>
      rw [State.me_advance, if_neg fun e => h e.1]
      exact Strand.pred_past ..

end Sys2Proof.Machine
end

section
/-! SUPPORT. What a table reads after entries of other keys, or of its own, have been taken out. -/

namespace Sys2Proof

variable {α : Type}

/-- Taking out entries of other keys leaves what a key reads. -/
theorem Table.get?_filter {q : Nat × α → Bool} {k : Nat} (h : ∀ x, q (k, x) = true) (t : Table α) :
    Table.get? (t.filter q) k = Table.get? t k := by
  induction t with
  | nil => rfl
  | cons e rest ih =>
    obtain ⟨j, x⟩ := e
    rw [List.filter_cons]
    by_cases hj : j = k
    · subst hj
      rw [if_pos (h x)]
      simp [Table.get?]
    · split <;> simpa [Table.get?, hj] using ih

/-- A key whose entries were taken out reads nothing. -/
@[simp] theorem Table.get?_erase_self (t : Table α) (k : Nat) : Table.get? (t.erase k) k = none := by
  induction t with
  | nil => rfl
  | cons e rest ih =>
    obtain ⟨j, x⟩ := e
    rw [Table.erase]
    split
    · exact ih
    · next h => simpa [Table.get?, Ne.symm h] using ih

end Sys2Proof
end

section
/-! THEOREM. Extension registers and repetitions (O9): the bits of a written halfword, and the place in the program that
`Strand.past` leads to. -/

namespace Sys2Proof.Machine

/-! ## Extension registers -/

/-- A halfword in its place `k` of 64 bits (R111). -/
theorem getLsbD_halfword (i : BitVec 16) (k : BitVec 2) {j : Nat} (hj : j < 64) :
    (i.setWidth 64 <<< (16 * k.toNat)).getLsbD j = (decide (j / 16 = k.toNat) && i.getLsbD (j % 16)) := by
  rw [BitVec.getLsbD_shiftLeft, BitVec.getLsbD_setWidth, decide_eq_true hj, Bool.true_and]
  by_cases h : j / 16 = k.toNat
  · rw [decide_eq_true h, decide_eq_false (by omega : ¬ j < 16 * k.toNat), decide_eq_true (by omega : j - 16 * k.toNat < 64),
      show j - 16 * k.toNat = j % 16 by omega]
    simp
  · rw [decide_eq_false h]
    by_cases hlt : j < 16 * k.toNat
    · simp [hlt]
    · rw [BitVec.getLsbD_of_ge i _ (by omega)]
      simp

/-- `lxi` leaves the other halfwords (R111). -/
theorem getLsbD_replaceHalfword (w : Word) (i : BitVec 16) (k : BitVec 2) {j : Nat} (hj : j < 64) :
    (w &&& ~~~((0xFFFF#64) <<< (16 * k.toNat)) ||| i.setWidth 64 <<< (16 * k.toNat)).getLsbD j =
      if j / 16 = k.toNat then i.getLsbD (j % 16) else w.getLsbD j := by
  have hmask : 0xFFFF#64 = (BitVec.allOnes 16).setWidth 64 := by decide
  rw [BitVec.getLsbD_or, BitVec.getLsbD_and, BitVec.getLsbD_not, hmask, getLsbD_halfword _ _ hj, getLsbD_halfword _ _ hj,
    BitVec.getLsbD_allOnes, decide_eq_true (Nat.mod_lt j (by decide)), decide_eq_true hj]
  by_cases h : j / 16 = k.toNat <;> simp [h]

section
variable (s : State) (e : BitVec 3) (w : Word)

theorem State.onlyStrand_putExt : s.OnlyStrand (s.putExt e w) := (s.onlyStrand_modMe _).setMe _

theorem State.me_putExt :
    (s.putExt e w).me = { s.me.past s.cur.len with e := s.me.e.set e.toNat w, readyAt := s.k + 8 } := by
  rw [State.putExt, State.me_advance, State.me_modMe, Strand.past_of_place (x := s.me) (by rfl) (by rfl), Strand.past_eq s.me s.cur.len]
  rfl

theorem State.ext_putExt (n : Nat) : (s.putExt e w).me.ext n = if n = e.toNat then w else s.me.ext n := by
  rw [State.me_putExt, Strand.past_eq]
  exact Table.getD_set ..

/-- What a write of an extension register leaves: the register, and everything else as it was (R34). -/
theorem State.putExt_does : s.OnlyStrand (s.putExt e w) ∧
    (s.putExt e w).me = { s.me.past s.cur.len with e := (s.putExt e w).me.e, readyAt := s.k + 8 } ∧
    (∀ n, n ≠ e.toNat → (s.putExt e w).me.ext n = s.me.ext n) ∧ (s.putExt e w).me.ext e.toNat = w :=
  ⟨s.onlyStrand_putExt e w, by rw [State.me_putExt], fun n hn => (s.ext_putExt e w n).trans (if_neg hn),
    (s.ext_putExt e w _).trans (if_pos rfl)⟩

end

/-! ## Repetitions -/

section
variable {x : Strand} {r : Rep} (len : Nat)

theorem Strand.past_inside (h : x.rep = some r) (hpos : r.pos + 1 < r.len) :
    x.past len = { x with pc := x.pc + BitVec.ofNat 64 len, rep := some { r with pos := r.pos + 1 } } := by
  simp only [Strand.past, h, if_pos hpos]

theorem Strand.past_again (h : x.rep = some r) (hpos : r.len ≤ r.pos + 1) (hleft : 1 < r.left) :
    x.past len = { x with pc := r.body, rep := some { r with pos := 0, k := r.k + 1, left := r.left - 1 } } := by
  simp only [Strand.past, h, if_neg (Nat.not_lt.2 hpos), if_pos hleft]

theorem Strand.past_done (h : x.rep = some r) (hpos : r.len ≤ r.pos + 1) (hleft : r.left ≤ 1) :
    x.past len = { x with pc := x.pc + BitVec.ofNat 64 len, rep := none } := by
  simp only [Strand.past, h, if_neg (Nat.not_lt.2 hpos), if_neg (Nat.not_lt.2 hleft)]

end

/-- Settles O9: each write is a `putExt`, `rep` starts a repetition, and `past` has a case for each place in a body. -/
theorem extensionRegistersAndRepetition : Obligations.ExtensionRegistersAndRepetition := by
  refine ⟨fun s g e k i a hg => ⟨?_, ?_, ?_, fun d hd => State.next_putInt _ hg hd⟩, fun s g t c l i r hg => ?_,
    fun x r len h => ⟨Strand.past_inside len h, Strand.past_again len h, Strand.past_done len h⟩⟩
  · obtain ⟨honly, hme, hother, hself⟩ := s.putExt_does e _
    exact ⟨_, State.next_ok hg rfl, honly, hme, hother, fun j hj =>
      (congrArg (·.getLsbD j) hself).trans (getLsbD_replaceHalfword _ i k hj)⟩
  · obtain ⟨honly, hme, hother, hself⟩ := s.putExt_does e _
    exact ⟨_, State.next_ok hg rfl, honly, hme, hother, fun j hj =>
      (congrArg (·.getLsbD j) hself).trans (getLsbD_halfword i k hj)⟩
  · exact ⟨_, State.next_ok hg rfl, s.putExt_does e (s.me.val a)⟩
  · refine ⟨_, State.next_ok hg rfl, (s.onlyStrand_advanceBy 8).setMe _, ?_⟩
    rw [State.me_modMe, State.me_advance]
    rfl

end Sys2Proof.Machine
end

section
/-! THEOREM. Branches, jumps, calls and returns (O10): what a target that is odd or a linear register does, and what DEADSET
leaves of the registers. -/

namespace Sys2Proof.Machine

/-! ## Jumps -/

/-- An act that jumps to `w`: an odd target traps (R125). -/
theorem State.act_jump {s : State} {g : BitVec 3} (hg : s.me.pred g = true) (w : Word) :
    (Host.Outcome.next (if s.me.pred g then s.settle (checkTarget w >>= fun _ => pure (s.jump w)) else s.advance) :
        Host.Outcome State Fault Refusal) =
      if w.getLsbD 0 then .next (s.takeTrap (trapAlignment w)) else .next (s.jump w) := by
  cases hw : w.getLsbD 0 with
  | true => exact State.next_error hg (by rw [checkTarget, hw]; rfl)
  | false => exact State.next_ok hg (by rw [checkTarget, hw]; rfl)

/-! ## The registers that a call makes dead -/

/-- A register without its linear capability (R25). -/
theorem Strand.ne_zero_of_linear {x : Strand} {r : BitVec 5} (h : (x.reg r).linear = true) : r ≠ 0#5 := by
  rintro rfl
  rw [Strand.reg_zero] at h
  exact absurd h (by decide)

section
variable {x : Strand} {ds : List (BitVec 5)}

theorem Strand.lowestLinear_none (h : ∀ r ∈ ds, (x.reg r).linear = false) : x.lowestLinear ds = none := by
  refine List.find?_eq_none.2 fun r _ hr => ?_
  simp only [Bool.and_eq_true, List.contains_iff_mem] at hr
  exact absurd (h r hr.1.1) (ne_false_of_eq_true hr.2)

/-- Of the linear registers among `ds` the lowest is found (R126). -/
theorem Strand.lowestLinear_some {r : BitVec 5} (hr : r ∈ ds) (hl : (x.reg r).linear = true)
    (hlow : ∀ q, q < r → q ∈ ds → (x.reg q).linear = false) : x.lowestLinear ds = some r := by
  have hr32 : r.toNat < 32 := r.isLt
  refine List.find?_eq_some_iff_getElem.2 ⟨?_, r.toNat, by simpa using hr32, by simp, fun j hj => ?_⟩
  · simp [hr, hl, Strand.ne_zero_of_linear hl]
  · have hq : BitVec.ofNat 5 j < r := by
      rw [BitVec.lt_def, BitVec.toNat_ofNat, Nat.mod_eq_of_lt (hj.trans hr32)]
      exact hj
    simp only [List.getElem_map, List.getElem_range, Bool.not_eq_true']
    cases hmem : ds.contains (BitVec.ofNat 5 j) with
    | false => rfl
    | true => rw [hlow _ hq (List.contains_iff_mem.1 hmem), Bool.and_false]

end

/-- A call makes the registers of DEADSET read as an untagged zero, and leaves the others (R39, R125). -/
theorem Strand.reg_kill_deadSet (x : Strand) (r : BitVec 5) :
    (x.kill (x.dmask ||| 0x3FC00#32)).reg r = if r ∈ deadSet then CReg.zero else x.reg r := by
  have hbits : ∀ r : BitVec 5, (0x3FC00#32).getLsbD r.toNat = decide (r ∈ deadSet) := by decide
  have hmask : (x.dmask ||| 0x3FC00#32).getLsbD r.toNat = (x.dmask.getLsbD r.toNat || decide (r ∈ deadSet)) := by
    rw [BitVec.getLsbD_or, hbits]
  by_cases hdead : r ∈ deadSet
  · rw [if_pos hdead]
    exact Strand.reg_kill (by rw [hmask, decide_eq_true hdead, Bool.or_true])
  · rw [decide_eq_false hdead, Bool.or_false] at hmask
    rw [if_neg hdead, Strand.reg, Strand.reg, Strand.kill, hmask]
    by_cases hr : r = 0#5 ∨ x.dmask.getLsbD r.toNat = true
    · rw [if_pos hr, if_pos hr]
    · rw [if_neg hr, if_neg hr]
      obtain ⟨-, hlive⟩ := not_or.1 hr
      refine congrArg (·.getD CReg.zero) (Table.get?_filter (fun v => ?_) x.c)
      rw [hmask, Bool.eq_false_iff.2 hlive]
      rfl

/-! ## Calls and returns -/

section
variable {s : State} {d : BitVec 5}

/-- The strand after DEADSET is marked (R125). -/
def Strand.deadened (x : Strand) : Strand := x.kill (x.dmask ||| 0x3FC00#32)

theorem State.markDead_ok (h : ∀ r ∈ d :: deadSet, (s.me.reg r).linear = false) :
    s.markDead d = .ok (s.modMe Strand.deadened) := by
  rw [State.markDead, Strand.lowestLinear_none h]
  rfl

theorem State.markDead_error {r : BitVec 5} (hr : r ∈ d :: deadSet) (hl : (s.me.reg r).linear = true)
    (hlow : ∀ q, q < r → q ∈ d :: deadSet → (s.me.reg q).linear = false) :
    s.markDead d = .error (trapLinearity (r.setWidth 64)) := by
  rw [State.markDead, Strand.lowestLinear_some hr hl hlow]
  rfl

/-- Marking DEADSET and writing a link change registers only (R125). -/
theorem Strand.onlyRegisters_call (x : Strand) (d : BitVec 5) (v : CReg) (w : Word) (k : Nat) :
    x.OnlyRegisters { x.deadened.setReg d v with pc := w, readyAt := k } := by
  rw [Strand.setReg]
  split <;> exact Strand.onlyRegisters_iff.2 ⟨_, _, _, _, _, rfl⟩

/-- The state after a call or a return to `w`: DEADSET marked, the link written to c`d`, none for a return (R125). -/
def State.called (s : State) (d : BitVec 5) (w : Word) : State :=
  ((s.modMe Strand.deadened).modMe (fun x => x.setReg d (CReg.int (s.cur.pc + 4#64)))).jump w

theorem State.me_called (w : Word) : (s.called d w).me =
    { s.me.deadened.setReg d (CReg.int (s.cur.pc + 4#64)) with pc := w, readyAt := s.k + 8 } := by
  rw [State.called, State.jump, State.me_modMe, State.me_modMe, State.me_modMe]
  rfl

/-- What a call or a return leaves (R125, R126). -/
theorem State.called_does (w : Word) : s.OnlyStrand (s.called d w) ∧ s.me.OnlyRegisters (s.called d w).me ∧
    (s.called d w).me.pc = w ∧ (s.called d w).me.readyAt = s.k + 8 ∧
    ∀ r, (s.called d w).me.reg r = if r = d ∧ d ≠ 0#5 then CReg.int (s.cur.pc + 4#64)
      else if r ∈ deadSet then CReg.zero else s.me.reg r := by
  refine ⟨((s.onlyStrand_modMe _).setMe _).setMe _, ?_, by rw [State.me_called], by rw [State.me_called], fun r => ?_⟩
  · rw [State.me_called]
    exact s.me.onlyRegisters_call ..
  · rw [State.me_called, ← Strand.reg_kill_deadSet, ← Strand.deadened, ← Strand.reg_setReg]
    rfl

variable {w : Word}

theorem State.call_ok (h : ∀ r ∈ d :: deadSet, (s.me.reg r).linear = false) (hw : w.getLsbD 0 = false) :
    s.call d w = .ok (s.called d w) := by
  rw [State.call, State.markDead_ok h, checkTarget, hw]
  rfl

theorem State.call_odd (h : ∀ r ∈ d :: deadSet, (s.me.reg r).linear = false) (hw : w.getLsbD 0 = true) :
    s.call d w = .error (trapAlignment w) := by
  rw [State.call, State.markDead_ok h, checkTarget, hw]
  rfl

theorem State.call_linear {r : BitVec 5} (h : s.markDead d = .error (trapLinearity (r.setWidth 64))) :
    s.call d w = .error (trapLinearity (r.setWidth 64)) := by
  rw [State.call, h]
  rfl

/-- A return is a call that discards its link (R23, R125). -/
theorem State.return_eq_call (s : State) (w : Word) :
    (s.markDead 0#5 >>= fun r => checkTarget w >>= fun _ => pure (r.jump w)) = s.call 0#5 w := by
  rw [State.call]
  cases h : s.markDead 0#5 with
  | error e => rfl
  | ok r =>
    have hlink : r.modMe (fun x => x.setReg 0#5 (CReg.int (s.cur.pc + 4#64))) = r := by
      rw [State.markDead] at h
      split at h
      · cases h
      · cases h
        rw [State.modMe_modMe]
        rfl
    exact congrArg (fun u => checkTarget w >>= fun _ => pure (State.jump u w)) hlink.symm

theorem exec_ret (s : State) (g : BitVec 3) (a : BitVec 5) :
    exec (.ret g a) s = s.act g (fun s => s.call 0#5 (s.me.val a)) :=
  calc exec (.ret g a) s = execRet g a s := rfl
    _ = s.act g (fun s => s.call 0#5 (s.me.val a)) := congrArg (s.act g) (funext fun s => s.return_eq_call (s.me.val a))

theorem exec_jr {g : BitVec 3} {a : BitVec 5} (hd : d ≠ 0#5) :
    exec (.jr g d a) s = s.act g (fun s => s.call d (s.me.val a)) :=
  calc exec (.jr g d a) s = execJr g d a s := rfl
    _ = s.act g (fun s => s.call d (s.me.val a)) := congrArg (s.act g) (funext fun _ => if_neg hd)

end

/-- Settles O10: a branch is `State.act_jump`, a call or a return `State.call`. -/
theorem branchesAndCalls : Obligations.BranchesAndCalls := by
  refine ⟨fun s g a hg => ?_, fun s g a d o hg hdead => ?_, fun s g a d link o i w hg hi => ?_⟩
  · have hp : s.me.pred 0#3 = true := Strand.pred_p0 _
    exact ⟨fun _ => State.act_jump hg _, fun _ => State.act_jump hp _, fun _ => State.act_jump hg _,
      fun _ => State.act_jump hp _, State.act_jump hg _⟩
  · have live {r : BitVec 5} (hr : (s.me.reg r).linear = false) : ∀ q ∈ r :: deadSet, (s.me.reg q).linear = false :=
      List.forall_mem_cons.2 ⟨hr, hdead⟩
    refine ⟨fun h1 hw => ?_, fun hd hl hw => ?_, fun hw => ?_⟩
    · obtain ⟨honly, hregs, hpc, hready, hreg⟩ := s.called_does (d := 1#5) (s.cur.pc + o.signExtend 64 * 2#64)
      refine ⟨_, State.next_ok hg (State.call_ok (live h1) hw), honly, hregs, hpc, hready, fun r => (hreg r).trans ?_⟩
      simp
    · obtain ⟨honly, hregs, hpc, hready, hreg⟩ := s.called_does (d := d) (s.me.val a)
      refine ⟨_, (exec_jr hd).trans (State.act_ok hg (State.call_ok (live hl) hw)), honly, hregs, hpc, hready, fun r => (hreg r).trans ?_⟩
      simp [hd]
    · obtain ⟨honly, hregs, hpc, hready, hreg⟩ := s.called_does (d := 0#5) (s.me.val a)
      have hzero : (s.me.reg 0#5).linear = false := by rw [Strand.reg_zero]; rfl
      refine ⟨_, (exec_ret s g a).trans (State.act_ok hg (State.call_ok (live hzero) hw)), honly, hregs, hpc, hready,
        fun r => (hreg r).trans ?_⟩
      simp
  · have hcall : exec i s = s.act g (fun s => s.call link w) := by
      rcases hi with ⟨rfl, rfl, rfl⟩ | ⟨rfl, hd, rfl, rfl⟩ | ⟨rfl, rfl, rfl⟩
      · rfl
      · exact exec_jr hd
      · exact exec_ret s g a
    simp only [← List.mem_cons (b := link)]
    rw [hcall]
    exact ⟨fun r hr hl hlow => State.act_error hg (State.call_linear (State.markDead_error hr hl hlow)),
      fun hlive hw => State.act_error hg (State.call_odd hlive hw)⟩

end Sys2Proof.Machine
end

section
/-! THEOREM. The software trap and the return from a handler (O12). -/

namespace Sys2Proof.Machine

/-! ## The status that a return leaves -/

/-- Bit by bit: MODE, ALTP and INH from `esst`, the stream bits kept; VE too where a stream is bound (R37, R222). -/
theorem Strand.getLsbD_leave_sst (x : Strand) {i : Nat} (hi : i < 13) : x.leave.sst.getLsbD i =
    if i = 2 then x.esst.getLsbD 2 || (x.sst.extractLsb' 3 3 != 0#3 && x.sst.getLsbD 2)
    else if 3 ≤ i ∧ i < 9 then x.sst.getLsbD i else x.esst.getLsbD i := by
  have masks : ∀ i < 13, (0x1E03#13).getLsbD i = decide (i < 2 ∨ 9 ≤ i) ∧ (4#13).getLsbD i = decide (i = 2) ∧
      (0x01F8#13).getLsbD i = decide (3 ≤ i ∧ i < 9) := by decide
  obtain ⟨hesst, hve, hstreams⟩ := masks i hi
  have hkeep : (if x.sst.extractLsb' 3 3 = 0#3 then x.esst &&& 4#13 else (x.esst ||| x.sst) &&& 4#13).getLsbD i =
      ((x.esst.getLsbD i || (x.sst.extractLsb' 3 3 != 0#3 && x.sst.getLsbD i)) && decide (i = 2)) := by
    split
    · next h => rw [BitVec.getLsbD_and, hve, h, bne_self_eq_false, Bool.false_and, Bool.or_false]
    · next h => rw [BitVec.getLsbD_and, BitVec.getLsbD_or, hve, bne_iff_ne.2 h, Bool.true_and]
  rw [Strand.leave, BitVec.getLsbD_or, BitVec.getLsbD_or, BitVec.getLsbD_and, BitVec.getLsbD_and, hesst, hstreams, hkeep]
  by_cases h2 : i = 2
  · subst h2
    simp
  · by_cases h39 : 3 ≤ i ∧ i < 9
    · rw [decide_eq_false (by omega : ¬(i < 2 ∨ 9 ≤ i))]
      simp [h2, h39]
    · rw [decide_eq_true (by omega : i < 2 ∨ 9 ≤ i)]
      simp [h2, h39]

/-- A field of the status that a return takes from `esst`. -/
theorem Strand.leave_sst_esst (x : Strand) {i n : Nat} (hn : i + n ≤ 13) (h : i + n ≤ 2 ∨ 9 ≤ i) :
    x.leave.sst.extractLsb' i n = x.esst.extractLsb' i n := by
  refine BitVec.eq_of_getLsbD_eq fun j hj => ?_
  rw [BitVec.getLsbD_extractLsb', BitVec.getLsbD_extractLsb', Strand.getLsbD_leave_sst x (by omega), if_neg (by omega),
    if_neg (by omega)]

theorem Strand.leave_sst_streams (x : Strand) : x.leave.sst.extractLsb' 3 6 = x.sst.extractLsb' 3 6 := by
  refine BitVec.eq_of_getLsbD_eq fun j hj => ?_
  rw [BitVec.getLsbD_extractLsb', BitVec.getLsbD_extractLsb', Strand.getLsbD_leave_sst x (by omega), if_neg (by omega),
    if_pos (by omega)]

theorem Strand.leave_ve (x : Strand) (h : x.sst.extractLsb' 3 3 = 0#3) : x.leave.ve = x.esst.getLsbD 2 := by
  rw [Strand.ve, Strand.getLsbD_leave_sst x (by decide), if_pos rfl, h, bne_self_eq_false, Bool.false_and, Bool.or_false]

/-! ## The instructions -/

section
variable {s : State} {g : BitVec 3}

/-- What a return needs: a mode other than User, and a mode to go to that exists and is no higher (R37, R222). -/
theorem eret_allowed_iff : (s.me.mode != 0 && (s.me.esst.extractLsb' 0 2).toNat != 2 &&
      decide ((s.me.esst.extractLsb' 0 2).toNat ≤ s.me.mode)) = true ↔
    s.me.mode ≠ 0 ∧ (s.me.esst.extractLsb' 0 2).toNat ≠ 2 ∧ (s.me.esst.extractLsb' 0 2).toNat ≤ s.me.mode := by
  simp only [Bool.and_eq_true, bne_iff_ne, decide_eq_true_eq, and_assoc]

theorem exec_eret_ok (hg : s.me.pred g = true) (h : s.me.mode ≠ 0 ∧ (s.me.esst.extractLsb' 0 2).toNat ≠ 2 ∧
      (s.me.esst.extractLsb' 0 2).toNat ≤ s.me.mode) :
    exec (.eret g) s = .next (s.modMe fun x => { x.leave with readyAt := s.k + 8 }) :=
  State.next_ok hg (act_need (eret_allowed_iff.2 h))

theorem exec_eret_error (hg : s.me.pred g = true) (h : ¬(s.me.mode ≠ 0 ∧ (s.me.esst.extractLsb' 0 2).toNat ≠ 2 ∧
      (s.me.esst.extractLsb' 0 2).toNat ≤ s.me.mode)) :
    exec (.eret g) s = .next (s.takeTrap (trapPrivileged (s.me.esst.setWidth 64))) :=
  State.next_error hg (act_fails (need_error _ (Bool.eq_false_iff.2 fun hb => h (eret_allowed_iff.1 hb))))

end

/-- Settles O12: the return is `Strand.leave`, whose status is that of `Strand.getLsbD_leave_sst`. -/
theorem trapAndReturn : Obligations.TrapAndReturn := by
  refine ⟨fun s g a hg => ⟨State.next_error hg rfl, fun h => ?_⟩, fun s g hg hmode h2 hle => ?_, fun s g hg h => ?_⟩
  · rw [State.me_takeTrap h]
    exact ⟨rfl, rfl⟩
  · refine ⟨_, exec_eret_ok hg ⟨hmode, h2, hle⟩, s.onlyStrand_modMe _, ?_⟩
    rw [State.me_modMe]
    exact ⟨rfl, rfl, congrArg BitVec.toNat (s.me.leave_sst_esst (by decide) (by decide)),
      s.me.getLsbD_leave_sst (by decide), s.me.leave_sst_esst (by decide) (by decide), s.me.leave_sst_streams,
      s.me.leave_ve, rfl, fun _ => rfl⟩
  · exact exec_eret_error hg (by omega)

end Sys2Proof.Machine
end

section
/-! THEOREM. The capability moves, reads and the mint (O14, O15): a change of PERM leaves the other fields of a `meta`. -/

namespace Sys2Proof.Machine

/-! ## The fields above PERM -/

section
variable {m m' : Word}

/-- Fields above bit 11 are those of any `meta` with the same bits there (R24). -/
theorem extractLsb'_of_high (h : ∀ i, 12 ≤ i → m'.getLsbD i = m.getLsbD i) {i n : Nat} (hi : 12 ≤ i) :
    m'.extractLsb' i n = m.extractLsb' i n := by
  refine BitVec.eq_of_getLsbD_eq fun j hj => ?_
  rw [BitVec.getLsbD_extractLsb', BitVec.getLsbD_extractLsb', h _ (by omega)]

/-- So are the kind and the bounds (R24, R27). -/
theorem kind_bounds_of_high (h : ∀ i, 12 ≤ i → m'.getLsbD i = m.getLsbD i) (t : Bool) (v : Word) :
    (⟨t, v, m'⟩ : CReg).kind = (⟨t, v, m⟩ : CReg).kind ∧ (⟨t, v, m'⟩ : CReg).bounds = (⟨t, v, m⟩ : CReg).bounds := by
  simp only [CReg.kind, CReg.bounds, decodeBounds, extractLsb'_of_high h (show 12 ≤ 12 by decide),
    extractLsb'_of_high h (show 12 ≤ 16 by decide), extractLsb'_of_high h (show 12 ≤ 22 by decide),
    extractLsb'_of_high h (show 12 ≤ 43 by decide), and_self]

/-- A new PERM stands in bits 0 to 11, and nothing else changes (R24). -/
theorem getLsbD_setPerm (m : Word) (p : BitVec 12) (i : Nat) :
    (setPerm m p).getLsbD i = if i < 12 then p.getLsbD i else m.getLsbD i := by
  have hmask : 0x0FFF#64 = (BitVec.allOnes 12).setWidth 64 := by decide
  rw [setPerm, BitVec.getLsbD_or, BitVec.getLsbD_and, BitVec.getLsbD_not, hmask, BitVec.getLsbD_setWidth,
    BitVec.getLsbD_setWidth, BitVec.getLsbD_allOnes]
  by_cases h : i < 12
  · simp [h, show i < 64 by omega]
  · rw [if_neg h, BitVec.getLsbD_of_ge p i (by omega), decide_eq_false h]
    by_cases h64 : i < 64
    · simp [h64]
    · simp [h64, BitVec.getLsbD_of_ge m i (by omega)]

end

/-! ## Moves -/

section
variable {s : State} {g : BitVec 3} {d a b : BitVec 5}

theorem exec_cbnd_ok (hg : s.me.pred g = true) (hm : s.mayMove d a) (ht : (s.me.reg a).tag = true)
    (hk : narrowableKind (s.me.reg a).kind = true) {m : CReg}
    (h : narrowReg (s.me.reg a) (s.me.val b).toNat = .ok m) : exec (.cbnd g d a b) s = .next (s.moved d a m) :=
  State.next_ok hg <| (act_need (by rw [ht, hk]; rfl)).trans <| (act_after h).trans (State.moveCap_ok m hm)

/-- The permissions that `cprm` leaves (R115). -/
def droppedPerm (r : CReg) (w : Word) : BitVec 12 :=
  if r.kind = 1 then r.perm &&& w.extractLsb' 0 12 &&& 0x7FF#12 else r.perm &&& w.extractLsb' 0 12

theorem getLsbD_droppedPerm (r : CReg) (w : Word) {i : Nat} (hi : i < 12) :
    (droppedPerm r w).getLsbD i = (r.has i && w.getLsbD i && !(i == 11 && r.kind == 1)) := by
  have hmask : ∀ i < 12, (0x7FF#12).getLsbD i = !(i == 11) := by decide
  have hperm : (r.perm &&& w.extractLsb' 0 12).getLsbD i = (r.has i && w.getLsbD i) := by
    simp [CReg.perm, CReg.has, hi]
  rw [droppedPerm]
  split
  · next h => rw [BitVec.getLsbD_and, hperm, hmask i hi, h, beq_self_eq_true, Bool.and_true]
  · next h => rw [hperm, beq_false_of_ne h, Bool.and_false, Bool.not_false, Bool.and_true]

theorem exec_cprm_ok (hg : s.me.pred g = true) (hm : s.mayMove d a) (ht : (s.me.reg a).tag = true)
    (hk : reservedKind (s.me.reg a).kind = false) : exec (.cprm g d a b) s = .next (s.moved d a
      { s.me.reg a with mt := setPerm (s.me.reg a).mt (droppedPerm (s.me.reg a) (s.me.val b)) }) :=
  State.next_ok hg <| (act_need (by rw [ht, hk]; rfl)).trans (State.moveCap_ok _ hm)

theorem exec_cmv_ok (hg : s.me.pred g = true) (hm : s.mayMove d a) :
    exec (.cmv g d a) s = .next (if d = a then s.advance else s.moved d a (s.me.reg a)) := by
  refine State.next_ok hg ?_
  beta_reduce
  rw [State.moveCap_ok _ hm]
  exact (apply_ite Except.ok ..).symm

end

/-! ## Moves of an address -/

section
variable {s : State} {d a : BitVec 5} {off : Word}

/-- Of an untagged register it is an integer addition (R120). -/
theorem State.moveAddress_untagged (ht : (s.me.reg a).tag = false) (hd : s.mayWrite d) :
    s.moveAddress d a off = .ok (s.wrote d ((s.me.reg a).val + off) 8) := by
  rw [State.moveAddress, ht]
  exact State.putInt_ok _ hd

theorem State.moveAddress_tagged (ht : (s.me.reg a).tag = true) (hk : narrowableKind (s.me.reg a).kind = true) :
    s.moveAddress d a off =
      if (s.me.reg a).representable ((s.me.reg a).val + off) then
        s.moveCap d a { s.me.reg a with val := (s.me.reg a).val + off }
      else if (s.me.reg a).linear then .error (trapBounds ((s.me.reg a).val + off))
      else s.putInt d ((s.me.reg a).val + off) := by
  rw [State.moveAddress]
  exact (if_neg (by rw [ht]; exact Bool.false_ne_true)).trans (act_need hk)

theorem State.moveAddress_inside (ht : (s.me.reg a).tag = true) (hk : narrowableKind (s.me.reg a).kind = true)
    (hr : (s.me.reg a).representable ((s.me.reg a).val + off) = true) (hm : s.mayMove d a) :
    s.moveAddress d a off = .ok (s.moved d a { s.me.reg a with val := (s.me.reg a).val + off }) := by
  rw [State.moveAddress_tagged ht hk, if_pos hr]
  exact State.moveCap_ok _ hm

/-- Past the representable region only the integer is left, and a linear capability is not lost (R120). -/
theorem State.moveAddress_outside (ht : (s.me.reg a).tag = true) (hk : narrowableKind (s.me.reg a).kind = true)
    (hr : (s.me.reg a).representable ((s.me.reg a).val + off) = false) :
    ((s.me.reg a).linear = false → s.mayWrite d → s.moveAddress d a off = .ok (s.wrote d ((s.me.reg a).val + off) 8)) ∧
      ((s.me.reg a).linear = true → s.moveAddress d a off = .error (trapBounds ((s.me.reg a).val + off))) := by
  rw [State.moveAddress_tagged ht hk, if_neg (ne_true_of_eq_false hr)]
  refine ⟨fun hl hd => ?_, fun hl => if_pos hl⟩
  rw [if_neg (ne_true_of_eq_false hl)]
  exact State.putInt_ok _ hd

end

/-- Settles O14: each form is a check and one `moveCap` or `moveAddress`. -/
theorem capabilityMoveResults : Obligations.CapabilityMoveResults := by
  refine ⟨fun s g d a b hg hm => ?_, fun s g d a b k i off hg hi => ?_⟩
  · refine ⟨fun ht hk m h => exec_cbnd_ok hg hm ht hk h, fun ht hk => ?_, exec_cmv_ok hg hm, fun ht hk =>
      ⟨fun hr => State.next_ok hg (State.moveAddress_inside ht hk hr hm), fun i hr =>
        State.next_ok hg (State.moveAddress_inside ht hk hr hm)⟩⟩
    have hhigh (i : Nat) (hi : 12 ≤ i) :
        (setPerm (s.me.reg a).mt (droppedPerm (s.me.reg a) (s.me.val b))).getLsbD i = (s.me.reg a).mt.getLsbD i := by
      rw [getLsbD_setPerm, if_neg (by omega)]
    obtain ⟨hkind, hbounds⟩ := kind_bounds_of_high hhigh (s.me.reg a).tag (s.me.reg a).val
    exact ⟨_, exec_cprm_ok hg hm ht hk, ht, rfl, hkind, hbounds, fun i hi =>
      ((getLsbD_setPerm ..).trans (if_pos hi)).trans (getLsbD_droppedPerm _ _ hi)⟩
  · have hexec {t : Act} (h : s.moveAddress d a off = t) : exec i s = .next (s.settle t) := by
      obtain ⟨rfl, rfl⟩ | ⟨rfl, rfl⟩ := hi
      · exact congrArg Host.Outcome.next ((if_pos hg).trans (congrArg s.settle h))
      · exact congrArg Host.Outcome.next ((if_pos hg).trans (congrArg s.settle h))
    refine ⟨fun ht hd => hexec (State.moveAddress_untagged ht hd), fun ht hk hr => ?_⟩
    obtain ⟨hcopy, hlinear⟩ := State.moveAddress_outside (d := d) ht hk hr
    exact ⟨fun hl hd => hexec (hcopy hl hd), fun hl => hexec (hlinear hl)⟩

/-! ## Reads -/

section
variable (r : CReg)

theorem capField_untagged (f : Nat) (h : r.tag = false) : capField r f = 0#64 := by
  rw [capField, h]
  rfl

/-- The fields of a tagged register but for its bounds (R116). -/
theorem capField_tagged (h : r.tag = true) :
    capField r 3 = r.perm.setWidth 64 ∧ capField r 4 = BitVec.ofNat 64 r.kind ∧ capField r 5 = 1#64 := by
  simp [capField, h]

/-- The base, the top, which saturates, and the length (R116). -/
theorem capField_bounds (h : r.tag = true) (hk : r.kind ≠ 6) :
    capField r 0 = BitVec.ofInt 64 r.bounds.1 ∧
    (2 ^ 64 ≤ r.bounds.2 → capField r 1 = BitVec.allOnes 64) ∧
    (r.bounds.2 < 2 ^ 64 → capField r 1 = BitVec.ofInt 64 r.bounds.2) ∧
    capField r 2 = BitVec.ofInt 64 (r.bounds.2 - r.bounds.1) := by
  have htop : capField r 1 = if r.bounds.2 ≤ 2 ^ 64 - 1 then BitVec.ofInt 64 r.bounds.2 else BitVec.allOnes 64 := by
    simp [capField, h, hk]
  refine ⟨by simp [capField, h, hk], fun hle => ?_, fun hlt => ?_, by simp [capField, h, hk]⟩
  · rw [htop, if_neg (by omega)]
  · rw [htop, if_pos (by omega)]

/-- A channel capability has no bounds to read (R116). -/
theorem capField_channel (h : r.tag = true) (hk : r.kind = 6) {f : Nat} (hf : f ≤ 2) : capField r f = 0#64 := by
  simp [capField, h, hk, hf]

theorem capTest_untagged (h : r.tag = false) : capTest r = 0#64 := by
  rw [capTest, h]
  rfl

theorem capTest_tagged (h : r.tag = true) :
    capTest r = if r.kind ≠ 6 ∧ r.inBounds r.val.toNat 1 = true then 3#64 else 1#64 := by
  simp [capTest, h]

end

/-! ## The mint -/

/-- What a mint that succeeds has made: the operands with G of a window cleared, of a kind that the mode may mint (R121). -/
theorem mintReg_ok {machine : Bool} {a m : Word} {b : BitVec 5} {r : CReg} (h : mintReg machine a m b = .ok r) :
    r.tag = true ∧ r.val = a ∧ (r.kind = 1 ∨ r.kind = 7 ∨ r.kind = 8 ∨ (r.kind = 0xA ∧ machine = true)) ∧
      (r.kind = 1 → r.bounds.2 ≤ 0x40000) := by
  have bind_ok {α β : Type} {x : Except Trap α} {f : α → Except Trap β} {v : β} (h : (x >>= f) = .ok v) :
      ∃ u, x = .ok u ∧ f u = .ok v := by
    cases x with
    | error e => cases h
    | ok u => exact ⟨u, rfl, h⟩
  obtain ⟨_, -, h⟩ := bind_ok h
  obtain ⟨_, hkind, h⟩ := bind_ok h
  obtain ⟨_, -, h⟩ := bind_ok h
  rw [need_ok_iff] at hkind
  simp only [Bool.or_eq_true, beq_iff_eq, Bool.and_eq_true, or_assoc] at hkind
  split at h
  · next h1 =>
    obtain ⟨_, htop, h⟩ := bind_ok h
    cases h
    rw [need_ok_iff, decide_eq_true_eq] at htop
    have hhigh (i : Nat) (hi : 12 ≤ i) : (m &&& ~~~(0x800#64)).getLsbD i = m.getLsbD i := by
      have hmask : ∀ i < 64, 12 ≤ i → (~~~(0x800#64)).getLsbD i = true := by decide
      by_cases h64 : i < 64
      · rw [BitVec.getLsbD_and, hmask i h64 hi, Bool.and_true]
      · rw [BitVec.getLsbD_of_ge _ _ (by omega), BitVec.getLsbD_of_ge _ _ (by omega)]
    obtain ⟨hk, hb⟩ := kind_bounds_of_high hhigh true a
    exact ⟨rfl, rfl, .inl (hk.trans h1), fun _ => (congrArg Prod.snd hb).trans_le htop⟩
  · next h1 =>
    have hr : (⟨true, a, m⟩ : CReg) = r := by
      split at h
      · obtain ⟨_, -, h⟩ := bind_ok h
        cases h
        rfl
      · cases h
        rfl
    subst hr
    exact ⟨rfl, rfl, hkind, fun h => absurd h h1⟩

section
variable {s : State} {g : BitVec 3} {d a b : BitVec 5}

theorem exec_cmint_user (hg : s.me.pred g = true) (hm : s.me.mode = 0) :
    exec (.cmint g d a b) s = .next (s.takeTrap (trapPrivileged s.instrBits)) :=
  State.next_error hg (act_fails (need_error _ (by rw [hm]; rfl)))

theorem exec_cmint_ok (hg : s.me.pred g = true) (hm : s.me.mode ≠ 0) (hd : s.mayWrite d) {r : CReg}
    (h : mintReg (s.me.mode == 3) (s.me.val a) (s.me.val b) b = .ok r) :
    exec (.cmint g d a b) s = .next ((s.modMe (fun x => x.setReg d r)).advance) :=
  State.next_ok hg <| (act_need (bne_iff_ne.2 hm)).trans <| (act_after h).trans (act_after ((s.writable_iff d).2 hd))

end

/-- Settles O15: `cget` writes `capField`, `ctst` writes `capTest`, and `cmint` what `mintReg` makes. -/
theorem capabilityReadsAndMint : Obligations.CapabilityReadsAndMint := by
  refine ⟨fun s g d a f hg hd => ?_, fun s g d a b hg => ⟨exec_cmint_user hg, fun hm hd r h => ?_⟩⟩
  · refine ⟨_, _, State.next_putInt _ hg hd, State.next_putInt _ hg hd, fun ht => ⟨capField_untagged _ _ ht,
      capTest_untagged _ ht⟩, fun ht => ?_⟩
    obtain ⟨h3, h4, h5⟩ := capField_tagged _ ht
    refine ⟨?_, ?_, ?_, fun hk => ?_, fun hk hf => ?_, capTest_tagged _ ht⟩
    · rintro rfl
      exact h3
    · rintro rfl
      exact h4
    · rintro rfl
      exact h5
    · obtain ⟨h0, h1, h1', h2⟩ := capField_bounds _ ht hk
      refine ⟨?_, ?_, ?_, ?_⟩
      · rintro rfl
        exact h0
      · rintro rfl
        exact h1
      · rintro rfl
        exact h1'
      · rintro rfl
        exact h2
    · refine capField_channel _ ht hk ?_
      rcases hf with rfl | rfl | rfl <;> decide
  · obtain ⟨ht, hv, hk, hb⟩ := mintReg_ok h
    exact ⟨exec_cmint_ok hg hm hd h, ht, hv, by simpa only [beq_iff_eq] using hk, hb⟩

end Sys2Proof.Machine
end

section
/-! THEOREM. When an access is allowed, and which trap a refused one takes (O16): each stage of R104 by itself, and the stages
in their order. -/

namespace Sys2Proof.Machine

section
variable {x : Except Trap Unit} {f : Unit → Except Trap Unit} {e : Trap}

theorem check_after (h : x = .ok ()) : (x >>= f) = f () := by
  rw [h]
  rfl

theorem check_fails (h : x = .error e) : (x >>= f) = .error e := by
  rw [h]
  rfl

end

/-! ## The stages -/

section
variable {s : State} {u : BaseUse} {a : BitVec 5} {r : CReg} {bits : BitVec 12} {ea : Int} {n al : Nat} {st : Bool}
  {d : Option (BitVec 5)} {w : Word}

/-- Tag, kind and permission of a base (R103, R131). -/
theorem checkBase_ok_iff : checkBase u a r bits w = .ok () ↔
    r.tag = true ∧ baseKind u r.kind = .yes ∧ r.perm &&& bits = bits := by
  rw [checkBase, check_bind_ok_iff, need_ok_iff]
  refine and_congr_right fun _ => ?_
  cases baseKind u r.kind with
  | yes => simp [need_ok_iff]
  | perm => simp
  | tagTrap => simp

theorem checkBase_errors :
    (r.tag = false → checkBase u a r bits w = .error (trapTag (a.setWidth 64))) ∧
    (r.tag = true → baseKind u r.kind = .tagTrap → checkBase u a r bits w = .error (trapTag (a.setWidth 64))) ∧
    (r.tag = true → baseKind u r.kind = .perm → checkBase u a r bits w = .error (trapPermission w)) ∧
    (r.tag = true → baseKind u r.kind = .yes → r.perm &&& bits ≠ bits →
      checkBase u a r bits w = .error (trapPermission w)) := by
  refine ⟨fun ht => check_fails (need_error _ ht), fun ht hk => ?_, fun ht hk => ?_, fun ht hk hp => ?_⟩
  all_goals rw [checkBase, check_after ((need_ok_iff ..).2 ht), hk]
  · rfl
  · exact need_error _ (beq_false_of_ne hp)

/-- The permission stage, with PR and a listed register for the device window (R104, R343). -/
theorem checkPlace_ok_iff : checkPlace u a r bits ea = .ok () ↔
    r.tag = true ∧ baseKind u r.kind = .yes ∧ r.perm &&& bits = bits ∧
      (r.place = .device → r.has 10 = true ∧ deviceListed (BitVec.ofInt 64 ea).toNat = true) := by
  rw [checkPlace, check_bind_ok_iff, checkBase_ok_iff, need_ok_iff, Bool.or_eq_true, bne_iff_ne, Bool.and_eq_true,
    ← imp_iff_not_or, and_assoc, and_assoc]

/-- The linearity stage: the destination, and the granules that a store would destroy (R102, R134). -/
theorem State.checkLinearity_ok_iff : s.checkLinearity r ea n st d = .ok () ↔
    (∀ x, d = some x → s.mayWrite x) ∧
      (st = true → r.place = .window → ∀ h ∈ granules (ea.toNat % 2 ^ 18) n, s.myCore.linearGranule h = false) := by
  have hstore : (if st && r.place == .window then s.myCore.checkLinear (ea.toNat % 2 ^ 18) n (BitVec.ofInt 64 ea)
      else pure ()) = .ok () ↔
      (st = true → r.place = .window → ∀ h ∈ granules (ea.toNat % 2 ^ 18) n, s.myCore.linearGranule h = false) := by
    rw [← and_imp, ← beq_iff_eq (a := r.place), ← Bool.and_eq_true]
    split
    · next h => simp [h, Core.checkLinear, need_ok_iff]
    · next h => simp [h, pure, Except.pure]
  cases d with
  | none => exact hstore.trans (by simp)
  | some x => simp only [State.checkLinearity, check_bind_ok_iff, State.writable_iff, hstore, Option.some.injEq, forall_eq']

theorem checkAlignment_ok_iff : checkAlignment r ea n al = .ok () ↔
    (r.place = .device → n = 4 ∨ n = 8) ∧ ea % (al : Int) = 0 := by
  rw [checkAlignment, check_bind_ok_iff, need_ok_iff, checkAlign, need_ok_iff, decide_eq_true_eq, Bool.or_eq_true,
    Bool.or_eq_true, bne_iff_ne, beq_iff_eq, beq_iff_eq, or_assoc, ← imp_iff_not_or]

theorem checkAlignment_error (h : (r.place = .device ∧ n ≠ 4 ∧ n ≠ 8) ∨ ea % (al : Int) ≠ 0) :
    checkAlignment r ea n al = .error (trapAlignment (BitVec.ofInt 64 ea)) := by
  by_cases hsize : (r.place != .device || n == 4 || n == 8) = true
  · rw [checkAlignment, check_after ((need_ok_iff ..).2 hsize)]
    refine need_error _ (decide_eq_false fun ha => ?_)
    simp only [Bool.or_eq_true, bne_iff_ne, beq_iff_eq] at hsize
    tauto
  · exact check_fails (need_error _ (Bool.eq_false_iff.2 hsize))

theorem State.checkHome_ok_iff : s.checkHome r ea = .ok () ↔
    (r.place = .pan → (s.sliceOf s.mySp ea.toNat).isSome = true) := by
  rw [State.checkHome, need_ok_iff, Bool.or_eq_true, bne_iff_ne, ← imp_iff_not_or]

end

/-! ## The stages in their order -/

section
variable {s : State} {u : BaseUse} {a : BitVec 5} {bits : BitVec 12} {ea : Int} {n al : Nat} {st : Bool}
  {d : Option (BitVec 5)} {e : Trap}

theorem State.checkAccess_place (h : checkPlace u a (s.me.reg a) bits ea = .error e) :
    s.checkAccess u a bits ea n al st d = .error e :=
  check_fails h

/-- A base that is refused is refused before PR and the device window are looked at (R104). -/
theorem State.checkAccess_base (h : checkBase u a (s.me.reg a) bits (BitVec.ofInt 64 ea) = .error e) :
    s.checkAccess u a bits ea n al st d = .error e :=
  State.checkAccess_place (check_fails h)

theorem State.checkAccess_bounds (hp : checkPlace u a (s.me.reg a) bits ea = .ok ())
    (h : (s.me.reg a).inBounds ea n = false) :
    s.checkAccess u a bits ea n al st d = .error (trapBounds (BitVec.ofInt 64 ea)) :=
  (check_after hp).trans (check_fails (need_error _ h))

theorem State.checkAccess_inBounds (hp : checkPlace u a (s.me.reg a) bits ea = .ok ())
    (hb : (s.me.reg a).inBounds ea n = true) :
    s.checkAccess u a bits ea n al st d =
      (s.checkLinearity (s.me.reg a) ea n st d >>= fun _ => checkAlignment (s.me.reg a) ea n al >>= fun _ =>
        s.checkHome (s.me.reg a) ea) :=
  (check_after hp).trans (check_after (checkBounds_ok hb))

/-- A linear destination traps with its number (R102, R104). -/
theorem State.checkLinearity_destination {r : CReg} {x : BitVec 5} (hx : x ≠ 0#5) (hl : (s.me.reg x).linear = true) :
    s.checkLinearity r ea n st (some x) = .error (trapLinearity (x.setWidth 64)) :=
  check_fails (State.writable_of_not (by simp [State.mayWrite, hx, hl]))

/-- A store over a linear capability traps with its address (R134). -/
theorem State.checkLinearity_granule {r : CReg} (hd : ∀ x, d = some x → s.mayWrite x) (hr : r.place = .window) {q : Nat}
    (hq : q ∈ granules (ea.toNat % 2 ^ 18) n) (hl : s.myCore.linearGranule q = true) :
    s.checkLinearity r ea n true d = .error (trapLinearity (BitVec.ofInt 64 ea)) := by
  have hlinear : s.myCore.checkLinear (ea.toNat % 2 ^ 18) n (BitVec.ofInt 64 ea) =
      .error (trapLinearity (BitVec.ofInt 64 ea)) :=
    need_error _ (List.all_eq_false.2 ⟨q, hq, by simp [hl]⟩)
  have hgranule : (if true && r.place == .window then s.myCore.checkLinear (ea.toNat % 2 ^ 18) n (BitVec.ofInt 64 ea)
      else pure ()) = .error (trapLinearity (BitVec.ofInt 64 ea)) := (if_pos (by rw [hr]; rfl)).trans hlinear
  cases d with
  | none => exact hgranule
  | some x => exact (check_after ((s.writable_iff x).2 (hd x rfl))).trans hgranule

end

/-- Settles O16: the stages of `State.checkAccess_ok_iff` one by one, and the first that fails. -/
theorem accessChecks : Obligations.AccessChecks := by
  refine ⟨fun s u a bits ea n al st d => ?_, fun s u a bits ea n al st d => ?_⟩
  · dsimp only
    rw [State.checkAccess_ok_iff, checkPlace_ok_iff, State.checkLinearity_ok_iff, checkAlignment_ok_iff,
      State.checkHome_ok_iff, checkBounds, need_ok_iff]
    simp only [and_assoc]
  · dsimp only
    obtain ⟨htag, hkind, hstore, hperm⟩ := checkBase_errors (u := u) (a := a) (r := s.me.reg a) (bits := bits)
      (w := BitVec.ofInt 64 ea)
    refine ⟨fun ht => State.checkAccess_base (htag ht), fun ht hk => State.checkAccess_base (hkind ht hk),
      fun ht hk => State.checkAccess_base (hstore ht hk), fun ht hk hp => State.checkAccess_base (hperm ht hk hp),
      State.checkAccess_bounds, fun hp hb x hx h0 hl => ?_, fun hp hb hlin _ ha => ?_, fun hp hb hd hst hr q hq hl => ?_,
      fun hp hb hlin hr ha => ?_, fun hp hb hlin hr ha hs => ?_⟩
    all_goals rw [State.checkAccess_inBounds hp hb]
    · subst hx
      exact check_fails (State.checkLinearity_destination h0 hl)
    · exact (check_after hlin).trans (check_fails (checkAlignment_error (.inr ha)))
    · subst hst
      exact check_fails (State.checkLinearity_granule hd hr hq hl)
    · exact (check_after hlin).trans (check_fails (checkAlignment_error (ha.imp_left fun h => ⟨hr, h⟩)))
    · have hal : checkAlignment (s.me.reg a) ea n al = .ok () := checkAlignment_ok_iff.2 ⟨by simp [hr], ha⟩
      exact (check_after hlin).trans ((check_after hal).trans (need_error _ (by simp [hr, hs])))

end Sys2Proof.Machine
end

section
/-! THEOREM. Dot products and the exact sums under them, reductions and compares of lanes (O27). -/

namespace Sys2Proof.Machine

/-! ## Dot products and exact sums -/

section
variable {α : Type} {a b c : FVal} {n : Bool}

/-- A sum gathered from the left is the sum of the list. -/
theorem foldl_add_eq_sum (f : α → Int) (l : List α) (z : Int) : l.foldl (fun v x => v + f x) z = z + (l.map f).sum := by
  induction l generalizing z with
  | nil => exact (add_zero z).symm
  | cons x l ih => rw [List.foldl_cons, ih, List.map_cons, List.sum_cons, add_assoc]

theorem dotLane_of_integer {t : BitVec 3} (h : isInteger t = true) (mode : Rnd) (xs ys : List Nat) (k : Nat) :
    ((dotLane t mode xs ys k).1 : Int) = (toSigned 32 k +
      ((xs.zip ys).map (fun p => toSigned (laneWidth t) p.1 * toSigned (laneWidth t) p.2)).sum) % 2 ^ 32 ∧
    (dotLane t mode xs ys k).2 = flagNone := by
  rw [dotLane, if_pos h]
  dsimp only
  rw [foldl_add_eq_sum (fun p : Nat × Nat => toSigned (laneWidth t) p.1 * toSigned (laneWidth t) p.2)]
  exact ⟨Int.toNat_of_nonneg (Int.emod_nonneg _ (by decide)), rfl⟩

/-- 0 × Inf, in either order (R162). -/
theorem invalidProduct_iff : invalidProduct a b = true ↔
    ∃ x y e, (a, b) = (.inf x, .fin y 0 e) ∨ (a, b) = (.fin y 0 e, .inf x) := by
  cases a <;> cases b <;> simp [invalidProduct]

/-- The products that are an infinity of sign `n`. -/
theorem FVal.mul_eq_inf_iff : (a.mul b).1 = .inf n ↔ ∃ x y, n = (x != y) ∧ ((a, b) = (.inf x, .inf y) ∨
    ∃ m e, m ≠ 0 ∧ ((a, b) = (.inf x, .fin y m e) ∨ (a, b) = (.fin x m e, .inf y))) := by
  cases a with
  | nan => simp [FVal.mul]
  | inf x =>
    cases b with
    | nan => simp [FVal.mul]
    | inf y => simp [FVal.mul, eq_comm]
    | fin y m e =>
      by_cases h : m = 0
      · simp [FVal.mul, h]
      · cases n <;> cases x <;> cases y <;> simp [FVal.mul, h, Nat.pos_of_ne_zero h]
  | fin x m e =>
    cases b with
    | nan => simp [FVal.mul]
    | inf y =>
      by_cases h : m = 0
      · simp [FVal.mul, h]
      · cases n <;> cases x <;> cases y <;> simp [FVal.mul, h, Nat.pos_of_ne_zero h]
    | fin y m' e' => simp [FVal.mul]

/-- A product that is not invalid is NaN where one of its factors is. -/
theorem FVal.mul_eq_nan_iff (h : invalidProduct a b = false) : (a.mul b).1 = .nan ↔ a = .nan ∨ b = .nan := by
  cases a <;> cases b <;> simp_all [FVal.mul, invalidProduct]

theorem FVal.isNan_iff : a.isNan = true ↔ a = .nan := by
  cases a <;> simp [FVal.isNan]

end

section
variable {f : Fmt} {mode : Rnd} {ps : List (FVal × FVal)} {c : FVal} {n : Bool}

/-- The terms of an exact sum: the products and the addend. -/
def sumTerms (ps : List (FVal × FVal)) (c : FVal) : List FVal := ps.map (fun p => (p.1.mul p.2).1) ++ [c]

theorem any_sumTerms (q : FVal → Bool) :
    (sumTerms ps c).any q = true ↔ q c = true ∨ ∃ p ∈ ps, q (p.1.mul p.2).1 = true := by
  simp [sumTerms, or_comm]

theorem exactSum_invalid (h : (ps.any (fun p => invalidProduct p.1 p.2) ||
    ((sumTerms ps c).any (· == .inf true) && (sumTerms ps c).any (· == .inf false))) = true) :
    exactSum f mode ps c = (f.nan, flagNV) :=
  if_pos h

theorem exactSum_nan (h : (ps.any (fun p => invalidProduct p.1 p.2) ||
    ((sumTerms ps c).any (· == .inf true) && (sumTerms ps c).any (· == .inf false))) = false)
    (hn : (sumTerms ps c).any FVal.isNan = true) : exactSum f mode ps c = (f.nan, flagNone) :=
  (if_neg (Bool.eq_false_iff.1 h)).trans (if_pos hn)

theorem exactSum_infinity (h : ps.any (fun p => invalidProduct p.1 p.2) = false)
    (hn : (sumTerms ps c).any FVal.isNan = false) (hi : (sumTerms ps c).any (· == .inf n) = true)
    (ho : (sumTerms ps c).any (· == .inf (!n)) = false) : exactSum f mode ps c = (f.sign n + f.infinity, flagNone) := by
  unfold exactSum
  dsimp only
  rw [h, Bool.false_or]
  cases n with
  | true =>
    exact (if_neg (mt (fun hb => (Bool.and_eq_true_iff.1 hb).2) (Bool.eq_false_iff.1 ho))).trans
      ((if_neg (Bool.eq_false_iff.1 hn)).trans (if_pos hi))
  | false =>
    refine (if_neg (mt (fun hb => (Bool.and_eq_true_iff.1 hb).1) (Bool.eq_false_iff.1 ho))).trans
      ((if_neg (Bool.eq_false_iff.1 hn)).trans ((if_neg (Bool.eq_false_iff.1 ho)).trans ((if_pos hi).trans ?_)))
    exact congrArg (·, flagNone) (Nat.zero_add f.infinity).symm

/-- The rows of R168 for sums that are not finite. -/
theorem exactSum_special :
    let zeroTimes : Prop := ∃ p ∈ ps, ∃ x y e, p = (.inf x, .fin y 0 e) ∨ p = (.fin y 0 e, .inf x)
    let has (n : Bool) : Prop := c = .inf n ∨ ∃ p ∈ ps, ∃ x y, n = (x != y) ∧
      (p = (.inf x, .inf y) ∨ ∃ m e, m ≠ 0 ∧ (p = (.inf x, .fin y m e) ∨ p = (.fin x m e, .inf y)))
    let someNan : Prop := c = .nan ∨ ∃ p ∈ ps, p.1 = .nan ∨ p.2 = .nan
    (zeroTimes ∨ (has true ∧ has false) → exactSum f mode ps c = (f.nan, flagNV)) ∧
    (¬ zeroTimes → ¬ (has true ∧ has false) → someNan → exactSum f mode ps c = (f.nan, flagNone)) ∧
    ∀ n, ¬ zeroTimes → ¬ someNan → has n → ¬ has (!n) → exactSum f mode ps c = (f.sign n + f.infinity, flagNone) := by
  intro zeroTimes has someNan
  have hzero : ps.any (fun p => invalidProduct p.1 p.2) = true ↔ zeroTimes := by
    simp only [List.any_eq_true, invalidProduct_iff]
    rfl
  have hhas (n : Bool) : (sumTerms ps c).any (· == .inf n) = true ↔ has n := by
    simp only [any_sumTerms, beq_iff_eq, FVal.mul_eq_inf_iff]
    rfl
  have hnan (h : ¬ zeroTimes) : (sumTerms ps c).any FVal.isNan = true ↔ someNan := by
    simp only [any_sumTerms, FVal.isNan_iff]
    refine or_congr_right (exists_congr fun p => and_congr_right fun hp => FVal.mul_eq_nan_iff ?_)
    exact Bool.eq_false_iff.2 fun hinv => h ⟨p, hp, invalidProduct_iff.1 hinv⟩
  have hbad : (ps.any (fun p => invalidProduct p.1 p.2) || ((sumTerms ps c).any (· == .inf true) &&
      (sumTerms ps c).any (· == .inf false))) = true ↔ zeroTimes ∨ (has true ∧ has false) := by
    rw [Bool.or_eq_true, Bool.and_eq_true, hzero, hhas, hhas]
  refine ⟨fun h => exactSum_invalid (hbad.2 h), fun hz hi hn => exactSum_nan ?_ ((hnan hz).2 hn), fun n hz hn hi ho => ?_⟩
  · exact Bool.eq_false_iff.2 (mt hbad.1 (not_or.2 ⟨hz, hi⟩))
  · exact exactSum_infinity (Bool.eq_false_iff.2 (mt hzero.1 hz)) (Bool.eq_false_iff.2 (mt (hnan hz).1 hn)) ((hhas n).2 hi)
      (Bool.eq_false_iff.2 (mt (hhas _).1 ho))

end

end Sys2Proof.Machine
end

section
/-! THEOREM. The largest and the smallest lane, and the compares of two values (O27). -/

namespace Sys2Proof.Machine

/-! ## Reductions -/

/-- `b` is at least as far as `a` in the direction of a reduction: above it where the larger is sought, else below it. -/
def Toward (larger : Bool) (a b : Int) : Prop := if larger then a ≤ b else b ≤ a

section
variable {l : Bool} {a b c : Int}

theorem Toward.rfl : Toward l a a := by
  cases l <;> exact le_refl a

theorem Toward.trans (h : Toward l a b) (h' : Toward l b c) : Toward l a c := by
  cases l
  · exact le_trans h' h
  · exact le_trans h h'

end

section
variable {op : Nat → Nat → Nat} {key : Nat → Int} {good : Nat → Prop} {l : Bool}

/-- A reduction that picks one of two good numbers, no nearer than either, picks one of a list of them, no nearer than any. -/
theorem foldl_picks (hop : ∀ x y, good x → good y →
      (op x y = x ∨ op x y = y) ∧ Toward l (key x) (key (op x y)) ∧ Toward l (key y) (key (op x y)))
    (y : Nat) (ys : List Nat) (h : ∀ x ∈ y :: ys, good x) :
    ys.foldl op y ∈ y :: ys ∧ ∀ x ∈ y :: ys, Toward l (key x) (key (ys.foldl op y)) := by
  induction ys generalizing y with
  | nil => exact ⟨List.mem_singleton_self y, fun x hx => List.mem_singleton.1 hx ▸ Toward.rfl⟩
  | cons z zs ih =>
    have hy : good y := h y List.mem_cons_self
    have hz : good z := h z (List.mem_cons_of_mem _ List.mem_cons_self)
    obtain ⟨hpick, hleft, hright⟩ := hop y z hy hz
    obtain ⟨hmem, hfar⟩ := ih (op y z) fun x hx => by
      rcases List.mem_cons.1 hx with rfl | hx
      · rcases hpick with he | he <;> rw [he] <;> assumption
      · exact h x (List.mem_cons_of_mem _ (List.mem_cons_of_mem _ hx))
    rw [List.foldl_cons]
    refine ⟨?_, fun x hx => ?_⟩
    · rcases List.mem_cons.1 hmem with he | he
      · rw [he]
        rcases hpick with hp | hp <;> simp [hp]
      · exact List.mem_cons_of_mem _ (List.mem_cons_of_mem _ he)
    · have hhead := hfar _ List.mem_cons_self
      rcases List.mem_cons.1 hx with rfl | hx
      · exact hleft.trans hhead
      rcases List.mem_cons.1 hx with rfl | hx
      · exact hright.trans hhead
      · exact hfar x (List.mem_cons_of_mem _ hx)

end

section
variable {t : BitVec 3} {l : Bool} {v : BitVec 512} {x y : Nat}

theorem mem_lanesOf {w : Nat} : x ∈ lanesOf w v ↔ ∃ i < 512 / w, x = lane w v i := by
  simp [lanesOf, eq_comm]

theorem lane_lt {w i : Nat} : lane w v i < 2 ^ w := Nat.mod_lt _ (Nat.two_pow_pos w)

/-- There is a lane 0, and the reduction folds the others into it. -/
theorem reduceLanes_eq (t : BitVec 3) (l : Bool) (v : BitVec 512) : ∃ y ys, lanesOf (laneWidth t) v = y :: ys ∧
    reduceLanes t l v = BitVec.ofNat 512 (
      let r := ys.foldl (minMaxLane t 0#1 l) y
      if isFloating t then (if ((vfmt t).decode r).isNan then (vfmt t).nan else r)
      else (toSigned (laneWidth t) r % 2 ^ 32).toNat) := by
  have hne : lanesOf (laneWidth t) v ≠ [] := by
    rcases laneWidth_cases t with h | h | h <;> rw [h] <;> exact List.cons_ne_nil _ _
  obtain ⟨y, ys, h⟩ := List.exists_cons_of_ne_nil hne
  refine ⟨y, ys, h, ?_⟩
  unfold reduceLanes
  dsimp only
  rw [h]

theorem minMaxLane_picks_integer (h : isInteger t = true) (hx : x < 2 ^ laneWidth t) :
    (minMaxLane t 0#1 l x y = x ∨ minMaxLane t 0#1 l x y = y) ∧
      Toward l (toSigned (laneWidth t) x) (toSigned (laneWidth t) (minMaxLane t 0#1 l x y)) ∧
      Toward l (toSigned (laneWidth t) y) (toSigned (laneWidth t) (minMaxLane t 0#1 l x y)) := by
  obtain ⟨hmem, hmin, hmax, -⟩ := integerLane_results (u := 0#1) (y := y) h hx
  refine ⟨by simpa using hmem l, ?_⟩
  cases l with
  | false => exact ⟨hmin.trans_le (min_le_left ..), hmin.trans_le (min_le_right ..)⟩
  | true => exact ⟨(le_max_left ..).trans_eq hmax.symm, (le_max_right ..).trans_eq hmax.symm⟩

theorem minMaxLane_picks_floating (h : isFloating t = true) (hx : x < 2 ^ laneWidth t) (hy : y < 2 ^ laneWidth t)
    (hdx : (vfmt t).decode x ≠ .nan) (hdy : (vfmt t).decode y ≠ .nan) :
    (minMaxLane t 0#1 l x y = x ∨ minMaxLane t 0#1 l x y = y) ∧
      Toward l (signOrder (laneWidth t) x) (signOrder (laneWidth t) (minMaxLane t 0#1 l x y)) ∧
      Toward l (signOrder (laneWidth t) y) (signOrder (laneWidth t) (minMaxLane t 0#1 l x y)) := by
  obtain ⟨-, hmm, -⟩ := floatingLane_results (u := 0#1) h hx hy
  obtain ⟨hmin, hmax⟩ := hmm hdx hdy
  unfold Toward
  by_cases hle : signOrder (laneWidth t) x ≤ signOrder (laneWidth t) y
  · cases l
    · simp [hmin, hle]
    · simp [hmax, hle]
  · cases l
    · simp [hmin, hle, le_of_not_ge hle]
    · simp [hmax, hle, le_of_not_ge hle]

theorem decode_nan_of_floating (h : isFloating t = true) : (vfmt t).decode (vfmt t).nan = .nan ∧ (vfmt t).nan < 2 ^ 32 := by
  revert t
  decide

/-- One NaN makes a floating reduction a NaN. -/
theorem foldl_minMaxLane_nan (h : isFloating t = true) (y : Nat) (ys : List Nat)
    (hn : ∃ x ∈ y :: ys, (vfmt t).decode x = .nan) : (vfmt t).decode (ys.foldl (minMaxLane t 0#1 l) y) = .nan := by
  induction ys generalizing y with
  | nil => simpa using hn
  | cons z zs ih =>
    refine ih _ ?_
    obtain ⟨x, hx, hnan⟩ := hn
    have hhead (hyz : (vfmt t).decode y = .nan ∨ (vfmt t).decode z = .nan) :
        (vfmt t).decode (minMaxLane t 0#1 l y z) = .nan := by
      rw [minMaxLane, if_pos h, Fmt.minMax_nan hyz]
      exact (decode_nan_of_floating h).1
    rcases List.mem_cons.1 hx with rfl | hx
    · exact ⟨_, List.mem_cons_self, hhead (.inl hnan)⟩
    rcases List.mem_cons.1 hx with rfl | hx
    · exact ⟨_, List.mem_cons_self, hhead (.inr hnan)⟩
    · exact ⟨x, List.mem_cons_of_mem _ hx, hnan⟩

/-- A signed lane keeps its value in 32 bits. -/
theorem toSigned_extend {w : Nat} (hw : w = 32 ∨ w = 16 ∨ w = 8) (hx : x < 2 ^ w) :
    (toSigned w x % 2 ^ 32).toNat < 2 ^ 32 ∧ toSigned 32 (toSigned w x % 2 ^ 32).toNat = toSigned w x := by
  rcases hw with rfl | rfl | rfl
  all_goals
    unfold toSigned
    omega

theorem laneWidth_le (t : BitVec 3) : laneWidth t ≤ 32 := by
  rcases laneWidth_cases t with h | h | h <;> omega

theorem toNat_ofNat_of_lt (h : x < 2 ^ 32) : (BitVec.ofNat 512 x).toNat = x :=
  (BitVec.toNat_ofNat ..).trans (Nat.mod_eq_of_lt (h.trans (Nat.pow_lt_pow_right (by decide) (by decide))))

theorem reduceLanes_integer (h : isInteger t = true) : (reduceLanes t l v).toNat < 2 ^ 32 ∧
    (∃ i < 512 / laneWidth t, toSigned 32 (reduceLanes t l v).toNat = toSigned (laneWidth t) (lane (laneWidth t) v i)) ∧
    ∀ i < 512 / laneWidth t,
      Toward l (toSigned (laneWidth t) (lane (laneWidth t) v i)) (toSigned 32 (reduceLanes t l v).toNat) := by
  obtain ⟨y, ys, hl, hr⟩ := reduceLanes_eq t l v
  obtain ⟨hmem, hfar⟩ := foldl_picks (good := (· < 2 ^ laneWidth t)) (fun x y hx _ => minMaxLane_picks_integer (l := l) h hx)
    y ys fun x hx => by
      obtain ⟨i, -, rfl⟩ := mem_lanesOf.1 (hl ▸ hx)
      exact lane_lt
  obtain ⟨i, hi, hri⟩ := mem_lanesOf.1 (hl ▸ hmem)
  obtain ⟨hlt, hext⟩ := toSigned_extend (laneWidth_cases t) (lane_lt (v := v) (i := i))
  rw [hri] at hfar
  dsimp only at hr
  rw [isFloating_of_isInteger h, if_neg Bool.false_ne_true, hri] at hr
  rw [hr, toNat_ofNat_of_lt hlt, hext]
  exact ⟨hlt, ⟨i, hi, rfl⟩, fun j hj => hfar _ (hl ▸ mem_lanesOf.2 ⟨j, hj, rfl⟩)⟩

theorem reduceLanes_nan (h : isFloating t = true)
    (hn : ∃ i < 512 / laneWidth t, (vfmt t).decode (lane (laneWidth t) v i) = .nan) :
    (reduceLanes t l v).toNat = (vfmt t).nan := by
  obtain ⟨y, ys, hl, hr⟩ := reduceLanes_eq t l v
  obtain ⟨i, hi, hnan⟩ := hn
  have hfold := foldl_minMaxLane_nan (l := l) h y ys ⟨_, hl ▸ mem_lanesOf.2 ⟨i, hi, rfl⟩, hnan⟩
  dsimp only at hr
  rw [if_pos h, if_pos (FVal.isNan_iff.2 hfold)] at hr
  rw [hr, toNat_ofNat_of_lt (decode_nan_of_floating h).2]

theorem reduceLanes_floating (h : isFloating t = true)
    (hn : ∀ i < 512 / laneWidth t, (vfmt t).decode (lane (laneWidth t) v i) ≠ .nan) :
    ∃ i < 512 / laneWidth t, (reduceLanes t l v).toNat = lane (laneWidth t) v i ∧ ∀ j < 512 / laneWidth t,
      Toward l (signOrder (laneWidth t) (lane (laneWidth t) v j)) (signOrder (laneWidth t) (reduceLanes t l v).toNat) := by
  obtain ⟨y, ys, hl, hr⟩ := reduceLanes_eq t l v
  obtain ⟨hmem, hfar⟩ := foldl_picks (good := fun x => x < 2 ^ laneWidth t ∧ (vfmt t).decode x ≠ .nan)
    (fun x y hx hy => minMaxLane_picks_floating (l := l) h hx.1 hy.1 hx.2 hy.2) y ys fun x hx => by
      obtain ⟨i, hi, rfl⟩ := mem_lanesOf.1 (hl ▸ hx)
      exact ⟨lane_lt, hn i hi⟩
  obtain ⟨i, hi, hri⟩ := mem_lanesOf.1 (hl ▸ hmem)
  rw [hri] at hfar
  dsimp only at hr
  rw [if_pos h, hri, if_neg (mt FVal.isNan_iff.1 (hn i hi))] at hr
  have hlt : lane (laneWidth t) v i < 2 ^ 32 :=
    lane_lt.trans_le (Nat.pow_le_pow_right Nat.two_pos (laneWidth_le t))
  rw [hr, toNat_ofNat_of_lt hlt]
  exact ⟨i, hi, rfl, fun j hj => hfar _ (hl ▸ mem_lanesOf.2 ⟨j, hj, rfl⟩)⟩

end

/-! ## Compares -/

section
variable {a b : FVal} {c : Nat}

theorem compareFloat_nan (h : a = .nan ∨ b = .nan) (hc : c < 8) :
    compareFloat c a b = (decide (c = 1 ∨ c = 6), if c ∈ [2, 3, 4, 5] then flagNV else flagNone) := by
  have hnan : (a.isNan || b.isNan) = true := by rwa [Bool.or_eq_true, FVal.isNan_iff, FVal.isNan_iff]
  unfold compareFloat
  rw [if_pos hnan]
  interval_cases c <;> rfl

/-- The order of two values is that of `Below`, and one that is neither below nor above the other is equal to it. -/
theorem FVal.cmp_iff (ha : a ≠ .nan) (hb : b ≠ .nan) :
    (a.cmp b < 0 ↔ a.Below b) ∧ (0 < a.cmp b ↔ b.Below a) := by
  cases a with
  | nan => exact absurd rfl ha
  | inf n =>
    cases b with
    | nan => exact absurd rfl hb
    | inf n' => cases n <;> cases n' <;> simp [FVal.cmp, FVal.Below]
    | fin n' m' e' => cases n <;> simp [FVal.cmp, FVal.Below]
  | fin n m e =>
    cases b with
    | nan => exact absurd rfl hb
    | inf n' => cases n' <;> simp [FVal.cmp, FVal.Below]
    | fin n' m' e' =>
      obtain ⟨hlt, heq⟩ := cmp_fin_fin (n := n) (n' := n') (m := m) (m' := m') (min_le_left e e') (min_le_right e e')
      refine ⟨hlt, ?_⟩
      rw [FVal.Below, min_comm e' e]
      omega

theorem compareFloat_value (ha : a ≠ .nan) (hb : b ≠ .nan) (hc : c < 8) : (compareFloat c a b).2 = flagNone ∧
    ((compareFloat c a b).1 = true ↔
      (c = 0 ∧ ¬ a.Below b ∧ ¬ b.Below a) ∨ (c = 1 ∧ (a.Below b ∨ b.Below a)) ∨ (c = 2 ∧ a.Below b) ∨
      (c = 3 ∧ ¬ a.Below b) ∨ (c = 4 ∧ ¬ b.Below a) ∨ (c = 5 ∧ b.Below a) ∨ c = 7) := by
  have hnan : ¬ (a.isNan || b.isNan) = true := by
    rw [Bool.or_eq_true, FVal.isNan_iff, FVal.isNan_iff]
    exact not_or.2 ⟨ha, hb⟩
  obtain ⟨hlt, hgt⟩ := FVal.cmp_iff ha hb
  unfold compareFloat
  rw [if_neg hnan, ← hlt, ← hgt]
  refine ⟨rfl, ?_⟩
  interval_cases c <;> simp
  omega

end

end Sys2Proof.Machine
end

section
/-! THEOREM. The instructions of conversions, dot products, reductions and compares (O27). -/

namespace Sys2Proof.Machine

section
variable {s : State} {g t c r : BitVec 3} {d a b e f : BitVec 4} {u : BitVec 1} {reads : List (BitVec 4)} {n : Nat}
  (hp : s.me.pred g = true)
include hp

/-- A vector instruction that no stream holds back writes what it computes (R31, R182). -/
theorem State.vector_next {h : State → BitVec 512 × BitVec 5} (hgate : s.enabled.streamGate reads [d] = .ok none) :
    s.vector g reads d n h = .next (s.enabled.vectorDone reads d (h s.enabled).1 (h s.enabled).2 n) :=
  State.nextV_ok hp (act_after hgate)

theorem execVdot_does : s.VecDoes (execVdot g d t a b r s) [a, b, d] d 8 32 (fun i =>
    dotLane t (s.enabled.me.rounding r).plain
      ((List.range (32 / laneWidth t)).map (fun j => lane (laneWidth t) (s.enabled.readVec a) (32 / laneWidth t * i + j)))
      ((List.range (32 / laneWidth t)).map (fun j => lane (laneWidth t) (s.enabled.readVec b) (32 / laneWidth t * i + j)))
      (lane 32 (s.enabled.readVec d) i)) := by
  unfold execVdot
  exact State.vector_does hp rfl

theorem execVredsum_integer (ht : isFloating t = false) (hgate : s.enabled.streamGate [a] [d] = .ok none) :
    execVredsum g d t a r s = .next (s.enabled.vectorDone [a] d (BitVec.ofNat 512
      (((lanesOf (laneWidth t) (s.enabled.readVec a)).map (toSigned (laneWidth t))).sum % 2 ^ 32).toNat) 0#5 8) := by
  unfold execVredsum
  rw [State.vector_next hp hgate]
  dsimp only
  rw [ht, foldl_add_eq_sum, zero_add]
  rfl

theorem execVredsum_floating (ht : isFloating t = true) (hgate : s.enabled.streamGate [a] [d] = .ok none) :
    let q := sumTree (vfmt t) (s.enabled.me.rounding r).plain (if laneWidth t = 32 then 4 else 5)
      (lanesOf (laneWidth t) (s.enabled.readVec a))
    execVredsum g d t a r s = .next (s.enabled.vectorDone [a] d (BitVec.ofNat 512 (q.1.headD 0)) q.2 8) := by
  unfold execVredsum
  rw [State.vector_next hp hgate]
  dsimp only
  rw [if_pos ht]

theorem execVredmax_next (hgate : s.enabled.streamGate [a] [d] = .ok none) : execVredmax g d t a s =
    .next (s.enabled.vectorDone [a] d (reduceLanes t true (s.enabled.readVec a)) 0#5 8) := by
  unfold execVredmax
  exact State.vector_next hp hgate

theorem execVredmin_next (hgate : s.enabled.streamGate [a] [d] = .ok none) : execVredmin g d t a s =
    .next (s.enabled.vectorDone [a] d (reduceLanes t false (s.enabled.readVec a)) 0#5 8) := by
  unfold execVredmin
  exact State.vector_next hp hgate

theorem execVcvt_next (hgate : s.enabled.streamGate [a] [d] = .ok none) :
    let m := s.enabled.me.rounding r
    let n := 512 / max (cvtWidth f.toNat) (cvtWidth e.toNat)
    let q := convertAll e.toNat f.toNat m (stochasticCvt e.toNat f.toNat m)
      ((List.range n).map (lane (cvtWidth f.toNat) (s.enabled.readVec a))) s.enabled.me.srng
    execVcvt g d a e f r s =
      .next ((((s.enabled.popAll [a]).modMe (fun x => { x.raise q.2.1 with srng := q.2.2 })).writeVec d
        (ofLanes (cvtWidth e.toNat) q.1)).advance) := by
  rw [max_def_lt]
  exact State.nextV_ok hp (act_after hgate)

/-- The integer conditions of a lane compare (R172). -/
theorem execVcmp_integer (ht : isFloating t = false) (hc : c.toNat ≤ 5) :
    s.VecDoes (execVcmp g d t c a b u s) [a, b] d 8 (laneWidth t) (fun i =>
      let x := laneInt t u (lane (laneWidth t) (s.enabled.readVec a) i)
      let y := laneInt t u (lane (laneWidth t) (s.enabled.readVec b) i)
      (if (c = 0#3 ∧ x = y) ∨ (c = 1#3 ∧ x ≠ y) ∨ (c = 2#3 ∧ x < y) ∨ (c = 3#3 ∧ y ≤ x) ∨ (c = 4#3 ∧ x ≤ y) ∨
        (c = 5#3 ∧ y < x) then 2 ^ laneWidth t - 1 else 0, flagNone)) := by
  unfold execVcmp
  refine State.vector_does hp ((zipLanes_eq_lanewise _ _ _).trans (congrArg (lanewise (laneWidth t)) (funext fun i => ?_)))
  dsimp only
  rw [if_neg (Bool.eq_false_iff.1 ht)]
  obtain ⟨x, hx⟩ : ∃ x, laneInt t u (lane (laneWidth t) (s.enabled.readVec a) i) = x := ⟨_, rfl⟩
  obtain ⟨y, hy⟩ : ∃ y, laneInt t u (lane (laneWidth t) (s.enabled.readVec b) i) = y := ⟨_, rfl⟩
  rw [hx, hy]
  have hcases : c = 0#3 ∨ c = 1#3 ∨ c = 2#3 ∨ c = 3#3 ∨ c = 4#3 ∨ c = 5#3 := by
    revert c
    decide
  rcases hcases with rfl | rfl | rfl | rfl | rfl | rfl
  all_goals simp

theorem execVcmp_floating (ht : isFloating t = true) :
    s.VecDoes (execVcmp g d t c a b u s) [a, b] d 8 (laneWidth t) (fun i =>
      let q := compareFloat c.toNat ((vfmt t).decode (lane (laneWidth t) (s.enabled.readVec a) i))
        ((vfmt t).decode (lane (laneWidth t) (s.enabled.readVec b) i))
      (if q.1 then 2 ^ laneWidth t - 1 else 0, q.2)) := by
  unfold execVcmp
  refine State.vector_does hp ((zipLanes_eq_lanewise _ _ _).trans (congrArg (lanewise (laneWidth t)) (funext fun i => ?_)))
  dsimp only
  rw [if_pos ht]

end

end Sys2Proof.Machine
end

section
/-! THEOREM. The reduction into an XS320 object, and the statement (O27). -/

namespace Sys2Proof.Machine

section
variable {s : State} {g t : BitVec 3} {a b : BitVec 4}

theorem State.reg_modMe_setVe (c : BitVec 5) : (s.modMe Strand.setVe).me.reg c = s.me.reg c := by
  rw [State.me_modMe]
  rfl

theorem State.linearGranule_enabled (q : Nat) : s.enabled.myCore.linearGranule q = s.myCore.linearGranule q := by
  rw [State.enabled, State.modMe, State.myCore_setMe]
  rfl

/-- With its checks passed, `vredx` adds every lane to the object (R171). -/
theorem execVredx_next (hg : s.me.pred g = true) (hgate : s.enabled.streamGate [a] [] = .ok none) :
    let o := s.me.reg (b.setWidth 5)
    let v := s.enabled
    o.tag = true → o.kind = 1 → o.has 0 = true → o.has 1 = true → o.inBounds o.val.toNat 48 = true →
    (∀ q ∈ granules o.val.toNat 48, s.myCore.linearGranule q = false) → o.val.toNat % 16 = 0 →
    xsReservedOk (v.myCore.sp.readN o.val.toNat 48) = true →
    execVredx g t a b s = .next (((v.popAll [a]).modMyCore (fun x => x.spWrite o.val.toNat
      ((lanesOf (laneWidth t) (v.readVec a)).foldl (fun y z => y.add ((vfmt t).decode z))
        (Xs.ofBytes (v.myCore.sp.readN o.val.toNat 48))).bytes)).advanceBy (8 * (512 / laneWidth t / 16))) := by
  intro o v htag hkind h0 h1 hbounds hlinear halign hxs
  have hlin (q : Nat) (hq : q ∈ granules o.val.toNat 48) : v.myCore.linearGranule q = false :=
    (State.linearGranule_enabled q).trans (hlinear q hq)
  have hbase : checkBase .window (b.setWidth 5) o permLS o.val = .ok () :=
    checkBase_ok_iff.2 ⟨htag, by rw [hkind]; rfl, CReg.perm_and_permLS h0 h1⟩
  refine State.nextV_ok hg ((act_after hgate).trans ?_)
  dsimp only
  rw [State.reg_modMe_setVe]
  exact (act_after hbase).trans <| (act_after (checkBounds_ok hbounds)).trans <| (act_after (Core.checkLinear_ok hlin)).trans <|
    (act_after (checkAlign_ok (by exact_mod_cast halign))).trans <| act_after ((need_ok_iff ..).2 hxs)

end

theorem orFlags_none (n : Nat) : orFlags n (fun _ => flagNone) = 0#5 := by
  unfold orFlags
  induction n with
  | zero => rfl
  | succ n ih =>
    rw [List.range_succ, List.foldl_append, ih]
    exact BitVec.or_zero

/-- Settles O27: sums that are not finite go by the rows of `exactSum_special`, a reduction picks a lane no nearer than any,
a compare goes by `FVal.cmp_iff`, and each instruction writes what its lane functions give. -/
theorem vectorReductionResults : Obligations.VectorReductionResults := by
  unfold Obligations.VectorReductionResults
  refine ⟨fun t mode xs ys c => ⟨fun h => dotLane_of_integer h mode xs ys c, fun h => ?_⟩,
    fun mode ps c => exactSum_special,
    fun t l v => ⟨fun h => reduceLanes_integer h, fun h => ⟨fun hn => reduceLanes_nan h hn, fun hn => ?_⟩⟩,
    fun c a b hc => ⟨fun h => compareFloat_nan h hc, fun ha hb => compareFloat_value ha hb hc⟩,
    fun s g t c r d a b e f u hg => ⟨fun hgate => ?_, fun hgate => ⟨fun ht => ?_, fun ht => ?_, ?_, ?_, ?_⟩,
      fun hgate ht hc => ?_, fun hgate ht => ?_, ?_⟩⟩
  · rw [dotLane, if_neg (Bool.eq_false_iff.1 h)]
  · obtain ⟨i, hi, hr, hfar⟩ := reduceLanes_floating h hn
    exact ⟨⟨i, hi, hr⟩, ⟨i, hi, congrArg (signOrder (laneWidth t)) hr⟩, hfar⟩
  · exact execVdot_does hg hgate
  · exact execVredsum_integer hg ht hgate
  · exact execVredsum_floating hg ht hgate
  · exact execVredmax_next hg hgate
  · exact execVredmin_next hg hgate
  · exact execVcvt_next hg hgate
  · obtain ⟨q, hq, hlanes⟩ := execVcmp_integer (u := u) hg ht hc hgate
    rw [orFlags_none] at hq
    exact ⟨q, hq, hlanes⟩
  · exact execVcmp_floating hg ht hgate
  · intro o hgate
    exact execVredx_next hg hgate

end Sys2Proof.Machine
end

section
/-! THEOREM. The pan-table requests at a slice (O41): the answer leaves the slices alone, and each request with the refusal of a
channel that failed training. -/

namespace Sys2Proof.Machine

/-! ## Slices, the agenda and answers -/

section
variable {s : State} {n j i id after : Nat} {e : PanEntry} {f : PanEntry → PanEntry} {u : Option Trap}

theorem State.slice_modSlice (s : State) (n j : Nat) (g : Slice → Slice) :
    (s.modSlice n g).slice j = if j = n then g (s.slice n) else s.slice j := by
  simp only [State.slice, State.modSlice, State.setSlice, Table.getD_set]

/-- A change of an entry that stands in the table changes that entry alone. -/
theorem State.slice_modPan (h : Table.get? (s.slice n).pans i = some e) :
    (s.modPan n i f).slice n = { s.slice n with pans := (s.slice n).pans.set i (f e) } := by
  rw [State.modPan, State.slice_modSlice_self, h]

theorem State.pan_modPan (h : Table.get? (s.slice n).pans i = some e) :
    Table.get? ((s.modPan n i f).slice n).pans i = some (f e) := by
  rw [State.slice_modPan h]
  exact Table.get?_set_self ..

theorem State.slices_tableAnswer : (s.tableAnswer id u after).slices = s.slices := by
  unfold State.tableAnswer
  split
  · split <;> rfl
  · rfl

theorem State.slice_tableAnswer : (s.tableAnswer id u after).slice n = s.slice n :=
  congrArg (fun t : Table Slice => t.getD n Slice.reset) State.slices_tableAnswer

theorem mem_insertDue {l : List Due} {d x : Due} : x ∈ insertDue l d ↔ x = d ∨ x ∈ l := by
  induction l with
  | nil => exact List.mem_cons
  | cons e l ih =>
    rw [insertDue]
    split
    · exact List.mem_cons
    · rw [List.mem_cons, List.mem_cons, ih]
      tauto

/-- The agenda of `t` holds event `i` with operands `o`. -/
def State.Asks (t : State) (i : Instr) (o : Operands) : Prop := ∃ d ∈ t.agenda, d.event = i ∧ d.arg = o

theorem State.asks_postAt {dom : Option Nat} {t : Nat} {i : Instr} {o : Operands} : (s.postAt dom t i o).Asks i o :=
  ⟨_, mem_insertDue.2 (.inl rfl), rfl, rfl⟩

end

/-! ## Claims -/

section
variable {s : State} {n base bytes free : Nat} {i : Instr} {o : Operands}

theorem State.slice_postAt {dom : Option Nat} {t : Nat} : (s.postAt dom t i o).slice n = s.slice n := rfl

/-- A claim asks for the event of its end. -/
theorem State.asks_claim : (s.claim n base bytes free i o).Asks i o := by
  unfold State.claim
  dsimp only
  split <;> exact State.asks_postAt

/-- It is noted at the slice where there are bytes to read, and changes nothing else there (R314). -/
theorem State.slice_claim : ∃ cs, (s.claim n base bytes free i o).slice n =
    { s.slice n with claims := (s.slice n).claims ++ cs } ∧ (bytes ≠ 0 → ∃ c, cs = [c] ∧ c.base = base) := by
  unfold State.claim
  dsimp only
  split
  · refine ⟨[], ?_, fun hb => by omega⟩
    rw [List.append_nil]
    rfl
  · rw [State.slice_postAt, State.slice_modSlice_self]
    exact ⟨_, rfl, fun _ => ⟨_, rfl, rfl⟩⟩

theorem State.slice_chargeTable {q : Packet} {e : PanEntry} : (s.chargeTable q n e).slice n = s.slice n := by
  unfold State.chargeTable State.chargeOwner
  split <;> rfl

end

/-! ## Writes before their time, and conversions -/

section
variable {s : State} {n sp basep res mode : Nat} {e : PanEntry}

/-- The writes of a pan's reservations that are done early touch memory and the list of bytes held (R321, R323). -/
theorem State.flushHeld_keeps : (s.flushHeld n basep).packets = s.packets ∧
    ∀ j, ∃ b, (s.flushHeld n basep).slice j = { s.slice j with held := b } := by
  unfold State.flushHeld
  refine List.foldlRecOn (motive := fun t : State => t.packets = s.packets ∧ ∀ j, ∃ b, t.slice j =
    { s.slice j with held := b }) _ _ ⟨rfl, fun j => ⟨_, rfl⟩⟩ fun t ⟨hpk, hsl⟩ p _ => ?_
  split
  · split
    · refine ⟨hpk, fun j => ?_⟩
      obtain ⟨b, hb⟩ := hsl j
      rw [State.slice_modSlice]
      split
      · next h =>
        subst h
        exact ⟨_, by rw [show (t.hbmWrite _ _).slice j = t.slice j from rfl, hb]⟩
      · exact ⟨b, hb⟩
    · exact ⟨hpk, hsl⟩
  · exact ⟨hpk, hsl⟩

/-- A conversion touches memory alone (R154). -/
theorem State.convert_keeps : ∃ m, s.convert n sp e res mode = { s with hbm := m } := by
  unfold State.convert
  refine List.foldlRecOn (motive := fun t : State => ∃ m, t = { s with hbm := m }) _ _ ⟨s.hbm, rfl⟩ fun t ht _ _ => ?_
  refine List.foldlRecOn (motive := fun t : State => ∃ m, t = { s with hbm := m }) _ _ ht fun t ⟨m, ht⟩ _ _ => ?_
  split
  · exact ⟨m, ht⟩
  · exact ⟨_, by rw [ht]⟩

end

/-! ## Requests -/

section
variable {s : State} {q : Packet} {n after : Nat} {req : TableReq} {f : Packet → Nat → TableReq → State}

theorem State.atSlice_failed (hreq : s.tableRequest s.arg.a = some (q, n, req)) (hf : (s.slice n).failed = true) :
    s.atSlice s.arg.a after f = s.tableAnswer s.arg.a (some (trapTranslation (BitVec.ofNat 64 req.va))) after := by
  rw [State.atSlice, hreq]
  exact if_pos hf

theorem State.atSlice_sound (hreq : s.tableRequest s.arg.a = some (q, n, req)) (hf : (s.slice n).failed = false) :
    s.atSlice s.arg.a after f = f q n req := by
  rw [State.atSlice, hreq]
  exact if_neg (Bool.eq_false_iff.1 hf)

/-- The refusal of a slice whose channel failed training (R424). -/
theorem exec_failed (hreq : s.tableRequest s.arg.a = some (q, n, req)) (hf : (s.slice n).failed = true) :
    (∀ i ∈ [Instr.freezeRequest, .doneMessage, .panMintRequest, .contributorMintCheck], exec i s =
      .next (s.tableAnswer s.arg.a (some (trapTranslation (BitVec.ofNat 64 req.va))) 0)) ∧
    exec .masterSealRequest s = .next (s.tableAnswer s.arg.a (some (trapTranslation (BitVec.ofNat 64 req.va))) 6) := by
  have hexec {a : Nat} (g : Packet → Nat → TableReq → State) : Host.Outcome.next (s.atSlice s.arg.a a g) =
      (.next (s.tableAnswer s.arg.a (some (trapTranslation (BitVec.ofNat 64 req.va))) a) :
        Host.Outcome State Fault Refusal) := congrArg _ (State.atSlice_failed hreq hf)
  refine ⟨fun i hi => ?_, hexec _⟩
  simp only [List.mem_cons, List.not_mem_nil, or_false] at hi
  rcases hi with rfl | rfl | rfl | rfl
  all_goals exact hexec _

end

section
variable {s : State} {q : Packet} {n i va : Nat} {e : PanEntry}

theorem execHolderUpdate_none {lcn : Nat} (hreq : s.tableRequest s.arg.a = some (q, n, .holder va lcn))
    (hp : (s.slice n).panAt va = none) : exec .holderUpdate s = .next (s.tableAnswer s.arg.a none 0) := by
  refine congrArg Host.Outcome.next ?_
  rw [hreq]
  dsimp only
  rw [hp]

theorem execHolderUpdate_some {lcn : Nat} (hreq : s.tableRequest s.arg.a = some (q, n, .holder va lcn))
    (hp : (s.slice n).panAt va = some (i, e)) : exec .holderUpdate s =
      .next ((s.modPan n i (fun e => { e with holder := lcn })).tableAnswer s.arg.a none 0) := by
  refine congrArg Host.Outcome.next ?_
  rw [hreq]
  dsimp only
  rw [hp]

end

section
variable {s : State} {q : Packet} {n i va base top : Nat} {e : PanEntry}

theorem execFreezeRequest_none (hf : (s.slice n).failed = false) (hreq : s.tableRequest s.arg.a = some (q, n, .freeze base top))
    (hp : (s.slice n).panAt base = none) : exec .freezeRequest s =
      .next (s.tableAnswer s.arg.a (some (trapPermission (BitVec.ofNat 64 base))) 0) := by
  refine congrArg Host.Outcome.next ((State.atSlice_sound hreq hf).trans ?_)
  dsimp only
  rw [hp]

theorem execFreezeRequest_some (hf : (s.slice n).failed = false) (hreq : s.tableRequest s.arg.a = some (q, n, .freeze base top))
    (hp : (s.slice n).panAt base = some (i, e)) : exec .freezeRequest s = .next (
      if e.basep * 2 ^ 21 ≠ base ∨ (e.basep + e.pages) * 2 ^ 21 ≠ top then
        s.tableAnswer s.arg.a (some (trapBounds (BitVec.ofNat 64 base))) 0
      else if e.kind ≠ 2 then s.tableAnswer s.arg.a (some (trapPermission (BitVec.ofNat 64 base))) 0
      else ((s.flushHeld n e.basep).modPan n i (fun e => { e with kind := 3 })).tableAnswer s.arg.a none 0) := by
  refine congrArg Host.Outcome.next ((State.atSlice_sound hreq hf).trans ?_)
  dsimp only
  rw [hp]

/-- A frozen pan is of kind 3, once its reservations are written (R117, R323). -/
theorem State.pan_freeze (hp : Table.get? (s.slice n).pans i = some e) :
    let u := (s.flushHeld n e.basep).modPan n i (fun e => { e with kind := 3 })
    u.packets = s.packets ∧ Table.get? (u.slice n).pans i = some { e with kind := 3 } := by
  obtain ⟨hpk, hsl⟩ := State.flushHeld_keeps (s := s) (n := n) (basep := e.basep)
  obtain ⟨b, hb⟩ := hsl n
  refine ⟨hpk, State.pan_modPan (by rw [hb]; exact hp)⟩

end

section
variable {s : State} {q : Packet} {n i va : Nat} {e : PanEntry}

/-- A seal that was asked for begins once every contributor is done (R149, R154). -/
theorem State.asks_sealCheck {pkt : Nat} (h : Table.get? (s.slice n).pans i = some e) (hs : e.sealing = some pkt)
    (hd : e.done = e.ncon) : (s.sealCheck n i).Asks .sealBegin (args n (e.basep * 2 ^ 21) pkt) := by
  rw [State.sealCheck, h]
  dsimp only
  rw [hs]
  dsimp only
  rw [if_pos hd]
  exact State.asks_postAt

theorem State.sealCheck_waits (h : Table.get? (s.slice n).pans i = some e) (hd : e.done ≠ e.ncon) :
    s.sealCheck n i = s := by
  rw [State.sealCheck, h]
  dsimp only
  split
  · exact if_neg hd
  · rfl

theorem State.slice_sealCheck {m : Nat} : (s.sealCheck n i).slice m = s.slice m := by
  unfold State.sealCheck
  split
  · split
    · split <;> rfl
    · rfl
  · rfl

theorem execDoneMessage_none (hf : (s.slice n).failed = false) (hreq : s.tableRequest s.arg.a = some (q, n, .done va))
    (hp : (s.slice n).panAt va = none) : exec .doneMessage s =
      .next (s.tableAnswer s.arg.a (some (trapPermission (BitVec.ofNat 64 va))) 0) := by
  refine congrArg Host.Outcome.next ((State.atSlice_sound hreq hf).trans ?_)
  dsimp only
  rw [hp]

theorem execDoneMessage_some (hf : (s.slice n).failed = false) (hreq : s.tableRequest s.arg.a = some (q, n, .done va))
    (hp : (s.slice n).panAt va = some (i, e)) : exec .doneMessage s = .next (
      if e.kind ≠ 5 ∨ e.ncon ≤ e.done then s.tableAnswer s.arg.a (some (trapPermission (BitVec.ofNat 64 va))) 0
      else ((s.modPan n i (fun e => { e with done := e.done + 1 })).tableAnswer s.arg.a none 0).sealCheck n i) := by
  refine congrArg Host.Outcome.next ((State.atSlice_sound hreq hf).trans ?_)
  dsimp only
  rw [hp]

theorem execContributorMintCheck_none {size : Nat} (hf : (s.slice n).failed = false)
    (hreq : s.tableRequest s.arg.a = some (q, n, .check va size)) (hp : (s.slice n).panAt va = none) :
    exec .contributorMintCheck s = .next (s.tableAnswer s.arg.a (some (trapPermission (BitVec.ofNat 64 va))) 0) := by
  refine congrArg Host.Outcome.next ((State.atSlice_sound hreq hf).trans ?_)
  dsimp only
  rw [hp]
  rfl

theorem execContributorMintCheck_some {size : Nat} (hf : (s.slice n).failed = false)
    (hreq : s.tableRequest s.arg.a = some (q, n, .check va size)) (hp : (s.slice n).panAt va = some (i, e)) :
    exec .contributorMintCheck s = .next (s.tableAnswer s.arg.a (if e.basep * 2 ^ 21 = va ∧ e.pages * 2 ^ 21 = size ∧
      e.kind = 5 ∧ e.isSealed = false then none else some (trapPermission (BitVec.ofNat 64 va))) 0) := by
  refine congrArg Host.Outcome.next ((State.atSlice_sound hreq hf).trans ?_)
  dsimp only
  rw [hp]
  simp only [Bool.and_eq_true, beq_iff_eq, Bool.not_eq_true', and_assoc]

theorem execMasterSealRequest_none {f mode : Nat} {fr : Bool} (hf : (s.slice n).failed = false)
    (hreq : s.tableRequest s.arg.a = some (q, n, .master va f fr mode)) (hp : (s.slice n).panAt va = none) :
    exec .masterSealRequest s = .next (s.tableAnswer s.arg.a (some (trapPermission (BitVec.ofNat 64 va))) 6) := by
  refine congrArg Host.Outcome.next ((State.atSlice_sound hreq hf).trans ?_)
  dsimp only
  rw [hp]

theorem execMasterSealRequest_some {f mode : Nat} {fr : Bool} (hf : (s.slice n).failed = false)
    (hreq : s.tableRequest s.arg.a = some (q, n, .master va f fr mode)) (hp : (s.slice n).panAt va = some (i, e)) :
    exec .masterSealRequest s = .next (
      if e.kind ≠ 5 ∨ e.isSealed = true ∨ (e.fmt = 3 ∧ f ≠ 2) ∨ (e.fmt = 2 ∧ f = 2 ∧ isHomed va = false) then
        s.tableAnswer s.arg.a (some (trapPermission (BitVec.ofNat 64 va))) 6
      else (s.modPan n i (fun e => { e with sealing := some s.arg.a })).sealCheck n i) := by
  refine congrArg Host.Outcome.next ((State.atSlice_sound hreq hf).trans ?_)
  dsimp only
  rw [hp]
  simp only [Bool.not_eq_true']

end

section
variable {s : State} {q : Packet} {n va size kind fmt ncon holder : Nat}

theorem execPanMintRequest_refused {u : Trap} (hf : (s.slice n).failed = false)
    (hreq : s.tableRequest s.arg.a = some (q, n, .mint va size kind fmt ncon holder))
    (hu : s.mintRefusal n q.sp va size = some u) :
    exec .panMintRequest s = .next (s.tableAnswer s.arg.a (some u) 0) := by
  refine congrArg Host.Outcome.next ((State.atSlice_sound hreq hf).trans ?_)
  dsimp only
  rw [hu]

/-- The entry of a pan that is being minted (R305). -/
def State.mintedEntry (s : State) (q : Packet) (n va size kind fmt ncon holder : Nat) : PanEntry :=
  { basep := va / 2 ^ 21, pages := size / 2 ^ 21, kind := kind, fmt := fmt, tbl := s.sliceOf q.sp va == some n
    isSealed := false, holder := holder, ncon := ncon, done := 0, sealing := none }

/-- A mint that its slice accepts takes the lowest free entry; an accumulate pan is zeroed first (R228, R305). -/
theorem execPanMintRequest_taken {i : Nat} (hf : (s.slice n).failed = false)
    (hreq : s.tableRequest s.arg.a = some (q, n, .mint va size kind fmt ncon holder))
    (hu : s.mintRefusal n q.sp va size = none) (hi : (s.slice n).freePan = some i) :
    let e := s.mintedEntry q n va size kind fmt ncon holder
    let u := s.modSlice n (fun x => { x with mints := x.mints ++ [{ op := q.tableId, entry := i, pan := e }] })
    exec .panMintRequest s = .next (if kind = 5 then
      (u.chargeTable q n e).claim n va (s.bytesOn n q.sp e) 0 .panZeroingDone (args n va s.arg.a)
      else u.tableAnswer s.arg.a none 0) := by
  refine congrArg Host.Outcome.next ((State.atSlice_sound hreq hf).trans ?_)
  dsimp only
  rw [hu, hi]
  rfl

/-- While an accumulate pan is zeroed its slice holds the mint and, where it has bytes of the pan, a claim (R314). -/
theorem State.slice_zeroing {m : Mint} {e : PanEntry} {bytes : Nat} {o : Operands} :
    let t := ((s.modSlice n (fun x => { x with mints := x.mints ++ [m] })).chargeTable q n e).claim n va bytes 0
      .panZeroingDone o
    (t.slice n).mints = (s.slice n).mints ++ [m] ∧ (t.slice n).pans = (s.slice n).pans ∧
      (bytes ≠ 0 → ∃ c, (t.slice n).claims = (s.slice n).claims ++ [c] ∧ c.base = va) := by
  intro t
  obtain ⟨cs, ht, hcs⟩ := State.slice_claim (n := n) (base := va) (bytes := bytes) (free := 0) (i := .panZeroingDone) (o := o)
    (s := (s.modSlice n (fun x => { x with mints := x.mints ++ [m] })).chargeTable q n e)
  rw [State.slice_chargeTable, State.slice_modSlice_self] at ht
  rw [show t.slice n = _ from ht]
  refine ⟨rfl, rfl, fun hb => ?_⟩
  obtain ⟨c, rfl, hc⟩ := hcs hb
  exact ⟨c, rfl, hc⟩

end

end Sys2Proof.Machine
end

section
/-! THEOREM. Seals at a slice, and what the replies of the slices do at the core (O41). -/

namespace Sys2Proof.Machine

/-! ## Seals -/

section
variable {s : State} {q : Packet} {m i w f mode : Nat} {fr : Bool} {req : TableReq} {e : PanEntry}

/-- A seal closes its pan, and claims the rounds of the conversion unless contributions still wait (R149, R314). -/
theorem execSealBegin_eq (hreq : s.tableRequest s.arg.c = some (q, m, req))
    (hp : (s.slice s.arg.a).panAt s.arg.b = some (i, e)) :
    let u := s.modPan s.arg.a i (fun e => { e with isSealed := true })
    exec .sealBegin s = .next (if (s.slice s.arg.a).contributing e.basep then u
      else (u.chargeTable q s.arg.a e).claim s.arg.a s.arg.b (s.bytesOn s.arg.a q.sp e) 6 .panConversionDone
        (args s.arg.a s.arg.b s.arg.c)) := by
  refine congrArg Host.Outcome.next ?_
  rw [hreq, hp]

theorem execSealBegin_clause (hreq : s.tableRequest s.arg.c = some (q, m, req))
    (hp : (s.slice s.arg.a).panAt s.arg.b = some (i, e)) (hi : Table.get? (s.slice s.arg.a).pans i = some e) :
    ∃ t, exec .sealBegin s = .next t ∧ Table.get? (t.slice s.arg.a).pans i = some { e with isSealed := true } ∧
      ((s.slice s.arg.a).contributing e.basep = false →
        t.Asks .panConversionDone (args s.arg.a s.arg.b s.arg.c)) := by
  have hmod := State.pan_modPan (f := fun e => { e with isSealed := true }) hi
  refine ⟨_, execSealBegin_eq hreq hp, ?_, fun hc => ?_⟩
  · split
    · exact hmod
    · obtain ⟨cs, hcs, -⟩ := State.slice_claim (n := s.arg.a) (base := s.arg.b) (bytes := s.bytesOn s.arg.a q.sp e)
        (free := 6) (i := .panConversionDone) (o := args s.arg.a s.arg.b s.arg.c)
        (s := (s.modPan s.arg.a i (fun e => { e with isSealed := true })).chargeTable q s.arg.a e)
      rw [hcs, State.slice_chargeTable]
      exact hmod
  · rw [if_neg (Bool.eq_false_iff.1 hc)]
    exact State.asks_claim

/-- What a slice does when a pan is converted (R154, R306, R321). -/
def State.sealed (s : State) (q : Packet) (n va i f mode : Nat) (fr : Bool) (e : PanEntry) : State :=
  (((((s.flushHeld n e.basep).convert n q.sp e f mode).modPan n i
    (fun e => { e with kind := if fr then 3 else 2, fmt := 0, sealing := none })).modSlice n
    (fun x => { x with marks := x.marks.filter (fun m => m.1 != e.basep) })).unclaim n va)

theorem execPanConversionDone_eq (hreq : s.tableRequest s.arg.c = some (q, m, .master w f fr mode))
    (hp : (s.slice s.arg.a).panAt s.arg.b = some (i, e)) : exec .panConversionDone s =
      .next ((s.sealed q s.arg.a s.arg.b i f mode fr e).tableAnswer s.arg.c none 0) := by
  refine congrArg Host.Outcome.next ?_
  rw [hreq, hp]
  rfl

theorem State.sealed_fields {n va : Nat} (hi : Table.get? (s.slice n).pans i = some e) :
    let u := s.sealed q n va i f mode fr e
    u.packets = s.packets ∧ u.hbm = ((s.flushHeld n e.basep).convert n q.sp e f mode).hbm ∧
      Table.get? (u.slice n).pans i = some { e with kind := if fr then 3 else 2, fmt := 0, sealing := none } ∧
      (∀ m ∈ (u.slice n).marks, m.1 ≠ e.basep) ∧ ∀ c ∈ (u.slice n).claims, c.base ≠ va := by
  obtain ⟨hpk, hsl⟩ := State.flushHeld_keeps (s := s) (n := n) (basep := e.basep)
  obtain ⟨b, hb⟩ := hsl n
  obtain ⟨mem, hc⟩ := State.convert_keeps (s := s.flushHeld n e.basep) (n := n) (sp := q.sp) (e := e) (res := f) (mode := mode)
  have hpan : Table.get? (((s.flushHeld n e.basep).convert n q.sp e f mode).slice n).pans i = some e := by
    rw [hc, show State.slice { s.flushHeld n e.basep with hbm := mem } n = (s.flushHeld n e.basep).slice n from rfl, hb]
    exact hi
  have hmod := State.pan_modPan (f := fun e : PanEntry => { e with kind := if fr then 3 else 2, fmt := 0, sealing := none }) hpan
  intro u
  refine ⟨?_, rfl, ?_⟩
  · exact (congrArg State.packets hc).trans hpk
  · simp only [u, State.sealed, State.unclaim, State.slice_modSlice_self]
    refine ⟨hmod, fun m hm => ?_, fun c hcl => ?_⟩
    · exact bne_iff_ne.1 (List.mem_filter.1 hm).2
    · exact bne_iff_ne.1 (List.mem_filter.1 hcl).2

end

/-! ## Where memory lies -/

/-- `t` has the partitions, the page tables, the clock and the channels of `s`, on which the place of a pan's bytes depends, and
its cores. -/
structure State.SameMaps (s t : State) : Prop where
  parts : t.parts = s.parts
  sup : t.sup = s.sup
  now : t.now = s.now
  cores : t.cores = s.cores
  failed : ∀ n, (t.slice n).failed = (s.slice n).failed

section
variable {s t u : State} {p n sp va : Nat} {e : PanEntry}

theorem State.SameMaps.refl : s.SameMaps s := ⟨rfl, rfl, rfl, rfl, fun _ => rfl⟩

theorem State.SameMaps.trans (h : s.SameMaps t) (h' : t.SameMaps u) : s.SameMaps u :=
  ⟨h'.parts.trans h.parts, h'.sup.trans h.sup, h'.now.trans h.now, h'.cores.trans h.cores,
    fun n => (h'.failed n).trans (h.failed n)⟩

variable (h : s.SameMaps t)
include h

theorem State.SameMaps.part (sp : Nat) : t.part sp = s.part sp := by
  rw [State.part, State.part, h.parts, h.sup]

theorem State.SameMaps.partOf : t.partOf p = s.partOf p := by
  have hactive (sp : Nat) : t.partActive sp = s.partActive sp := by
    rw [State.partActive, State.partActive, h.sup, h.part]
  simp only [State.partOf, State.unitPart, hactive, h.part]

theorem State.SameMaps.countCore : t.countCore p = s.countCore p := by
  have hclock (d : Option Nat) : t.clockOf d = s.clockOf d := by
    cases d with
    | none => rfl
    | some sp => rw [State.clockOf, State.clockOf, h.part]
  rw [State.countCore, State.countCore, h.partOf, State.count, State.count, hclock, h.now]

theorem State.SameMaps.core : t.core p = s.core p := by
  rw [State.core, State.core, h.cores]

theorem State.SameMaps.sliceOf : t.sliceOf sp va = s.sliceOf sp va := by
  rw [State.sliceOf, State.sliceOf, h.part]

theorem State.SameMaps.keyOf : t.keyOf sp va = s.keyOf sp va := by
  have hwalk (n : Nat) : t.walkPage n sp va = s.walkPage n sp va := by
    rw [State.walkPage, State.walkPage, h.failed, h.sup, h.part]
  simp only [State.keyOf, h.sliceOf, hwalk]

theorem State.SameMaps.blocksOn : t.blocksOn n sp e = s.blocksOn n sp e := by
  simp only [State.blocksOn, h.sliceOf]

end

end Sys2Proof.Machine
end

section
/-! THEOREM. The end of a `pmint` (O41): it enters its pan at each slice that accepted it, an accumulate pan zeroed, or at none. -/

namespace Sys2Proof.Machine

/-! ## Zeroed blocks -/

section
variable {s t u : State} {n sp k op : Nat} {e : PanEntry} {m : Mint}

/-- The byte at `a` is listed nowhere in a memory, and so reads 0. -/
def Memory.Vacant (h : Memory) (a : Nat) : Prop := ∀ c ∈ h, c.1 ≠ a

theorem Memory.Vacant.read {h : Memory} {a : Nat} (hv : h.Vacant a) : h.read a = 0#8 := by
  induction h with
  | nil => rfl
  | cons c rest ih =>
    obtain ⟨j, x⟩ := c
    rw [Memory.read, if_neg (hv (j, x) List.mem_cons_self)]
    split
    · rfl
    · exact ih fun c hc => hv c (List.mem_cons_of_mem _ hc)

/-- `t` is `s` but for its slices, its tags and cells of memory that are no longer listed. -/
structure State.Cleared (s t : State) : Prop where
  maps : s.SameMaps t
  cells : ∀ c ∈ t.hbm, c ∈ s.hbm

theorem State.Cleared.refl : s.Cleared s := ⟨.refl, fun _ hc => hc⟩

theorem State.Cleared.trans (h : s.Cleared t) (h' : t.Cleared u) : s.Cleared u :=
  ⟨h.maps.trans h'.maps, fun c hc => h.cells c (h'.cells c hc)⟩

/-- The 2 KiB at key `k` hold no listed byte. -/
def State.Zeroed (s : State) (k : Nat) : Prop := ∀ i < 2048, Memory.Vacant s.hbm (k + i)

theorem State.Cleared.zeroed (h : s.Cleared t) (hz : s.Zeroed k) : t.Zeroed k :=
  fun i hi c hc => hz i hi c (h.cells c hc)

/-- Zero one block of a pan. -/
def State.zeroBlock (sp : Nat) (s : State) (a : Nat) : State :=
  match s.keyOf sp a with
  | none => s
  | some k => { s with hbm := s.hbm.filter (fun c => decide (c.1 < k) || decide (k + 2048 ≤ c.1)) }

theorem State.zeroBlock_cleared (a : Nat) : s.Cleared (s.zeroBlock sp a) ∧ (s.zeroBlock sp a).slices = s.slices := by
  unfold State.zeroBlock
  split
  · exact ⟨.refl, rfl⟩
  · exact ⟨⟨⟨rfl, rfl, rfl, rfl, fun _ => rfl⟩, fun _ hc => List.mem_of_mem_filter hc⟩, rfl⟩

theorem State.zeroBlock_zeroed {a : Nat} (hk : s.keyOf sp a = some k) : (s.zeroBlock sp a).Zeroed k := by
  intro i hi c hc
  simp only [State.zeroBlock, hk, List.mem_filter, Bool.or_eq_true, decide_eq_true_eq] at hc
  omega

theorem State.zeroBlocks_cleared (l : List Nat) (s : State) :
    s.Cleared (l.foldl (State.zeroBlock sp) s) ∧ (l.foldl (State.zeroBlock sp) s).slices = s.slices ∧
      ∀ a ∈ l, ∀ k, s.keyOf sp a = some k → (l.foldl (State.zeroBlock sp) s).Zeroed k := by
  induction l generalizing s with
  | nil => exact ⟨.refl, rfl, fun a ha => absurd ha List.not_mem_nil⟩
  | cons b l ih =>
    obtain ⟨hstep, hsl⟩ := s.zeroBlock_cleared (sp := sp) b
    obtain ⟨hrest, hsl', hz⟩ := ih (s.zeroBlock sp b)
    refine ⟨hstep.trans hrest, hsl'.trans hsl, fun a ha k hk => ?_⟩
    rcases List.mem_cons.1 ha with rfl | ha
    · exact hrest.zeroed (State.zeroBlock_zeroed hk)
    · exact hz a ha k (hstep.maps.keyOf.trans hk)

theorem State.zeroPan_eq : s.zeroPan n sp e = (s.blocksOn n sp e).foldl (State.zeroBlock sp) s := rfl

theorem State.clearPanTags_cleared : s.Cleared (s.clearPanTags n sp e) ∧ (s.clearPanTags n sp e).slices = s.slices := by
  unfold State.clearPanTags
  refine List.foldlRecOn (motive := fun t : State => s.Cleared t ∧ t.slices = s.slices) _ _ ⟨.refl, rfl⟩
    fun t ⟨ht, hsl⟩ a _ => ?_
  split
  · exact ⟨ht, hsl⟩
  · exact ⟨ht.trans ⟨⟨rfl, rfl, rfl, rfl, fun _ => rfl⟩, fun _ hc => hc⟩, hsl⟩

/-! ## Entering a pan -/

/-- The mint of operation `op` at slice `n`. -/
def State.mintAt (s : State) (n op : Nat) : Option Mint := (s.slice n).mints.find? (fun y => y.op == op)

theorem State.enterMint_none (h : s.mintAt n op = none) : s.enterMint n sp op = s := by
  rw [State.enterMint, show (s.slice n).mints.find? (fun m => m.op == op) = none from h]

/-- The slice takes the entry into its table. -/
def State.entered (s : State) (n op : Nat) (m : Mint) : State :=
  s.modSlice n (fun x => { x.dropMint op with pans := x.pans.set m.entry m.pan })

theorem State.enterMint_some (h : s.mintAt n op = some m) : s.enterMint n sp op =
    if m.pan.kind = 5 then ((s.entered n op m).clearPanTags n sp m.pan).zeroPan n sp m.pan
    else (s.entered n op m).clearPanTags n sp m.pan := by
  rw [State.enterMint, show (s.slice n).mints.find? (fun m => m.op == op) = some m from h]
  rfl

theorem State.entered_cleared : s.Cleared (s.entered n op m) := by
  refine ⟨⟨rfl, rfl, rfl, rfl, fun j => ?_⟩, fun _ hc => hc⟩
  rw [State.entered, State.slice_modSlice]
  split
  · next h => rw [h]; rfl
  · rfl

/-- What entering a pan does: the slice's table has the entry, the mint is gone, an accumulate pan is zeroed, and the other slices
stay. -/
theorem State.enterMint_effect (h : s.mintAt n op = some m) :
    s.Cleared (s.enterMint n sp op) ∧ (s.enterMint n sp op).slices = (s.entered n op m).slices ∧
      (m.pan.kind = 5 → ∀ a ∈ s.blocksOn n sp m.pan, ∀ k, s.keyOf sp a = some k → (s.enterMint n sp op).Zeroed k) := by
  rw [State.enterMint_some h]
  obtain ⟨htags, hsl⟩ := State.clearPanTags_cleared (s := s.entered n op m) (n := n) (sp := sp) (e := m.pan)
  have hclear := State.entered_cleared.trans htags
  split
  · rw [State.zeroPan_eq]
    obtain ⟨hz, hsl', hzero⟩ := State.zeroBlocks_cleared (sp := sp)
      (((s.entered n op m).clearPanTags n sp m.pan).blocksOn n sp m.pan) ((s.entered n op m).clearPanTags n sp m.pan)
    refine ⟨hclear.trans hz, hsl'.trans hsl, fun _ a ha k hk => hzero a ?_ k (hclear.maps.keyOf.trans hk)⟩
    rwa [hclear.maps.blocksOn]
  · next hk => exact ⟨hclear, hsl, fun h5 => absurd h5 hk⟩

theorem State.enterMint_cleared : s.Cleared (s.enterMint n sp op) := by
  cases h : s.mintAt n op with
  | none => rw [State.enterMint_none h]; exact .refl
  | some m => exact (State.enterMint_effect h).1

theorem State.slice_of_slices {j : Nat} (h : t.slices = s.slices) : t.slice j = s.slice j := by
  rw [State.slice, State.slice, h]

theorem State.slice_enterMint_ne {j : Nat} (hj : j ≠ n) : (s.enterMint n sp op).slice j = s.slice j := by
  cases h : s.mintAt n op with
  | none => rw [State.enterMint_none h]
  | some m =>
    obtain ⟨-, hsl, -⟩ := State.enterMint_effect (sp := sp) h
    rw [State.slice_of_slices hsl, State.entered, State.slice_modSlice, if_neg hj]

theorem State.slice_enterMint_self (h : s.mintAt n op = some m) :
    Table.get? ((s.enterMint n sp op).slice n).pans m.entry = some m.pan ∧ (s.enterMint n sp op).mintAt n op = none := by
  obtain ⟨-, hsl, -⟩ := State.enterMint_effect (sp := sp) h
  rw [State.mintAt, State.slice_of_slices hsl, State.entered, State.slice_modSlice_self]
  refine ⟨Table.get?_set_self .., ?_⟩
  simp [Slice.dropMint]

/-! ## All slices -/

/-- Each slice of a list enters the pan of operation `op`. -/
def State.enterAll (s : State) (sp op : Nat) (l : List Nat) : State := l.foldl (fun t n => t.enterMint n sp op) s

theorem State.enterAll_cons (l : List Nat) : s.enterAll sp op (n :: l) = (s.enterMint n sp op).enterAll sp op l := rfl

theorem State.enterAll_cleared (l : List Nat) (s : State) : s.Cleared (s.enterAll sp op l) := by
  induction l generalizing s with
  | nil => exact .refl
  | cons n l ih => exact State.enterMint_cleared.trans (ih _)

/-- A slice without the mint stays as it is. -/
theorem State.slice_enterAll_of_none {j : Nat} (l : List Nat) (s : State) (h : s.mintAt j op = none) :
    (s.enterAll sp op l).slice j = s.slice j := by
  induction l generalizing s with
  | nil => rfl
  | cons n l ih =>
    have hstep : (s.enterMint n sp op).slice j = s.slice j := by
      by_cases hj : j = n
      · rw [State.enterMint_none (hj ▸ h)]
      · exact State.slice_enterMint_ne hj
    rw [State.enterAll_cons]
    exact (ih _ ((congrArg (fun x : Slice => x.mints.find? (fun y : Mint => y.op == op)) hstep).trans h)).trans hstep

/-- Every slice of the list that holds the mint has its entry then (R228, R305). -/
theorem State.enterAll_enters {j : Nat} (l : List Nat) (s : State) (hj : j ∈ l) (hm : s.mintAt j op = some m) :
    Table.get? ((s.enterAll sp op l).slice j).pans m.entry = some m.pan ∧
      (m.pan.kind = 5 → ∀ a ∈ s.blocksOn j sp m.pan, ∀ k, s.keyOf sp a = some k → (s.enterAll sp op l).Zeroed k) := by
  induction l generalizing s with
  | nil => exact absurd hj List.not_mem_nil
  | cons n l ih =>
    rw [State.enterAll_cons]
    by_cases hn : j = n
    · subst hn
      obtain ⟨-, -, hzero⟩ := State.enterMint_effect (sp := sp) hm
      obtain ⟨hpan, hgone⟩ := State.slice_enterMint_self (sp := sp) hm
      rw [State.slice_enterAll_of_none l _ hgone]
      exact ⟨hpan, fun h5 a ha k hk => (State.enterAll_cleared l _).zeroed (hzero h5 a ha k hk)⟩
    · have hmaps := (State.enterMint_cleared (s := s) (n := n) (sp := sp) (op := op)).maps
      have hm' : (s.enterMint n sp op).mintAt j op = some m := by
        rw [State.mintAt, State.slice_enterMint_ne hn]
        exact hm
      obtain ⟨hpan, hzero⟩ := ih (s.enterMint n sp op) ((List.mem_cons.1 hj).resolve_left hn) hm'
      exact ⟨hpan, fun h5 a ha k hk => hzero h5 a (by rwa [hmaps.blocksOn]) k (hmaps.keyOf.trans hk)⟩

/-! ## The two ends of a mint -/

section
variable {p id : Nat} {o : TableOp}

/-- With no refusal every slice that accepted enters the pan. -/
theorem State.settleMint_accepted (h : o.refused = none) :
    s.settleMint p id o = s.enterAll ((s.partOf p).getD 31) id o.entered := by
  have hfold (l : List Nat) (t : State) (ht : s.SameMaps t) : l.foldl (fun t n => if o.refused.isNone then
      t.enterMint n ((t.partOf p).getD 31) id else t.modSlice n (fun x => x.dropMint id)) t =
        t.enterAll ((s.partOf p).getD 31) id l := by
    induction l generalizing t with
    | nil => rfl
    | cons n l ih =>
      rw [List.foldl_cons, h, Option.isNone_none, if_pos rfl, ht.partOf]
      rw [h] at ih
      exact ih _ (ht.trans State.enterMint_cleared.maps)
  exact hfold _ _ .refl

theorem Slice.dropMint_dropMint (x : Slice) : (x.dropMint op).dropMint op = x.dropMint op := by
  simp [Slice.dropMint]

/-- Each slice of a list forgets the mint of operation `op`. -/
def State.dropAll (s : State) (op : Nat) (l : List Nat) : State :=
  l.foldl (fun t n => t.modSlice n (fun x => x.dropMint op)) s

theorem State.settleMint_refused (h : o.refused.isSome = true) : s.settleMint p id o = s.dropAll id o.entered := by
  obtain ⟨u, hu⟩ := Option.isSome_iff_exists.1 h
  rw [State.settleMint, hu]
  rfl

theorem State.slice_dropAll {j : Nat} (l : List Nat) (s : State) :
    (s.dropAll op l).slice j = if j ∈ l then (s.slice j).dropMint op else s.slice j := by
  induction l generalizing s with
  | nil => rfl
  | cons n l ih =>
    rw [State.dropAll, List.foldl_cons]
    refine (ih _).trans ?_
    rw [State.slice_modSlice]
    by_cases hj : j = n
    · subst hj
      simp [Slice.dropMint_dropMint]
    · simp [hj]

theorem State.dropAll_sameMaps (l : List Nat) : s.SameMaps (s.dropAll op l) := by
  have hframe : (s.dropAll op l).parts = s.parts ∧ (s.dropAll op l).sup = s.sup ∧ (s.dropAll op l).now = s.now ∧
      (s.dropAll op l).cores = s.cores := by
    unfold State.dropAll
    exact List.foldlRecOn (motive := fun t : State => t.parts = s.parts ∧ t.sup = s.sup ∧ t.now = s.now ∧ t.cores = s.cores)
      _ _ ⟨rfl, rfl, rfl, rfl⟩ fun _ ht _ _ => ht
  obtain ⟨hparts, hsup, hnow, hcores⟩ := hframe
  refine ⟨hparts, hsup, hnow, hcores, fun j => ?_⟩
  rw [State.slice_dropAll]
  split <;> rfl

end

end

end Sys2Proof.Machine
end

section
/-! THEOREM. The replies of the slices at the core, and the statement (O41). -/

namespace Sys2Proof.Machine

/-! ## The last reply -/

section
variable {s u : State} {p q k id slot : Nat} {o : TableOp} {x : Strand} {e : Trap}

theorem State.tableOps_setStrand : ((s.setStrand p k x).core q).tableOps = (s.core q).tableOps := by
  rw [State.core_setStrand]
  split
  · next h => rw [h]
  · rfl

/-- A trap leaves the slices and the pan-table operations, though it contain the core. -/
theorem State.trapAt_keeps {at_ : Word} {rep : Option Rep} {ready : Nat} :
    (s.trapAt p k e at_ rep ready).slices = s.slices ∧
      ∀ q, ((s.trapAt p k e at_ rep ready).core q).tableOps = (s.core q).tableOps := by
  unfold State.trapAt
  dsimp only
  split
  · refine ⟨rfl, fun q => ?_⟩
    rw [show ∀ c d f, ((s.containAs p .doubleTrap).postRecord c d f).core q =
      (s.modCore p (fun c => { c with run := .doubleTrap })).core q from fun _ _ _ => rfl, State.core_modCore]
    split
    · next h => rw [h]
    · rfl
  · exact ⟨rfl, fun q => State.tableOps_setStrand⟩

/-- A pan-table operation of core `p` is over. -/
def State.tableGone (s : State) (p id : Nat) : State := s.modCore p (fun c => { c with tableOps := c.tableOps.erase id })

theorem State.core_tableGone : (s.tableGone p id).core p = { s.core p with tableOps := (s.core p).tableOps.erase id } :=
  State.core_modCore_self ..

/-- The core of a finished operation, once its `pmint` is settled. -/
theorem State.SameMaps.finished (h : (s.tableGone p id).SameMaps u) :
    Table.get? (u.core p).tableOps id = none ∧ (u.core p).tvec = (s.core p).tvec ∧ u.strand p k = s.strand p k ∧
      u.occupied p k = s.occupied p k ∧ u.countCore p = s.countCore p := by
  have hcore : u.core p = { s.core p with tableOps := (s.core p).tableOps.erase id } := h.core.trans State.core_tableGone
  refine ⟨?_, ?_, ?_, ?_, h.countCore⟩
  · rw [hcore]
    exact Table.get?_erase_self ..
  · rw [hcore]
  · rw [State.strand, hcore]
    rfl
  · rw [State.occupied, hcore]
    rfl

/-- The strand goes on, with the slices and the memory as the settled `pmint` left them. -/
theorem State.finishTable_accepted (h : o.refused = none) :
    let u := (s.tableGone p id).enterAll ((s.partOf p).getD 31) id o.entered
    let t := s.finishTable p id o
    Table.get? (t.core p).tableOps id = none ∧
      (s.occupied p o.slot = true → (s.strand p o.slot).wait = .table id → t.strand p o.slot =
        { (s.strand p o.slot).tableDone o with wait := .ready, readyAt := s.countCore p + 1 }) ∧
      t.slices = u.slices ∧ t.hbm = u.hbm := by
  intro u t
  have hu : (s.tableGone p id).settleMint p id o = u := State.settleMint_accepted h
  obtain ⟨hops, -, hstrand, hocc, hcount⟩ := (State.enterAll_cleared o.entered (s.tableGone p id)).maps.finished
    (k := o.slot) (u := u)
  have ht : t = if u.occupied p o.slot && (u.strand p o.slot).wait == .table id then
      (u.modStrand p o.slot (fun x => x.tableDone o)).wake p o.slot else u := by
    simp only [t, State.finishTable, h]
    rw [← hu]
    rfl
  by_cases hc : (u.occupied p o.slot && (u.strand p o.slot).wait == .table id) = true
  · rw [if_pos hc] at ht
    rw [ht]
    refine ⟨State.tableOps_setStrand.symm ▸ State.tableOps_setStrand.symm ▸ hops, fun _ _ => ?_, rfl, rfl⟩
    rw [State.wake, State.modStrand, State.strand_setStrand_self, State.modStrand, State.strand_setStrand_self, hstrand]
    rw [← hcount]
    rfl
  · rw [if_neg hc] at ht
    rw [ht]
    refine ⟨hops, fun ho hw => absurd ?_ hc, rfl, rfl⟩
    rw [hocc, hstrand, ho, hw]
    exact beq_self_eq_true _

/-- The strand takes the refusal's trap, and the pan is entered nowhere. -/
theorem State.finishTable_refused (h : o.refused = some e) :
    let x := s.strand p o.slot
    let t := s.finishTable p id o
    Table.get? (t.core p).tableOps id = none ∧
      (s.occupied p o.slot = true → x.wait = .table id → x.inh = false → t.strand p o.slot =
        { x.enter e x.waitPc x.waitRep (s.core p).tvec with readyAt := s.countCore p + 1 }) ∧
      ∀ j, t.slice j = if j ∈ o.entered then (s.slice j).dropMint id else s.slice j := by
  intro x t
  obtain ⟨u, hu⟩ : ∃ u, (s.tableGone p id).dropAll id o.entered = u := ⟨_, rfl⟩
  have hmaps : (s.tableGone p id).SameMaps u := hu ▸ State.dropAll_sameMaps o.entered
  obtain ⟨hops, htvec, hstrand, hocc, hcount⟩ := hmaps.finished (k := o.slot)
  have hslice (j : Nat) : u.slice j = if j ∈ o.entered then (s.slice j).dropMint id else s.slice j :=
    hu ▸ State.slice_dropAll o.entered (s.tableGone p id)
  have hset : (s.tableGone p id).settleMint p id o = u := (State.settleMint_refused (by rw [h]; rfl)).trans hu
  have ht : t = if u.occupied p o.slot && (u.strand p o.slot).wait == .table id then
      u.trapAt p o.slot e (u.strand p o.slot).waitPc (u.strand p o.slot).waitRep (u.countCore p + 1) else u := by
    simp only [t, State.finishTable, h]
    rw [← hset]
    rfl
  by_cases hc : (u.occupied p o.slot && (u.strand p o.slot).wait == .table id) = true
  · rw [if_pos hc] at ht
    obtain ⟨hsl, hto⟩ := State.trapAt_keeps (s := u) (p := p) (k := o.slot) (e := e) (at_ := (u.strand p o.slot).waitPc)
      (rep := (u.strand p o.slot).waitRep) (ready := u.countCore p + 1)
    rw [ht]
    refine ⟨(congrArg (fun t => Table.get? t id) (hto p)).trans hops, fun _ _ hi => ?_, fun j => ?_⟩
    · rw [hstrand, hcount, State.trapAt, hstrand]
      dsimp only
      rw [if_neg (Bool.eq_false_iff.1 hi), State.strand_setStrand_self, htvec]
    · exact (State.slice_of_slices hsl).trans (hslice j)
  · rw [if_neg hc] at ht
    rw [ht]
    refine ⟨hops, fun ho hw _ => absurd ?_ hc, hslice⟩
    rw [hocc, hstrand, ho, show (s.strand p o.slot).wait = .table id from hw]
    exact beq_self_eq_true _

/-! ## A reply -/

/-- The operation once slice `n` has replied. -/
def TableOp.replied (o : TableOp) (n : Nat) (refused : Option Trap) : TableOp :=
  { o with
    left := o.left - 1, refused := if o.refused.isSome then o.refused else refused
    entered := if refused.isNone then n :: o.entered else o.entered }

end

section
variable {s : State} {q : Packet} {k n : Nat} {refused : Option Trap} {o : TableOp}
  (hq : Table.get? s.packets s.arg.a = some q) (hb : q.body = .tableReply k n refused)
  (ho : Table.get? (s.core q.phys).tableOps k = some o)
include hq hb ho

theorem execPanTableReply_eq : exec .panTableReply s = .next (
    if o.left - 1 = 0 then (s.dropPacket s.arg.a).finishTable q.phys k (o.replied n refused)
    else (s.dropPacket s.arg.a).modCore q.phys (fun c => { c with tableOps := c.tableOps.set k (o.replied n refused) })) := by
  refine congrArg Host.Outcome.next ?_
  rw [hq]
  dsimp only
  rw [hb]
  dsimp only
  rw [show ((s.dropPacket s.arg.a).core q.phys).tableOps = (s.core q.phys).tableOps from rfl, ho]
  rfl

theorem execPanTableReply_last (hl : o.left = 1) : exec .panTableReply s =
    .next ((s.dropPacket s.arg.a).finishTable q.phys k (o.replied n refused)) := by
  rw [execPanTableReply_eq hq hb ho, if_pos (by omega)]

theorem execPanTableReply_more (hl : 1 < o.left) : exec .panTableReply s = .next ((s.dropPacket s.arg.a).modCore q.phys
    (fun c => { c with tableOps := c.tableOps.set k (o.replied n refused) })) := by
  rw [execPanTableReply_eq hq hb ho, if_neg (by omega)]

end

end Sys2Proof.Machine
end

section
/-! THEOREM. The reply of a holder update, and the statement (O41). -/

namespace Sys2Proof.Machine

/-! ## The holder's reply -/

/-- The ends, the strands and the pan-table operations of a core are the same. -/
def Core.SameTable (c d : Core) : Prop :=
  d.ends = c.ends ∧ d.slots = c.slots ∧ d.vacated = c.vacated ∧ d.tableOps = c.tableOps

/-- Those of no core change from `s` to `t`. -/
def State.KeepsTable (s t : State) : Prop := ∀ p, (s.core p).SameTable (t.core p)

section
variable {s t u : State} {p q : Nat}

theorem Core.SameTable.trans {c d e : Core} (h : c.SameTable d) (h' : d.SameTable e) : c.SameTable e := by
  obtain ⟨he, hs, hv, ht⟩ := h
  obtain ⟨he', hs', hv', ht'⟩ := h'
  exact ⟨he'.trans he, hs'.trans hs, hv'.trans hv, ht'.trans ht⟩

theorem State.KeepsTable.refl : s.KeepsTable s := fun _ => ⟨rfl, rfl, rfl, rfl⟩

theorem State.KeepsTable.trans (h : s.KeepsTable t) (h' : t.KeepsTable u) : s.KeepsTable u := fun p => (h p).trans (h' p)

theorem State.KeepsTable.setCore {c : Core} (h : s.KeepsTable t) (hc : (t.core p).SameTable c) :
    s.KeepsTable (t.setCore p c) := by
  intro q
  rw [State.core_setCore]
  split
  · next e => exact e ▸ (h p).trans hc
  · exact h q

theorem Core.sameTable_noted {c : Core} {buf j sts x} : c.SameTable (c.noted buf j sts x) := by
  unfold Core.noted
  dsimp only
  split <;> exact ⟨rfl, rfl, rfl, rfl⟩

theorem State.KeepsTable.crystalNote {j sts x} : s.KeepsTable (s.crystalNote p j sts x) := by
  unfold State.crystalNote
  dsimp only
  split
  · exact .refl
  · refine List.foldlRecOn (motive := fun t => s.KeepsTable t) _ _ .refl fun t ht buf _ => ?_
    split
    · exact ht.setCore ⟨rfl, rfl, rfl, rfl⟩
    · split
      · exact List.foldlRecOn (motive := fun t => s.KeepsTable t) _ _ ht fun _ hu _ _ => hu
      · exact ht.setCore Core.sameTable_noted

theorem State.KeepsTable.answerEnd {j plcn pend x taken} : s.KeepsTable (s.answerEnd p j plcn pend x taken) := by
  unfold State.answerEnd
  dsimp only
  split
  · split <;> exact .refl
  · split <;> exact .refl

theorem State.KeepsTable.logSettle {kind j st} : s.KeepsTable (s.logSettle p kind j st) := by
  unfold State.logSettle State.logSet
  dsimp only
  split
  · split <;> exact State.KeepsTable.refl.setCore ⟨rfl, rfl, rfl, rfl⟩
  · exact .refl

theorem State.core_setEnd (s : State) (h : Nat) (e : End) : (s.setEnd p h e).core p =
    { s.core p with ends := if e = End.free then (s.core p).ends.erase h else (s.core p).ends.set h e } :=
  State.core_modCore_self ..

/-- Taking a message leaves its end idle, and the strands and the pan-table operations as they were (R197). -/
theorem State.takeMessage_keeps (s : State) (p h : Nat) : ((s.takeMessage p h).core p).tableOps = (s.core p).tableOps ∧
    (∀ k, (s.takeMessage p h).strand p k = s.strand p k) ∧ (((s.takeMessage p h).core p).endAt h).state = .idle := by
  obtain ⟨-, hs, hv, ht⟩ := State.KeepsTable.crystalNote (s := s) (p := p) (j := h) (sts := [3, 6]) (x := 4#8) p
  have hend := State.core_setEnd (p := p) (s.crystalTaken p h) h
    { (s.core p).endAt h with state := .idle, inbox := none }
  rw [if_neg fun he => by cases congrArg End.state he] at hend
  obtain ⟨he', hs', hv', ht'⟩ := (State.KeepsTable.answerEnd.trans State.KeepsTable.logSettle :
    ((s.crystalTaken p h).setEnd p h { (s.core p).endAt h with state := .idle, inbox := none }).KeepsTable
      (s.takeMessage p h)) p
  rw [hend] at he' hs' hv' ht'
  refine ⟨ht'.trans ht, fun k => ?_, ?_⟩
  · rw [State.strand, State.strand, Core.vacant, Core.vacant, hs', hv']
    exact congrArg₂ (fun (a b : Table Strand) => a.getD k (b.getD k Strand.atReset)) hs hv
  · rw [Core.endAt, he', Table.getD_set_self]

end

section
variable {s : State} {q : Packet} {k n : Nat} {refused : Option Trap} {o : TableOp}

/-- The state in which a holder update's strand goes on (R197). -/
def State.held (s : State) (p k : Nat) (o : TableOp) : State :=
  (((s.tableGone p k).modStrand p o.slot (fun x => x.setReg o.d o.result)).takeMessage p o.h).wake p o.slot

theorem execHolderUpdateReply_eq (hq : Table.get? s.packets s.arg.a = some q) (hb : q.body = .tableReply k n refused)
    (ho : Table.get? (s.core q.phys).tableOps k = some o) (hocc : s.occupied q.phys o.slot = true)
    (hw : (s.strand q.phys o.slot).wait = .holder o.h) :
    exec .holderUpdateReply s = .next ((s.dropPacket s.arg.a).held q.phys k o) := by
  refine congrArg Host.Outcome.next ?_
  rw [hq]
  dsimp only
  rw [hb]
  dsimp only
  rw [show ((s.dropPacket s.arg.a).core q.phys).tableOps = (s.core q.phys).tableOps from rfl, ho]
  obtain ⟨-, -, hstrand, hocc', -⟩ := (State.SameMaps.refl (s := (s.dropPacket s.arg.a).tableGone q.phys k)).finished
    (k := o.slot)
  refine if_pos ?_
  rw [Bool.and_eq_true, beq_iff_eq]
  exact ⟨hocc'.trans hocc, (congrArg Strand.wait hstrand).trans hw⟩

theorem State.held_fields (s : State) (p k : Nat) (o : TableOp) :
    ((s.held p k o).strand p o.slot).wait = .ready ∧ Table.get? ((s.held p k o).core p).tableOps k = none ∧
      (((s.held p k o).core p).endAt o.h).state = .idle ∧
      ∀ r, ((s.held p k o).strand p o.slot).reg r = ((s.strand p o.slot).setReg o.d o.result).reg r := by
  obtain ⟨hops, -, hstrand, -⟩ := (State.SameMaps.refl (s := s.tableGone p k)).finished (k := o.slot)
  obtain ⟨hto, hst, hend⟩ := ((s.tableGone p k).modStrand p o.slot (fun x => x.setReg o.d o.result)).takeMessage_keeps p o.h
  have hmod : ((s.tableGone p k).modStrand p o.slot (fun x => x.setReg o.d o.result)).strand p o.slot =
      (s.strand p o.slot).setReg o.d o.result :=
    (State.strand_setStrand_self ..).trans (congrArg (fun x : Strand => x.setReg o.d o.result) hstrand)
  obtain ⟨v, hv⟩ : ∃ v, ((s.tableGone p k).modStrand p o.slot (fun x => x.setReg o.d o.result)).takeMessage p o.h = v :=
    ⟨_, rfl⟩
  rw [hv] at hto hst hend
  rw [State.held, hv, State.wake, State.modStrand, State.strand_setStrand_self, hst, hmod]
  refine ⟨rfl, ?_, ?_, fun r => rfl⟩
  · rw [State.tableOps_setStrand, hto]
    exact (congrArg (fun t => Table.get? t k) State.tableOps_setStrand).trans hops
  · rw [State.core_setStrand, if_pos rfl]
    exact hend

end

end Sys2Proof.Machine
end

section
/-! THEOREM. The pan table (O41): requests, seals and replies together. -/

namespace Sys2Proof.Machine

/-- Settles O41: a request's clauses are the branches of its effect at the slice, the seals are `State.sealed_fields` and
`execSealBegin_clause`, and the replies are `State.finishTable_accepted`, `State.finishTable_refused` and `State.held_fields`. -/
theorem panTable : Obligations.PanTable := by
  unfold Obligations.PanTable
  intro s id
  refine ⟨fun q n req hreq => ?_, ?_, fun q k n refused op hq hb ho => ?_⟩
  · intro x refuses perm asks
    refine ⟨?_, fun hf => exec_failed hreq hf, fun hf => ⟨?_, ?_, ?_, ?_, ?_⟩⟩
    -- HOLDER_UPDATE (R197)
    · rintro va lcn rfl
      exact ⟨execHolderUpdate_none hreq, fun i e hp hi => ⟨_, execHolderUpdate_some hreq hp, rfl, State.pan_modPan hi⟩⟩
    -- FREEZE_REQUEST (R117)
    · rintro base top rfl
      refine ⟨execFreezeRequest_none hf hreq, fun i e hp hi => ?_⟩
      intro whole
      have hwhole : whole ↔ ¬(e.basep * 2 ^ 21 ≠ base ∨ (e.basep + e.pages) * 2 ^ 21 ≠ top) := by
        rw [not_or, not_not, not_not]
      simp only [refuses]
      rw [execFreezeRequest_some hf hreq hp]
      refine ⟨fun hw hk => ⟨_, ?_, State.pan_freeze hi⟩, fun hw hk => ?_, fun hw => ?_⟩
      · rw [if_neg (hwhole.1 hw), if_neg (not_not.2 hk)]
      · rw [if_neg (hwhole.1 hw), if_pos hk]
      · rw [if_pos (not_not.1 (mt hwhole.2 hw))]
    -- DONE_MESSAGE (R153)
    · rintro va rfl
      refine ⟨execDoneMessage_none hf hreq, fun i e hp hi => ?_⟩
      simp only [refuses]
      rw [execDoneMessage_some hf hreq hp]
      have hmod : Table.get? (((s.modPan n i (fun e => { e with done := e.done + 1 })).tableAnswer id none 0).slice n).pans i =
          some { e with done := e.done + 1 } := by
        rw [State.slice_tableAnswer]
        exact State.pan_modPan hi
      refine ⟨fun hk hd => ⟨_, rfl, ?_, fun pkt hpkt hncon => ?_⟩, fun hbad => by rw [if_pos hbad]⟩
      · rw [if_neg (by omega), State.slice_sealCheck]
        exact hmod
      · rw [if_neg (by omega)]
        exact (State.asks_sealCheck hmod hpkt hncon :)
    -- PAN_MINT_REQUEST (R228)
    · rintro va size kind fmt ncon holder i rfl
      intro e taken
      refine ⟨fun hu hi => ?_, fun u hu => execPanMintRequest_refused hf hreq hu⟩
      have hexec := execPanMintRequest_taken hf hreq hu hi
      refine ⟨fun hk => ?_, fun hk => ⟨_, hexec, ?_⟩⟩
      · rw [hexec, if_neg hk]
        rfl
      · obtain ⟨hmints, hpans, hclaims⟩ := State.slice_zeroing (s := s) (q := q) (n := n) (va := va)
          (m := { op := q.tableId, entry := i, pan := e }) (e := e) (bytes := s.bytesOn n q.sp e) (o := args n va id)
        rw [if_pos hk]
        exact ⟨hmints, hpans, State.asks_claim, hclaims⟩
    -- CONTRIBUTOR_MINT_CHECK (R228)
    · rintro va size rfl
      exact ⟨execContributorMintCheck_none hf hreq, fun i e hp => execContributorMintCheck_some hf hreq hp⟩
    -- MASTER_SEAL_REQUEST (R154)
    · rintro va f fr mode rfl
      refine ⟨execMasterSealRequest_none hf hreq, fun i e hp hi => ?_⟩
      intro bad
      simp only [refuses]
      rw [execMasterSealRequest_some hf hreq hp]
      have hmod : Table.get? ((s.modPan n i (fun e => { e with sealing := some id })).slice n).pans i =
          some { e with sealing := some id } := State.pan_modPan hi
      refine ⟨fun hbad => by rw [if_pos hbad], fun hbad => ⟨_, by rw [if_neg hbad], ?_, fun hd => ?_, fun hd => ?_⟩⟩
      · rw [State.slice_sealCheck]
        exact hmod
      · exact (State.asks_sealCheck hmod rfl hd :)
      · rw [State.sealCheck_waits hmod hd]
        rfl
  · intro n va
    refine ⟨rfl, fun q m req i e hreq hp hi => ⟨execSealBegin_clause hreq hp hi, ?_⟩⟩
    rintro w f fr mode rfl
    exact ⟨_, execPanConversionDone_eq hreq hp, State.sealed_fields hi⟩
  · intro p x from_
    refine ⟨fun hl h h' => ?_, fun u hl hu => ?_, fun hl => ?_, fun hocc hw => ?_⟩
    -- the last acceptance
    · obtain ⟨hops, hstrand, hslices, hhbm⟩ := State.finishTable_accepted (s := s.dropPacket id) (p := p) (id := k)
        (o := op.replied n refused) (by rw [TableOp.replied, h, h']; rfl)
      refine ⟨_, execPanTableReply_last hq hb ho hl, hops, hstrand, fun j hj m hm => ?_⟩
      obtain ⟨hpan, hzero⟩ := State.enterAll_enters (sp := (s.partOf p).getD 31) (op.replied n refused).entered
        ((s.dropPacket id).tableGone p k) hj hm
      refine ⟨?_, fun h5 a ha key hkey i hi => ?_⟩
      · rw [State.slice_of_slices hslices]
        exact hpan
      · rw [hhbm]
        exact (hzero h5 a ha key hkey i hi).read
    -- the last reply of a refused operation
    · obtain ⟨hops, hstrand, hslice⟩ := State.finishTable_refused (s := s.dropPacket id) (p := p) (id := k)
        (o := op.replied n refused) hu
      refine ⟨_, execPanTableReply_last hq hb ho hl, hops, hstrand, fun j => ?_⟩
      rw [hslice]
      refine ⟨by split <;> rfl, fun hj => ?_⟩
      rw [if_pos (show j ∈ (op.replied n refused).entered from hj)]
      exact fun m hm => bne_iff_ne.1 (List.mem_filter.1 hm).2
    -- an earlier reply
    · exact ⟨_, op.replied n refused, execPanTableReply_more hq hb ho hl, by
        rw [State.core_modCore_self]; exact Table.get?_set_self .., rfl, rfl, rfl⟩
    -- HOLDER_UPDATE_REPLY (R197)
    · obtain ⟨hwait, hops, hend, hreg⟩ := (s.dropPacket id).held_fields p k op
      exact ⟨_, execHolderUpdateReply_eq hq hb ho hocc hw, hwait, hops, hend, hreg⟩

end Sys2Proof.Machine
end

section
/-! THEOREM. The scalar atomics of a scratchpad window (O21). -/

namespace Sys2Proof.Machine

/-- A scalar atomic on a window whose checks pass: the destination takes the old value, and the window what the operation makes
of it, where the operation writes (R146). -/
theorem State.amo_window {s : State} {d a b : BitVec 5} {w : BitVec 1} {n : Nat} (op : Nat)
    (hn : n = if w = 0#1 then 4 else 8) (hk : (s.me.reg a).kind = 1)
    (h : s.checkAccess .amo a permLS (s.me.val a).toNat n n true (some d) = .ok ()) :
    let ea : Int := (s.me.val a).toNat
    let old := bytesNat (s.spBytes ea n)
    let x := atomic op (8 * n) old ((s.me.val b).toNat % 2 ^ (8 * n)) ((s.me.val d).toNat % 2 ^ (8 * n))
    s.amo d a b w op = .ok ((if x.2 then s.spStore ea (natBytes n x.1) else s).wrote d (BitVec.ofNat 64 old) 8) := by
  subst hn
  refine (act_after h).trans ?_
  rw [CReg.place_window hk]
  rfl

/-- A compare-and-swap stores where memory holds the expected value, and else nothing (R146). -/
theorem atomic_cas (bits old y expect : Nat) :
    atomic 9 bits old y expect = (if old = expect then y else old, decide (old = expect)) := rfl

/-- Settles O21: each atomic is the one operation `atomic` on the window's bytes, which `cas` alone may leave as they are. -/
theorem scalarAtomics : Obligations.ScalarAtomics := by
  intro s g d a b w hg hk n ea h old y does
  have hamo (op : Nat) := State.amo_window (b := b) (d := d) op rfl hk h
  refine ⟨State.next_ok hg (hamo 0), State.next_ok hg (hamo 1), State.next_ok hg (hamo 2), State.next_ok hg (hamo 3),
    State.next_ok hg (hamo 4), State.next_ok hg (hamo 5), State.next_ok hg (hamo 6), State.next_ok hg (hamo 7),
    State.next_ok hg (hamo 8), fun he => State.next_ok hg ((hamo 9).trans ?_),
    fun he => State.next_ok hg ((hamo 9).trans ?_)⟩
  · rw [atomic_cas, if_pos he, decide_eq_true he]
    rfl
  · rw [atomic_cas, decide_eq_false he]
    rfl

end Sys2Proof.Machine
end

section
/-! THEOREM. The far accesses of scalar instructions (O22): what a load, a store or an atomic sends where its base is no
scratchpad window. -/

namespace Sys2Proof.Machine

section
variable {s : State} {d a b : BitVec 5} {ea : Int} {n : Nat} {sg : Bool}

/-! ## Loads and stores -/

theorem State.load_device (hp : (s.me.reg a).place = .device) (h : s.checkAccess .ld a permL ea n n false (some d) = .ok ()) :
    s.load d a ea n sg = .ok (s.sendDevice (.scalar d (8 * n) false) ea.toNat n none) := by
  rw [State.load, h, hp]
  rfl

theorem State.store_device (hp : (s.me.reg a).place = .device) (h : s.checkAccess .st a permS ea n n true none = .ok ()) :
    s.store d a ea n = .ok (s.sendDevice .none ea.toNat n (some (s.me.val d))) := by
  rw [State.store, h, hp]
  rfl

/-- A load from a pan or from host memory asks for its bytes (R136). -/
theorem State.load_far (hp : (s.me.reg a).place = .pan ∨ (s.me.reg a).place = .host)
    (h : s.checkAccess .ld a permL ea n n false (some d) = .ok ()) :
    s.load d a ea n sg = .ok (s.sendFar (.scalar d (8 * n) sg) [(ea.toNat, .read n false false)]
      ((s.me.reg a).place == .host) id) := by
  rw [State.load, h]
  rcases hp with hp | hp <;> rw [hp] <;> rfl

/-- A store to a pan or to host memory sends its bytes, but during replay (R136, R384). -/
theorem State.store_far (hp : (s.me.reg a).place = .pan ∨ (s.me.reg a).place = .host)
    (h : s.checkAccess .st a permS ea n n true none = .ok ()) :
    s.store d a ea n = .ok (if s.replaying then s.advance
      else s.sendFar .none [(ea.toNat, .write (natBytes n (s.me.val d).toNat) false)] ((s.me.reg a).place == .host) id) := by
  rw [State.store, h]
  rcases hp with hp | hp <;> rw [hp] <;> rfl

/-- A scalar atomic on a pan is sent with its operands (R147). -/
theorem State.amo_far {w : BitVec 1} (op : Nat) (hn : n = if w = 0#1 then 4 else 8) (hp : (s.me.reg a).place = .pan)
    (h : s.checkAccess .amo a permLS (s.me.val a).toNat n n true (some d) = .ok ()) :
    s.amo d a b w op = .ok (s.sendFar (.amo d (8 * n)) [((s.me.val a).toNat, .amo op (8 * n)
      (BitVec.ofNat 64 ((s.me.val b).toNat % 2 ^ (8 * n))) (BitVec.ofNat 64 ((s.me.val d).toNat % 2 ^ (8 * n))))] false id) := by
  subst hn
  refine (act_after h).trans ?_
  rw [hp]
  rfl

end

/-! ## Capabilities -/

section
variable {s : State} {g : BitVec 3} {d a : BitVec 5} {o : BitVec 9} (hg : s.me.pred g = true)
include hg

/-- A capability load from a pan asks for the tag where its base has LC (R138). -/
theorem exec_ldc_pan (hp : (s.me.reg a).place = .pan)
    (h : s.checkAccess .ldc a permL (effective (s.me.reg a) o 16) 16 16 false (some d) = .ok ()) :
    exec (.ldc g d a o) s = .next (s.sendFar (.cap d ((s.me.reg a).has 3))
      [((effective (s.me.reg a) o 16).toNat, .read 16 ((s.me.reg a).has 3) (d == 0#5))] false id) := by
  refine State.next_ok hg ((act_after h).trans ?_)
  rw [hp]
  rfl

/-- Host memory has no tags (R138). -/
theorem exec_ldc_host (hp : (s.me.reg a).place = .host)
    (h : s.checkAccess .ldc a permL (effective (s.me.reg a) o 16) 16 16 false (some d) = .ok ()) :
    exec (.ldc g d a o) s = .next (s.sendFar (.cap d false)
      [((effective (s.me.reg a) o 16).toNat, .read 16 false false)] true id) := by
  refine State.next_ok hg ((act_after h).trans ?_)
  rw [hp]
  rfl

/-- A capability store outside the scratchpad: a tagged one goes to a pan alone, a linear one nowhere (R139). -/
theorem exec_stc_far (hp : (s.me.reg a).place = .pan ∨ (s.me.reg a).place = .host)
    (h : s.checkAccess .stc a permS (effective (s.me.reg a) o 16) 16 16 true none = .ok ())
    (hl : (s.me.reg d).linear = false)
    (ht : (s.me.reg d).tag = true → (s.me.reg a).has 4 = true ∧ (s.me.reg d).has 11 = true ∧ (s.me.reg a).place = .pan) :
    exec (.stc g d a o) s = .next (if s.replaying then s.advance
      else s.sendFar .none [((effective (s.me.reg a) o 16).toNat, .write (regBytes (s.me.reg d)) (s.me.reg d).tag)]
        ((s.me.reg a).place == .host) id) := by
  obtain ⟨hplace, hbounds, hlinear, halign, hhome⟩ := State.checkAccess_ok_iff.1 h
  have hstored : (!(s.me.reg d).tag || ((s.me.reg a).has 4 && ((s.me.reg a).kind == 1 || (s.me.reg d).has 11) &&
      (s.me.reg a).kind != 0xB)) = true := by
    cases htag : (s.me.reg d).tag with
    | false => rfl
    | true =>
      obtain ⟨h4, h11, hpan⟩ := ht htag
      have hkind : (s.me.reg a).kind ≠ 0xB := fun e => by
        rw [CReg.place, e] at hpan
        cases hpan
      simp [h4, h11, hkind]
  have hfree : (!((s.me.reg d).linear && (s.me.reg a).kind != 1)) = true := by rw [hl]; rfl
  refine State.next_ok hg <| (act_after hplace).trans <| (act_after ((need_ok_iff ..).2 hstored)).trans <|
    (act_after hbounds).trans <| (act_after ((need_ok_iff ..).2 hfree)).trans <| (act_after hlinear).trans <|
    (act_after halign).trans <| (act_after hhome).trans ?_
  rcases hp with hp | hp <;> rw [hp] <;> rfl

end

/-- Settles O22: the checks pass, and the base's place says where the access is sent. -/
theorem farAccesses : Obligations.FarAccesses := by
  intro s g z d a b o hg r v host n ea ec
  refine ⟨fun hp => ⟨fun h => State.next_ok hg (State.load_device hp h), fun h => State.next_ok hg (State.store_device hp h)⟩,
    fun hp h => State.next_ok hg (State.load_far hp h), fun hp h => State.next_ok hg (State.store_far hp h),
    fun h => ⟨fun hp => exec_ldc_pan hg hp h, fun hp => exec_ldc_host hg hp h⟩,
    fun hp h hl ht => exec_stc_far hg hp h hl ht, ?_⟩
  intro hp w m h far
  have hamo (op : Nat) := State.amo_far (b := b) (d := d) op rfl hp h
  exact ⟨State.next_ok hg (hamo 0), State.next_ok hg (hamo 1), State.next_ok hg (hamo 2), State.next_ok hg (hamo 3),
    State.next_ok hg (hamo 4), State.next_ok hg (hamo 5), State.next_ok hg (hamo 6), State.next_ok hg (hamo 7),
    State.next_ok hg (hamo 8), State.next_ok hg (hamo 9)⟩

end Sys2Proof.Machine
end

section
/-! THEOREM. When a far access goes on or waits, and the fences (O23). -/

namespace Sys2Proof.Machine

/-! ## The way -/

section
variable {s : State}

theorem State.farGate_unrelaxed (hr : s.cur.relaxed = false) :
    s.farGate = if s.me.relaxedOut = [] then none else some (.relaxed s.me.relaxedOut) := by
  rw [State.farGate, hr]
  rfl

theorem State.farGate_relaxed (hr : s.cur.relaxed = true) :
    s.farGate = if 4 ≤ s.me.relaxedOut.length then some (.relaxed (s.me.relaxedOut.take 1)) else none := by
  rw [State.farGate, hr]
  rfl

/-- The way of an access is free where nothing relaxed is outstanding, or room is left for a relaxed one (R142). -/
theorem State.farGate_free (h : s.cur.relaxed = false ∧ s.me.relaxedOut = [] ∨
    s.cur.relaxed = true ∧ s.me.relaxedOut.length < 4) : s.farGate = none := by
  rcases h with ⟨hr, ho⟩ | ⟨hr, ho⟩
  · rw [State.farGate_unrelaxed hr, if_pos ho]
  · rw [State.farGate_relaxed hr, if_neg (by omega)]

end

/-! ## What a sent access leaves -/

/-- Where control goes depends on the place in the program alone (R60, R128). -/
theorem Strand.pc_past_congr {x y : Strand} {n : Nat} (hpc : y.pc = x.pc) (hrep : y.rep = x.rep) :
    (y.past n).pc = (x.past n).pc := by
  unfold Strand.past
  rw [hpc, hrep]
  cases x.rep with
  | none => rfl
  | some r =>
    dsimp only
    split
    · rfl
    · split <;> rfl

section
variable (s : State) (id : Nat) (host : Bool)

/-- The requests of an access go into the network and onto the agenda, and take numbers (R141, R313). -/
theorem State.sendParts_eq (after : Nat) (parts : List (Nat × ReqKind)) : ∀ i, ∃ pk ag k, s.nextId ≤ k ∧
    s.sendParts id host after i parts = { s with packets := pk, agenda := ag, nextId := k } := by
  induction parts generalizing s with
  | nil => exact fun i => ⟨_, _, _, le_refl _, rfl⟩
  | cons p parts ih =>
    intro i
    obtain ⟨pk, ag, k, hk, h⟩ := ih (s.sendFrom s.cur.core true
      (if host then .host else .slice ((s.sliceOf s.mySp p.1).getD 0)) 1
      (.request (s.strandRequest id i p.1 p.2 host)) (after + i)) (i + 1)
    exact ⟨pk, ag, k, Nat.le_of_succ_le hk, h⟩

/-- From now on the strand holds the access; an unrelaxed one waits for its reply (R142). -/
theorem State.holdFar_leaves (eas : List Nat) (dest : FarDest) :
    let t := s.holdFar id eas dest
    t.nextId = s.nextId ∧
    (∃ f : Far, t.me.far = s.me.far ++ [f] ∧ f.id = id ∧ f.dest = dest ∧ f.left = eas.length ∧ f.relaxed = s.cur.relaxed) ∧
    t.me.wait = (if s.cur.relaxed then s.me.wait else .far id) ∧ t.me.pc = (s.me.past s.cur.len).pc ∧
    t.hbm = s.hbm ∧ t.host = s.host := by
  intro t
  have ht : t = if s.cur.relaxed then (s.modMe _).advance else (s.modMe _).waitNext (.far id) := rfl
  cases hr : s.cur.relaxed with
  | true =>
    rw [if_pos hr] at ht
    rw [ht, State.me_advance, State.me_modMe, Strand.past_eq]
    exact ⟨rfl, ⟨_, rfl, rfl, rfl, rfl, hr⟩, rfl, Strand.pc_past_congr rfl rfl, rfl, rfl⟩
  | false =>
    rw [if_neg (ne_true_of_eq_false hr), State.waitNext_quiet rfl, State.modMe_modMe] at ht
    rw [ht, State.me_modMe, Strand.waitFor, if_neg Bool.false_ne_true, Strand.past_eq]
    exact ⟨rfl, ⟨_, rfl, rfl, rfl, rfl, hr⟩, rfl, Strand.pc_past_congr rfl rfl, rfl, rfl⟩

/-- Of the strand they change only when its next request may leave (R141, R142). -/
theorem State.sendInOrder_leaves (parts : List (Nat × ReqKind)) :
    let t := s.sendInOrder id host parts
    s.nextId ≤ t.nextId ∧ t.cur = s.cur ∧ t.me = { s.me with sendFrom := t.me.sendFrom } ∧ t.hbm = s.hbm ∧
      t.host = s.host := by
  intro t
  obtain ⟨pk, ag, k, hk, hparts⟩ := s.sendParts_eq id host (s.me.sendFrom - s.k) parts 0
  have ht : t = State.modMe { s with packets := pk, agenda := ag, nextId := k }
      (fun x => { x with sendFrom := s.k + (s.me.sendFrom - s.k) + parts.length }) :=
    congrArg (fun u : State => u.modMe fun x => { x with sendFrom := s.k + (s.me.sendFrom - s.k) + parts.length }) hparts
  rw [ht, State.me_modMe]
  exact ⟨hk, rfl, rfl, rfl, rfl⟩

/-- An access that finds the way free is sent and held under the next number (R141 to R143). -/
theorem State.sendFar_leaves (dest : FarDest) (parts : List (Nat × ReqKind)) (h : s.farGate = none) :
    let t := s.sendFar dest parts host (fun s => s)
    t.nextId ≠ s.nextId ∧
    (∃ f : Far, t.me.far = s.me.far ++ [f] ∧ f.id = s.nextId ∧ f.dest = dest ∧ f.left = parts.length ∧
      f.relaxed = s.cur.relaxed) ∧
    t.me.wait = (if s.cur.relaxed then s.me.wait else .far s.nextId) ∧ t.me.pc = (s.me.past s.cur.len).pc ∧
    t.hbm = s.hbm ∧ t.host = s.host := by
  dsimp only
  rw [State.sendFar_goes dest parts host _ h]
  dsimp only [State.fresh]
  obtain ⟨hk, hcur, hme, hhbm, hhost⟩ :=
    State.sendInOrder_leaves { s with nextId := s.nextId + 1 } s.nextId host parts
  generalize State.sendInOrder { s with nextId := s.nextId + 1 } s.nextId host parts = u at hk hcur hme hhbm hhost ⊢
  obtain ⟨hid, ⟨f, hfar, hf, hdest, hleft, hrelaxed⟩, hwait, hpc, hhbm', hhost'⟩ :=
    u.holdFar_leaves s.nextId (parts.map (·.1)) dest
  rw [hcur] at hrelaxed hwait hpc
  rw [hme] at hfar hwait hpc
  have hlt : s.nextId < u.nextId := hk
  exact ⟨by omega, ⟨f, hfar, hf, hdest, hleft.trans (List.length_map ..), hrelaxed⟩, hwait,
    hpc.trans (Strand.pc_past_congr rfl rfl), hhbm'.trans hhbm, hhost'.trans hhost⟩

end

/-- A send whose checks pass waits at itself while an access of its strand is outstanding (R145, R195). -/
theorem State.sendWord_waits {s : State} {a : BitVec 5} {j : Nat} (he : s.checkEnd j true 0 = .ok ())
    (hp : checkPayload a (s.me.reg a) = .ok ()) (hf : s.me.farOut ≠ []) :
    s.sendWord a j = .ok (s.waitAgain (.fenceFirst s.me.farOut s.cur.len s.cur.bits)) :=
  (act_after he).trans <| (act_after hp).trans (State.fenceFirst_waits _ hf)

/-- Settles O23: the gate of an access has three answers, and each fence asks its own condition. -/
theorem farGateAndFences : Obligations.FarGateAndFences := by
  refine ⟨fun s dest parts host => ⟨fun hr ho => ?_, fun hr ho => ?_, fun h => ?_⟩, fun s g hg => ?_,
    fun s g a h hg hf he hp => State.next_ok hg (State.sendWord_waits he hp hf)⟩
  · exact State.sendFar_waits dest parts host id ((State.farGate_unrelaxed hr).trans (if_neg ho))
  · exact State.sendFar_waits dest parts host id ((State.farGate_relaxed hr).trans (if_pos ho))
  · exact s.sendFar_leaves host dest parts (State.farGate_free h)
  · exact ⟨State.next_ok hg rfl, State.next_ok hg rfl, State.next_ok hg rfl⟩

end Sys2Proof.Machine
end

section
/-! THEOREM. Vector, strided and indexed loads and stores, and the vector atomics (O28). -/

namespace Sys2Proof.Machine

/-! ## The checks -/

section
variable {s : State} {u : BaseUse} {a : BitVec 5} {bits : BitVec 12} {ea : Int} {eas : List Int} {n : Nat} {st : Bool}
  {d : BitVec 4} {reads writes : List (BitVec 4)}

/-- The stream gate opens where the stream checks pass, every granule is as it is needed, and no push destroys a linear
capability (R134, R183, R184). -/
theorem State.streamGate_none_iff : s.streamGate reads writes = .ok none ↔
    s.streamReasons reads writes = .ok () ∧ s.streamWait reads writes = none ∧ s.pushLinear writes = .ok () := by
  unfold State.streamGate
  cases s.streamReasons reads writes with
  | error e => exact ⟨nofun, fun h => nomatch h.1⟩
  | ok _ =>
    cases s.streamWait reads writes with
    | some w => exact ⟨nofun, fun h => nomatch h.2.1⟩
    | none =>
      cases s.pushLinear writes with
      | error e => exact ⟨nofun, fun h => nomatch h.2.2⟩
      | ok _ => exact ⟨fun _ => ⟨rfl, rfl, rfl⟩, fun _ => rfl⟩

/-- The checks of a vector form are those of its access and of its pushes (R104, R182). -/
theorem State.checkVector_ok (h : s.checkAccess u a bits ea n n st none = .ok ()) (hp : s.pushLinear writes = .ok ()) :
    s.checkVector u a bits ea n st writes = .ok () := by
  obtain ⟨hplace, hbounds, hlinear, halign, hhome⟩ := State.checkAccess_ok_iff.1 h
  simp only [State.checkVector, check_bind_ok_iff]
  exact ⟨hplace, hbounds, hlinear, hp, halign, hhome⟩

/-- Those of the loads of single elements likewise (R141, R182). -/
theorem State.checkLoads_ok (h : s.checkElements .gather a permL eas n false = .ok ()) (hp : s.pushLinear [d] = .ok ()) :
    s.checkLoads a eas n d = .ok () := by
  simp only [State.checkElements, check_bind_ok_iff] at h
  obtain ⟨hplace, hbounds, -, halign, hhome⟩ := h
  simp only [State.checkLoads, check_bind_ok_iff]
  exact ⟨hplace, hbounds, hp, halign, hhome⟩

end

/-! ## Elements -/

section
variable {s : State} {a : BitVec 5} {d : BitVec 4} {reads : List (BitVec 4)} {w : Nat} {addrs : State → List Int}
  {eas : List Int} {r : CReg}

section
variable (hgate : s.streamGate reads [d] = .ok none) (heas : addrs s = eas) (hr : s.me.reg a = r)
  (h : s.checkElements .gather a permL eas (w / 8) false = .ok ())
include hgate heas hr h

/-- The elements of a window are loaded in lane order (R141). -/
theorem State.loadElements_window (hp : r.place = .window) : s.loadElements d a reads w addrs =
    .ok (((s.popAll reads).writeVec d (ofLanes w (eas.map (fun e => bytesNat (s.spBytes e (w / 8)))))).advanceBy
      (8 * (512 / w / 16))) := by
  obtain ⟨hreasons, hwait, hpush⟩ := State.streamGate_none_iff.1 hgate
  subst heas hr
  refine (act_after hreasons).trans ?_
  rw [hwait]
  refine (act_after (State.checkLoads_ok h hpush)).trans ?_
  rw [hp]
  rfl

/-- Those of a pan are asked for, one request each (R141). -/
theorem State.loadElements_pan (hp : r.place = .pan) : s.loadElements d a reads w addrs =
    .ok (s.sendFar (.lanes d w) (eas.map (fun e => (e.toNat, .read (w / 8) false false))) false
      (fun s => s.popAll reads)) := by
  obtain ⟨hreasons, hwait, hpush⟩ := State.streamGate_none_iff.1 hgate
  subst heas hr
  refine (act_after hreasons).trans ?_
  rw [hwait]
  refine (act_after (State.checkLoads_ok h hpush)).trans ?_
  rw [hp]
  rfl

end

section
variable (hgate : s.streamGate reads [] = .ok none) (heas : addrs s = eas) (hr : s.me.reg a = r)
  (h : s.checkElements .scatter a permS eas (w / 8) true = .ok ())
include hgate heas hr h

/-- The elements of a window are stored in lane order (R141). -/
theorem State.storeElements_window (hp : r.place = .window) : s.storeElements d a reads w addrs =
    .ok (((eas.zip ((lanesOf w (s.readVec d)).map (fun x => natBytes (w / 8) x))).foldl (fun s p => s.spStore p.1 p.2)
      (s.popAll reads)).advanceBy (8 * (512 / w / 16))) := by
  obtain ⟨hreasons, hwait, -⟩ := State.streamGate_none_iff.1 hgate
  subst heas hr
  refine (act_after hreasons).trans ?_
  rw [hwait]
  refine (act_after h).trans ?_
  rw [hp]
  rfl

/-- Those of a pan are sent, one request each, but during replay (R141, R384). -/
theorem State.storeElements_pan (hp : r.place = .pan) : s.storeElements d a reads w addrs =
    .ok (if s.replaying then (s.popAll reads).advance
      else s.sendFar .none ((eas.zip ((lanesOf w (s.readVec d)).map (fun x => natBytes (w / 8) x))).map
        (fun p => (p.1.toNat, .write p.2 false))) false (fun s => s.popAll reads)) := by
  obtain ⟨hreasons, hwait, -⟩ := State.streamGate_none_iff.1 hgate
  subst heas hr
  refine (act_after hreasons).trans ?_
  rw [hwait]
  refine (act_after h).trans ?_
  rw [hp]
  rfl

end

/-! ## Vector atomics -/

section
variable {b : BitVec 4} {z : BitVec 1} (op : Nat) (hr : s.me.reg a = r) (hgate : s.streamGate [b] [d] = .ok none)
  (h : s.checkAccess .amo a permLS r.val.toNat 32 32 true none = .ok ())
include hr hgate h

/-- A vector atomic on a window: its 32 bytes are replaced together, and the old ones are the result (R148). -/
theorem State.vamo_window (hp : r.place = .window) : s.vamo d a b z op =
    .ok (((((s.popAll [b]).spStore r.val.toNat (vectorAtomic op (if z = 0#1 then 32 else 64) (s.spBytes r.val.toNat 32)
      ((vecBytes (s.readVec b)).take 32))).writeVec d (bytesVec (s.spBytes r.val.toNat 32)))).advance) := by
  obtain ⟨hreasons, hwait, hpush⟩ := State.streamGate_none_iff.1 hgate
  subst hr
  refine (act_after hreasons).trans ?_
  rw [hwait]
  refine (act_after (State.checkVector_ok h hpush)).trans ?_
  rw [hp]
  rfl

theorem State.vamo_pan (hp : r.place = .pan) : s.vamo d a b z op =
    .ok (s.sendFar (.vamo d) [(r.val.toNat, .vamo op (if z = 0#1 then 32 else 64) (s.readVec b))] false
      (fun s => s.popAll [b])) := by
  obtain ⟨hreasons, hwait, hpush⟩ := State.streamGate_none_iff.1 hgate
  subst hr
  refine (act_after hreasons).trans ?_
  rw [hwait]
  refine (act_after (State.checkVector_ok h hpush)).trans ?_
  rw [hp]
  rfl

end

end

/-! ## Whole vectors -/

section
variable {s : State} {g : BitVec 3} {d : BitVec 4} {a : BitVec 5} {o : BitVec 9} {r : CReg} (hg : s.me.pred g = true)
  (hr : s.enabled.me.reg a = r)
include hg hr

section
variable (h : s.enabled.checkAccess .vld a permL (effective r o 64) 64 64 false none = .ok ())
  (hgate : s.enabled.streamGate [] [d] = .ok none)
include h hgate

theorem exec_vld_window (hp : r.place = .window) : exec (.vld g d a o) s =
    .next ((s.enabled.writeVec d (bytesVec (s.enabled.spBytes (effective r o 64) 64))).advance) := by
  obtain ⟨hreasons, hwait, hpush⟩ := State.streamGate_none_iff.1 hgate
  subst hr
  refine State.nextV_ok hg ((act_after hreasons).trans ?_)
  rw [show State.streamWait (s.modMe Strand.setVe) [] [d] = none from hwait]
  refine (act_after (State.checkVector_ok h hpush)).trans ?_
  rw [show (State.me (s.modMe Strand.setVe)).reg a = s.enabled.me.reg a from rfl, hp]
  rfl

/-- A vector load from a pan or from host memory asks for its 64 bytes (R140). -/
theorem exec_vld_far (hp : r.place = .pan ∨ r.place = .host) : exec (.vld g d a o) s =
    .next (s.enabled.sendFar (.vec d) [((effective r o 64).toNat, .read 64 false false)] (r.place == .host) id) := by
  obtain ⟨hreasons, hwait, hpush⟩ := State.streamGate_none_iff.1 hgate
  subst hr
  refine State.nextV_ok hg ((act_after hreasons).trans ?_)
  rw [show State.streamWait (s.modMe Strand.setVe) [] [d] = none from hwait]
  refine (act_after (State.checkVector_ok h hpush)).trans ?_
  rw [show (State.me (s.modMe Strand.setVe)).reg a = s.enabled.me.reg a from rfl]
  rcases hp with hp | hp <;> rw [hp] <;> rfl

end

section
variable (h : s.enabled.checkAccess .vst a permS (effective r o 64) 64 64 true none = .ok ())
  (hgate : s.enabled.streamGate [d] [] = .ok none)
include h hgate

theorem exec_vst_window (hp : r.place = .window) : exec (.vst g d a o) s =
    .next (((s.enabled.popAll [d]).spStore (effective r o 64) (vecBytes (s.enabled.readVec d))).advance) := by
  obtain ⟨hreasons, hwait, hpush⟩ := State.streamGate_none_iff.1 hgate
  subst hr
  refine State.nextV_ok hg ((act_after hreasons).trans ?_)
  rw [show State.streamWait (s.modMe Strand.setVe) [d] [] = none from hwait]
  refine (act_after (State.checkVector_ok h hpush)).trans ?_
  rw [show (State.me (s.modMe Strand.setVe)).reg a = s.enabled.me.reg a from rfl, hp]
  rfl

/-- A vector store to a pan or to host memory sends its 64 bytes, but during replay (R140, R384). -/
theorem exec_vst_far (hp : r.place = .pan ∨ r.place = .host) : exec (.vst g d a o) s =
    .next (if s.enabled.replaying then (s.enabled.popAll [d]).advance
      else s.enabled.sendFar .none [((effective r o 64).toNat, .write (vecBytes (s.enabled.readVec d)) false)]
        (r.place == .host) (fun s => s.popAll [d])) := by
  obtain ⟨hreasons, hwait, hpush⟩ := State.streamGate_none_iff.1 hgate
  subst hr
  refine State.nextV_ok hg ((act_after hreasons).trans ?_)
  rw [show State.streamWait (s.modMe Strand.setVe) [d] [] = none from hwait]
  refine (act_after (State.checkVector_ok h hpush)).trans ?_
  rw [show (State.me (s.modMe Strand.setVe)).reg a = s.enabled.me.reg a from rfl]
  rcases hp with hp | hp <;> rw [hp] <;> rfl

end

end

/-- Settles O28: the stream gate and the checks pass, and the base's place says where the elements go. -/
theorem vectorMemory : Obligations.VectorMemory := by
  intro s g d b a c o z w hg v r ea n by1 by2
  have hr : v.me.reg a = r := State.reg_modMe_setVe a
  have hval (x : BitVec 5) : v.me.val x = s.me.val x := congrArg CReg.val (State.reg_modMe_setVe x)
  have hby1 : strided (v.me.val a) (v.me.val c) (512 / n) = by1 := by
    rw [hval, hval]
    rfl
  have hby2 : gathered (v.me.val a) n (v.readVec b) = by2 := by
    rw [hval]
    rfl
  refine ⟨fun h hgate => ⟨exec_vld_window hg hr h hgate, exec_vld_far hg hr h hgate⟩,
    fun h hgate => ⟨exec_vst_window hg hr h hgate, exec_vst_far hg hr h hgate⟩,
    ⟨fun h hgate => ⟨fun hp => State.nextV_ok hg (State.loadElements_window hgate hby1 hr h hp),
        fun hp => State.nextV_ok hg (State.loadElements_pan hgate hby1 hr h hp)⟩,
      fun h hgate => ⟨fun hp => State.nextV_ok hg (State.loadElements_window hgate hby2 hr h hp),
        fun hp => State.nextV_ok hg (State.loadElements_pan hgate hby2 hr h hp)⟩⟩,
    ⟨fun h hgate => ⟨fun hp => State.nextV_ok hg (State.storeElements_window hgate hby1 hr h hp),
        fun hp => State.nextV_ok hg (State.storeElements_pan hgate hby1 hr h hp)⟩,
      fun h hgate => ⟨fun hp => State.nextV_ok hg (State.storeElements_window hgate hby2 hr h hp),
        fun hp => State.nextV_ok hg (State.storeElements_pan hgate hby2 hr h hp)⟩⟩,
    fun h hgate => ?_⟩
  have hwindow (op : Nat) (hp : r.place = .window) := State.nextV_ok hg (State.vamo_window (z := w) op hr hgate h hp)
  have hpan (op : Nat) (hp : r.place = .pan) := State.nextV_ok hg (State.vamo_pan (z := w) op hr hgate h hp)
  exact ⟨⟨hwindow 0, hpan 0⟩, ⟨hwindow 1, hpan 1⟩, ⟨hwindow 2, hpan 2⟩, ⟨hwindow 3, hpan 3⟩, ⟨hwindow 4, hpan 4⟩,
    ⟨hwindow 5, hpan 5⟩, ⟨hwindow 6, hpan 6⟩, ⟨hwindow 7, hpan 7⟩, ⟨hwindow 8, hpan 8⟩⟩

end Sys2Proof.Machine
end

section
/-! SUPPORT. What a table reads under another key after an entry has been taken out. -/

namespace Sys2Proof

theorem Table.get?_erase_ne {α : Type} (t : Table α) {k j : Nat} (h : j ≠ k) :
    Table.get? (t.erase k) j = Table.get? t j := by
  induction t with
  | nil => rfl
  | cons e rest ih =>
    obtain ⟨i, x⟩ := e
    rw [Table.erase]
    split
    · next hi =>
      subst hi
      rw [ih, Table.get?, if_neg (Ne.symm h)]
    · rw [Table.get?, Table.get?, ih]

end Sys2Proof
end

section
/-! THEOREM. Contributions with their sequence numbers, and binding, freeing and skipping streams (O29). -/

namespace Sys2Proof.Machine

/-! ## Contributions -/

section
variable {s : State} {g : BitVec 3} {d a : BitVec 5} {b : BitVec 4} {r : CReg}

theorem State.cseqOf_enabled (k : Nat) : s.enabled.myCore.cseqOf k = s.myCore.cseqOf k := by
  rw [State.enabled, State.modMe, State.myCore_setMe]
  rfl

variable (hr : s.enabled.me.reg a = r)
include hr

/-- A contribution takes the next sequence number of its slot (R150). -/
theorem State.contribute_enabled (reads : List (BitVec 4)) (x : Contribution) :
    let q := s.myCore.cseqOf s.cur.slot + 1#64
    s.enabled.contribute a reads x = .ok (s.enabled.sendFar .none [(r.val.toNat, .contribute x q)] false
      (fun s => (s.popAll reads).modMyCore (fun c => { c with cseq := c.cseq.set s.cur.slot q }))) := by
  subst hr
  dsimp only
  rw [← State.cseqOf_enabled]
  rfl

variable (hgate : s.enabled.streamGate [b] [] = .ok none) (hplace : checkPlace .acc a r permA r.val.toNat = .ok ())
  (hhome : s.enabled.checkHome r r.val.toNat = .ok ())
include hgate hplace hhome

/-- An accumulate contribution whose checks pass (R149). -/
theorem exec_acc {l f : BitVec 2} {size n : Nat} (hg : s.me.pred g = true)
    (hsize : size = if f = 0#2 then 4 else if f = 1#2 then 2 else 48)
    (hn : n = (if l = 0#2 then 16 else 32) * size) (hbounds : r.inBounds r.val.toNat n = true)
    (halign : r.val.toNat % (if f = 2#2 then 16 else size) = 0) (hblock : r.val.toNat % 2048 + n ≤ 2048) :
    let q := s.myCore.cseqOf s.cur.slot + 1#64
    exec (.acc g a b l f) s = .next (s.enabled.sendFar .none
      [(r.val.toNat, .contribute (.acc f l (s.enabled.readVec b)) q)] false
      (fun s => (s.popAll [b]).modMyCore (fun c => { c with cseq := c.cseq.set s.cur.slot q }))) := by
  intro q
  obtain ⟨hreasons, hwait, -⟩ := State.streamGate_none_iff.1 hgate
  subst hsize hn
  refine State.nextV_ok hg ((act_after hreasons).trans ?_)
  rw [show State.streamWait (s.modMe Strand.setVe) [b] [] = none from hwait,
    show (State.me (s.modMe Strand.setVe)).reg a = r from hr]
  exact (act_after hplace).trans <| (act_after (checkBounds_ok hbounds)).trans <|
    (act_after (checkAlign_ok (by exact_mod_cast halign))).trans <|
    (act_after ((need_ok_iff ..).2 (decide_eq_true hblock))).trans <| (act_after hhome).trans <|
    State.contribute_enabled hr [b] _

/-- A Microscaling contribution whose checks pass (R152). -/
theorem State.maccMx_ok {fmt : Nat} (hbounds : r.inBounds r.val.toNat 64 = true) (halign : r.val.toNat % 64 = 0) :
    let q := s.myCore.cseqOf s.cur.slot + 1#64
    s.enabled.maccMx d a b fmt = .ok (s.enabled.sendFar .none
      [(r.val.toNat, .contribute (.mx fmt ((s.enabled.me.val d).extractLsb' 0 8) (s.enabled.readVec b)) q)] false
      (fun s => (s.popAll [b]).modMyCore (fun c => { c with cseq := c.cseq.set s.cur.slot q }))) := by
  intro q
  obtain ⟨hreasons, hwait, -⟩ := State.streamGate_none_iff.1 hgate
  refine (act_after hreasons).trans ?_
  rw [hwait, hr]
  exact (act_after hplace).trans <| (act_after (checkBounds_ok hbounds)).trans <|
    (act_after (checkAlign_ok (by exact_mod_cast halign))).trans <| (act_after hhome).trans <|
    State.contribute_enabled hr [b] _

/-- `macc.mx8` reads its scale and its format from cD (R152). -/
theorem exec_maccMx8 {y : Word} (hg : s.me.pred g = true) (hy : s.enabled.me.val d = y)
    (hbounds : r.inBounds r.val.toNat 64 = true) (halign : r.val.toNat % 64 = 0) :
    let q := s.myCore.cseqOf s.cur.slot + 1#64
    exec (.maccMx8 g d a b) s = .next (s.enabled.sendFar .none [(r.val.toNat, .contribute
      (.mx (if y.getLsbD 8 then 2 else 1) (y.extractLsb' 0 8) (s.enabled.readVec b)) q)] false
      (fun s => (s.popAll [b]).modMyCore (fun c => { c with cseq := c.cseq.set s.cur.slot q }))) := by
  subst hy
  exact State.nextV_ok hg (State.maccMx_ok hr hgate hplace hhome hbounds halign)

/-- `macc.mx4` its scale alone (R152). -/
theorem exec_maccMx4 {y : Word} (hg : s.me.pred g = true) (hy : s.enabled.me.val d = y)
    (hbounds : r.inBounds r.val.toNat 64 = true) (halign : r.val.toNat % 64 = 0) :
    let q := s.myCore.cseqOf s.cur.slot + 1#64
    exec (.maccMx4 g d a b) s = .next (s.enabled.sendFar .none [(r.val.toNat, .contribute
      (.mx 3 (y.extractLsb' 0 8) (s.enabled.readVec b)) q)] false
      (fun s => (s.popAll [b]).modMyCore (fun c => { c with cseq := c.cseq.set s.cur.slot q }))) := by
  subst hy
  exact State.nextV_ok hg (State.maccMx_ok hr hgate hplace hhome hbounds halign)

end

/-! ## Streams -/

/-- The status bits of a register bound to a stream, or freed (R37). -/
theorem getLsbD_streamBits (sst : BitVec 13) {d : Nat} (bound out : Bool) (hlo : 13 ≤ d) (hhi : d ≤ 15) :
    (streamBits sst d bound out).getLsbD (d - 10) = bound ∧
      (streamBits sst d bound out).getLsbD (d - 7) = (bound && out) := by
  have hd : d = 13 ∨ d = 14 ∨ d = 15 := by omega
  rcases hd with rfl | rfl | rfl <;> cases bound <;> cases out <;> simp [streamBits]

/-- The strand with register `d` bound to a stream (R181). -/
def Strand.bind (x : Strand) (d : Nat) (st : Stream) : Strand :=
  let x := x.freeStream d
  { x with streams := x.streams.set d st, sst := streamBits x.sst d true st.out }

/-- The strand with the stream of register `d` skipped by as many elements as c`a` says, and no further than its end
(R185). -/
def Strand.skip (x : Strand) (d : Nat) (a : BitVec 5) : Strand :=
  match x.streams.get? d with
  | none => x
  | some st => { x with streams := x.streams.set d { st with done := st.done + min (x.val a).toNat (st.total - st.done) } }

section
variable {s : State} {g e : BitVec 3} {d a : BitVec 5}

theorem State.me_enabled_advance (f : Strand → Strand) :
    (s.enabled.modMe f).advance.me = { (f s.me.setVe).past s.cur.len with readyAt := s.k + 8 } := by
  rw [State.me_advance, State.me_modMe, State.enabled, State.me_modMe]
  rfl

theorem State.onlyStrand_enabled_advance (f : Strand → Strand) : s.OnlyStrand (s.enabled.modMe f).advance :=
  ((s.onlyStrand_modMe Strand.setVe).setMe _).setMe _

theorem exec_sfree (hg : s.me.pred g = true) :
    exec (.sfree g d) s = .next (s.enabled.modMe (fun x => x.freeStream d.toNat)).advance :=
  State.nextV_ok hg rfl

theorem exec_sskip (hg : s.me.pred g = true) :
    exec (.sskip g d a) s = .next (s.enabled.modMe (fun x => x.skip d.toNat a)).advance :=
  State.nextV_ok hg rfl

/-- A bind whose checks pass (R179, R181). -/
theorem exec_sbind (hg : s.me.pred g = true) (out : Bool) :
    let r := s.me.reg a
    let w0 := s.me.ext e.toNat
    let w1 := s.me.ext (e.toNat + 1)
    let w2 := s.me.ext (e.toNat + 2)
    let st := streamOf w0 w1 w2 out
    streamFieldsOk w0 w1 w2 = true → r.tag = true → r.kind = 1 → r.has (if out then 1 else 0) = true →
    validBounds r.bounds = true → r.bounds.1 ≤ st.extent.1 → st.extent.2 ≤ r.bounds.2 →
    ((s.me.streams.get? d.toNat).isSome = true ∨ s.enabled.myCore.generators < 4) →
    exec (if out then .sbindOut g d e a else .sbindIn g d e a) s =
      .next (s.enabled.modMe (fun x => x.bind d.toNat st)).advance := by
  intro r w0 w1 w2 st hfields htag hkind hperm hvalid hlo hhi hgen
  have hr : s.enabled.me.reg a = r := State.reg_modMe_setVe a
  have hme : s.enabled.me = s.me.setVe := State.me_modMe ..
  have hbase : (r.tag && r.kind == 1) = true := by rw [htag, hkind]; rfl
  have hbounds : (validBounds r.bounds && decide (r.bounds.1 ≤ st.extent.1) && decide (st.extent.2 ≤ r.bounds.2)) = true := by
    rw [hvalid, decide_eq_true hlo, decide_eq_true hhi]
    rfl
  have hfree : ((s.enabled.me.streams.get? d.toNat).isSome || decide (s.enabled.myCore.generators < 4)) = true := by
    rw [hme, Bool.or_eq_true, decide_eq_true_eq]
    exact hgen
  have hbind : s.enabled.bindStream d e a out = .ok (s.enabled.modMe (fun x => x.bind d.toNat st)).advance := by
    unfold State.bindStream
    rw [hr, show s.enabled.me.ext = s.me.ext from by rw [hme]; rfl]
    exact (act_after ((need_ok_iff ..).2 hfields)).trans <| (act_after ((need_ok_iff ..).2 hbase)).trans <|
      (act_after ((need_ok_iff ..).2 hperm)).trans <| (act_after ((need_ok_iff ..).2 hbounds)).trans <|
      act_after ((need_ok_iff ..).2 hfree)
  cases out with
  | true => exact State.nextV_ok hg hbind
  | false => exact State.nextV_ok hg hbind

end

/-- The v registers that may be bound are v13 to v15 (R178). -/
theorem toNat_streamRegister {d : BitVec 5} (h : d.toNat ≤ 15) : (d.setWidth 4).toNat = d.toNat :=
  (BitVec.toNat_setWidth ..).trans (Nat.mod_eq_of_lt (by omega))

section
variable {x : Strand} {d : BitVec 5} (hlo : 13 ≤ d.toNat) (hhi : d.toNat ≤ 15)
include hlo hhi

/-- What a bind leaves of the strand's streams (R37, R181). -/
theorem Strand.bind_leaves (st : Stream) :
    (x.bind d.toNat st).stream (d.setWidth 4) = some st ∧ (x.bind d.toNat st).sst.getLsbD (d.toNat - 10) = true ∧
      (x.bind d.toNat st).sst.getLsbD (d.toNat - 7) = st.out ∧
      ∀ y, y ≠ d.setWidth 4 → (x.bind d.toNat st).stream y = x.stream y := by
  obtain ⟨hbound, hout⟩ := getLsbD_streamBits (x.freeStream d.toNat).sst true st.out hlo hhi
  refine ⟨?_, hbound, hout, fun y hy => ?_⟩
  · rw [Strand.stream, toNat_streamRegister hhi]
    exact Table.get?_set_self ..
  · have hne : y.toNat ≠ d.toNat := fun h => hy (BitVec.eq_of_toNat_eq (h.trans (toNat_streamRegister hhi).symm))
    exact (Table.get?_set_ne _ _ hne).trans (Table.get?_erase_ne _ hne)

/-- What freeing a register leaves: no stream, and the register 0 (R185). -/
theorem Strand.freeStream_leaves :
    (x.freeStream d.toNat).stream (d.setWidth 4) = none ∧ (x.freeStream d.toNat).vec (d.setWidth 4) = 0#512 ∧
      (x.freeStream d.toNat).sst.getLsbD (d.toNat - 10) = false ∧
      (x.freeStream d.toNat).sst.getLsbD (d.toNat - 7) = false := by
  obtain ⟨hbound, hout⟩ := getLsbD_streamBits x.sst false false hlo hhi
  refine ⟨?_, ?_, hbound, hout⟩
  · rw [Strand.stream, toNat_streamRegister hhi]
    exact Table.get?_erase_self ..
  · rw [Strand.vec, toNat_streamRegister hhi]
    split
    · exact Table.getD_set_self ..
    · rfl

end

theorem Strand.streams_skip {x : Strand} {d : Nat} {a : BitVec 5} {st : Stream} (h : x.streams.get? d = some st) :
    (x.skip d a).streams.get? d = some { st with done := st.done + min (x.val a).toNat (st.total - st.done) } := by
  rw [Strand.skip, h]
  exact Table.get?_set_self ..

/-- Settles O29: a contribution's checks pass and it is sent; the strand alone changes where streams are bound, freed and
skipped. -/
theorem contributionsAndStreams : Obligations.ContributionsAndStreams := by
  intro s g d a b l f e hg v r ea q sends size n
  have hr : v.me.reg a = r := State.reg_modMe_setVe a
  have hval : v.me.val d = s.me.val d := congrArg CReg.val (State.reg_modMe_setVe d)
  refine ⟨fun hplace hgate hhome => ⟨exec_acc hr hgate hplace hhome hg rfl rfl, fun hbounds halign =>
      ⟨exec_maccMx8 hr hgate hplace hhome hg hval hbounds halign, exec_maccMx4 hr hgate hplace hhome hg hval hbounds halign⟩⟩,
    fun out => ?_, fun hlo hhi => ?_, ?_⟩
  · intro w0 w1 w2 st hfields htag hkind hperm hvalid hlow hhigh hgen hlo hhi
    obtain ⟨hstream, hsb, hsd, hothers⟩ := Strand.bind_leaves (x := s.me.setVe) hlo hhi st
    refine ⟨_, exec_sbind hg out hfields htag hkind hperm hvalid hlow hhigh hgen, ?_⟩
    rw [State.me_enabled_advance, Strand.past_eq]
    exact ⟨hstream, hsb, hsd, hothers, State.onlyStrand_enabled_advance _⟩
  · refine ⟨_, exec_sfree hg, ?_⟩
    rw [State.me_enabled_advance, Strand.past_eq]
    obtain ⟨hstream, hvec, hsb, hsd⟩ := Strand.freeStream_leaves (x := s.me.setVe) hlo hhi
    exact ⟨hstream, hvec, hsb, hsd, State.onlyStrand_enabled_advance _⟩
  · refine ⟨_, exec_sskip hg, State.onlyStrand_enabled_advance _, fun st hst => ?_⟩
    rw [State.me_enabled_advance, Strand.past_eq]
    exact Strand.streams_skip (x := s.me.setVe) hst

end Sys2Proof.Machine
end

section
/-! SUPPORT. What the ends of waits leave of a slot (O36): its strand and the cycle count of its core, after a wake of it or of
another slot, and after a pass over the slots of a core. -/

namespace Sys2Proof.Machine

/-! ## A pass over a list -/

section
variable {α β γ : Type} {f : β → α → β} {obs : β → γ} {l : List α} {a : α} {y : γ} {s : β}

/-- A pass none of whose steps changes what is observed. -/
theorem foldl_keeps (h : ∀ t, ∀ b ∈ l, obs (f t b) = obs t) : obs (l.foldl f s) = obs s :=
  List.foldlRecOn (motive := fun t => obs t = obs s) l f rfl fun t ht b hb => (h t b hb).trans ht

/-- A pass one of whose steps alone changes what is observed. -/
theorem foldl_once (hl : l.Nodup) (ha : a ∈ l) (hother : ∀ t, ∀ b ∈ l, b ≠ a → obs (f t b) = obs t)
    (hself : ∀ t, obs t = obs s → obs (f t a) = y) : obs (l.foldl f s) = y := by
  induction l generalizing s with
  | nil => cases ha
  | cons b l ih =>
    obtain ⟨hb, hl⟩ := List.nodup_cons.1 hl
    rcases List.mem_cons.1 ha with rfl | ha
    · refine (foldl_keeps fun t c hc => hother t c (.tail _ hc) fun e => hb (e ▸ hc)).trans (hself s rfl)
    · have hs : obs (f s b) = obs s := hother s b (.head _) fun e => hb (e ▸ ha)
      exact ih hl ha (fun t c hc => hother t c (.tail _ hc)) fun t ht => hself t (ht.trans hs)

end

/-! ## A slot -/

/-- The strand that waits in a slot, ready in the cycle after now (R187). -/
def State.woken (s : State) (p k : Nat) : Strand := { s.strand p k with wait := .ready, readyAt := s.countCore p + 1 }

/-- What a slot holds, with the cycle count of its core. -/
def State.slotAt (s : State) (p k : Nat) : Option Strand × Nat := ((s.core p).slots.get? k, s.countCore p)

section
variable {s : State} {p k q j : Nat} {x : Strand} {n : Nat}

theorem State.slotAt_of_occupied (h : s.occupied p k = true) : s.slotAt p k = (some (s.strand p k), s.countCore p) := by
  obtain ⟨x, hx⟩ := Option.isSome_iff_exists.1 h
  rw [State.slotAt, State.strand, Table.getD, show Table.get? (s.core p).slots k = some x from hx]
  rfl

theorem State.strand_of_slotAt (h : s.slotAt p k = (some x, n)) : s.strand p k = x := by
  rw [State.strand, Table.getD, show Table.get? (s.core p).slots k = some x from congrArg Prod.fst h]
  rfl

theorem State.occupied_of_slotAt (h : s.slotAt p k = (some x, n)) : s.occupied p k = true := by
  rw [State.occupied, show (s.core p).slots.get? k = some x from congrArg Prod.fst h]
  rfl

theorem State.countCore_of_slotAt (h : s.slotAt p k = (some x, n)) : s.countCore p = n := congrArg Prod.snd h

theorem State.slotAt_setStrand : (s.setStrand p k x).slotAt q j =
    if q = p ∧ j = k then (some x, s.countCore q) else s.slotAt q j := by
  have hcount : (s.setStrand p k x).countCore q = s.countCore q := rfl
  rw [State.slotAt, hcount, State.core_setStrand]
  by_cases hq : q = p
  · subst hq
    rw [if_pos rfl, show Table.get? ((s.core q).slots.set k x) j = _ from Table.get?_set _ k j x]
    by_cases hj : j = k
    · rw [if_pos hj, if_pos ⟨rfl, hj⟩]
    · rw [if_neg hj, if_neg fun h => hj h.2]
      rfl
  · rw [if_neg hq, if_neg fun h => hq h.1]
    rfl

theorem State.slotAt_wake_self : (s.wake p k).slotAt p k = (some (s.woken p k), s.countCore p) :=
  State.slotAt_setStrand.trans (if_pos ⟨rfl, rfl⟩)

theorem State.slotAt_modStrand_ne {f : Strand → Strand} (h : ¬ (q = p ∧ j = k)) :
    (s.modStrand p k f).slotAt q j = s.slotAt q j :=
  State.slotAt_setStrand.trans (if_neg h)

theorem State.slotAt_wake_ne (h : ¬ (q = p ∧ j = k)) : (s.wake p k).slotAt q j = s.slotAt q j :=
  State.slotAt_modStrand_ne h

theorem State.strand_wake : (s.wake p k).strand p k = s.woken p k := State.strand_setStrand_self ..

/-- A change of a core that is none of its slots. -/
theorem State.slotAt_modCore {f : Core → Core} (h : (f (s.core p)).slots = (s.core p).slots) :
    (s.modCore p f).slotAt q j = s.slotAt q j := by
  have hcount : (s.modCore p f).countCore q = s.countCore q := rfl
  rw [State.slotAt, hcount, State.core_modCore]
  split
  · next e => rw [h, e]; rfl
  · rfl

/-- A slot whose strand, as it stands in `s`, is what a wake in `t` makes ready. -/
theorem State.woken_of_slotAt {t : State} (h : t.slotAt p k = s.slotAt p k) (ho : s.occupied p k = true) :
    t.woken p k = s.woken p k := by
  have ht := h.trans (State.slotAt_of_occupied ho)
  rw [State.woken, State.woken, State.strand_of_slotAt ht, State.countCore_of_slotAt ht]

end

end Sys2Proof.Machine
end

section
/-! THEOREM. What ends the wait of a strand: a fence's condition, a deadline, a target time and a barrier's release (O36). -/

namespace Sys2Proof.Machine

/-! ## Barriers -/

section
variable {s : State} {p k q j b : Nat} {x : Strand} {n : Nat}

/-- The log's entries are none of a slot (R381). -/
theorem State.slotAt_logAppend {kind st slot i r y} : (s.logAppend p kind st slot i r y).slotAt q j = s.slotAt q j := by
  unfold State.logAppend
  dsimp only
  split
  · split <;> exact State.slotAt_modCore (s := s) (p := p) (f := fun c => { c with crystal := _ }) rfl
  · rfl

theorem State.slotAt_logSettle {kind i st} : (s.logSettle p kind i st).slotAt q j = s.slotAt q j := by
  unfold State.logSettle State.logSet
  dsimp only
  split
  · split <;> exact State.slotAt_modCore (s := s) (p := p) (f := fun c => { c with crystal := _ }) rfl
  · rfl

/-- The release of members is posted: no slot changes (R212). -/
theorem State.slotAt_arrive {m} : (s.arrive p m b).slotAt q j = s.slotAt q j := by
  have hlog : ((s.modCore p (fun c => { c with barr := c.barr ||| (1#17 <<< b) })).logAppend p logBar 0 m b CReg.zero
      0#512).slotAt q j = s.slotAt q j := State.slotAt_logAppend.trans (State.slotAt_modCore rfl)
  unfold State.arrive
  dsimp only
  split
  · refine Eq.trans (foldl_keeps (obs := fun t : State => t.slotAt q j) ?_) hlog
    exact fun _ _ _ => rfl
  · exact hlog

/-- A slot that meets a release changes its own strand at most, after it has arrived anew or not. -/
theorem State.meetRelease_cases : s.meetRelease p b k = s ∨
    ∃ f u, s.meetRelease p b k = u.modStrand p k f ∧ (u = s ∨ u = s.arrive p k b) := by
  unfold State.meetRelease
  cases (s.core p).slots.get? k with
  | none => exact .inl rfl
  | some x =>
    dsimp only
    split
    · next b' again through _ =>
      by_cases hb : b' = b
      · rw [if_neg (not_not.2 hb)]
        cases again with
        | false => exact .inr ⟨_, s, if_pos rfl, .inl rfl⟩
        | true =>
          by_cases hbit : (s.core p).barr.getLsbD b = true
          · exact .inl ((if_neg Bool.false_ne_true).trans (if_pos hbit))
          · rw [if_neg (show ¬ (!true) = true from Bool.false_ne_true), if_neg hbit]
            split <;> exact .inr ⟨_, _, rfl, .inr rfl⟩
      · exact .inl (if_pos hb)
    · exact .inl rfl

/-- A slot that meets a release leaves the others as they are. -/
theorem State.slotAt_meetRelease_ne (h : j ≠ k) : (s.meetRelease p b k).slotAt p j = s.slotAt p j := by
  have hne : ¬ (p = p ∧ j = k) := fun e => h e.2
  obtain hs | ⟨f, u, hm, hu⟩ := State.meetRelease_cases (s := s) (p := p) (b := b) (k := k)
  · rw [hs]
  · rw [hm, State.slotAt_modStrand_ne hne]
    obtain rfl | rfl := hu
    · rfl
    · exact State.slotAt_arrive

/-- A strand that waits for the release alone is ready (R213). -/
theorem State.meetRelease_waits {through} (ho : s.occupied p k = true) (hw : (s.strand p k).wait = .barrier b false through) :
    s.meetRelease p b k = s.wake p k := by
  unfold State.meetRelease
  rw [show (s.core p).slots.get? k = some (s.strand p k) from congrArg Prod.fst (State.slotAt_of_occupied ho)]
  dsimp only
  rw [hw]
  dsimp only
  rw [if_neg (not_not.2 rfl)]
  rfl

/-- A slot that has not still to arrive is made ready, if it changes. -/
theorem State.meetRelease_of_arrived (h : ∀ through, (s.strand p k).wait ≠ .barrier b true through) :
    s.meetRelease p b k = s ∨ s.meetRelease p b k = s.wake p k := by
  unfold State.meetRelease
  cases hx : (s.core p).slots.get? k with
  | none => exact .inl rfl
  | some x =>
    have hs : s.strand p k = x := State.strand_of_slotAt (n := s.countCore p) (congrArg (·, s.countCore p) hx)
    dsimp only
    split
    · next b' again through hw =>
      by_cases hb : b' = b
      · rw [if_neg (not_not.2 hb)]
        cases again with
        | false => exact .inr rfl
        | true => exact absurd (hs ▸ hb ▸ hw) (h through)
      · exact .inl (if_pos hb)
    · exact .inl rfl

/-- The state in which the slots of a core meet a release: its ARR bit is clear (R212). -/
def State.released (s : State) (p b : Nat) : State :=
  (s.modCore p (fun c => { c with barr := c.barr &&& ~~~(1#17 <<< b) })).logSettle p logBar b 1

theorem State.slotAt_released : (s.released p b).slotAt q j = s.slotAt q j :=
  State.slotAt_logSettle.trans (State.slotAt_modCore rfl)

/-- A strand is what its core's slots say. -/
theorem State.KeepsTable.strand {t : State} (h : s.KeepsTable t) : t.strand q j = s.strand q j := by
  obtain ⟨-, hs, hv, -⟩ := h q
  rw [State.strand, State.strand, Core.vacant, Core.vacant, hs, hv]

theorem State.strand_released : (s.released p b).strand q j = s.strand q j :=
  State.KeepsTable.logSettle.strand.trans (State.KeepsTable.refl.setCore (c := { s.core p with
    barr := (s.core p).barr &&& ~~~(1#17 <<< b) }) ⟨rfl, rfl, rfl, rfl⟩).strand

theorem execBarrierRelease_eq : exec .barrierRelease s =
    .next ((List.range 8).foldl (fun t k => t.meetRelease s.arg.a s.arg.b k) (s.released s.arg.a s.arg.b)) := rfl

/-- After the release, a strand that waits for it alone is ready (R212, R213). -/
theorem State.release_wakes {through} (hj : j < 8) (ho : s.occupied p j = true)
    (hw : (s.strand p j).wait = .barrier b false through) :
    ((List.range 8).foldl (fun t k => t.meetRelease p b k) (s.released p b)).strand p j = s.woken p j := by
  refine State.strand_of_slotAt (n := s.countCore p) (foldl_once (obs := fun t : State => t.slotAt p j) List.nodup_range
    (List.mem_range.2 hj) (fun t k _ hk => State.slotAt_meetRelease_ne hk.symm) fun t ht => ?_)
  have hslot : t.slotAt p j = s.slotAt p j := ht.trans State.slotAt_released
  have hsome := hslot.trans (State.slotAt_of_occupied ho)
  rw [State.meetRelease_waits (State.occupied_of_slotAt hsome) ((State.strand_of_slotAt hsome).symm ▸ hw),
    State.slotAt_wake_self, State.woken_of_slotAt hslot ho, State.countCore_of_slotAt hsome]

/-- A change of a core that is none of its ARR bits. -/
theorem State.barr_modCore {f : Core → Core} (h : (f (s.core p)).barr = (s.core p).barr) :
    ((s.modCore p f).core q).barr = (s.core q).barr := by
  rw [State.core_modCore]
  split
  · next e => rw [h, e]
  · rfl

theorem State.barr_logSettle {kind i st} : ((s.logSettle p kind i st).core q).barr = (s.core q).barr := by
  unfold State.logSettle State.logSet
  dsimp only
  split
  · split <;> exact State.barr_modCore (s := s) (p := p) (f := fun c => { c with crystal := _ }) rfl
  · rfl

theorem State.barr_released : ((s.released p b).core p).barr = (s.core p).barr &&& ~~~(1#17 <<< b) := by
  rw [State.released, State.barr_logSettle, State.core_modCore_self]

/-- The ARR bits of a core are `w`, and none of its strands has still to arrive in the barrier. -/
def State.Arrived (s : State) (p b : Nat) (w : BitVec 17) : Prop :=
  (s.core p).barr = w ∧ ∀ j < 8, ∀ through, (s.strand p j).wait ≠ .barrier b true through

theorem State.Arrived.wake {w} (h : s.Arrived p b w) : (s.wake p k).Arrived p b w := by
  obtain ⟨hbarr, hwait⟩ := h
  refine ⟨(State.barr_modCore rfl).trans hbarr, fun j hj through => ?_⟩
  rw [State.wake, State.modStrand, State.strand_setStrand]
  split
  · exact Wait.noConfusion
  · exact hwait j hj through

theorem State.Arrived.meetRelease {w} (h : s.Arrived p b w) (hk : k < 8) : (s.meetRelease p b k).Arrived p b w := by
  rcases State.meetRelease_of_arrived (h.2 k hk) with e | e
  · rwa [e]
  · rw [e]
    exact h.wake

/-- The bit of the barrier stays clear where no slot has still to arrive (R213). -/
theorem State.release_clears (h : ∀ j < 8, ∀ through, (s.strand p j).wait ≠ .barrier b true through) (hb : b < 17) :
    ((((List.range 8).foldl (fun t k => t.meetRelease p b k) (s.released p b)).core p).barr).getLsbD b = false := by
  have hstart : (s.released p b).Arrived p b ((s.core p).barr &&& ~~~(1#17 <<< b)) := by
    refine ⟨State.barr_released, fun j hj through => ?_⟩
    rw [State.strand_released]
    exact h j hj through
  have hend := List.foldlRecOn (motive := fun t : State => t.Arrived p b ((s.core p).barr &&& ~~~(1#17 <<< b)))
    (List.range 8) (fun t k => t.meetRelease p b k) hstart fun t ht k hk => ht.meetRelease (List.mem_range.1 hk)
  rw [hend.1]
  simp [hb]

/-! ## The other ends of waits -/

theorem execAltDeadline_wakes {ends} (ho : s.occupied s.arg.a s.arg.b = true)
    (hw : (s.strand s.arg.a s.arg.b).wait = .alt ends (some n)) (hn : n ≤ s.now) :
    exec .altDeadline s = .next (s.wake s.arg.a s.arg.b) := by
  refine congrArg Host.Outcome.next ?_
  rw [if_pos ho, hw]
  exact if_pos hn

theorem execWtuTargetReached_wakes (ho : s.occupied s.arg.a s.arg.b = true)
    (hw : (s.strand s.arg.a s.arg.b).wait = .time n) (hn : n ≤ s.now) :
    exec .wtuTargetReached s = .next (s.setStrand s.arg.a s.arg.b { s.strand s.arg.a s.arg.b with
      wait := .ready, readyAt := max ((s.strand s.arg.a s.arg.b).waitStart + 8) (s.countFrom s.arg.a n) }) := by
  refine congrArg Host.Outcome.next ?_
  rw [show (s.core s.arg.a).slots.get? s.arg.b = some (s.strand s.arg.a s.arg.b) from
    congrArg Prod.fst (State.slotAt_of_occupied ho)]
  dsimp only
  rw [hw]
  exact if_pos hn

/-! ## A fence's condition -/

theorem execFenceConditionMet_flag (hf : s.arg.flag = true) :
    exec .fenceConditionMet s = .next (s.pushLanded s.arg.a s.arg.b) := if_pos hf

theorem execFenceConditionMet_idle (hf : s.arg.flag = false)
    (h : s.occupied s.arg.a s.arg.b = false ∨ s.fenceHolds s.arg.a s.arg.b = false) :
    exec .fenceConditionMet s = .next s := by
  refine (if_neg (Bool.eq_false_iff.1 hf)).trans (if_neg ?_)
  rw [Bool.and_eq_true]
  rintro ⟨ho, hh⟩
  rcases h with h | h
  · exact Bool.eq_false_iff.1 h ho
  · exact Bool.eq_false_iff.1 h hh

/-- The state in which slot `k` of core `p` issues an instruction. -/
def State.issuing (s : State) (p k len : Nat) (bits : BitVec 48) : State :=
  { s with cur := { core := p, slot := k, pc := (s.strand p k).pc, len := len, bits := bits, relaxed := false } }

section
variable (hf : s.arg.flag = false) (ho : s.occupied s.arg.a s.arg.b = true)
  (hh : s.fenceHolds s.arg.a s.arg.b = true)
include hf ho hh

theorem execFenceConditionMet_wakes (hw : (s.strand s.arg.a s.arg.b).wait.heldInstr = none) :
    exec .fenceConditionMet s = .next (s.wake s.arg.a s.arg.b) := by
  refine (if_neg (Bool.eq_false_iff.1 hf)).trans ((if_pos (Bool.and_eq_true _ _ ▸ ⟨ho, hh⟩)).trans ?_)
  dsimp only
  rw [hw]

variable {len : Nat} {bits : BitVec 48} (hw : (s.strand s.arg.a s.arg.b).wait.heldInstr = some (len, bits))
include hw

theorem execFenceConditionMet_saving (hr : (s.core s.arg.a).run ≠ .run) :
    exec .fenceConditionMet s = .next (s.queueLooks (blockOf s.arg.a)) := by
  refine (if_neg (Bool.eq_false_iff.1 hf)).trans ((if_pos (Bool.and_eq_true _ _ ▸ ⟨ho, hh⟩)).trans ?_)
  dsimp only
  rw [hw]
  exact if_pos hr

theorem execFenceConditionMet_acts {i : Instr} {u : State} (hi : decodeFetched len bits = some i)
    (hr : (s.core s.arg.a).run = .run)
    (hu : ((s.issuing s.arg.a s.arg.b len bits).modMe (fun y => { y with wait := .ready })).actFenced i = .next u) :
    exec .fenceConditionMet s =
      .next { u.afterFenced s.arg.a s.arg.b (s.strand s.arg.a s.arg.b).waitStart with cur := s.cur } := by
  refine (if_neg (Bool.eq_false_iff.1 hf)).trans ((if_pos (Bool.and_eq_true _ _ ▸ ⟨ho, hh⟩)).trans ?_)
  dsimp only
  rw [hw]
  dsimp only
  rw [if_neg (not_not.2 hr), hi]
  unfold State.issuing at hu
  dsimp only
  rw [hu]

end

end

end Sys2Proof.Machine
end

section
/-! THEOREM. The last reply of a load and a line of the instruction cache end the waits for them; the debug unit (O36). -/

namespace Sys2Proof.Machine

/-! ## The last reply of a load -/

section
variable {s : State} {p k j : Nat} {x : Strand} {n : Nat}

/-- One slot's part of the look at a core's waits (R142, R145). -/
def State.checkWait (s : State) (p k : Nat) : State :=
  if s.occupied p k then
    match (s.strand p k).wait with
    | .relaxed ids => if ids.all (fun i => !s.outstanding p i) then s.wake p k else s
    | .fence _ _ => if s.fenceHolds p k then s.postCore p 0 .fenceConditionMet (args p k) else s
    | .fenceFirst _ _ _ => if s.fenceHolds p k then s.postCore p 0 .fenceConditionMet (args p k) else s
    | _ => s
  else s

theorem State.checkWaits_eq : s.checkWaits p = (List.range 8).foldl (fun t k => t.checkWait p k) s := rfl

/-- A look at one slot leaves another, and one that does not wait. -/
theorem State.slotAt_checkWait (h : j = k → (s.strand p k).wait = .ready) :
    (s.checkWait p k).slotAt p j = s.slotAt p j := by
  unfold State.checkWait
  split
  · split
    · next ids hw =>
      have hne : ¬ (p = p ∧ j = k) := fun e => Wait.noConfusion ((h e.2).symm.trans hw)
      split
      · exact State.slotAt_wake_ne hne
      · rfl
    · split <;> rfl
    · split <;> rfl
    · rfl
  · rfl

/-- A strand that is ready stays as it is when its core's waits are looked at. -/
theorem State.slotAt_checkWaits (h : s.slotAt p k = (some x, n)) (hx : x.wait = .ready) :
    (s.checkWaits p).slotAt p k = (some x, n) := by
  rw [State.checkWaits_eq]
  refine List.foldlRecOn (motive := fun t : State => t.slotAt p k = (some x, n)) _ _ h fun t ht j _ => ?_
  refine (State.slotAt_checkWait fun e => ?_).trans ht
  rw [← e, State.strand_of_slotAt ht, hx]

/-- A register written, the far access gone from its strand. -/
def Strand.loaded (x : Strand) (id : Nat) (d : BitVec 5) (w : Word) : Strand :=
  { x.setReg d (CReg.int w) with far := (x.setReg d (CReg.int w)).far.filter (fun g => g.id != id) }

theorem Strand.reg_loaded {id : Nat} {d r : BitVec 5} {w : Word} :
    (x.loaded id d w).reg r = if r = d ∧ d ≠ 0#5 then CReg.int w else x.reg r :=
  Strand.reg_setReg x d r (CReg.int w)

/-- A loaded register is written, and its strand ready in the next cycle, before the core's waits are looked at. -/
def State.loadEnds (s : State) (p k id : Nat) (d : BitVec 5) (w : Word) : State :=
  ((s.modStrand p k (fun x => x.setReg d (CReg.int w))).modStrand p k
    (fun x => { x with far := x.far.filter (fun g => g.id != id) })).wake p k

theorem State.slotAt_loadEnds {id : Nat} {d : BitVec 5} {w : Word} : (s.loadEnds p k id d w).slotAt p k =
    (some { (s.strand p k).loaded id d w with wait := .ready, readyAt := s.countCore p + 1 }, s.countCore p) := by
  rw [State.loadEnds, State.slotAt_wake_self, State.woken, State.modStrand, State.strand_setStrand_self, State.modStrand,
    State.strand_setStrand_self]
  rfl

variable {f : Far} {b : List Byte} {tag sg : Bool} {d : BitVec 5} {bits : Nat}

theorem State.farDone_scalar (hr : f.refused = none) (hd : f.dest = .scalar d bits sg)
    (hw : (s.strand p k).wait = .far f.id) :
    s.farDone p k f b tag = (s.loadEnds p k f.id d (loadValue (bits / 8) sg b)).checkWaits p := by
  unfold State.farDone State.pushAllowed State.farWrite Strand.pushStream
  rw [hr, hd, hw]
  exact congrArg (fun t : State => t.checkWaits p) (if_pos (beq_self_eq_true (Wait.far f.id)))

/-- The only part of an unrefused scalar load completes it (R313). -/
theorem State.farReply_scalar {id i : Nat} (hf : (s.strand p k).far.find? (fun g => g.id == id) = some f)
    (ho : s.occupied p k = true) (hl : f.left = 1) (hr : f.refused = none) (hd : f.dest = .scalar d bits sg)
    (hw : (s.strand p k).wait = .far id) :
    s.farReply p k id i (.ok b tag) = (s.loadEnds p k id d (loadValue (bits / 8) sg b)).checkWaits p := by
  have hid : f.id = id := by
    have h := List.find?_some hf
    exact eq_of_beq h
  have hpush : ∀ g : Far, g.dest = .scalar d bits sg → s.pushWaits p k g = false := by
    intro g hg
    rw [State.pushWaits, Strand.pushStream, hg]
    rfl
  unfold State.farReply
  rw [hf, ho]
  dsimp only
  rw [if_pos (by rw [hl]), hpush { f with left := f.left - 1, data := f.collect i b } hd, Bool.and_false,
    if_neg Bool.false_ne_true]
  exact hid ▸ State.farDone_scalar (f := { f with left := f.left - 1, data := f.collect i b }) hr hd (hid ▸ hw)

/-- The reply that ends the wait of a scalar load (R142, R187, R313). -/
theorem execFarReplyArrival_scalar {q : Packet} {c id i : Nat} (hq : Table.get? s.packets s.arg.a = some q)
    (hb : q.body = .reply (.strand c k id i) (.ok b tag)) (hk : k < 8) (ho : s.occupied q.phys k = true)
    (hf : (s.strand q.phys k).far.find? (fun g => g.id == id) = some f) (hl : f.left = 1) (hr : f.refused = none)
    (hd : f.dest = .scalar d bits sg) (hw : (s.strand q.phys k).wait = .far id) :
    ∃ t, exec .farReplyArrival s = .next t ∧ t.strand q.phys k =
      { (s.strand q.phys k).loaded id d (loadValue (bits / 8) sg b) with
        wait := .ready, readyAt := s.countCore q.phys + 1 } := by
  refine ⟨((s.dropPacket s.arg.a).loadEnds q.phys k id d (loadValue (bits / 8) sg b)).checkWaits q.phys, ?_,
    State.strand_of_slotAt (State.slotAt_checkWaits State.slotAt_loadEnds rfl)⟩
  refine congrArg Host.Outcome.next ?_
  rw [hq]
  dsimp only
  rw [hb]
  dsimp only
  rw [if_neg (by omega)]
  exact State.farReply_scalar hf ho hl hr hd hw

end

/-! ## A line of the instruction cache -/

section
variable {s : State} {blk line i j : Nat}

/-- The strand of a block's slot `i` goes on if it waits for the line (R437). -/
def State.lineWake (s : State) (blk line i : Nat) : State :=
  if s.occupied (8 * blk + i / 8) (i % 8) && (s.strand (8 * blk + i / 8) (i % 8)).wait == .fetch line then
    s.wake (8 * blk + i / 8) (i % 8)
  else s

/-- The state in which a line of a block is resident. -/
def State.lineCome (s : State) (blk line : Nat) (b : List Byte) : State :=
  s.modBlock blk (fun x => { x with
    fetches := x.fetches.filter (· != line), icache := x.icache.set (line % 1024) { line := line, bytes := b } })

theorem execIcacheLineFill_ok {q : Packet} {b : List Byte} {tag : Bool} (hq : Table.get? s.packets s.arg.a = some q)
    (hb : q.body = .reply (.icache blk line) (.ok b tag)) : exec .icacheLineFill s = .next
      ((List.range 64).foldl (fun t i => t.lineWake blk line i) ((s.dropPacket s.arg.a).lineCome blk line b)) := by
  refine congrArg Host.Outcome.next ?_
  rw [hq]
  dsimp only
  rw [hb]
  rfl

theorem State.block_lineWake {c : Nat} : (s.lineWake blk line i).block c = s.block c := by
  unfold State.lineWake
  split <;> rfl

theorem State.slotAt_lineWake_ne (h : i ≠ j) :
    (s.lineWake blk line i).slotAt (8 * blk + j / 8) (j % 8) = s.slotAt (8 * blk + j / 8) (j % 8) := by
  unfold State.lineWake
  split
  · exact State.slotAt_wake_ne (by omega)
  · rfl

theorem State.lineWake_waits (ho : s.occupied (8 * blk + i / 8) (i % 8) = true)
    (hw : (s.strand (8 * blk + i / 8) (i % 8)).wait = .fetch line) :
    s.lineWake blk line i = s.wake (8 * blk + i / 8) (i % 8) :=
  if_pos (by rw [ho, hw, beq_self_eq_true, Bool.and_self])

/-- The line is resident, and stays so while the strands are made ready (R437). -/
theorem State.cached_lineCome {b : List Byte} : (((List.range 64).foldl (fun t i => t.lineWake blk line i)
    (s.lineCome blk line b)).block blk).cached line = some { line := line, bytes := b } := by
  have hblock := foldl_keeps (f := fun (t : State) i => t.lineWake blk line i) (obs := fun t : State => t.block blk)
    (l := List.range 64) (s := s.lineCome blk line b) fun _ _ _ => State.block_lineWake
  rw [hblock, State.lineCome, State.block_modBlock_self, Block.cached, Table.get?_set_self]
  exact if_pos rfl

/-- A strand that waits for a line is ready when the line has come (R437). -/
theorem State.lineCome_wakes {b : List Byte} (hj : i < 64) (ho : s.occupied (8 * blk + i / 8) (i % 8) = true)
    (hw : (s.strand (8 * blk + i / 8) (i % 8)).wait = .fetch line) :
    ((List.range 64).foldl (fun t i => t.lineWake blk line i) (s.lineCome blk line b)).strand (8 * blk + i / 8) (i % 8) =
      s.woken (8 * blk + i / 8) (i % 8) := by
  refine State.strand_of_slotAt (n := s.countCore (8 * blk + i / 8)) (foldl_once
    (obs := fun t : State => t.slotAt (8 * blk + i / 8) (i % 8)) List.nodup_range (List.mem_range.2 hj)
    (fun t k _ hk => State.slotAt_lineWake_ne hk) fun t ht => ?_)
  have hslot : t.slotAt (8 * blk + i / 8) (i % 8) = s.slotAt (8 * blk + i / 8) (i % 8) := ht
  have hsome := hslot.trans (State.slotAt_of_occupied ho)
  rw [State.lineWake_waits (State.occupied_of_slotAt hsome) ((State.strand_of_slotAt hsome).symm ▸ hw),
    State.slotAt_wake_self, State.woken_of_slotAt hslot ho, State.countCore_of_slotAt hsome]

end

/-! ## The debug unit -/

theorem execDebugHalt_eq {s : State} (ho : s.occupied s.arg.a s.arg.b = true) : exec .debugHalt s =
    .next (s.modStrand s.arg.a s.arg.b (fun x => { x with halt := true, stepOne := false })) :=
  congrArg Host.Outcome.next (if_pos ho)

/-- A halted strand is not ready (R224). -/
theorem Strand.ready_of_halt {x : Strand} (h : x.halt = true) : x.ready = false := by
  rw [Strand.ready, h, Bool.not_true, Bool.and_false]

/-- The strand after a debugger's write of register `n`; nothing where it is refused (R388, log entry 67). -/
def Strand.debugWritten (x : Strand) (n : Nat) (v : BitVec 512) : Option Strand :=
  let w : Word := v.setWidth 64
  if n < 32 then if (x.reg (BitVec.ofNat 5 n)).linear then none else some (x.setReg (BitVec.ofNat 5 n) (CReg.int w))
  else if n < 48 then some (x.setVec (BitVec.ofNat 4 (n - 32)) v)
  else if n < 56 then some { x with e := x.e.set (n - 48) w }
  else if n = 56 then some { x with p := w.setWidth 8 ||| 1#8 }
  else if n = 64 then some { x with pc := w &&& ~~~(1#64), rep := none }
  else if n = 68 ∧ (x.lowestLinear (((List.range 32).filter w.getLsbD).map (BitVec.ofNat 5))).isSome then none
  else some (x.writeCsr (n - 64) w)

section
variable {x : Strand} {n : Nat} {v : BitVec 512}

theorem Strand.debugWritten_linear (hn : n < 32) (hl : (x.reg (BitVec.ofNat 5 n)).linear = true) :
    x.debugWritten n v = none :=
  (if_pos hn).trans (if_pos hl)

theorem Strand.debugWritten_c (hn : n < 32) (hl : (x.reg (BitVec.ofNat 5 n)).linear = false) :
    x.debugWritten n v = some (x.setReg (BitVec.ofNat 5 n) (CReg.int (v.setWidth 64))) :=
  (if_pos hn).trans (if_neg (Bool.eq_false_iff.1 hl))

theorem Strand.debugWritten_v (hn : 32 ≤ n) (hn' : n < 48) :
    x.debugWritten n v = some (x.setVec (BitVec.ofNat 4 (n - 32)) v) :=
  (if_neg (Nat.not_lt.2 hn)).trans (if_pos hn')

theorem Strand.debugWritten_e (hn : 48 ≤ n) (hn' : n < 56) :
    x.debugWritten n v = some { x with e := x.e.set (n - 48) (v.setWidth 64) } := by
  unfold Strand.debugWritten
  rw [if_neg (by omega), if_neg (by omega), if_pos hn']

theorem Strand.debugWritten_p (hn : n = 56) :
    x.debugWritten n v = some { x with p := (v.setWidth 64).setWidth 8 ||| 1#8 } := by
  subst hn
  rfl

theorem Strand.debugWritten_pc (hn : n = 64) :
    x.debugWritten n v = some { x with pc := v.setWidth 64 &&& ~~~(1#64), rep := none } := by
  subst hn
  rfl

/-- A control register is written, but a mask of registers where one of them holds a linear capability (R39). -/
theorem Strand.debugWritten_csr (hn : 64 < n) (h : ¬ (n = 68 ∧ x.lowestLinear
    (((List.range 32).filter (v.setWidth 64).getLsbD).map (BitVec.ofNat 5)) ≠ none)) :
    x.debugWritten n v = some (x.writeCsr (n - 64) (v.setWidth 64)) := by
  unfold Strand.debugWritten
  rw [if_neg (by omega), if_neg (by omega), if_neg (by omega), if_neg (by omega), if_neg (by omega),
    if_neg fun e => h ⟨e.1, Option.isSome_iff_ne_none.1 e.2⟩]

theorem Strand.debugWritten_dmask (hn : n = 68) (h : x.lowestLinear
    (((List.range 32).filter (v.setWidth 64).getLsbD).map (BitVec.ofNat 5)) ≠ none) : x.debugWritten n v = none := by
  subst hn
  exact if_pos ⟨rfl, Option.isSome_iff_ne_none.2 h⟩

end

section
variable {s : State}

theorem execDebugRegisterWrite_running (hh : (s.strand s.arg.a s.arg.b).halt = false) :
    exec .debugRegisterWrite s = .next s := by
  refine congrArg Host.Outcome.next (if_neg ?_)
  rw [hh, Bool.and_false]
  exact Bool.false_ne_true

theorem execDebugRegisterWrite_halted (ho : s.occupied s.arg.a s.arg.b = true)
    (hh : (s.strand s.arg.a s.arg.b).halt = true) :
    exec .debugRegisterWrite s = .next (match (s.strand s.arg.a s.arg.b).debugWritten s.arg.c s.arg.x with
      | some y => s.setStrand s.arg.a s.arg.b y
      | none => s) := by
  refine congrArg Host.Outcome.next ((if_pos (by rw [ho, hh, Bool.and_self])).trans ?_)
  unfold Strand.debugWritten
  dsimp only
  split_ifs <;> rfl

section
variable (ho : s.occupied s.arg.a s.arg.b = true) (hh : (s.strand s.arg.a s.arg.b).halt = true)
include ho hh

theorem execDebugRegisterWrite_puts {y : Strand} (h : (s.strand s.arg.a s.arg.b).debugWritten s.arg.c s.arg.x = some y) :
    exec .debugRegisterWrite s = .next (s.setStrand s.arg.a s.arg.b y) := by
  rw [execDebugRegisterWrite_halted ho hh, h]

theorem execDebugRegisterWrite_refuses (h : (s.strand s.arg.a s.arg.b).debugWritten s.arg.c s.arg.x = none) :
    exec .debugRegisterWrite s = .next s := by
  rw [execDebugRegisterWrite_halted ho hh, h]

end

end

end Sys2Proof.Machine
end

section
/-! THEOREM. The ends of waits and the debug unit (O36). -/

namespace Sys2Proof.Machine

/-- Settles O36, from one lemma per event that ends a wait, and the table of the debugger's registers. -/
theorem waitsEndAndDebug : Obligations.WaitsEndAndDebug := by
  refine ⟨?_, ?_⟩
  · intro s p k x ready
    refine ⟨fun hf => ⟨execFenceConditionMet_idle hf, fun ho hh => ⟨?_, ?_⟩⟩, execFenceConditionMet_flag, ?_, ?_, ?_, ?_, ?_⟩
    · intro kind ids hw
      exact ⟨_, execFenceConditionMet_wakes hf ho hh (congrArg Wait.heldInstr hw), State.strand_wake⟩
    · intro len bits i hw hi
      have hheld : x.wait.heldInstr = some (len, bits) := by
        rcases hw with hw | ⟨ids, hw⟩ <;> rw [hw] <;> rfl
      exact ⟨execFenceConditionMet_saving hf ho hh hheld, fun hr u => execFenceConditionMet_acts hf ho hh hheld hi hr⟩
    · intro ends n ho hw hn
      exact ⟨_, execAltDeadline_wakes ho hw hn, State.strand_wake⟩
    · intro n ho hw hn
      exact ⟨_, execWtuTargetReached_wakes ho hw hn, State.strand_setStrand_self ..⟩
    · exact ⟨_, execBarrierRelease_eq, fun j hj thr => State.release_wakes hj, State.release_clears⟩
    · intro q f c j id i b tag d bits sg hq hb hj ho hf hl hr _ hd hw
      obtain ⟨t, ht, hstrand⟩ := execFarReplyArrival_scalar hq hb hj ho hf hl hr hd hw
      refine ⟨t, ht, ?_⟩
      rw [hstrand]
      exact ⟨rfl, rfl, fun r => Strand.reg_loaded (id := id)⟩
    · intro q blk line b tag hq hb
      refine ⟨_, execIcacheLineFill_ok hq hb, State.cached_lineCome, fun l hl j hj ho hw => ?_⟩
      have hslot : (8 * l + j) / 8 = l ∧ (8 * l + j) % 8 = j := by omega
      have hwoken := State.lineCome_wakes (s := s.dropPacket s.arg.a) (blk := blk) (line := line) (i := 8 * l + j) (b := b)
        (by omega)
      rw [hslot.1, hslot.2] at hwoken
      exact hwoken ho hw
  · intro s p k n x w put ho
    refine ⟨⟨_, execDebugHalt_eq ho, State.strand_setStrand_self .., ?_⟩, execDebugRegisterWrite_running, fun hh => ?_⟩
    · rw [State.modStrand, State.strand_setStrand_self]
      exact Strand.ready_of_halt rfl
    have hput : ∀ y, x.debugWritten n s.arg.x = some y → put y := fun y => execDebugRegisterWrite_puts ho hh
    have hrefused : x.debugWritten n s.arg.x = none → exec .debugRegisterWrite s = .next s :=
      execDebugRegisterWrite_refuses ho hh
    refine ⟨fun hn hl => hrefused (Strand.debugWritten_linear hn hl), fun hn hl => hput _ (Strand.debugWritten_c hn hl),
      fun hn hn' => hput _ (Strand.debugWritten_v hn hn'), fun hn hn' => hput _ (Strand.debugWritten_e hn hn'),
      fun hn => hput _ (Strand.debugWritten_p hn), fun hn => hput _ (Strand.debugWritten_pc hn),
      fun hn hn' => hput _ (Strand.debugWritten_csr hn fun e => absurd e.1 hn'), fun hn => ⟨fun hl => ?_, fun hl => ?_⟩⟩
    · have h := hput _ (Strand.debugWritten_csr (show 64 < n by omega) fun e => absurd hl e.2)
      rwa [hn] at h
    · exact hrefused (Strand.debugWritten_dmask hn hl)

end Sys2Proof.Machine
end

section
/-! SUPPORT. What a slice's events leave of its state, of HBM and of the next number: answers, arming, and the charge of a
meter (O40). -/

namespace Sys2Proof.Machine

section
variable {s t u : State} {n m : Nat} {r : Request} {c : BitVec 6} {placed : Bool} {x : Result} {after : Nat}

/-! ## What leaves the slices -/

/-- The slices, HBM and the next number are the same. -/
def State.KeepsSlices (s t : State) : Prop := t.slices = s.slices ∧ t.hbm = s.hbm ∧ t.nextId = s.nextId

theorem State.KeepsSlices.refl : s.KeepsSlices s := ⟨rfl, rfl, rfl⟩

theorem State.KeepsSlices.slice (h : s.KeepsSlices t) : t.slice n = s.slice n := State.slice_of_slices h.1

theorem State.KeepsSlices.hbm (h : s.KeepsSlices t) : t.hbm = s.hbm := h.2.1

theorem State.KeepsSlices.nextId (h : s.KeepsSlices t) : t.nextId = s.nextId := h.2.2

/-- A slice as it was set. -/
theorem State.slice_of_set {y : Slice} (h : t.slices = s.slices.set n y) : t.slice n = y := by
  rw [State.slice, h, Table.getD_set_self]

theorem State.keepsSlices_noteRefusal : s.KeepsSlices (s.noteRefusal r c) := by
  unfold State.noteRefusal
  split <;> exact ⟨rfl, rfl, rfl⟩

theorem State.keepsSlices_chargeLines : s.KeepsSlices (s.chargeLines r) := by
  unfold State.chargeLines State.chargeOwner
  split <;> exact ⟨rfl, rfl, rfl⟩

theorem State.keepsSlices_sealWaits : s.KeepsSlices (s.sealWaits n) := by
  unfold State.sealWaits
  refine List.foldlRecOn (motive := fun t : State => s.KeepsSlices t) _ _ .refl fun t ht p _ => ?_
  split
  · split <;> exact ht
  · exact ht

/-! ## Answers -/

/-- An answer stands among those that leave the slice, under the next number (R312). -/
theorem State.slice_sliceAnswer : (s.sliceAnswer n placed r x after).slice n =
    { s.slice n with outs := (s.slice n).outs.set s.nextId { req := r, result := x, placed := placed } } := by
  unfold State.sliceAnswer
  cases x with
  | ok b tag => exact State.slice_of_set (s := s) rfl
  | nack c =>
    have hkeep := State.keepsSlices_noteRefusal (s := s) (r := r) (c := c)
    rw [← hkeep.slice, ← hkeep.nextId]
    exact State.slice_of_set (s := s.noteRefusal r c) rfl

theorem State.hbm_sliceAnswer : (s.sliceAnswer n placed r x after).hbm = s.hbm := by
  unfold State.sliceAnswer
  cases x with
  | ok b tag => rfl
  | nack c => exact State.keepsSlices_noteRefusal.hbm

theorem State.nextId_sliceAnswer : (s.sliceAnswer n placed r x after).nextId = s.nextId + 1 := by
  unfold State.sliceAnswer
  cases x with
  | ok b tag => rfl
  | nack c => exact congrArg (· + 1) State.keepsSlices_noteRefusal.nextId

/-! ## Rounds on the agenda -/

/-- A slice that is armed differs in that alone. -/
theorem State.slice_armSlice : ∃ b, (s.armSlice n).slice n = { s.slice n with armed := b } := by
  unfold State.armSlice
  split
  · exact ⟨(s.slice n).armed, rfl⟩
  · exact ⟨true, State.slice_of_set (s := s) rfl⟩

theorem State.hbm_armSlice : (s.armSlice n).hbm = s.hbm := by
  unfold State.armSlice
  split <;> rfl

/-- The end of a round leaves a slice but for the next one on the agenda (R310, R311). -/
theorem State.slice_rearm : ∃ b, (s.rearm n).slice n = { s.slice n with armed := b } := by
  have hoff : (s.modSlice n (fun x => { x with armed := false })).slice n = { s.slice n with armed := false } :=
    State.slice_modSlice_self ..
  unfold State.rearm
  dsimp only
  split
  · exact ⟨false, hoff⟩
  · obtain ⟨b, hb⟩ := State.slice_armSlice (s := s.modSlice n (fun x => { x with armed := false })) (n := n)
    exact ⟨b, hb.trans (by rw [hoff])⟩

theorem State.hbm_rearm : (s.rearm n).hbm = s.hbm := by
  unfold State.rearm
  dsimp only
  split
  · rfl
  · exact State.hbm_armSlice

end

/-! ## Replies -/

section
variable {s : State} {o : SliceOut}

/-- A reply leaves the slice for the one that asked, but the host (R312, R313). -/
theorem execSliceReply_sends (ho : Table.get? (s.slice s.arg.a).outs s.arg.b = some o) (hw : o.req.who ≠ .host) :
    exec .sliceReply s = .next ((s.modSlice s.arg.a (fun y => { y with outs := y.outs.erase s.arg.b })).sendSlice s.arg.a true
      o.req.part o.req.lcn 1 (.reply o.req.who o.result) 0) := by
  refine congrArg Host.Outcome.next ?_
  rw [ho]
  dsimp only
  split
  · next h => exact absurd h hw
  · rfl

end

end Sys2Proof.Machine
end

section
/-! THEOREM. The rounds of a slice: what an active round places, and what fallow and refresh rounds leave (O40). -/

namespace Sys2Proof.Machine

/-! ## Rounds that place nothing -/

section
variable {s : State} {n k j : Nat} {r : Request}

theorem execRound_places_nothing {i : Instr} (hi : i ∈ [Instr.fallowRound, .refreshRound]) :
    ∃ t, exec i s = .next t ∧ (t.slice s.arg.a).queue = (s.slice s.arg.a).queue ∧
      (t.slice s.arg.a).placed = (s.slice s.arg.a).placed ∧ t.hbm = s.hbm := by
  obtain ⟨b, hb⟩ := State.slice_rearm (s := s) (n := s.arg.a)
  have hexec : exec i s = .next (s.rearm s.arg.a) := by
    simp only [List.mem_cons, List.not_mem_nil, or_false] at hi
    rcases hi with rfl | rfl <;> rfl
  exact ⟨_, hexec, by rw [hb], by rw [hb], State.hbm_rearm⟩

/-! ## An active round -/

/-- A round that is not claimed begins the pattern test that is due (R418). -/
theorem execActiveRoundStart_test (hc : (s.slice s.arg.a).claimed (s.count (s.sliceDom s.arg.a) / 64) = false)
    (ht : (s.slice s.arg.a).testDue = true) (hh : (s.slice s.arg.a).isHeld = true) :
    exec .activeRoundStart s = .next ((s.startTest s.arg.a (s.count (s.sliceDom s.arg.a) / 64)).rearm s.arg.a) := by
  refine congrArg (fun t : State => Host.Outcome.next (t.rearm s.arg.a)) ?_
  rw [hc, ht, hh]
  rfl

theorem State.slice_startTest : ∃ row cs, (s.startTest n k).slice n = { s.slice n with
    testRow := row, pending := some ((s.slice n).writeRow.testResult n), claims := cs } :=
  ⟨_, _, State.slice_of_set (s := s) rfl⟩

/-- Otherwise it places what waits (R311). -/
theorem execActiveRoundStart_places (hc : (s.slice s.arg.a).claimed (s.count (s.sliceDom s.arg.a) / 64) = false)
    (ht : ((s.slice s.arg.a).testDue && (s.slice s.arg.a).isHeld) = false) (hw : (s.slice s.arg.a).waits = false) :
    exec .activeRoundStart s = .next (((s.placeAll s.arg.a (s.count (s.sliceDom s.arg.a) / 64)
      ((s.slice s.arg.a).queue.length + 1) (((s.slice s.arg.a).reserved.filter
        (fun r => r.1 == s.count (s.sliceDom s.arg.a) / 64)).map (·.2)) [] (s.slice s.arg.a).queue).sealWaits
      s.arg.a).rearm s.arg.a) := by
  refine congrArg (fun t : State => Host.Outcome.next (t.rearm s.arg.a)) ?_
  rw [hc, ht, hw]
  rfl

/-- A request alone in its group is placed under the next number (R311, R312). -/
theorem State.slice_placeGroup_one : ∃ ls rs, (s.placeGroup n k j [r]).slice n = { s.slice n with
    placed := (s.slice n).placed.set s.nextId { req := r, perform := 64 * k + 4 * j, member := 0, width := r.kind.width }
    lines := ls, reserved := rs } :=
  ⟨_, _, State.slice_of_set (s := s) rfl⟩

theorem takeGroup_nil {ok : Request → Bool} {lead : Request} {fuel : Nat} {taken older : List Request} :
    takeGroup ok lead fuel taken older [] = (taken, older) := by
  unfold takeGroup
  rfl

theorem Slice.firstSlot_eq_zero {x : Slice} (h : ∀ p ∈ x.placed, p.2.perform / 64 ≠ k) : x.firstSlot k r = 0 := by
  unfold Slice.firstSlot
  split
  · refine List.foldlRecOn (motive := fun m => m = 0) _ _ rfl fun m hm p hp => ?_
    rw [if_neg, hm]
    rw [Bool.and_eq_true, beq_iff_eq]
    exact fun e => h p hp e.2
  · rfl

/-- With no slot in use the lowest is free. -/
theorem freeSlots_nil (kind : ReqKind) : freeSlots [] kind.width = some 0 := by
  have hwidth : kind.width = 1 ∨ kind.width = 3 := by
    unfold ReqKind.width
    split
    · split
      · exact .inr rfl
      · exact .inl rfl
    · exact .inl rfl
  rcases hwidth with h | h <;> rw [h] <;> decide

/-- A lone request that waits, in a round that nothing holds, is placed in the round's first slot (R311). -/
theorem State.placeAll_one (hw : r.walking = false) (hu : r.unchecked = false) (ha : r.arrived < 64 * k)
    (hl : ∀ e ∈ (s.slice n).lines, e.1 ∉ r.lines) (hc : r.kind.reserves = true → (s.slice n).claimed (k + 2) = false)
    (hp : ∀ p ∈ (s.slice n).placed, p.2.perform / 64 ≠ k) :
    s.placeAll n k 2 [] [] [r] = (s.placeGroup n k 0 [r]).modSlice n (fun x => { x with queue := [] }) := by
  have hheld : (r.lines.any fun l => (s.slice n).lines.any fun e => e.1 == l) = false := by
    rw [List.any_eq_false]
    intro l hlr
    rw [Bool.not_eq_true, List.any_eq_false]
    intro e he hel
    exact hl e he (eq_of_beq hel ▸ hlr)
  have hbehind : r.behind [] = false := by rw [Request.behind, List.any_nil, Bool.and_false]
  unfold State.placeAll
  refine (if_neg ?_).trans ?_
  · simp [hw, hu, ha, hheld, hbehind]
  rw [Slice.firstSlot_eq_zero hp, show List.range 0 ++ [] = ([] : List Nat) from rfl, freeSlots_nil]
  dsimp only
  split
  · next hres =>
    rw [hc hres, if_neg Bool.false_ne_true]
    rfl
  · rw [takeGroup_nil]
    rfl

end

section
variable {s : State} {r : Request}

/-- A lone request that waits is placed under the next number (R311, R312). -/
theorem execActiveRoundStart_one {n k : Nat} (hn : s.arg.a = n) (hk : s.count (s.sliceDom n) / 64 = k)
    (hq : (s.slice n).queue = [r]) (hw : r.walking = false) (hu : r.unchecked = false) (ha : r.arrived < 64 * k)
    (hl : ∀ e ∈ (s.slice n).lines, e.1 ∉ r.lines) (hc : (s.slice n).claimed k = false)
    (hc' : r.kind.reserves = true → (s.slice n).claimed (k + 2) = false) (hwait : (s.slice n).waits = false)
    (ht : ((s.slice n).testDue && (s.slice n).isHeld) = false) (hr : ∀ e ∈ (s.slice n).reserved, e.1 ≠ k)
    (hp : ∀ p ∈ (s.slice n).placed, p.2.perform / 64 ≠ k) :
    ∃ t, exec .activeRoundStart s = .next t ∧ (t.slice n).queue = [] ∧ Table.get? (t.slice n).placed s.nextId =
      some { req := r, perform := 64 * k, member := 0, width := r.kind.width } := by
  subst hn hk
  have hused : (s.slice s.arg.a).reserved.filter (fun r => r.1 == s.count (s.sliceDom s.arg.a) / 64) = [] := by
    rw [List.filter_eq_nil_iff]
    exact fun e he h => hr e he (eq_of_beq h)
  refine ⟨_, execActiveRoundStart_places hc ht hwait, ?_⟩
  rw [hq, hused, List.map_nil, show [r].length + 1 = 2 from rfl, State.placeAll_one hw hu ha hl hc' hp]
  obtain ⟨ls, rs, hplaced⟩ := State.slice_placeGroup_one (s := s) (n := s.arg.a) (r := r) (j := 0)
    (k := s.count (s.sliceDom s.arg.a) / 64)
  obtain ⟨b, hslice⟩ := State.slice_rearm (n := s.arg.a) (s := ((s.placeGroup s.arg.a
    (s.count (s.sliceDom s.arg.a) / 64) 0 [r]).modSlice s.arg.a (fun x => { x with queue := [] })).sealWaits s.arg.a)
  rw [State.keepsSlices_sealWaits.slice, State.slice_modSlice_self, hplaced] at hslice
  rw [hslice]
  exact ⟨rfl, Table.get?_set_self ..⟩

/-- The test that is due begins, and the queue waits (R418). -/
theorem execActiveRoundStart_begins_test (hc : (s.slice s.arg.a).claimed (s.count (s.sliceDom s.arg.a) / 64) = false)
    (ht : (s.slice s.arg.a).testDue = true) (hh : (s.slice s.arg.a).isHeld = true) :
    ∃ t, exec .activeRoundStart s = .next t ∧
      (t.slice s.arg.a).pending = some ((s.slice s.arg.a).writeRow.testResult s.arg.a) ∧
      (t.slice s.arg.a).queue = (s.slice s.arg.a).queue := by
  obtain ⟨row, cs, hstart⟩ := State.slice_startTest (s := s) (n := s.arg.a) (k := s.count (s.sliceDom s.arg.a) / 64)
  obtain ⟨b, hslice⟩ := State.slice_rearm (n := s.arg.a)
    (s := s.startTest s.arg.a (s.count (s.sliceDom s.arg.a) / 64))
  rw [hstart] at hslice
  refine ⟨_, execActiveRoundStart_test hc ht hh, ?_⟩
  rw [hslice]
  exact ⟨rfl, rfl⟩

end

end Sys2Proof.Machine
end

section
/-! THEOREM. Performance points at a slice, and reserved writes (O40). -/

namespace Sys2Proof.Machine

/-! ## Reads and writes -/

section
variable {s : State} {p : Placed}

/-- The state in which the request of a performance point leaves its slot. -/
def State.vacated (s : State) (n id : Nat) : State := s.modSlice n (fun x => { x with placed := x.placed.erase id })

variable (hp : Table.get? (s.slice s.arg.a).placed s.arg.b = some p)
include hp

/-- A read that takes no tag answers the bytes (R312). -/
theorem execSlotPerform_read {m : Nat} (hk : p.req.kind = .read m false false) : exec .slotPerform s =
    .next (((s.chargeLines p.req).vacated s.arg.a s.arg.b).sliceAnswer s.arg.a true p.req
      (.ok (s.hbm.readN (hbmKey s.arg.a p.req.frame) p.req.kind.bytes) false) (112 + p.member)) := by
  refine congrArg Host.Outcome.next ?_
  rw [hp]
  dsimp only
  rw [hk]
  rfl

/-- A write to a pan that is not frozen has written its bytes (R312). -/
theorem execSlotPerform_write {b : List Byte} {tag : Bool} (hk : p.req.kind = .write b tag)
    (ha : s.abandoned p.req = false) (hf : (s.slice s.arg.a).frozen p.req = false) :
    ∃ u : State, u.nextId = s.nextId ∧ u.hbm = s.hbm.writeN (hbmKey s.arg.a p.req.frame) b ∧
      exec .slotPerform s = .next ((u.vacated s.arg.a s.arg.b).sliceAnswer s.arg.a true p.req (.ok [] false)
        (48 + p.member)) := by
  have hexec : exec .slotPerform s = .next ((((if tag then { s.hbmWrite (hbmKey s.arg.a p.req.frame) b with
      hbmTags := NatSet.insert (s.hbmWrite (hbmKey s.arg.a p.req.frame) b).hbmTags (hbmKey s.arg.a p.req.frame / 16) }
      else s.hbmWrite (hbmKey s.arg.a p.req.frame) b).chargeLines p.req).vacated s.arg.a s.arg.b).sliceAnswer s.arg.a true
      p.req (.ok [] false) (48 + p.member)) := by
    refine congrArg Host.Outcome.next ?_
    rw [hp]
    dsimp only
    rw [hk]
    dsimp only
    rw [hf, if_neg Bool.false_ne_true, ha]
    rfl
  refine ⟨_, ?_, ?_, hexec⟩
  · rw [State.keepsSlices_chargeLines.nextId]
    split <;> rfl
  · rw [State.keepsSlices_chargeLines.hbm]
    split <;> rfl

/-- A write to a frozen pan is refused (R324, log entry 106). -/
theorem execSlotPerform_write_frozen {b : List Byte} {tag : Bool} (hk : p.req.kind = .write b tag)
    (hf : (s.slice s.arg.a).frozen p.req = true) : exec .slotPerform s =
      .next ((s.vacated s.arg.a s.arg.b).sliceAnswer s.arg.a true p.req (.nack 0x06#6) (48 + p.member)) := by
  refine congrArg Host.Outcome.next ?_
  rw [hp]
  dsimp only
  rw [hk]
  exact if_pos hf

end

/-! ## Reservations -/

/-- What a reservation answers: the bytes read, but for a contribution (R146, R149). -/
def ReqKind.answer (k : ReqKind) (old : List Byte) : Result :=
  .ok (match k with | .contribute _ _ => [] | _ => old) false

/-- The slice once a reservation holds the bytes that it will write; a contribution's mark has moved (R147, R150). -/
def Slice.reserving (x : Slice) (id : Nat) (r : Request) (b : List Byte) : Slice :=
  let y := { x with held := x.held.set id b }
  match r.kind, x.panAt r.va with
  | .contribute _ q, some (_, e) => y.setMark e.basep (r.lcn * 8 + r.slot) q
  | _, _ => y

/-- A reservation at its performance point: refused where its pan is frozen, without effect where it is repeated or writes
nothing, refused where the record breaks its layout, and else its bytes are held (R146 to R152, R324). -/
def State.reserve (s : State) (n id : Nat) (x : Slice) (p : Placed) (old : List Byte) : State :=
  let reply := 4 * (p.width - 1) + 176
  if x.frozen p.req then s.sliceAnswer n true p.req (.nack 0x06#6) reply
  else if x.repeated p.req || !p.req.kind.writes old then s.sliceAnswer n true p.req (p.req.kind.answer old) reply
  else
    match reserveWrite p.req.kind old with
    | none => (s.modSlice n (fun x => x.dropMark p.req)).sliceAnswer n true p.req (.nack 0x06#6) reply
    | some b => (s.modSlice n (fun y => y.reserving id p.req b)).sliceAnswer n true p.req (p.req.kind.answer old) reply

section
variable {s : State} {p : Placed} {n id : Nat} {x : Slice} {old : List Byte}

theorem execSlotPerform_reserve (hp : Table.get? (s.slice s.arg.a).placed s.arg.b = some p)
    (hk : p.req.kind.reserves = true) {u : State} (hu : (s.chargeLines p.req).reserve s.arg.a s.arg.b (s.slice s.arg.a) p
      (s.hbm.readN (hbmKey s.arg.a p.req.frame) p.req.kind.bytes) = u) :
    ∃ t, exec .slotPerform s = .next t ∧ t.slice s.arg.a = u.slice s.arg.a ∧ t.hbm = u.hbm := by
  subst hu
  refine ⟨State.post _ (s.sliceDom s.arg.a) 128 .reservedWrite (args s.arg.a s.arg.b), congrArg Host.Outcome.next ?_, rfl, rfl⟩
  rw [hp]
  unfold State.reserve Slice.reserving ReqKind.answer
  dsimp only
  cases hkind : p.req.kind with
  | read => rw [hkind] at hk; cases hk
  | write => rw [hkind] at hk; cases hk
  | amo => rfl
  | vamo => rfl
  | contribute => rfl

end

/-- The answer `v` to request `r` stands under number `id` among those that leave the slice, its request placed. -/
def Slice.Answers (x : Slice) (id : Nat) (r : Request) (v : Result) : Prop :=
  Table.get? x.outs id = some { req := r, result := v, placed := true }

section
variable {s t : State} {p : Placed} {n id after : Nat} {r : Request} {v : Result} {b old : List Byte}

theorem State.answers_sliceAnswer : ((s.sliceAnswer n true r v after).slice n).Answers s.nextId r v := by
  rw [Slice.Answers, State.slice_sliceAnswer]
  exact Table.get?_set_self ..

/-- In a state that differs from `s` in nothing of the slices an answer changes nothing else of its slice. -/
theorem State.KeepsSlices.answered (h : s.KeepsSlices t) :
    ((t.sliceAnswer n true r v after).slice n).held = (s.slice n).held ∧
      ((t.sliceAnswer n true r v after).slice n).marks = (s.slice n).marks ∧
      ((t.sliceAnswer n true r v after).slice n).Answers s.nextId r v := by
  refine ⟨?_, ?_, h.nextId ▸ State.answers_sliceAnswer⟩
  all_goals
    rw [State.slice_sliceAnswer, h.slice]

theorem Slice.held_dropMark (x : Slice) : (x.dropMark r).held = x.held := by
  unfold Slice.dropMark
  split
  · dsimp only
    split <;> rfl
  · rfl

theorem Slice.held_reserving (x : Slice) : (x.reserving id r b).held = x.held.set id b := by
  unfold Slice.reserving
  dsimp only
  split <;> rfl

section
variable (hp : Table.get? (s.slice s.arg.a).placed s.arg.b = some p) (hk : p.req.kind.reserves = true)
include hp hk

/-- A reservation of a frozen pan is refused (R324, log entry 106). -/
theorem execSlotPerform_reserve_frozen (hf : (s.slice s.arg.a).frozen p.req = true) :
    ∃ t, exec .slotPerform s = .next t ∧ t.hbm = s.hbm ∧ (t.slice s.arg.a).held = (s.slice s.arg.a).held ∧
      (t.slice s.arg.a).Answers s.nextId p.req (.nack 0x06#6) := by
  have hkeep := State.keepsSlices_chargeLines (s := s) (r := p.req)
  obtain ⟨t, ht, hslice, hhbm⟩ := execSlotPerform_reserve hp hk (if_pos hf)
  obtain ⟨hheld, -, hans⟩ := hslice ▸ hkeep.answered
  exact ⟨t, ht, hhbm.trans (State.hbm_sliceAnswer.trans hkeep.hbm), hheld, hans⟩

section
variable (hf : (s.slice s.arg.a).frozen p.req = false)
  (ho : s.hbm.readN (hbmKey s.arg.a p.req.frame) p.req.kind.bytes = old)
include hf ho

/-- One that is repeated, or that writes nothing, answers alone (R146, R150). -/
theorem execSlotPerform_reserve_idle (hr : ((s.slice s.arg.a).repeated p.req || !p.req.kind.writes old) = true) :
    ∃ t, exec .slotPerform s = .next t ∧ t.hbm = s.hbm ∧ (t.slice s.arg.a).held = (s.slice s.arg.a).held ∧
      (t.slice s.arg.a).marks = (s.slice s.arg.a).marks ∧
      (t.slice s.arg.a).Answers s.nextId p.req (p.req.kind.answer old) := by
  have hkeep := State.keepsSlices_chargeLines (s := s) (r := p.req)
  subst ho
  obtain ⟨t, ht, hslice, hhbm⟩ := execSlotPerform_reserve hp hk ((if_neg (Bool.eq_false_iff.1 hf)).trans (if_pos hr))
  exact ⟨t, ht, hhbm.trans (State.hbm_sliceAnswer.trans hkeep.hbm), hslice ▸ hkeep.answered⟩

variable (hr : ((s.slice s.arg.a).repeated p.req || !p.req.kind.writes old) = false)
include hr

/-- One whose record breaks its layout is refused (R152). -/
theorem execSlotPerform_reserve_refused (hb : reserveWrite p.req.kind old = none) :
    ∃ t, exec .slotPerform s = .next t ∧ t.hbm = s.hbm ∧ (t.slice s.arg.a).held = (s.slice s.arg.a).held ∧
      (t.slice s.arg.a).Answers s.nextId p.req (.nack 0x06#6) := by
  have hkeep := State.keepsSlices_chargeLines (s := s) (r := p.req)
  subst ho
  obtain ⟨t, ht, hslice, hhbm⟩ := execSlotPerform_reserve hp hk ((if_neg (Bool.eq_false_iff.1 hf)).trans
    ((if_neg (Bool.eq_false_iff.1 hr)).trans (by rw [hb])))
  refine ⟨t, ht, hhbm.trans (State.hbm_sliceAnswer.trans hkeep.hbm), ?_, hslice ▸ hkeep.nextId ▸ State.answers_sliceAnswer⟩
  rw [hslice, State.slice_sliceAnswer, State.slice_modSlice_self, hkeep.slice]
  exact Slice.held_dropMark _

/-- Any other holds the bytes that it writes in its reserved slot (R147). -/
theorem execSlotPerform_reserve_holds (hb : reserveWrite p.req.kind old = some b) :
    ∃ t, exec .slotPerform s = .next t ∧ t.hbm = s.hbm ∧
      (∃ o, t.slice s.arg.a = { (s.slice s.arg.a).reserving s.arg.b p.req b with outs := o }) ∧
      (t.slice s.arg.a).Answers s.nextId p.req (p.req.kind.answer old) := by
  have hkeep := State.keepsSlices_chargeLines (s := s) (r := p.req)
  subst ho
  obtain ⟨t, ht, hslice, hhbm⟩ := execSlotPerform_reserve hp hk ((if_neg (Bool.eq_false_iff.1 hf)).trans
    ((if_neg (Bool.eq_false_iff.1 hr)).trans (by rw [hb])))
  dsimp only at hslice
  have hans : (t.slice s.arg.a).Answers s.nextId p.req
      (p.req.kind.answer (s.hbm.readN (hbmKey s.arg.a p.req.frame) p.req.kind.bytes)) :=
    hslice ▸ hkeep.nextId ▸ State.answers_sliceAnswer
  rw [State.slice_sliceAnswer, State.slice_modSlice_self, hkeep.slice] at hslice
  exact ⟨t, ht, hhbm.trans (State.hbm_sliceAnswer.trans hkeep.hbm), ⟨_, hslice⟩, hans⟩

end

end

end

/-! ## The requests by kind -/

section
variable {s : State} {p : Placed} {b old : List Byte}

/-- After a contribution its contributor's mark is its sequence number (R150). -/
theorem Slice.mark_setMark (x : Slice) (base who : Nat) (w : Word) : (x.setMark base who w).mark base who = some w := by
  have hnone : (x.marks.filter (fun m => !(m.1 == base && m.2.1 == who))).find? (fun m => m.1 == base && m.2.1 == who) =
      none := by
    rw [List.find?_eq_none]
    intro m hm
    have hout := (List.mem_filter.1 hm).2
    rw [Bool.not_eq_true'] at hout
    exact Bool.eq_false_iff.1 hout
  rw [Slice.mark, Slice.setMark, List.find?_append, hnone]
  simp

theorem Slice.mark_reserving {x : Slice} {id i : Nat} {r : Request} {e : PanEntry} {c : Contribution} {w : Word}
    (hk : r.kind = .contribute c w) (he : x.panAt r.va = some (i, e)) :
    (x.reserving id r b).mark e.basep (r.lcn * 8 + r.slot) = some w := by
  unfold Slice.reserving
  rw [hk, he]
  exact Slice.mark_setMark ..

/-- The slice after a reserved write: the request has left its slot, its lines and its rounds (R147). -/
def Slice.released (x : Slice) (id : Nat) (p : Placed) : Slice :=
  { x with
    placed := x.placed.erase id, held := x.held.erase id, lines := x.lines.filter (fun l => l.2 != id)
    reserved := x.reserved.filter (fun r =>
      !(r.1 == p.perform / 64 + 2 && decide (p.perform % 64 / 4 ≤ r.2) && decide (r.2 < p.perform % 64 / 4 + p.width))) }

theorem Slice.released_clear (x : Slice) (id : Nat) (p : Placed) :
    Table.get? (x.released id p).placed id = none ∧ ∀ l ∈ (x.released id p).lines, l.2 ≠ id :=
  ⟨Table.get?_erase_self .., fun l hl => by simpa using (List.mem_filter.1 hl).2⟩

section
variable (hp : Table.get? (s.slice s.arg.a).placed s.arg.b = some p)
include hp

/-- A read answers its bytes and is placed no longer (R312). -/
theorem slotPerform_read {m : Nat} (hk : p.req.kind = .read m false false) :
    ∃ t, exec .slotPerform s = .next t ∧ t.hbm = s.hbm ∧ Table.get? (t.slice s.arg.a).placed s.arg.b = none ∧
      (t.slice s.arg.a).Answers s.nextId p.req
        (.ok (s.hbm.readN (hbmKey s.arg.a p.req.frame) p.req.kind.bytes) false) := by
  have hkeep := State.keepsSlices_chargeLines (s := s) (r := p.req)
  refine ⟨_, execSlotPerform_read hp hk, State.hbm_sliceAnswer.trans hkeep.hbm, ?_, ?_⟩
  · rw [State.slice_sliceAnswer, State.vacated, State.slice_modSlice_self]
    exact Table.get?_erase_self ..
  · exact hkeep.nextId ▸ State.answers_sliceAnswer

/-- A write's bytes stand in HBM, and no others have changed (R312). -/
theorem slotPerform_write {tag : Bool} (hk : p.req.kind = .write b tag) (hwf : s.hbm.wf = true)
    (ha : s.abandoned p.req = false) (hf : (s.slice s.arg.a).frozen p.req = false) :
    ∃ t, exec .slotPerform s = .next t ∧ t.hbm.readN (hbmKey s.arg.a p.req.frame) b.length = b ∧
      (∀ a, a < hbmKey s.arg.a p.req.frame ∨ hbmKey s.arg.a p.req.frame + b.length ≤ a → t.hbm.read a = s.hbm.read a) ∧
      (t.slice s.arg.a).Answers s.nextId p.req (.ok [] false) := by
  obtain ⟨u, hid, hhbm, hexec⟩ := execSlotPerform_write hp hk ha hf
  refine ⟨_, hexec, ?_, ?_, hid ▸ State.answers_sliceAnswer⟩
  · rw [State.hbm_sliceAnswer, show (u.vacated s.arg.a s.arg.b).hbm = u.hbm from rfl, hhbm]
    exact Memory.readN_writeN _ _ hwf
  · intro a hout
    rw [State.hbm_sliceAnswer, show (u.vacated s.arg.a s.arg.b).hbm = u.hbm from rfl, hhbm, Memory.read_writeN _ _ _ hwf]
    exact if_neg (by omega)

/-- Nothing is written to a frozen pan (R323, R324). -/
theorem slotPerform_frozen (hf : (s.slice s.arg.a).frozen p.req = true) :
    ∃ t, exec .slotPerform s = .next t ∧ t.hbm = s.hbm ∧ (t.slice s.arg.a).held = (s.slice s.arg.a).held ∧
      (t.slice s.arg.a).Answers s.nextId p.req (.nack 0x06#6) := by
  cases hk : p.req.kind with
  | read => rw [Slice.frozen, hk] at hf; cases hf
  | contribute => rw [Slice.frozen, hk] at hf; cases hf
  | amo => exact execSlotPerform_reserve_frozen hp (congrArg ReqKind.reserves hk) hf
  | vamo => exact execSlotPerform_reserve_frozen hp (congrArg ReqKind.reserves hk) hf
  | write b tag =>
    refine ⟨_, execSlotPerform_write_frozen hp hk hf, State.hbm_sliceAnswer, ?_, State.answers_sliceAnswer⟩
    rw [State.slice_sliceAnswer, State.vacated, State.slice_modSlice_self]

/-- A scalar atomic answers the bytes that it reads, and holds what it writes (R146, R147). -/
theorem slotPerform_amo {op bits : Nat} {v e : Word} (hk : p.req.kind = .amo op bits v e)
    (hf : (s.slice s.arg.a).frozen p.req = false)
    (ho : s.hbm.readN (hbmKey s.arg.a p.req.frame) p.req.kind.bytes = old) :
    ∃ t, exec .slotPerform s = .next t ∧ t.hbm = s.hbm ∧
      ((ReqKind.amo op bits v e).writes old = true → Table.get? (t.slice s.arg.a).held s.arg.b =
        some (natBytes (bits / 8) (atomic op bits (bytesNat old) v.toNat e.toNat).1)) ∧
      ((ReqKind.amo op bits v e).writes old = false → (t.slice s.arg.a).held = (s.slice s.arg.a).held) ∧
      (t.slice s.arg.a).Answers s.nextId p.req (.ok old false) := by
  have hrepeated : (s.slice s.arg.a).repeated p.req = false := by rw [Slice.repeated, hk]
  have hanswer : p.req.kind.answer old = .ok old false := by rw [hk]; rfl
  cases hw : p.req.kind.writes old with
  | true =>
    obtain ⟨t, ht, hhbm, ⟨o, hslice⟩, hans⟩ := execSlotPerform_reserve_holds hp (congrArg ReqKind.reserves hk) hf ho
      (by rw [hrepeated, hw]; rfl) (congrArg (reserveWrite · old) hk)
    refine ⟨t, ht, hhbm, fun _ => ?_, fun h => ?_, hanswer ▸ hans⟩
    · rw [hslice]
      dsimp only
      rw [Slice.held_reserving]
      exact Table.get?_set_self ..
    · rw [← hk, hw] at h
      cases h
  | false =>
    obtain ⟨t, ht, hhbm, hheld, -, hans⟩ := execSlotPerform_reserve_idle hp (congrArg ReqKind.reserves hk) hf ho
      (by rw [hw, Bool.not_false, Bool.or_true])
    refine ⟨t, ht, hhbm, fun h => ?_, fun _ => hheld, hanswer ▸ hans⟩
    rw [← hk, hw] at h
    cases h

section
variable {c : Contribution} {w : Word} (hk : p.req.kind = .contribute c w)
  (ho : s.hbm.readN (hbmKey s.arg.a p.req.frame) p.req.kind.bytes = old)
include hk ho

/-- A contribution at or below its contributor's mark has no effect (R150). -/
theorem slotPerform_contribute_repeated (hr : (s.slice s.arg.a).repeated p.req = true) :
    ∃ t, exec .slotPerform s = .next t ∧ t.hbm = s.hbm ∧ (t.slice s.arg.a).held = (s.slice s.arg.a).held ∧
      (t.slice s.arg.a).marks = (s.slice s.arg.a).marks ∧ (t.slice s.arg.a).Answers s.nextId p.req (.ok [] false) := by
  have hf : (s.slice s.arg.a).frozen p.req = false := by rw [Slice.frozen, hk]
  have hanswer : p.req.kind.answer old = .ok [] false := by rw [hk]; rfl
  exact hanswer ▸ execSlotPerform_reserve_idle hp (congrArg ReqKind.reserves hk) hf ho (by rw [hr, Bool.true_or])

variable (hr : (s.slice s.arg.a).repeated p.req = false)
include hr

/-- Any other holds its sum, and its contributor's mark moves (R149, R150). -/
theorem slotPerform_contribute_holds (hb : reserveWrite p.req.kind old = some b) :
    ∃ t, exec .slotPerform s = .next t ∧ t.hbm = s.hbm ∧ Table.get? (t.slice s.arg.a).held s.arg.b = some b ∧
      (∀ i e, (s.slice s.arg.a).panAt p.req.va = some (i, e) →
        (t.slice s.arg.a).mark e.basep (p.req.lcn * 8 + p.req.slot) = some w) ∧
      (t.slice s.arg.a).Answers s.nextId p.req (.ok [] false) := by
  have hf : (s.slice s.arg.a).frozen p.req = false := by rw [Slice.frozen, hk]
  have hanswer : p.req.kind.answer old = .ok [] false := by rw [hk]; rfl
  obtain ⟨t, ht, hhbm, ⟨o, hslice⟩, hans⟩ := execSlotPerform_reserve_holds hp (congrArg ReqKind.reserves hk) hf ho
    (by rw [hr, hk]; rfl) hb
  refine ⟨t, ht, hhbm, ?_, fun i e he => ?_, hanswer ▸ hans⟩
  · rw [hslice]
    dsimp only
    rw [Slice.held_reserving]
    exact Table.get?_set_self ..
  · rw [hslice]
    exact Slice.mark_reserving (id := s.arg.b) (b := b) hk he

/-- One whose record breaks its layout is refused (R152). -/
theorem slotPerform_contribute_refused (hb : reserveWrite p.req.kind old = none) :
    ∃ t, exec .slotPerform s = .next t ∧ t.hbm = s.hbm ∧ (t.slice s.arg.a).held = (s.slice s.arg.a).held ∧
      (t.slice s.arg.a).Answers s.nextId p.req (.nack 0x06#6) := by
  have hf : (s.slice s.arg.a).frozen p.req = false := by rw [Slice.frozen, hk]
  exact execSlotPerform_reserve_refused hp (congrArg ReqKind.reserves hk) hf ho (by rw [hr, hk]; rfl) hb

end

/-! ## Reserved writes -/

theorem execReservedWrite_eq : exec .reservedWrite s = .next (match Table.get? (s.slice s.arg.a).held s.arg.b with
    | none => s.modSlice s.arg.a (fun x => x.released s.arg.b p)
    | some b => (s.modSlice s.arg.a (fun x => x.released s.arg.b p)).hbmWrite (hbmKey s.arg.a p.req.frame) b) := by
  refine congrArg Host.Outcome.next ?_
  rw [hp]
  rfl

/-- A reservation that holds nothing writes nothing (R146, R150). -/
theorem reservedWrite_none (hh : Table.get? (s.slice s.arg.a).held s.arg.b = none) :
    ∃ t, exec .reservedWrite s = .next t ∧ t.hbm = s.hbm ∧ Table.get? (t.slice s.arg.a).placed s.arg.b = none ∧
      ∀ l ∈ (t.slice s.arg.a).lines, l.2 ≠ s.arg.b := by
  refine ⟨_, execReservedWrite_eq hp, ?_⟩
  rw [hh]
  dsimp only
  rw [State.slice_modSlice_self]
  exact ⟨rfl, Slice.released_clear ..⟩

/-- The bytes held are written, and no others (R147). -/
theorem reservedWrite_some (hh : Table.get? (s.slice s.arg.a).held s.arg.b = some b) (hwf : s.hbm.wf = true) :
    ∃ t, exec .reservedWrite s = .next t ∧ t.hbm.readN (hbmKey s.arg.a p.req.frame) b.length = b ∧
      (∀ a, a < hbmKey s.arg.a p.req.frame ∨ hbmKey s.arg.a p.req.frame + b.length ≤ a → t.hbm.read a = s.hbm.read a) ∧
      Table.get? (t.slice s.arg.a).placed s.arg.b = none ∧ ∀ l ∈ (t.slice s.arg.a).lines, l.2 ≠ s.arg.b := by
  have hslice : ((s.modSlice s.arg.a (fun x => x.released s.arg.b p)).hbmWrite (hbmKey s.arg.a p.req.frame) b).slice s.arg.a =
      (s.slice s.arg.a).released s.arg.b p := State.slice_of_set (s := s) rfl
  refine ⟨_, execReservedWrite_eq hp, ?_⟩
  rw [hh]
  dsimp only
  rw [hslice]
  refine ⟨Memory.readN_writeN _ _ hwf, fun a hout => ?_, Slice.released_clear ..⟩
  exact (Memory.read_writeN _ _ _ hwf).trans (if_neg (by omega))

end

end

end Sys2Proof.Machine
end

section
/-! THEOREM. A request arrives at a slice: the two inputs, and what the queue, the answers and the walks hold once it has
entered (O40). -/

namespace Sys2Proof.Machine

/-! ## Checks of a request -/

section
variable {s : State} {n : Nat} {r : Request} {c : BitVec 6}

/-- A contributor's record is one mark more at most (R306). -/
theorem Slice.openMark_eq (x : Slice) (r : Request) :
    ∃ ms, x.openMark r = { x with marks := ms } ∧ ms.length ≤ x.marks.length + 1 := by
  unfold Slice.openMark
  split
  · dsimp only
    split
    · refine ⟨_, rfl, ?_⟩
      rw [List.length_append]
      exact Nat.add_le_add_right (List.length_filter_le ..) 1
    · exact ⟨x.marks, rfl, Nat.le_succ _⟩
  · exact ⟨x.marks, rfl, Nat.le_succ _⟩

theorem State.check_accepts (h : (s.slice n).refuses r = none) : s.check n r = (s.modSlice n (fun x => x.openMark r), true) := by
  rw [State.check, h]

theorem State.check_refuses (h : (s.slice n).refuses r = some c) : s.check n r = (s.sliceAnswer n false r (.nack c) 1, false) := by
  rw [State.check, h]

/-- A request that is let in stands last in the queue (R309, R311). -/
theorem State.slice_letIn_waits (h : r.unchecked = true ∨ (s.slice n).refuses r = none) :
    ∃ ms b, (s.letIn n r).slice n = { s.slice n with queue := (s.slice n).queue ++ [r], marks := ms, armed := b } := by
  unfold State.letIn
  dsimp only
  split
  · obtain ⟨b, hb⟩ := State.slice_armSlice (n := n) (s := s.modSlice n (fun x => { x with queue := x.queue ++ [r] }))
    rw [State.slice_modSlice_self] at hb
    exact ⟨_, b, hb⟩
  · next hu =>
    obtain ⟨ms, hms, -⟩ := (s.slice n).openMark_eq r
    obtain ⟨b, hb⟩ := State.slice_armSlice (n := n) (s := (s.modSlice n (fun x => x.openMark r)).modSlice n
      (fun x => { x with queue := x.queue ++ [r] }))
    rw [State.slice_modSlice_self, State.slice_modSlice_self, hms] at hb
    rw [State.check_accepts (h.resolve_left hu)]
    exact ⟨ms, b, hb⟩

/-- A request that is refused is answered, and nothing else changes (R309). -/
theorem State.slice_letIn_refused (hu : r.unchecked = false) (h : (s.slice n).refuses r = some c) :
    (s.letIn n r).slice n = { s.slice n with
      outs := (s.slice n).outs.set s.nextId { req := r, result := .nack c, placed := false } } := by
  unfold State.letIn
  dsimp only
  rw [hu, State.check_refuses h, if_neg Bool.false_ne_true, if_neg Bool.false_ne_true]
  exact State.slice_sliceAnswer

/-! ## Entering -/

/-- A miss leaves the request in the queue, and a walk of its page runs (R308). -/
theorem State.slice_missSlice : ∃ ws, (s.missSlice n r).slice n = { s.slice n with
    queue := (s.slice n).queue ++ [{ r with walking := true }], walks := ws } ∧ ∃ j, (r.va % 2 ^ 48 / 2 ^ 21, j) ∈ ws := by
  unfold State.missSlice
  dsimp only
  split
  · next h =>
    obtain ⟨⟨page, j⟩, hw, hpage⟩ := List.any_eq_true.1 h
    exact ⟨_, State.slice_modSlice_self .., j, eq_of_beq hpage ▸ hw⟩
  · have hset : ((s.modSlice n (fun x => { x with queue := x.queue ++ [{ r with walking := true }] })).modSlice n
        (fun x => { x with walks := (r.va % 2 ^ 48 / 2 ^ 21, 0) :: x.walks })).slice n = { s.slice n with
        queue := (s.slice n).queue ++ [{ r with walking := true }]
        walks := (r.va % 2 ^ 48 / 2 ^ 21, 0) :: (s.slice n).walks } := by
      rw [State.slice_modSlice_self, State.slice_modSlice_self]
    refine ⟨(r.va % 2 ^ 48 / 2 ^ 21, 0) :: (s.slice n).walks, ?_, 0, .head _⟩
    split <;> exact hset

/-- The cycle of a slice. -/
def State.sliceNow (s : State) (n : Nat) : Nat := s.count (s.sliceDom n)

/-- The state in which a request enters: the slice's input is taken, and a number for the request (R311). -/
def State.entering (s : State) (n : Nat) : State := (s.modSlice n (fun x => { x with lastEntry := s.sliceNow n + 1 })).fresh.2

theorem State.slice_entering : (s.entering n).slice n = { s.slice n with lastEntry := s.sliceNow n + 1 } :=
  State.slice_of_set (s := s) rfl

/-- The request as it enters. -/
def State.entrant (s : State) (n : Nat) (r : Request) : Request :=
  { r with id := s.nextId, arrived := s.sliceNow n, unchecked := ((s.entering n).slice n).waits }

theorem State.unchecked_entrant : (s.entrant n r).unchecked = (s.slice n).waits := by
  rw [State.entrant, State.slice_entering]
  rfl

theorem State.enterSlice_eq : s.enterSlice n r = match Table.get? ((s.entering n).slice n).tlb (tlbIndex r.va) with
    | some (tag, f) =>
      if tag = tlbTag r.va then (s.entering n).letIn n { s.entrant n r with frame := f * 2 ^ 21 + r.va % 2 ^ 21 }
      else (s.entering n).missSlice n (s.entrant n r)
    | none => (s.entering n).missSlice n (s.entrant n r) := rfl

theorem State.enterSlice_hit {tag f : Nat} (h : Table.get? (s.slice n).tlb (tlbIndex r.va) = some (tag, f))
    (ht : tag = tlbTag r.va) :
    s.enterSlice n r = (s.entering n).letIn n { s.entrant n r with frame := f * 2 ^ 21 + r.va % 2 ^ 21 } := by
  rw [State.enterSlice_eq, State.slice_entering, h]
  exact if_pos ht

theorem State.enterSlice_miss
    (h : ∀ tag f, Table.get? (s.slice n).tlb (tlbIndex r.va) = some (tag, f) → tag ≠ tlbTag r.va) :
    s.enterSlice n r = (s.entering n).missSlice n (s.entrant n r) := by
  rw [State.enterSlice_eq, State.slice_entering]
  cases ht : Table.get? (s.slice n).tlb (tlbIndex r.va) with
  | none => rfl
  | some e => exact if_neg (h e.1 e.2 ht)

/-- A request that has entered, its address translated. -/
def State.translated (s : State) (n : Nat) (r : Request) (f : Nat) : Request :=
  { r with
    id := s.nextId, arrived := s.sliceNow n, unchecked := (s.slice n).waits, frame := f * 2 ^ 21 + r.va % 2 ^ 21 }

/-- A request whose page the TLB has waits for a round, its checks made or, in training, still to be made (R309, R417). -/
theorem State.enterSlice_waits {tag f : Nat} (h : Table.get? (s.slice n).tlb (tlbIndex r.va) = some (tag, f))
    (ht : tag = tlbTag r.va) (hr : (s.slice n).waits = true ∨ (s.slice n).refuses r = none) :
    ∃ ms b, (s.enterSlice n r).slice n = { s.slice n with
      lastEntry := s.sliceNow n + 1
      queue := (s.slice n).queue ++ [s.translated n r f]
      marks := ms, armed := b } := by
  obtain ⟨ms, b, hslice⟩ := State.slice_letIn_waits (s := s.entering n) (n := n)
    (r := { s.entrant n r with frame := f * 2 ^ 21 + r.va % 2 ^ 21 })
    (hr.imp (State.unchecked_entrant (r := r)).trans fun hr => by rw [State.slice_entering]; exact hr)
  refine ⟨ms, b, ?_⟩
  rw [State.enterSlice_hit h ht, hslice, State.entrant, State.slice_entering]
  rfl

/-- One that is refused is answered (R309). -/
theorem State.enterSlice_refused {tag f : Nat} {c : BitVec 6}
    (h : Table.get? (s.slice n).tlb (tlbIndex r.va) = some (tag, f)) (ht : tag = tlbTag r.va)
    (hw : (s.slice n).waits = false) (hr : (s.slice n).refuses r = some c) :
    (s.enterSlice n r).slice n = { s.slice n with
      lastEntry := s.sliceNow n + 1
      outs := (s.slice n).outs.set (s.nextId + 1) { req := s.translated n r f, result := .nack c, placed := false } } := by
  have hslice := State.slice_letIn_refused (s := s.entering n) (n := n)
    (r := { s.entrant n r with frame := f * 2 ^ 21 + r.va % 2 ^ 21 }) ((State.unchecked_entrant (r := r)).trans hw)
    (by rw [State.slice_entering]; exact hr)
  rw [State.enterSlice_hit h ht, hslice, State.entrant, State.slice_entering]
  rfl

/-- One whose page the TLB has not waits for the walk (R308). -/
theorem State.enterSlice_walks
    (h : ∀ tag f, Table.get? (s.slice n).tlb (tlbIndex r.va) = some (tag, f) → tag ≠ tlbTag r.va) :
    ∃ ws, (s.enterSlice n r).slice n = { s.slice n with
      lastEntry := s.sliceNow n + 1
      queue := (s.slice n).queue ++ [{ r with
        id := s.nextId, arrived := s.sliceNow n, unchecked := (s.slice n).waits, walking := true }]
      walks := ws } ∧ ∃ j, (r.va % 2 ^ 48 / 2 ^ 21, j) ∈ ws := by
  obtain ⟨ws, hslice, hj⟩ := State.slice_missSlice (s := s.entering n) (n := n) (r := s.entrant n r)
  refine ⟨ws, ?_, hj⟩
  rw [State.enterSlice_miss h, hslice, State.entrant, State.slice_entering]
  rfl

/-- However a request enters, it takes the slice's input, and leaves the contest of the inputs (R311). -/
theorem State.enterSlice_input : ((s.enterSlice n r).slice n).lastEntry = s.sliceNow n + 1 ∧
    ((s.enterSlice n r).slice n).lastHost = (s.slice n).lastHost := by
  by_cases h : ∃ tag f, Table.get? (s.slice n).tlb (tlbIndex r.va) = some (tag, f) ∧ tag = tlbTag r.va
  · obtain ⟨tag, f, h, ht⟩ := h
    cases hw : (s.slice n).waits with
    | true =>
      obtain ⟨ms, b, hslice⟩ := State.enterSlice_waits h ht (.inl hw)
      exact hslice ▸ ⟨rfl, rfl⟩
    | false =>
      cases hr : (s.slice n).refuses r with
      | none =>
        obtain ⟨ms, b, hslice⟩ := State.enterSlice_waits h ht (.inr hr)
        exact hslice ▸ ⟨rfl, rfl⟩
      | some c => exact State.enterSlice_refused h ht hw hr ▸ ⟨rfl, rfl⟩
  · obtain ⟨ws, hslice, -⟩ := State.enterSlice_walks fun tag f e ht => h ⟨tag, f, e, ht⟩
    exact hslice ▸ ⟨rfl, rfl⟩

end

/-! ## The two inputs -/

/-- A contest goes to the input that did not enter at the last one (R311). -/
theorem State.contend_first {s : State} {m : Nat} (hc : (s.slice m).contest ≠ s.sliceNow m + 1) :
    s.modSlice m (fun x => x.contend (s.sliceNow m)) = s.modSlice m (fun z =>
      { z with contest := s.sliceNow m + 1, lastHost := !(s.slice m).lastHost }) := by
  rw [State.modSlice, State.modSlice, Slice.contend, if_pos hc]

section
variable {s : State} {q : Packet} {m : Nat} {r : Request}
  (hq : Table.get? s.packets s.arg.a = some q) (hd : q.dst = .slice m) (hb : q.body = .request r)
include hq hd hb

theorem execSliceRequestArrival_eq : exec .sliceRequestArrival s = .next (s.atLink m false (s.hostAtLink m)
    .sliceRequestArrival (fun t => (t.dropPacket s.arg.a).enterSlice m r)) := by
  refine congrArg Host.Outcome.next ?_
  rw [hq]
  dsimp only
  rw [hd, hb]

/-- A second request in a cycle is put off (R311). -/
theorem execSliceRequestArrival_late (hl : (s.slice m).lastEntry = s.sliceNow m + 1) :
    exec .sliceRequestArrival s = .next (s.postDelayed (s.sliceDom m) .sliceRequestArrival s.arg) := by
  rw [execSliceRequestArrival_eq hq hd hb]
  exact congrArg Host.Outcome.next (if_pos hl)

section
variable (hl : (s.slice m).lastEntry ≠ s.sliceNow m + 1)
include hl

/-- With nothing at the host spine the request enters. -/
theorem execSliceRequestArrival_alone (hh : s.hostAtLink m = false) :
    exec .sliceRequestArrival s = .next ((s.dropPacket s.arg.a).enterSlice m r) := by
  rw [execSliceRequestArrival_eq hq hd hb, hh]
  exact congrArg Host.Outcome.next (if_neg hl)

variable (hh : s.hostAtLink m = true) (hc : (s.slice m).contest ≠ s.sliceNow m + 1)
include hh hc

theorem execSliceRequestArrival_contest : exec .sliceRequestArrival s = .next (
    if (s.slice m).lastHost then
      ((s.modSlice m (fun z => { z with contest := s.sliceNow m + 1, lastHost := false })).dropPacket s.arg.a).enterSlice m r
    else (s.modSlice m (fun z => { z with contest := s.sliceNow m + 1, lastHost := true })).postDelayed (s.sliceDom m)
      .sliceRequestArrival s.arg) := by
  rw [execSliceRequestArrival_eq hq hd hb, hh]
  refine congrArg Host.Outcome.next ((if_neg hl).trans ?_)
  dsimp only
  rw [if_pos rfl, show s.modSlice m (fun x => x.contend (s.count (s.sliceDom m))) = _ from State.contend_first hc,
    State.slice_modSlice_self]
  cases (s.slice m).lastHost <;> rfl

/-- The edge link's request enters where the host spine's entered last (R311). -/
theorem execSliceRequestArrival_wins (hw : (s.slice m).lastHost = true) : ∃ t, exec .sliceRequestArrival s = .next t ∧
    (t.slice m).lastEntry = s.sliceNow m + 1 ∧ (t.slice m).lastHost = false := by
  obtain ⟨hentry, hlast⟩ := State.enterSlice_input (n := m) (r := r)
    (s := (s.modSlice m (fun z => { z with contest := s.sliceNow m + 1, lastHost := false })).dropPacket s.arg.a)
  refine ⟨_, (execSliceRequestArrival_contest hq hd hb hl hh hc).trans (congrArg _ (if_pos hw)), hentry, hlast.trans ?_⟩
  exact congrArg Slice.lastHost (State.slice_modSlice_self s m fun z =>
    { z with contest := s.sliceNow m + 1, lastHost := false })

end

end

/-- With no access of the host in this cycle the host spine holds nothing (R311). -/
theorem State.hostAtLink_of_no_access {s : State} {m : Nat} (h : ∀ e ∈ s.agenda, e.event = .hostPanAccess → e.time ≠ s.now) :
    s.hostAtLink m = false := by
  rw [State.hostAtLink, List.any_eq_false]
  intro e he
  rw [Bool.and_eq_true, Bool.and_eq_true, Bool.and_eq_true, beq_iff_eq, beq_iff_eq]
  exact fun hall => h e he hall.1.1.1 hall.1.1.2

end Sys2Proof.Machine
end

section
/-! THEOREM. The end of a walk's read at a slice: the next level, a page without a frame, and the requests that the frame lets
in (O40). -/

namespace Sys2Proof.Machine

/-! ## The levels of a walk -/

section
variable {s : State} {n page sp : Nat}

/-- Levels of the walk of a page read with this read (R308). -/
def Slice.levelsRead (x : Slice) (page : Nat) : Nat := ((x.walks.find? (fun w => w.1 == page)).map (·.2)).getD 0 + 1

theorem execTlbWalkEnd_next
    (h : (s.slice s.arg.a).levelsRead s.arg.b < (s.walkPage s.arg.a s.arg.c (s.arg.b * 2 ^ 21)).1) :
    ∃ t, exec .tlbWalkEnd s = .next t ∧ (t.slice s.arg.a).queue = (s.slice s.arg.a).queue ∧
      (t.slice s.arg.a).outs = (s.slice s.arg.a).outs ∧
      ∀ v ∈ (t.slice s.arg.a).walks, v.1 = s.arg.b → v.2 = (s.slice s.arg.a).levelsRead s.arg.b := by
  have hwalks (v) (hv : v ∈ (s.slice s.arg.a).walks.map
      (fun w => if w.1 = s.arg.b then (s.arg.b, (s.slice s.arg.a).levelsRead s.arg.b) else w)) (hp : v.1 = s.arg.b) :
      v.2 = (s.slice s.arg.a).levelsRead s.arg.b := by
    obtain ⟨w, -, rfl⟩ := List.mem_map.1 hv
    split at hp
    · next h => rw [if_pos h]
    · next h => exact absurd hp h
  refine ⟨_, congrArg Host.Outcome.next (if_pos h), ?_⟩
  dsimp only
  split
  all_goals
    rw [State.slice_of_set (s := s) rfl]
    exact ⟨rfl, rfl, hwalks⟩

theorem execTlbWalkEnd_fails
    (h : (s.walkPage s.arg.a s.arg.c (s.arg.b * 2 ^ 21)).1 ≤ (s.slice s.arg.a).levelsRead s.arg.b)
    (hw : (s.walkPage s.arg.a s.arg.c (s.arg.b * 2 ^ 21)).2 = none) :
    exec .tlbWalkEnd s = .next (s.walkFails s.arg.a s.arg.b) := by
  refine congrArg Host.Outcome.next ((if_neg (Nat.not_lt.2 h)).trans ?_)
  rw [hw]

theorem execTlbWalkEnd_fills {f : Nat}
    (h : (s.walkPage s.arg.a s.arg.c (s.arg.b * 2 ^ 21)).1 ≤ (s.slice s.arg.a).levelsRead s.arg.b)
    (hw : (s.walkPage s.arg.a s.arg.c (s.arg.b * 2 ^ 21)).2 = some f) :
    exec .tlbWalkEnd s = .next (s.walkFills s.arg.a s.arg.b f) := by
  refine congrArg Host.Outcome.next ((if_neg (Nat.not_lt.2 h)).trans ?_)
  rw [hw]

end

/-! ## A page without a frame -/

section
variable {s : State} {n page : Nat} {c : BitVec 6}

/-- Each of the requests of a list is refused in turn (R309). -/
def State.refuseAll (s : State) (n : Nat) (c : BitVec 6) (l : List Request) : State :=
  l.foldl (fun t r => t.sliceAnswer n false r (.nack c) 1) s

/-- Every request has its answer, and what stood under an older number stays. -/
theorem State.slice_refuseAll (l : List Request) (s : State) : ∃ o, (s.refuseAll n c l).slice n = { s.slice n with outs := o } ∧
    (∀ j < s.nextId, Table.get? o j = Table.get? (s.slice n).outs j) ∧
    ∀ r ∈ l, ∃ j, Table.get? o j = some { req := r, result := .nack c, placed := false } := by
  induction l generalizing s with
  | nil => exact ⟨_, rfl, fun _ _ => rfl, fun _ h => by cases h⟩
  | cons r l ih =>
    obtain ⟨o, ho, hold, hnew⟩ := ih (s.sliceAnswer n false r (.nack c) 1)
    rw [State.slice_sliceAnswer] at ho hold
    rw [State.nextId_sliceAnswer] at hold
    refine ⟨o, ho, fun j hj => ?_, fun q hq => ?_⟩
    · rw [hold j (by omega)]
      exact Table.get?_set_ne _ _ (by omega)
    · rcases List.mem_cons.1 hq with rfl | hq
      · exact ⟨s.nextId, (hold _ (Nat.lt_succ_self _)).trans (Table.get?_set_self ..)⟩
      · exact hnew q hq

/-- Out of training a walk that ends without a frame refuses the requests that waited for it (R309). -/
theorem State.slice_walkFails (hw : (s.slice n).waits = false) : ∃ o, (s.walkFails n page).slice n = { s.slice n with
      queue := (s.slice n).queue.filter (fun r => !r.walks page)
      walks := (s.slice n).walks.filter (fun w => w.1 != page), outs := o } ∧
    ∀ r ∈ (s.slice n).queue, r.walks page = true →
      ∃ j, Table.get? o j = some { req := r, result := .nack 0x09#6, placed := false } := by
  have hgoes (r : Request) : (r.walks page && !(r.unchecked && (s.slice n).waits)) = r.walks page := by
    rw [hw, Bool.and_false, Bool.not_false, Bool.and_true]
  have hkept : ((s.slice n).queue.any fun r => r.walks page && (r.unchecked && (s.slice n).waits)) = false := by
    rw [List.any_eq_false]
    intro r _
    rw [hw, Bool.and_false, Bool.and_false]
    exact Bool.false_ne_true
  obtain ⟨o, ho, -, hall⟩ := State.slice_refuseAll (n := n) (c := 0x09#6) ((s.slice n).queue.filter fun r => r.walks page)
    (s.modSlice n (fun x => { x with
      queue := x.queue.filter (fun r => !r.walks page)
      walks := (if false then [(page, 0)] else []) ++ x.walks.filter (fun w => w.1 != page) }))
  refine ⟨o, ?_, fun r hr hp => hall r (List.mem_filter.2 ⟨hr, hp⟩)⟩
  rw [State.slice_modSlice_self] at ho
  unfold State.walkFails
  dsimp only
  simp only [hkept, hgoes]
  exact ho

end

end Sys2Proof.Machine
end

section
/-! THEOREM. A pass of checks over the queue of a slice: what it leaves of each request (O40). -/

namespace Sys2Proof.Machine

/-! ## One check -/

/-- The requests of a queue with a number. -/
def withId (i : Nat) (q : List Request) : List Request := q.filter (fun r => r.id == i)

/-- The queue after the check of one of its requests that is due (R309, R417). -/
def Slice.checkedQueue (x : Slice) (due : Request → Bool) (r : Request) : List Request :=
  if due r then
    if x.refuses r = none then x.queue.map (fun q => if q.id = r.id then { q with unchecked := false } else q)
    else x.queue.filter (fun q => q.id != r.id)
  else x.queue

/-- What the check of `r` leaves of the requests with its number. -/
def Slice.settled (x : Slice) (due : Request → Bool) (r : Request) (q : List Request) : List Request :=
  if due r then if x.refuses r = none then q.map (fun q => { q with unchecked := false }) else [] else q

section
variable {x y : Slice} {due : Request → Bool} {r : Request} {i : Nat} {q : List Request}

theorem withId_map_ne {f : Request → Request} (hid : ∀ a, (f a).id = a.id) (hf : ∀ a, a.id = i → f a = a) :
    withId i (q.map f) = withId i q := by
  induction q with
  | nil => rfl
  | cons a q ih =>
    unfold withId at ih ⊢
    rw [List.map_cons, List.filter_cons, List.filter_cons, hid, ih]
    split
    · next h => rw [hf a (eq_of_beq h)]
    · rfl

theorem withId_map_self {f g : Request → Request} (hid : ∀ a, (f a).id = a.id) (hf : ∀ a, a.id = i → f a = g a) :
    withId i (q.map f) = (withId i q).map g := by
  induction q with
  | nil => rfl
  | cons a q ih =>
    unfold withId at ih ⊢
    rw [List.map_cons, List.filter_cons, List.filter_cons, hid, ih]
    split
    · next h => rw [hf a (eq_of_beq h), List.map_cons]
    · rfl

theorem id_clear (a : Request) : (if a.id = r.id then { a with unchecked := false } else a).id = a.id := by
  split <;> rfl

/-- A check leaves the requests with other numbers. -/
theorem Slice.withId_checkedQueue_ne (h : r.id ≠ i) : withId i (x.checkedQueue due r) = withId i x.queue := by
  unfold Slice.checkedQueue
  split
  · split
    · exact withId_map_ne id_clear fun a ha => if_neg fun e => h (e.symm.trans ha)
    · unfold withId
      rw [List.filter_filter]
      refine List.filter_congr fun a _ => ?_
      by_cases ha : a.id = i
      · simp [ha, Ne.symm h]
      · simp [ha]
  · rfl

theorem Slice.withId_checkedQueue_self :
    withId r.id (x.checkedQueue due r) = x.settled due r (withId r.id x.queue) := by
  unfold Slice.checkedQueue Slice.settled
  split
  · split
    · exact withId_map_self id_clear fun a ha => if_pos ha
    · unfold withId
      rw [List.filter_filter, List.filter_eq_nil_iff]
      intro a _
      simp
  · rfl

/-- While there is room for marks, the refusal of a request rests on the pan table alone (R306, R309). -/
theorem Slice.refuses_congr (hp : y.pans = x.pans) (hx : x.marks.length < 2 ^ 20) (hy : y.marks.length < 2 ^ 20) :
    y.refuses r = x.refuses r := by
  have hroom (z : Slice) (hz : z.marks.length < 2 ^ 20) : decide (2 ^ 20 ≤ z.marks.length) = false :=
    decide_eq_false (Nat.not_le.2 hz)
  unfold Slice.refuses
  rw [show y.panAt r.va = x.panAt r.va by rw [Slice.panAt, Slice.panAt, hp]]
  simp only [hroom x hx, hroom y hy, Bool.and_false]

end

/-! ## A pass -/

/-- The check of one request of a queue, if it is due. -/
def State.checkStep (s : State) (n : Nat) (due : Request → Bool) (r : Request) : State :=
  if due r then
    let u := s.check n r
    u.1.modSlice n (fun x =>
      { x with queue := if u.2 then x.queue.map (fun q => if q.id = r.id then { q with unchecked := false } else q)
                        else x.queue.filter (fun q => q.id != r.id) })
  else s

section
variable {s : State} {n : Nat} {due : Request → Bool} {r : Request}

theorem State.checkQueue_eq : s.checkQueue n due = (s.slice n).queue.foldl (fun t r => t.checkStep n due r) s := rfl

theorem State.slice_checkStep : ∃ ms o, (s.checkStep n due r).slice n =
      { s.slice n with queue := (s.slice n).checkedQueue due r, marks := ms, outs := o } ∧
    ms.length ≤ (s.slice n).marks.length + 1 := by
  unfold State.checkStep Slice.checkedQueue
  split
  · dsimp only
    cases h : (s.slice n).refuses r with
    | none =>
      obtain ⟨ms, hms, hlen⟩ := (s.slice n).openMark_eq r
      rw [State.check_accepts h, State.slice_modSlice_self, State.slice_modSlice_self, hms]
      exact ⟨ms, _, rfl, hlen⟩
    | some c =>
      rw [State.check_refuses h, State.slice_modSlice_self, State.slice_sliceAnswer]
      exact ⟨_, _, rfl, Nat.le_succ _⟩
  · exact ⟨_, _, rfl, Nat.le_succ _⟩

/-- A pass of checks settles each of its requests, and leaves those of other numbers. -/
theorem State.slice_checkPass (l : List Request) (s : State) (hl : (l.map (·.id)).Nodup)
    (hroom : (s.slice n).marks.length + l.length ≤ 2 ^ 20) :
    ∃ q ms o, (l.foldl (fun t r => t.checkStep n due r) s).slice n =
        { s.slice n with queue := q, marks := ms, outs := o } ∧
      (∀ i ∉ l.map (·.id), withId i q = withId i (s.slice n).queue) ∧
      ∀ r ∈ l, withId r.id q = (s.slice n).settled due r (withId r.id (s.slice n).queue) := by
  induction l generalizing s with
  | nil => exact ⟨_, _, _, rfl, fun _ _ => rfl, fun _ h => by cases h⟩
  | cons a l ih =>
    rw [List.map_cons, List.nodup_cons] at hl
    rw [List.length_cons] at hroom
    obtain ⟨ha, hl⟩ := hl
    obtain ⟨ms, o, hslice, hms⟩ := State.slice_checkStep (s := s) (n := n) (due := due) (r := a)
    obtain ⟨q, ms', o', hfold, hother, hmine⟩ := ih (s.checkStep n due a) hl (by rw [hslice]; dsimp only; omega)
    rw [hslice] at hfold hother hmine
    refine ⟨q, ms', o', hfold, fun i hi => ?_, fun r hr => ?_⟩
    · rw [List.map_cons, List.mem_cons, not_or] at hi
      exact (hother i hi.2).trans (Slice.withId_checkedQueue_ne (Ne.symm hi.1))
    · rcases List.mem_cons.1 hr with rfl | hr
      · exact (hother r.id ha).trans Slice.withId_checkedQueue_self
      · have hid : a.id ≠ r.id := fun e => ha (e ▸ List.mem_map_of_mem hr)
        have hpos : 0 < l.length := List.length_pos_of_mem hr
        have hrefuses : ({ s.slice n with queue := (s.slice n).checkedQueue due a, marks := ms, outs := o } : Slice).refuses r =
            (s.slice n).refuses r := Slice.refuses_congr rfl (by omega) (by dsimp only; omega)
        rw [hmine r hr, Slice.settled, hrefuses, Slice.withId_checkedQueue_ne hid, Slice.settled]

end

end Sys2Proof.Machine
end

section
/-! THEOREM. The frame of a page reaches the requests that wait for it, and the statement on requests at a slice (O40). -/

namespace Sys2Proof.Machine

/-! ## A page with its frame -/

theorem withId_of_mem {q : List Request} {r : Request} (h : (q.map (·.id)).Nodup) (hr : r ∈ q) : withId r.id q = [r] := by
  induction q with
  | nil => cases hr
  | cons a q ih =>
    rw [List.map_cons, List.nodup_cons] at h
    obtain ⟨ha, h⟩ := h
    have hrest : r ∈ q → a.id ≠ r.id := fun hr e => ha (e ▸ List.mem_map_of_mem hr)
    unfold withId at ih ⊢
    rw [List.filter_cons]
    rcases List.mem_cons.1 hr with rfl | hr
    · rw [if_pos (beq_self_eq_true r.id), List.filter_eq_nil_iff.2]
      exact fun b hb e => ha (eq_of_beq e ▸ List.mem_map_of_mem hb)
    · rw [if_neg (by simpa using hrest hr)]
      exact ih h hr

/-- A request whose page's walk has ended with a frame. -/
def Request.filled (r : Request) (page now f : Nat) : Request :=
  if r.walks page then { r with walking := false, arrived := now, frame := f * 2 ^ 21 + r.va % 2 ^ 21 } else r

theorem Request.id_filled (r : Request) (page now f : Nat) : (r.filled page now f).id = r.id := by
  unfold Request.filled
  split <;> rfl

/-- What a walk's end leaves of a request that waited for it: unchecked in training, else checked or gone (R308, R309, R417). -/
def Slice.landed (x : Slice) (r : Request) (page now f : Nat) : List Request :=
  if r.unchecked && x.waits then [r.filled page now f]
  else if x.refuses r = none then [{ r.filled page now f with unchecked := false }] else []

section
variable {s : State} {n page f : Nat}

/-- The slice with the page's frame, before the checks of the requests that waited for it (R308). -/
def Slice.framed (x : Slice) (page now f : Nat) : Slice :=
  { x with
    tlb := x.tlb.set (tlbIndex (page * 2 ^ 21)) (tlbTag (page * 2 ^ 21), f)
    walks := x.walks.filter (fun w => w.1 != page), queue := x.queue.map (fun r => r.filled page now f) }

/-- The requests that the end of the walk has checked: those that waited for it, but the ones of training. -/
def Slice.dueAt (x : Slice) (page : Nat) (r : Request) : Bool :=
  (x.queue.filter (fun q => q.walks page)).any (fun q => q.id == r.id) && !(r.unchecked && x.waits)

theorem State.walkFills_eq : s.walkFills n page f = ((s.modSlice n (fun x => x.framed page (s.sliceNow n) f)).checkQueue n
    ((s.slice n).dueAt page)).armSlice n := rfl

/-- The check of a request that waited settles it as its landing says. -/
theorem Slice.settled_filled {x : Slice} {r : Request} {now : Nat} (hr : r ∈ x.queue) (hp : r.walks page = true) :
    (x.framed page now f).settled (x.dueAt page) (r.filled page now f) [r.filled page now f] = x.landed r page now f := by
  have hmine : (x.queue.filter (fun q => q.walks page)).any (fun q => q.id == r.id) = true :=
    List.any_eq_true.2 ⟨r, List.mem_filter.2 ⟨hr, hp⟩, beq_self_eq_true _⟩
  have hfilled : r.filled page now f =
      { r with walking := false, arrived := now, frame := f * 2 ^ 21 + r.va % 2 ^ 21 } := if_pos hp
  have hdue : x.dueAt page (r.filled page now f) = !(r.unchecked && x.waits) := by
    rw [Slice.dueAt, hfilled, hmine, Bool.true_and]
  have hrefuses : (x.framed page now f).refuses (r.filled page now f) = x.refuses r := by
    rw [hfilled]
    rfl
  rw [Slice.settled, hdue, hrefuses, Slice.landed]
  cases r.unchecked && x.waits <;> rfl

theorem State.slice_walkFills (hid : ((s.slice n).queue.map (·.id)).Nodup)
    (hroom : (s.slice n).marks.length + (s.slice n).queue.length ≤ 2 ^ 20) :
    ∃ q ms o b, (s.walkFills n page f).slice n =
        { (s.slice n).framed page (s.sliceNow n) f with queue := q, marks := ms, outs := o, armed := b } ∧
      ∀ r ∈ (s.slice n).queue, r.walks page = true → withId r.id q = (s.slice n).landed r page (s.sliceNow n) f := by
  have hstart : (s.modSlice n (fun x => x.framed page (s.sliceNow n) f)).slice n =
      (s.slice n).framed page (s.sliceNow n) f := State.slice_modSlice_self ..
  have hids : (((s.slice n).framed page (s.sliceNow n) f).queue.map (·.id)).Nodup := by
    rw [Slice.framed, List.map_map]
    rwa [show (·.id) ∘ (fun r : Request => r.filled page (s.sliceNow n) f) = (·.id) from
      funext fun r => Request.id_filled r ..]
  have hlen : ((s.slice n).framed page (s.sliceNow n) f).marks.length +
      ((s.slice n).framed page (s.sliceNow n) f).queue.length ≤ 2 ^ 20 := by
    rw [Slice.framed, List.length_map]
    exact hroom
  obtain ⟨q, ms, o, hpass, -, hmine⟩ := State.slice_checkPass (n := n) (due := (s.slice n).dueAt page)
    ((s.slice n).framed page (s.sliceNow n) f).queue (s.modSlice n (fun x => x.framed page (s.sliceNow n) f)) hids
    (by rw [hstart]; exact hlen)
  rw [hstart] at hpass hmine
  obtain ⟨b, harm⟩ := State.slice_armSlice (n := n)
    (s := (s.modSlice n (fun x => x.framed page (s.sliceNow n) f)).checkQueue n ((s.slice n).dueAt page))
  rw [State.checkQueue_eq, hstart, hpass] at harm
  refine ⟨q, ms, o, b, by rw [State.walkFills_eq, State.checkQueue_eq, hstart]; exact harm, fun r hr hp => ?_⟩
  have hmem : r.filled page (s.sliceNow n) f ∈ ((s.slice n).framed page (s.sliceNow n) f).queue := List.mem_map_of_mem hr
  have hsettled := hmine _ hmem
  rw [withId_of_mem hids hmem, Request.id_filled, Slice.settled_filled hr hp] at hsettled
  exact hsettled

end

/-! ## The end of a walk -/

section
variable {s : State}
  (hlast : (s.walkPage s.arg.a s.arg.c (s.arg.b * 2 ^ 21)).1 ≤ (s.slice s.arg.a).levelsRead s.arg.b)
include hlast

/-- Without a frame, and out of training, the requests that waited are refused (R309). -/
theorem tlbWalkEnd_refuses (hnone : (s.walkPage s.arg.a s.arg.c (s.arg.b * 2 ^ 21)).2 = none)
    (hw : (s.slice s.arg.a).waits = false) :
    ∃ t, exec .tlbWalkEnd s = .next t ∧ (∀ v ∈ (t.slice s.arg.a).walks, v.1 ≠ s.arg.b) ∧
      (t.slice s.arg.a).queue = (s.slice s.arg.a).queue.filter (fun r => !r.walks s.arg.b) ∧
      ∀ r ∈ (s.slice s.arg.a).queue, r.walks s.arg.b = true →
        ∃ j, Table.get? (t.slice s.arg.a).outs j = some { req := r, result := .nack 0x09#6, placed := false } := by
  obtain ⟨o, hslice, hall⟩ := State.slice_walkFails (page := s.arg.b) hw
  refine ⟨_, execTlbWalkEnd_fails hlast hnone, ?_⟩
  rw [hslice]
  exact ⟨fun v hv => by simpa using (List.mem_filter.1 hv).2, rfl, hall⟩

/-- With its frame the page is in the TLB, and each request that waited stays in the queue or is refused (R308, R309). -/
theorem tlbWalkEnd_lands {f : Nat} (hsome : (s.walkPage s.arg.a s.arg.c (s.arg.b * 2 ^ 21)).2 = some f)
    (hid : ((s.slice s.arg.a).queue.map (·.id)).Nodup)
    (hroom : (s.slice s.arg.a).marks.length + (s.slice s.arg.a).queue.length ≤ 2 ^ 20) :
    ∃ t, exec .tlbWalkEnd s = .next t ∧ (∀ v ∈ (t.slice s.arg.a).walks, v.1 ≠ s.arg.b) ∧
      Table.get? (t.slice s.arg.a).tlb (tlbIndex (s.arg.b * 2 ^ 21)) = some (tlbTag (s.arg.b * 2 ^ 21), f) ∧
      ∀ r ∈ (s.slice s.arg.a).queue, r.walks s.arg.b = true →
        withId r.id (t.slice s.arg.a).queue = (s.slice s.arg.a).landed r s.arg.b (s.sliceNow s.arg.a) f := by
  obtain ⟨q, ms, o, b, hslice, hall⟩ := State.slice_walkFills (page := s.arg.b) (f := f) hid hroom
  refine ⟨_, execTlbWalkEnd_fills hlast hsome, ?_⟩
  rw [hslice]
  exact ⟨fun v hv => by simpa using (List.mem_filter.1 hv).2, Table.get?_set_self .., hall⟩

end

section
variable {x : Slice} {r : Request} {q : List Request} {page now f : Nat}

theorem mem_of_mem_withId {i : Nat} (h : r ∈ withId i q) : r ∈ q := (List.mem_filter.1 h).1

/-- A request that is accepted, or not checked yet, stands in the queue with its frame. -/
theorem Slice.landed_stays (hp : r.walks page = true) (hq : withId r.id q = x.landed r page now f)
    (h : (r.unchecked && x.waits) = true ∨ x.refuses r = none) : { r with
      walking := false, arrived := now, frame := f * 2 ^ 21 + r.va % 2 ^ 21, unchecked := r.unchecked && x.waits } ∈ q := by
  refine mem_of_mem_withId (i := r.id) ?_
  rw [hq, Slice.landed, Request.filled, if_pos hp]
  cases hu : r.unchecked && x.waits with
  | true =>
    obtain ⟨hu, -⟩ := (Bool.and_eq_true _ _).mp hu
    rw [if_pos rfl, List.mem_singleton, ← hu]
  | false =>
    rw [if_neg Bool.false_ne_true, if_pos (h.resolve_left (Bool.eq_false_iff.1 hu)), List.mem_singleton]

/-- One that is refused is gone from the queue. -/
theorem Slice.landed_goes {c : BitVec 6} (hq : withId r.id q = x.landed r page now f)
    (hu : (r.unchecked && x.waits) = false) (hc : x.refuses r = some c) : ∀ y ∈ q, y.id ≠ r.id := by
  intro y hy hid
  have hmem : y ∈ withId r.id q := List.mem_filter.2 ⟨hy, beq_iff_eq.2 hid⟩
  rw [hq, Slice.landed, hu, if_neg Bool.false_ne_true, hc, if_neg (Option.some_ne_none c)] at hmem
  cases hmem

end

/-! ## The statement -/

/-- Settles O40, from one lemma per event of a slice: arrivals, walks, rounds, performance points, reserved writes and replies. -/
theorem sliceRequests : Obligations.SliceRequests := by
  intro s n x
  refine ⟨?_, ⟨?_, ?_, ?_⟩, ?_, ?_, ?_, ?_, ?_⟩
  · intro q m r tag f hq hd hb y now train r'
    refine ⟨execSliceRequestArrival_late hq hd hb, fun hl hh hc => ⟨execSliceRequestArrival_wins hq hd hb hl hh hc,
      fun hw => ?_⟩, fun hnone hl => ?_⟩
    · rw [execSliceRequestArrival_contest hq hd hb hl hh hc, hw]
      rfl
    · have hexec := execSliceRequestArrival_alone hq hd hb hl (State.hostAtLink_of_no_access hnone)
      refine ⟨fun h ht => ⟨fun hr => ?_, fun c hw hr => ?_⟩, fun h => ?_⟩
      · obtain ⟨ms, b, hslice⟩ := State.enterSlice_waits (s := s.dropPacket s.arg.a) (n := m) (r := r) h ht hr
        refine ⟨_, hexec, ?_⟩
        rw [hslice]
        exact ⟨rfl, rfl⟩
      · refine ⟨_, hexec, ?_⟩
        rw [State.enterSlice_refused (s := s.dropPacket s.arg.a) (n := m) (r := r) h ht hw hr]
        exact ⟨rfl, rfl, Table.get?_set_self ..⟩
      · obtain ⟨ws, hslice, hj⟩ := State.enterSlice_walks (s := s.dropPacket s.arg.a) (n := m) (r := r) h
        refine ⟨_, hexec, ?_⟩
        rw [hslice]
        exact ⟨rfl, rfl, hj⟩
  · exact execTlbWalkEnd_next
  · exact tlbWalkEnd_refuses
  · intro f hlast hsome hid hroom
    obtain ⟨t, ht, hwalks, htlb, hall⟩ := tlbWalkEnd_lands hlast hsome hid hroom
    exact ⟨t, ht, hwalks, htlb, fun r hr hp => ⟨Slice.landed_stays hp (hall r hr hp),
      fun c => Slice.landed_goes (hall r hr hp)⟩⟩
  · intro r k hq hw hu ha hl hc hc' hwait ht hr hp
    exact execActiveRoundStart_one rfl rfl hq hw hu ha hl hc hc' hwait ht hr hp
  · exact execActiveRoundStart_begins_test
  · exact fun i => execRound_places_nothing
  · intro p hp key old answered
    refine ⟨fun m => slotPerform_read hp, fun b tag => slotPerform_write hp, slotPerform_frozen hp,
      fun op bits b e hk hf => slotPerform_amo hp hk hf rfl, fun c w hk => ⟨slotPerform_contribute_repeated hp hk rfl,
        fun b => slotPerform_contribute_holds hp hk rfl, slotPerform_contribute_refused hp hk rfl⟩,
      reservedWrite_none hp, fun b => reservedWrite_some hp⟩
  · exact fun o => execSliceReply_sends

end Sys2Proof.Machine
end
